-- ==== Sys2Proof/Word.lean ====
section
/-! DEFINITION. Word.lean: the word types of the controller and their plainest arithmetic (00 R5, R7: little-endian,
KiB powers of 1,024, hexadecimal register values). -/

namespace Sys2Proof

/-- A byte of a record, queue entry, image or memory (00, document conventions). -/
abbrev Byte := BitVec 8
/-- A 16-bit field. -/
abbrev Half := BitVec 16
/-- A 32-bit register word (02 R34). -/
abbrev Word := BitVec 32
/-- A 64-bit register pair (02 R34). -/
abbrev DWord := BitVec 64

/-- The `n`-bit field of `v` whose least significant bit is bit `lo`. -/
def field (v lo n : Nat) : Nat := (v >>> lo) % 2 ^ n

/-- `v` with its `n`-bit field at bit `lo` replaced by the low `n` bits of `x`. -/
def setField (v lo n x : Nat) : Nat :=
  v - (field v lo n <<< lo) + ((x % 2 ^ n) <<< lo)

/-- Bit `i` of `v`. -/
def bitOf (v i : Nat) : Bool := v.testBit i

/-- The numeric value of a Boolean field. -/
def b2n (b : Bool) : Nat := if b then 1 else 0

/-- The two's complement value of the low `n` bits of `v`. -/
def toSigned (n v : Nat) : Int :=
  let w := v % 2 ^ n
  if w < 2 ^ (n - 1) then (w : Int) else (w : Int) - (2 : Int) ^ n

/-- The low `n` bits of the two's complement of `x`. -/
def ofSigned (n : Nat) (x : Int) : Nat := (x % ((2 : Int) ^ n)).toNat

/-- `x` clamped to `lo..hi`. -/
def clampInt (lo hi x : Int) : Int := if x < lo then lo else if hi < x then hi else x

/-- `x` saturating at `hi`. -/
def satNat (hi x : Nat) : Nat := if hi < x then hi else x

end Sys2Proof
end

