-- ==== Sys2Proof/Syntax.lean ====
section
/-! DEFINITION. Syntax.lean: the commands that reach the controller, one constructor per row of the command table, and the
operands they carry. A command of the envelope (02 R41) carries the whole envelope; an event carries what the outside world
supplies with it; an engine instruction names its engine and carries its encoded fields (08 R194). -/

namespace Sys2Proof

/-- Who issued a command (02 R44): the host on command queue `q`, or the management link with the role of its frame
(20 R479: 0 none, 1 observer, 2 operator, 3 maintainer). -/
inductive Issuer where
  | host (q : Fin 16)
  | mgmt (role : Fin 4)
  deriving DecidableEq, Repr

/-- The initiators of register accesses (02 R35). -/
inductive Ini where
  | host
  | mgmt
  | engine (e : Fin 40)
  | island
  deriving DecidableEq, Repr

/-- A command envelope without its OPCODE, which the constructor names (02 R41). `args` are bytes 16–63; with EXT set the
argument block read from host memory (or carried in the management frame) is `extData`. -/
structure Cmd where
  issuer : Issuer
  tag : Half := 0
  flags : Byte := 0
  version : Byte := 1
  arglen : Half := 0
  object : Word := 0
  reserved : Word := 0
  args : List Byte := []
  extData : List Byte := []
  deriving DecidableEq, Repr

/-- The source of a pending action (05 R124): a lane, a state machine, or a thread that posted it. -/
inductive ActSrc where
  | lane (n : Fin 16)
  | machine (m : Fin 256)
  | thread (t : Fin 4096)
  deriving DecidableEq, Repr

/-- The tables that the sections of an image spell (03 R60). The manual gives the layout of every entry and not that of the
container around them (log 8), so an image read carries its entries: each is (table number × 2^24 + index, bytes). -/
structure ImageTables where
  banked : List (Nat × List Byte) := []
  fixed : List (Nat × List Byte) := []
  deriving DecidableEq, Repr

/-- Format A of 08 R194: opcode, d, a, b and the function field with its reserved bits. -/
structure FormA where
  d : Fin 32
  a : Fin 32
  b : Fin 32
  fn : BitVec 11
  deriving DecidableEq, Repr

/-- Format I of 08 R194. -/
structure FormI where
  d : Fin 32
  a : Fin 32
  imm : Half
  deriving DecidableEq, Repr

/-- Format B of 08 R194. -/
structure FormB where
  a : Fin 32
  b : Fin 32
  imm : Half
  deriving DecidableEq, Repr

/-- Format J of 08 R194. -/
structure FormJ where
  imm : BitVec 26
  deriving DecidableEq, Repr

/-- A frame on a CAN bus (17 R398, R402, R404): its format (0 classical, 1 FD, 2 XL), identifier, XL fields and data. -/
structure CanFrame where
  format : Fin 3 := 0
  ide : Bool := false
  id : Nat := 0
  rtr : Bool := false
  brs : Bool := false
  esi : Bool := false
  sdt : Byte := 0
  vcid : Byte := 0
  af : Word := 0
  sec : Bool := false
  data : List Byte := []
  deriving DecidableEq, Repr

/-- What the safety island samples at the start of a cycle (18 R426): the two channels of each input, the EDM levels and the
faults that R428 names: the cores disagree, an uncorrectable error in the island's SRAM, an output half read back on while its core
drives it off. -/
structure SafetyInputs where
  a : BitVec 12 := 0
  b : BitVec 12 := 0
  edm : Byte := 0
  coreMismatch : Bool := false
  ecc : Bool := false
  driveOn : Bool := false
  deriving DecidableEq, Repr

/-- The commands of the controller: one constructor per row of the command table, in its order. -/
inductive Instr where
  /-- A low pulse on POR_N that takes effect resets the CP, MP, SI and MI and sends every output pin to its reset state (R72). -/
  | porNAssert (lowNs : Nat)
  /-- The rising edge of POR_N is t0 of a cold start, which enters BOOT and begins the fuse read and NVM discovery (R50). -/
  | porNRelease (refclkOk panelLow testEn : Bool)
  /-- REFCLK becomes valid while BOOT waits for it, and that moment becomes t0 of the cold start (R53). -/
  | refclkValidAtBoot
  /-- At t1 the fuses have been read, and PCIe link training and DDR4 training start (R50). -/
  | fusesRead (readError : Bool)
  /-- At t2 the JESD216 tables and selection records have been read, and the device leaves BOOT for IMAGE_CHECK or fails with reason NVM (R54). -/
  | nvmDiscovered (tablesOk : Bool)
  /-- At t3 the image header is checked for key, format, key hash and rollback, and the streaming read starts (R62). -/
  | headerRead
  /-- At t5 the last image byte has been read and every section CRC is checked (R63). -/
  | imageStreamEnd (tables : ImageTables)
  /-- An unreadable or uncorrectable NVM read fails the slot with reason NVM at the moment it is met (R63). -/
  | nvmReadError
  /-- At t6 the signature is checked, bank A becomes valid and the safety parameters are passed to the SI (R61). -/
  | signatureVerified
  /-- At t7 each output stage takes its INIT value and enters FORCED with reason INIT, and the MP is released from reset (R55). -/
  | outputsInit
  /-- At t9 the engines have loaded and self-tested, and the service threads become WAITING (R50). -/
  | enginesSelfTested (failed : List (Fin 40))
  /-- At t10 the device enters AWAIT_WORLD and SYS.START_US is set (R52). -/
  | awaitWorldEntry
  /-- A release of PANEL_RST_N recognised between 20 ms and 2 s requests a continuity restart and sets SHORT (R73). -/
  | panelShortPress
  /-- PANEL_RST_N held at 2 s requests a safe-stop of all lanes and sets LONG (R73). -/
  | panelLongPress
  /-- PANEL_RST_N held at 10 s is declared stuck and reported, and the input is ignored (R73). -/
  | panelStuck
  /-- A stuck panel input seen released for 100 ms is no longer ignored (R73). -/
  | panelUnstuck
  /-- Completes with DONE and schedules a reset of the CP, MP and SI, unless lanes are active without FORCE (R77). -/
  | sysColdRestart (c : Cmd)
  /-- Within 1 ms of the completion of SYS.COLD_RESTART the CP, MP and SI are reset as by POR_N, and the MI keeps running (R77). -/
  | coldRestartReset
  /-- Abandons every running or held lane's actions, posts SAFE_STOP to its SAFE_SM and enters SAFE_STOP (R76). -/
  | sysSafeStopAll (c : Cmd)
  /-- Returns the device from SAFE_STOP to OPERATIONAL unless a lane is ABORTING, RUNNING or HELD (R76). -/
  | sysResume (c : Cmd)
  /-- Starts writing EXT data into an inactive NVM slot and clears that slot's verified status (R79). -/
  | imgSlotWrite (c : Cmd)
  /-- The NVM slot write ends and its completion is written (R83). -/
  | slotWriteDone (nvmOk : Bool)
  /-- Starts a check of a slot under the image checks (R62). -/
  | imgSlotVerify (c : Cmd)
  /-- The slot check ends, IMG.SLOT[n].STATUS is written and the command completes with BUILD_ID and ROLLBACK or with IMAGE (R85). -/
  | slotVerifyDone (nvmOk : Bool) (tables : ImageTables)
  /-- Writes a selection record that prefers a verified slot, optionally on trial (R79). -/
  | imgSelect (c : Cmd)
  /-- Clears TRIAL and TRIED in the selection record (R79). -/
  | imgConfirm (c : Cmd)
  /-- Checks a slot and starts copying its STAGEABLE sections into the DDR staging region, completing QUEUED (R80). -/
  | imgStage (c : Cmd)
  /-- The staging copy ends ready, or fails with IMAGE or MISMATCH, and the second completion is written (R80). -/
  | stageDone (nvmOk : Bool) (tables : ImageTables)
  /-- Copies the active table bank into the inactive bank and leaves it OPEN (R68). -/
  | imgBankCopy (c : Cmd)
  /-- Writes one banked-table entry into the OPEN inactive bank after its field checks (R528). -/
  | imgBankWrite (c : Cmd)
  /-- Compares the inactive bank's CRC and checks its inter-entry rules, making it CLOSED or leaving it OPEN (R68). -/
  | imgBankClose (c : Cmd)
  /-- Schedules a bank swap at a given time, making the inactive bank SWAP_PENDING (R69). -/
  | imgBankSwap (c : Cmd)
  /-- On the first tick at or after the swap time all CP readers change bank, the epoch increments and the swap completes or is abandoned (R69). -/
  | bankSwap
  /-- Programs the rollback fuses up to a new count no higher than the running image's ROLLBACK (R81). -/
  | imgAdvanceRollback (c : Cmd) (vpp fuseOk : Bool)
  /-- Programs the SHA-384 key hash into blank key fuses in IMAGE_CHECK with reason NO_KEY (R81). -/
  | imgFuseKey (c : Cmd) (vpp fuseOk : Bool)
  /-- Accepts a world declaration and starts its consistency check on a service engine (R94). -/
  | wldDeclare (c : Cmd)
  /-- The check of a declaration ends, and an accepted declaration takes effect on one tick with a new generation and a WORLD_CHANGE record (R95). -/
  | declarationApply
  /-- Writes the report entries of the last declaration into host memory (R96). -/
  | wldReport (c : Cmd)
  /-- Writes the world in force as a declaration document into host memory (R104). -/
  | wldRead (c : Cmd)
  /-- Makes a declared spare take over from a node (R99). -/
  | wldReplace (c : Cmd)
  /-- Makes a retired node the spare of the node now acting for it (R100). -/
  | wldRestore (c : Cmd)
  /-- At a 1 ms check a node whose heartbeat timeout has passed enters DEAD (R413). -/
  | nodeDead (bus : Fin 8) (node : Fin 256)
  /-- Starts validation of a recipe for a lane on a service engine (R135). -/
  | seqLoad (c : Cmd)
  /-- Starts validation of a recipe in either bank without changing any lane (R135). -/
  | seqValidate (c : Cmd)
  /-- Recipe validation ends, and the load or validate command completes with its first failure or with DONE (R135). -/
  | validationDone (lane : Fin 16)
  /-- Unloads the recipe of a LOADED lane (R137). -/
  | seqUnload (c : Cmd)
  /-- Starts the lane's recipe at a given step and time and increments its run number (R137). -/
  | seqStart (c : Cmd)
  /-- The start time of SEQ.START is reached and step 0 is presented as if it ended a held wait (R137). -/
  | startTimeReached (lane : Fin 16)
  /-- Requests a host hold of the lane's next step, or of the step after if the decision tick has passed (R120). -/
  | seqHold (c : Cmd)
  /-- Clears the hold reason HOST and any pending hold request (R120). -/
  | seqRelease (c : Cmd)
  /-- Abandons the lane's actions, posts SAFE_STOP to its SAFE_SM and makes it ABORTING (R134). -/
  | seqAbort (c : Cmd)
  /-- Unloads the recipe of a SAFE or FAULTED lane and returns it to IDLE (R137). -/
  | seqClear (c : Cmd)
  /-- Queues an event for a state machine (R133). -/
  | seqSmPost (c : Cmd)
  /-- 200 µs before T_end the lane presents the next step's claims to the ledger (R115). -/
  | claimPresentation (lane : Fin 16)
  /-- At T_end − 4 µs the lane evaluates the start conditions and places the next step's actions or decides to hold (R115). -/
  | decisionTick (lane : Fin 16)
  /-- At T_end a DURATION step ends, its non-CARRY actions are abandoned and the next step starts or the lane becomes HELD (R115). -/
  | stepEnd (lane : Fin 16)
  /-- A 4 µs evaluation of a CONDITION step's comparison ends the step when true (R117). -/
  | conditionEvaluation (lane : Fin 16)
  /-- A lane receives a lane event, which ends an EVENT step waiting for it or starts actions based on it (R117). -/
  | laneEvent (lane : Fin 16) (code : Byte)
  /-- A CONDITION or EVENT step's TIMEOUT expires and the step ends normally or takes its fault path (R117). -/
  | stepTimeout (lane : Fin 16)
  /-- The hold tolerance reaches HOLD_TOL and the waiting step's fault path is taken with cause TOLERANCE (R118). -/
  | holdToleranceExpiry (lane : Fin 16)
  /-- A held step starts at T_ready + 4 µs, its claims are committed and its actions placed (R115). -/
  | stepStart (lane : Fin 16)
  /-- SAFE_SM has not reached a SAFE state within SAFE_TIMEOUT and the lane becomes FAULTED (R134). -/
  | safeTimeoutExpiry (lane : Fin 16)
  /-- A SET action writes a value to a loop variable, output stage or bus field on its tick (R123). -/
  | actSet (src : ActSrc) (idx : Nat)
  /-- A RAMP action takes a ramp generator and starts ramping its target to the end value (R123). -/
  | actRamp (src : ActSrc) (idx : Nat)
  /-- Every 4 µs a ramp generator updates its target through its curve (R183). -/
  | rampUpdate (target : Nat)
  /-- A ramp's elapsed time reaches its duration and the target takes the end value (R183). -/
  | rampEnd (target : Nat)
  /-- A DISCRETE action changes a DIO line or bus bit field, or starts a pulse, after the interlock check (R123). -/
  | actDiscrete (src : ActSrc) (idx : Nat)
  /-- A DISCRETE pulse ends and the line returns to its earlier level, subject to ENFORCE rules (R123). -/
  | pulseEnd (target : Nat)
  /-- A MOVE action commands an axis or interpolation group (R379). -/
  | actMove (src : ActSrc) (idx : Nat)
  /-- An OBJ_WRITE action writes data into a transmit object or bus field and optionally triggers transmission (R123). -/
  | actObjWrite (src : ActSrc) (idx : Nat)
  /-- A LOOP action enables or disables a loop (R167). -/
  | actLoop (src : ActSrc) (idx : Nat)
  /-- An ARM action arms or disarms a take as ACQ.ARM does (R345). -/
  | actArm (src : ActSrc) (idx : Nat)
  /-- An SM_POST action queues an event for a state machine (R123). -/
  | actSmPost (src : ActSrc) (idx : Nat)
  /-- A CLAIM action decreases a claim at once or has an increase considered at the next ledger update (R148). -/
  | actClaim (src : ActSrc) (idx : Nat)
  /-- Every 4 µs ENFORCE rules are evaluated and an unsatisfied target is forced to SAFE_LEVEL (R131). -/
  | enforceEvaluation
  /-- In each 4 µs cycle a state machine takes at most one transition on its oldest event or a guard-only transition (R133). -/
  | smCycle (machine : Fin 256)
  /-- A state's timeout expires and the machine enters TIMEOUT_STATE (R133). -/
  | smStateTimeout (machine : Fin 256)
  /-- Every 100 µs the ledger measures, sheds, restores, admits and publishes grants (R145). -/
  | ledgerUpdate
  /-- A resource's measured power has exceeded capacity for 502 consecutive updates and it enters SHEDDING (R152). -/
  | measuredTrigger (res : Fin 12)
  /-- A shed rank's conditions have held for RESTORE_MS and its limits are removed (R155). -/
  | rankRestore (res : Fin 12)
  /-- Sets or lifts a temporary capacity limit on a feed or circuit after a service-engine check (R159). -/
  | lgrCapacity (c : Cmd)
  /-- Writes the ledger report into host memory (R159). -/
  | lgrReport (c : Cmd)
  /-- Removes all shed limits of a resource at the next update if the restore condition holds (R155). -/
  | lgrRestore (c : Cmd)
  /-- A stage's plan becomes older than FRESH × 4 µs and the stage enters COASTING (R176). -/
  | freshExpiry (stage : Fin 1024)
  /-- A plan expires with no fresh write and the stage applies its stale policy (R178). -/
  | planExpiry (stage : Fin 1024)
  /-- Writes a value with a plan of pointer 0 to a direct output stage after the interlock check (R184). -/
  | hostOutSet (c : Cmd)
  /-- Adds HOST to a stage's forcing reasons with a given value, or to a whole group (R184). -/
  | outForce (c : Cmd)
  /-- Removes the forcing reason HOST from a stage or group (R184). -/
  | outRelease (c : Cmd)
  /-- Enables or disables a loop (R167). -/
  | outLoop (c : Cmd)
  /-- Adds two registers (R195). -/
  | insAdd (e : Fin 40) (f : FormA)
  /-- Subtracts two registers (R195). -/
  | insSub (e : Fin 40) (f : FormA)
  /-- Bitwise AND of two registers (R195). -/
  | insAnd (e : Fin 40) (f : FormA)
  /-- Bitwise OR of two registers (R195). -/
  | insOr (e : Fin 40) (f : FormA)
  /-- Bitwise XOR of two registers (R195). -/
  | insXor (e : Fin 40) (f : FormA)
  /-- Shifts left by a register amount (R195). -/
  | insShl (e : Fin 40) (f : FormA)
  /-- Shifts right with zeros by a register amount (R195). -/
  | insShru (e : Fin 40) (f : FormA)
  /-- Shifts right with sign copies by a register amount (R195). -/
  | insShrs (e : Fin 40) (f : FormA)
  /-- Sets 1 if the first register is less than the second, signed (R195). -/
  | insCmplt (e : Fin 40) (f : FormA)
  /-- Sets 1 if the first register is less than the second, unsigned (R195). -/
  | insCmpltu (e : Fin 40) (f : FormA)
  /-- Signed minimum of two registers (R195). -/
  | insMin (e : Fin 40) (f : FormA)
  /-- Signed maximum of two registers (R195). -/
  | insMax (e : Fin 40) (f : FormA)
  /-- Low word of the 64-bit product (R195). -/
  | insMul (e : Fin 40) (f : FormA)
  /-- Signed high word of the 64-bit product (R195). -/
  | insMulhi (e : Fin 40) (f : FormA)
  /-- Unsigned high word of the 64-bit product (R195). -/
  | insMulhiu (e : Fin 40) (f : FormA)
  /-- Signed quotient, saturating on division by zero or overflow (R196). -/
  | insDivs (e : Fin 40) (f : FormA)
  /-- Unsigned quotient, saturating on division by zero (R196). -/
  | insDivu (e : Fin 40) (f : FormA)
  /-- Signed remainder (R196). -/
  | insMods (e : Fin 40) (f : FormA)
  /-- Unsigned remainder (R196). -/
  | insModu (e : Fin 40) (f : FormA)
  /-- Shifts left by the b field (R195). -/
  | insShlk (e : Fin 40) (f : FormA)
  /-- Shifts right with zeros by the b field (R195). -/
  | insShruk (e : Fin 40) (f : FormA)
  /-- Shifts right with sign copies by the b field (R195). -/
  | insShrsk (e : Fin 40) (f : FormA)
  /-- Adds a sign-extended immediate (R195). -/
  | insAddk (e : Fin 40) (f : FormI)
  /-- Sets 1 if a register is less than a signed immediate (R195). -/
  | insCmpltk (e : Fin 40) (f : FormI)
  /-- ANDs a zero-extended immediate (R195). -/
  | insAndk (e : Fin 40) (f : FormI)
  /-- ORs a zero-extended immediate (R195). -/
  | insOrk (e : Fin 40) (f : FormI)
  /-- XORs a zero-extended immediate (R195). -/
  | insXork (e : Fin 40) (f : FormI)
  /-- Loads an immediate into the high half of a register (R195). -/
  | insHik (e : Fin 40) (f : FormI)
  /-- binary32 addition (R195). -/
  | insFadd (e : Fin 40) (f : FormA)
  /-- binary32 subtraction (R195). -/
  | insFsub (e : Fin 40) (f : FormA)
  /-- binary32 multiplication (R195). -/
  | insFmul (e : Fin 40) (f : FormA)
  /-- binary32 division (R195). -/
  | insFdiv (e : Fin 40) (f : FormA)
  /-- binary32 square root (R195). -/
  | insFsqrt (e : Fin 40) (f : FormA)
  /-- binary32 minimum, a NaN yielding the other operand (R195). -/
  | insFmin (e : Fin 40) (f : FormA)
  /-- binary32 maximum, a NaN yielding the other operand (R195). -/
  | insFmax (e : Fin 40) (f : FormA)
  /-- Fused binary32 multiply-accumulate (R195). -/
  | insFmac (e : Fin 40) (f : FormA)
  /-- Clears the sign of a binary32 value (R195). -/
  | insFabs (e : Fin 40) (f : FormA)
  /-- Inverts the sign of a binary32 value (R195). -/
  | insFneg (e : Fin 40) (f : FormA)
  /-- binary32 equality comparison (R195). -/
  | insFcmpeq (e : Fin 40) (f : FormA)
  /-- binary32 less-than comparison (R195). -/
  | insFcmplt (e : Fin 40) (f : FormA)
  /-- binary32 less-or-equal comparison (R195). -/
  | insFcmple (e : Fin 40) (f : FormA)
  /-- Converts int32 to binary32 (R195). -/
  | insItof (e : Fin 40) (f : FormA)
  /-- Converts binary32 to int32, rounding to nearest even and saturating (R195). -/
  | insFtoi (e : Fin 40) (f : FormA)
  /-- Loads a word (R195). -/
  | insLdw (e : Fin 40) (f : FormI)
  /-- Loads a sign-extended half word (R195). -/
  | insLdh (e : Fin 40) (f : FormI)
  /-- Loads a zero-extended half word (R195). -/
  | insLdhu (e : Fin 40) (f : FormI)
  /-- Loads a sign-extended byte (R195). -/
  | insLdb (e : Fin 40) (f : FormI)
  /-- Loads a zero-extended byte (R195). -/
  | insLdbu (e : Fin 40) (f : FormI)
  /-- Loads a 64-bit pair from one cycle (R195). -/
  | insLdp (e : Fin 40) (f : FormI)
  /-- Stores a word (R195). -/
  | insStw (e : Fin 40) (f : FormI)
  /-- Stores a half word (R195). -/
  | insSth (e : Fin 40) (f : FormI)
  /-- Stores a byte (R195). -/
  | insStb (e : Fin 40) (f : FormI)
  /-- Stores a 64-bit pair in one cycle (R195). -/
  | insStp (e : Fin 40) (f : FormI)
  /-- Atomic add on a work-region word (R208). -/
  | insAmoAdd (e : Fin 40) (f : FormA)
  /-- Atomic swap on a work-region word (R208). -/
  | insAmoSwp (e : Fin 40) (f : FormA)
  /-- Atomic compare-and-swap on a work-region word (R208). -/
  | insAmoCas (e : Fin 40) (f : FormA)
  /-- Waits until every earlier shared-SRAM store is visible to all engines (R207). -/
  | insFence (e : Fin 40) (f : FormA)
  /-- Branches if two registers are equal (R195). -/
  | insBreq (e : Fin 40) (f : FormB)
  /-- Branches if two registers differ (R195). -/
  | insBrne (e : Fin 40) (f : FormB)
  /-- Branches if less, signed (R195). -/
  | insBrlt (e : Fin 40) (f : FormB)
  /-- Branches if greater or equal, signed (R195). -/
  | insBrge (e : Fin 40) (f : FormB)
  /-- Branches if less, unsigned (R195). -/
  | insBrltu (e : Fin 40) (f : FormB)
  /-- Branches if greater or equal, unsigned (R195). -/
  | insBrgeu (e : Fin 40) (f : FormB)
  /-- Writes the return address to v31 and jumps (R195). -/
  | insCall (e : Fin 40) (f : FormJ)
  /-- Jumps to a register address and links (R195). -/
  | insJmpr (e : Fin 40) (f : FormI)
  /-- Reads a control word, latching the high half for _LO words (R193). -/
  | insCwr (e : Fin 40) (f : FormI)
  /-- Writes a writable control word (R193). -/
  | insCww (e : Fin 40) (f : FormI)
  /-- Raises the trap KCALL with its immediate (R195). -/
  | insKcall (e : Fin 40) (f : FormI)
  /-- Returns from a trap handler through the trap record (R210). -/
  | insTret (e : Fin 40) (f : FormJ)
  /-- Ends the activation without commit (R211). -/
  | insAbort (e : Fin 40) (f : FormJ)
  /-- Reads a signal's cached value, flags and time (R198). -/
  | insSigLd (e : Fin 40) (f : FormI)
  /-- Stages a store to a writable signal (R201). -/
  | insSigSt (e : Fin 40) (f : FormI)
  /-- Snapshots and consumes a receive object, or reads a word of the snapshot (R199). -/
  | insObjLd (e : Fin 40) (f : FormI)
  /-- Stages an output write with a copy of its plan (R200). -/
  | insOutSet (e : Fin 40) (f : FormA)
  /-- Evaluates a curve at a value (R182). -/
  | insCurve (e : Fin 40) (f : FormA)
  /-- Stages a non-idempotent post of a given kind (R202). -/
  | insPost (e : Fin 40) (f : FormI)
  /-- Stages a word into the thread's cairn (R201). -/
  | insCairnW (e : Fin 40) (f : FormI)
  /-- Ends the activation and presents its commit to the continuity partition (R204). -/
  | insDone (e : Fin 40) (f : FormJ)
  /-- A commit is decided once: staged cairn, outputs, stores and posts take effect together or are discarded as stale or repeated, and the engine is freed (R255). -/
  | commitComplete (e : Fin 40)
  /-- cw.BUDGET reaches 0 and the activation is aborted with reason BUDGET (R212). -/
  | budgetExpiry (e : Fin 40)
  /-- Writes a thread's new slot into the shared-SRAM image region and starts copying it to each engine that holds the set (R217). -/
  | engCodeSwap (c : Cmd)
  /-- The thread is at an activation boundary on an engine, its slot is copied into that I-RAM, and the swap completes when every copy is in place (R217). -/
  | codeSwapCopy (e : Fin 40)
  /-- A READY, unheld thread is placed on an idle eligible engine or preempts a less urgent activation (R229). -/
  | dispatch (thread : Fin 4096) (e : Fin 40)
  /-- MIN_INTERVAL since a thread's previous dispatch has passed and the held READY thread is offered for dispatch (R228). -/
  | minIntervalEnd (thread : Fin 4096)
  /-- Enables a non-loop thread (R224). -/
  | dspEnable (c : Cmd)
  /-- Disables a non-loop thread, at once or at the end of its activation (R224). -/
  | dspDisable (c : Cmd)
  /-- Suspends a thread with cause HOST, at once or at the end of its activation (R224). -/
  | dspSuspend (c : Cmd)
  /-- Returns a thread suspended by HOST or ABORTS to READY or WAITING (R224). -/
  | dspResume (c : Cmd)
  /-- Decrements a WAITING thread's counter within 1 µs, or completes ABANDONED (R225). -/
  | dspKick (c : Cmd)
  /-- The two cores of an engine disagree and an engine fault is detected (R242). -/
  | lockstepMismatch (e : Fin 40)
  /-- An uncorrectable error in an engine's I-RAM or D-RAM is an engine fault (R242). -/
  | eccUncorrectable (e : Fin 40)
  /-- Ten consecutive missed heartbeats make an engine silent and faulted (R243). -/
  | heartbeatTimeout (e : Fin 40)
  /-- A fenced engine's code set has been copied into the stand-in, which takes the role and the suspended threads resume (R247). -/
  | standinLoadDone (e : Fin 40)
  /-- An engine fenced for HEARTBEAT gives a heartbeat and is put in QUARANTINED (R253). -/
  | aliveAfterDeath (e : Fin 40)
  /-- Begins a continuity restart, entering CONTINUITY_RESTART and suspending threads (R256). -/
  | cntRestart (c : Cmd)
  /-- At t0 + 1 ms unfinished activations are abandoned and every engine's epoch increments (R258). -/
  | quiesceEnd
  /-- At t2 the MP is reset and D-RAM cleared (R257). -/
  | restartReset
  /-- At t3 the image region is verified by CRC, staged sections installed, or the region reloaded from NVM (R260). -/
  | imageRegionVerified (ok : Bool)
  /-- At t4 reset is released and engines self-tested, failures being fenced (R261). -/
  | restartSelftestDone (failed : List (Fin 40))
  /-- At t5 code sets are loaded into I-RAM, with stand-ins for fenced engines (R257). -/
  | codeSetsLoaded
  /-- At t6 service firmware is initialised and service threads are WAITING (R257). -/
  | serviceInitDone
  /-- At t7 a pending code swap completes and control threads take their restored states (R259). -/
  | threadsRestored
  /-- At t8 dispatch resumes, the device returns to its state, and held commands proceed (R257). -/
  | dispatchResume
  /-- Resets a fenced or quarantined engine and starts its self-test (R254). -/
  | cntRelease (c : Cmd)
  /-- A released engine's self-test ends and it enters STANDIN or stays FENCED (R254). -/
  | releaseSelftestDone (e : Fin 40) (passed : Bool)
  /-- Injects a LOCKSTEP or HEARTBEAT fault into an engine (R269). -/
  | cntInject (c : Cmd)
  /-- An injected heartbeat silence ends after 12 µs and the engine speaks again (R269). -/
  | injectSilenceEnd (e : Fin 40)
  /-- The open reel segment closes when a record does not fit, FLUSH_US passes or the timebase steps (R282). -/
  | segmentClose
  /-- An ACTIVE port sends a closed segment as UDP datagrams (R284). -/
  | segmentSend (port : Fin 2)
  /-- An ACTIVE record port has lost block lock or signalled a fault for 1 ms and becomes DOWN (R285). -/
  | portDown (port : Fin 2)
  /-- A spare or the other primary port takes over egress, rewinding by REWIND_US, or NO_PATH is set (R285). -/
  | pathFailover (port : Fin 2)
  /-- A failed record port's link returns and it becomes SPARE (R285). -/
  | portLinkUp (port : Fin 2)
  /-- Sets a record port's destination (R284). -/
  | recDest (c : Cmd)
  /-- Changes a source's record filter and writes a FILTER_CHANGE record (R279). -/
  | recFilter (c : Cmd)
  /-- Sets or clears a binding of a host record queue (R286). -/
  | recQueueBind (c : Cmd)
  /-- Starts resending held segments on a port (R288). -/
  | recReplay (c : Cmd)
  /-- A replay ends DONE or ABANDONED on overwrite or link loss (R288). -/
  | replayEnd (port : Fin 2)
  /-- Sets FLUSH_US and REWIND_US (R288). -/
  | recConfig (c : Cmd)
  /-- A low-word write of TB.SAMPLE delivers a PTP offset sample to the servo (R295). -/
  | tbSampleWrite (ini : Ini) (lo : Word)
  /-- A rising edge of PPS_IN is stamped and its offset to the whole second feeds the servo (R294). -/
  | ppsEdge
  /-- A sample's slew interval ends and SLEW returns to 0 (R295). -/
  | slewEnd
  /-- No sample for HOLDOVER_MS puts the timebase in HOLDOVER (R293). -/
  | holdoverTimeout
  /-- A received PTP event message is stamped and passed to the service engines (R299). -/
  | ptpMessageRx (port : Fin 2) (msg : List Byte)
  /-- A sent PTP event message's egress stamp enters the port's transmit time-stamp queue or is dropped (R299). -/
  | ptpMessageTx (port : Fin 2) (kind : Nat) (seqId : Nat)
  /-- A write of TB.PORT[p].TXTS_POP removes the head of the transmit time-stamp queue (R299). -/
  | txtsPop (ini : Ini) (port : Fin 2) (v : Word)
  /-- A TOUT pin's programmed edge falls due (R301). -/
  | toutEdge (pin : Fin 8)
  /-- A selected TIN edge is stamped, becomes the pin's value and a completion, and is recorded (R302). -/
  | tinEdge (pin : Fin 8) (rising : Bool)
  /-- Selects the timebase source (R294). -/
  | tbSource (c : Cmd)
  /-- Steps the timebase to a given time (R304). -/
  | tbSet (c : Cmd)
  /-- Slews the timebase by a correction at SLEW_MAX (R304). -/
  | tbAdjust (c : Cmd)
  /-- Programs a TOUT pin's mode, start, period and width (R301). -/
  | tbTout (c : Cmd)
  /-- Selects the edges a TIN pin stamps (R302). -/
  | tbTin (c : Cmd)
  /-- A SAR conversion ends, its tagged result updates the cache, queue and recorder tap and fires completions (R311). -/
  | sarConversionEnd (conv : Fin 6) (code : Int)
  /-- An inserted discharge slot of a converter ends (R314). -/
  | dischargeSlot (conv : Fin 6)
  /-- A write of ANA.CONV[c].URGENT requests an urgent conversion (R312). -/
  | anaConvUrgent (ini : Ini) (conv : Fin 6) (v : Word)
  /-- A write of 1 to ANA.CONV[c].Q_POP removes the head of the converter queue (R311). -/
  | qPop (ini : Ini) (conv : Fin 6) (v : Word)
  /-- A bridge channel's filter output produces a result and a completion (R315). -/
  | bridgeOutput (ch : Fin 8) (code : Int) (excMv : Nat)
  /-- Four output periods after a clamp, enable or change the bridge settling time ends (R316). -/
  | settlingEnd (ch : Fin 8)
  /-- A DAC load exceeds the short-circuit limit and the overload is flagged (R321). -/
  | dacOverload (dac : Fin 32)
  /-- Changes an input's range, scan and queue settings (R309). -/
  | anaConfig (c : Cmd)
  /-- Requests an urgent conversion of an input (R312). -/
  | anaUrgent (c : Cmd)
  /-- Changes a bridge channel's rate, full scale, excitation or enable (R316). -/
  | anaBridge (c : Cmd)
  /-- Changes a window comparator's settings (R323). -/
  | anaWindow (c : Cmd)
  /-- Stages a new sealed curve awaiting confirmation (R319). -/
  | anaCalStage (c : Cmd)
  /-- Confirms a staged sealed curve by its CRC-32 from the management link (R319). -/
  | anaCalConfirm (c : Cmd)
  /-- After the MI's NVM write the new curve and count apply on one tick and the stage completes DONE (R319). -/
  | calApply
  /-- No matching confirmation within 60 s and the stage completes ABANDONED (R319). -/
  | calConfirmTimeout
  /-- A fast channel closes a FAST_BLOCK every BLOCK samples, a completion of its SID (R329). -/
  | fastBlockClose (ch : Fin 8)
  /-- A fast-channel comparator output asserts, driving its trip source (R332). -/
  | fchComparatorAssert (ch : Fin 8)
  /-- A fast-channel comparator output releases past its hysteresis (R331). -/
  | fchComparatorRelease (ch : Fin 8)
  /-- The timebase reaches a TIME take's trigger time (R338). -/
  | timeTrigger (ch : Fin 8)
  /-- A take has written POST samples and is complete, and the next take is armed (R339). -/
  | takeComplete (ch : Fin 8)
  /-- Hand-off of a completed take to the reel starts (R344). -/
  | handoffStart (take : Fin 4096)
  /-- A take's hand-off ends, its SID completes and AUTO_REARM takes rejoin the queue (R344). -/
  | handoffEnd (take : Fin 4096)
  /-- A channel's trigger hold-off ends (R340). -/
  | holdoffEnd (ch : Fin 8)
  /-- Rewrites an IDLE take's descriptor (R334). -/
  | acqTake (c : Cmd)
  /-- Arms or disarms a take (R337). -/
  | acqArm (c : Cmd)
  /-- Fires the channel's ARMED take by command (R338). -/
  | acqTrigger (c : Cmd)
  /-- Changes a fast-channel comparator's settings (R333). -/
  | acqCompare (c : Cmd)
  /-- Enables or disables a fast channel and sets BLOCK (R329). -/
  | acqChannel (c : Cmd)
  /-- At a pair's update point shadows transfer, and tripped or restarting pairs resume where allowed (R351). -/
  | updatePoint (pair : Fin 48)
  /-- PHASE ticks after its master's boundary a synchronised pair restarts its counter (R358). -/
  | syncRestart (pair : Fin 48)
  /-- A slow-PWM edge waiting for a zero-crossing finds none within 20 ms and is placed at the limit (R357). -/
  | zcTimeout (pair : Fin 48)
  /-- A write of 1 to PWM.PAIR[n].COMMIT commits the pair's shadows (R352). -/
  | pwmCommit (ini : Ini) (pair : Fin 48) (v : Word)
  /-- A write of PWM.COMMIT_MASK commits several pairs together (R352). -/
  | commitMaskWrite (ini : Ini) (lo : Word)
  /-- A write of a pair's duty shadow, discarded on a bound pair (R355). -/
  | dutyShWrite (ini : Ini) (pair : Fin 48) (v : Word)
  /-- A TRIP pin changes level on the asynchronous path of FILTER 0 (R362). -/
  | tripPinEdge (pin : Fin 16) (level : Bool) (widthNs : Nat)
  /-- A filtered TRIP pin has been sampled asserted or deasserted on k consecutive ticks and changes its active state (R362). -/
  | tripFilterCount (pin : Fin 16) (level : Bool)
  /-- A blanking window ends and a still-active source fires (R364). -/
  | blankWindowEnd (src : Fin 64)
  /-- Configures a pair's mode, period, duty, dead time and synchronisation (R349). -/
  | pwmConfig (c : Cmd)
  /-- Stops a pair at its next period boundary (R370). -/
  | pwmStop (c : Cmd)
  /-- Sets SWAP and INVERT on a pair (R356). -/
  | pwmOverride (c : Cmd)
  /-- Clears a latched, inactive trip source and releases its targets (R366). -/
  | trpClear (c : Cmd)
  /-- Changes a trip source's configuration (R369). -/
  | trpConfig (c : Cmd)
  /-- Asserts or deasserts a SOFT trip source (R369). -/
  | trpAssert (c : Cmd)
  /-- An axis decelerating to rest reaches V_STOP and the move ends on its target (R377). -/
  | axisAtTarget (axis : Fin 64)
  /-- Under PLAN, DIR_SETUP ticks after stopping the axis reverses and runs a fresh profile (R380). -/
  | reversal (axis : Fin 64)
  /-- At a whole full step the generator withholds steps and sends the new resolution template (R384). -/
  | resolutionSwitch (axis : Fin 64)
  /-- A driver-control-port frame ends and its MISO bits are stored and checked for driver faults (R392). -/
  | dcpFrameEnd (port : Fin 8) (miso : Nat)
  /-- An axis at rest for STANDSTILL_DELAY is sent its standstill template (R385). -/
  | standstillDelayExpiry (axis : Fin 64)
  /-- Commanded and measured positions differ beyond DEV_WINDOW for DEV_TIME and DEV_ACTION applies (R391). -/
  | deviation (axis : Fin 64)
  /-- A rising Z edge latches the encoder count in INDEX (R390). -/
  | encoderIndex (axis : Fin 64)
  /-- Every SSI_PERIOD an SSI frame is read and converted to the measured position (R390). -/
  | ssiFrame (axis : Fin 64) (ready : Bool) (raw : Nat)
  /-- Every REC_PERIOD an axis writes a MOTION record (R394). -/
  | motionRecord (axis : Fin 64)
  /-- Commands an axis or group move by host command (R379). -/
  | motMove (c : Cmd)
  /-- Enables or disables an axis (R396). -/
  | motEnable (c : Cmd)
  /-- Rewrites an axis profile set (R376). -/
  | motProfile (c : Cmd)
  /-- Sets the commanded and measured positions together (R395). -/
  | motSetPosition (c : Cmd)
  /-- Sets an axis's virtual limits (R395). -/
  | motLimits (c : Cmd)
  /-- Writes a point of an interpolation group's point table (R393). -/
  | motPoint (c : Cmd)
  /-- A received CAN frame is stored in one receive object, its fields extracted, and it is a node heartbeat, or it is refused and counted (R404). -/
  | canFrameReceived (ctl : Fin 8) (fr : CanFrame)
  /-- The highest-priority PENDING transmit object drives start-of-frame and becomes COMMITTED (R409). -/
  | startOfFrame (ctl : Fin 8)
  /-- A transmitted frame completes and its object becomes SENT or PENDING again on RESEND (R409). -/
  | canFrameSent (ctl : Fin 8)
  /-- A lost arbitration or detected error returns the object to PENDING and updates the error counters (R411). -/
  | canError (ctl : Fin 8) (arbitration : Bool) (cause : Fin 6)
  /-- 128 occurrences of 11 recessive bits end bus-off recovery (R411). -/
  | busOffRecoveryEnd (ctl : Fin 8)
  /-- A cyclic transmit object's period triggers it (R407). -/
  | cyclicPeriod (ctl : Fin 8) (obj : Fin 512)
  /-- A rate-detection candidate's DWELL expires and the next candidate is tried (R401). -/
  | detectDwellEnd (ctl : Fin 8)
  /-- Rate detection reaches TIMEOUT without a result and completes ABANDONED (R401). -/
  | detectTimeout (ctl : Fin 8)
  /-- Sets a controller's mode and timing set (R399). -/
  | canMode (c : Cmd)
  /-- Starts listen-only bit-rate detection (R401). -/
  | canDetect (c : Cmd)
  /-- Starts bus-off recovery under HOLD (R411). -/
  | canRecover (c : Cmd)
  /-- Writes data into a transmit object and optionally triggers it (R408). -/
  | canTx (c : Cmd)
  /-- Cancels a transmit object's transmission (R410). -/
  | canCancel (c : Cmd)
  /-- A read of CAN.RXO[k].SNAP returns and consumes the object's status and copies its data to the host snapshot (R405). -/
  | canRxoSnapRead (ini : Ini) (k : Fin 4096)
  /-- An AUTO serial entry falls due and its transaction starts or waits (R417). -/
  | serEntryDue (port : Fin 4) (entry : Nat)
  /-- The last stop bit of a serial request ends and the response timer starts (R417). -/
  | serRequestSent (port : Fin 4)
  /-- A received serial message ends at END, GAP or MAX_LEN and is checked, parsed or matched to LISTEN entries (R417). -/
  | serMessageEnd (port : Fin 4) (msg : List Byte) (framing : Bool)
  /-- A POLL response does not end within RESP_TIMEOUT (R417). -/
  | respTimeout (port : Fin 4)
  /-- TURN bit times after a message the port may transmit again, repeating a failed request (R415). -/
  | serTurnEnd (port : Fin 4)
  /-- Switches a serial port on or off (R423). -/
  | serMode (c : Cmd)
  /-- Queues a transaction of a serial entry (R417). -/
  | serTrigger (c : Cmd)
  /-- Queues the sending of given bytes (R417). -/
  | serSend (c : Cmd)
  /-- A filtered DIO input edge changes the line's signal and is recorded (R420). -/
  | dioEdge (line : Fin 192) (level : Bool)
  /-- 4 µs after a line's previous record the merged edges are written as one record (R420). -/
  | dioEdgeMergeEnd (line : Fin 192)
  /-- A bank's sensed supply differs from its declaration and its lines keep their reset state (R419). -/
  | dioBankMismatch (bank : Fin 12)
  /-- Every 500 µs the island samples inputs, evaluates functions, drives outputs and compares its cores (R426). -/
  | safetyCycle (inp : SafetyInputs)
  /-- The island's start-up self-test passes into AWAIT_PARAMS (R427). -/
  | siSelfTestEnd (passed : Bool)
  /-- The parameter set passes its check and the island enters RUN with every function in AWAIT_RESET (R427). -/
  | siParamsAccepted
  /-- Every 10 s the island tests each core and the comparator (R428). -/
  | periodicSelfTest (passed : Bool)
  /-- The island's own oscillator fails its monitor (R428). -/
  | siClockFail
  /-- A copy of a safe message is seen on a CAN6 or CAN7 tap and checked (R437). -/
  | safeCopyReceived (net : Fin 2) (fr : CanFrame)
  /-- A copy's partner has not arrived within SKEW and the connection enters GRACE or discards it (R438). -/
  | skewExpiry (conn : Fin 16)
  /-- No pair or grace copy is accepted for TIMEOUT and the connection becomes LOST (R438). -/
  | connectionTimeout (conn : Fin 16)
  /-- GRACE runs out without a pair and the connection becomes LOST (R438). -/
  | graceExpiry (conn : Fin 16)
  /-- Input channels still disagree after DISCREPANCY and the input becomes FAULT (R432). -/
  | discrepancyExpiry (inp : Fin 12)
  /-- A counted press of a RESET input releases or is refused for a function in AWAIT_RESET (R442). -/
  | resetPress (inp : Fin 12)
  /-- A category 1 function reaches DELAY and enters STOPPED (R441). -/
  | stopDelayExpiry (fn : Fin 16)
  /-- An energised safety output's channel is switched off for TEST_WIDTH and read back (R433). -/
  | testPulse (out : Fin 4) (readBackOk : Bool)
  /-- EDM has not reached its expected level within EDM_TIME and the output faults (R434). -/
  | edmTimeExpiry (out : Fin 4)
  /-- Once a second each side of a released brake is switched off for 300 µs and read back (R445). -/
  | brakeTestPulse (brake : Fin 4) (readBackOk : Bool)
  /-- A REQ_ID frame on CAN6 starts a brake test or is refused ABORTED (R446). -/
  | brakeTestRequest (brake : Fin 4) (fr : CanFrame)
  /-- After APPLY_MS the brake test window opens (R446). -/
  | applyMsExpiry (brake : Fin 4)
  /-- The brake test window ends PASS or FAIL (R446). -/
  | testWindowEnd (brake : Fin 4)
  /-- A brake's last PASS is older than INTERVAL and its grace starts (R447). -/
  | brakeOverdue (brake : Fin 4)
  /-- GRACE_H expires and the brake is locked out (R447). -/
  | brakeGraceExpiry (brake : Fin 4)
  /-- Stages a changed safety parameter set awaiting confirmation (R449). -/
  | safParamStage (c : Cmd)
  /-- Confirms a staged parameter set by its CRC-32 (R449). -/
  | safParamConfirm (c : Cmd)
  /-- After the MI's NVM write the island checks the set and applies it at the next cycle boundary (R449). -/
  | safParamApply
  /-- No matching confirmation within 60 s and the stage completes ABANDONED (R449). -/
  | paramConfirmTimeout
  /-- Writes the parameter set in force into host memory (R454). -/
  | safParamRead (c : Cmd)
  /-- A write of DB[q] moves a command tail or another queue's head, or is discarded (R468). -/
  | doorbellWrite (q : Fin 64) (v : Word)
  /-- The controller fetches and accepts a command entry when its completion queue has room (R462). -/
  | commandFetch (q : Fin 16) (env : List Byte)
  /-- A completion entry is written in order of acceptance once earlier ones are written (R463). -/
  | completionWrite (q : Fin 16)
  /-- An event queue with room again receives one LOSS entry for the events dropped (R466). -/
  | eventLossEntry (q : Fin 16)
  /-- COAL_US after the first unsignalled entry a queue signals its MSI-X vector (R469). -/
  | coalesceTimeout (q : Fin 64)
  /-- A write of ADMIN_CTRL enables or disables the admin pair, or is refused (R460). -/
  | adminCtrlWrite (v : Word)
  /-- PERST, hot reset, FLR or DL_Down disables every queue and resets the admin registers (R458). -/
  | pcieReset (kind : Fin 4)
  /-- A DMA to or from a queue returns an error and the queue enters FAULT (R470). -/
  | dmaError (q : Fin 64)
  /-- A received Ethernet frame that is not PTP is discarded and counted (R472). -/
  | ethFrameRx (port : Fin 2) (ptp : Bool)
  /-- Creates a host queue (R461). -/
  | hstQueueCreate (c : Cmd)
  /-- Deletes a host queue (R473). -/
  | hstQueueDelete (c : Cmd)
  /-- Routes a block's events to an event queue (R466). -/
  | hstEventRoute (c : Cmd)
  /-- A management request frame is received, authenticated and executed or discarded (R479). -/
  | shavorRequest (frame : List Byte) (gapOk : Bool)
  /-- An SMBus Block Write piece of a request frame is received (R478). -/
  | smbusBlockWrite (last : Bool) (piece : List Byte) (pecOk : Bool)
  /-- An SMBus Block Read returns response bytes (R478). -/
  | smbusBlockRead (count : Nat)
  /-- An Alert Response Address read returns the target address and deasserts SMB_ALERT_N (R478). -/
  | alertResponseRead
  /-- The 1 s authentication back-off ends (R480). -/
  | backoffEnd
  /-- The MI detects a failure in itself and restarts (R484). -/
  | miSelfFault
  /-- The MI completes its restart and the link answers again (R484). -/
  | miRestartEnd
  /-- The MI copies logged entries into the management region within 1 s (R485). -/
  | logNvmCopy
  /-- Every 1 ms the MI samples sensors and refreshes the MGT mirror (R488). -/
  | mirrorRefresh (temps : List Int) (supplies : List Nat)
  /-- Opens a session with a fresh nonce (R480). -/
  | mgtHello (c : Cmd) (nonce : List Byte)
  /-- Returns the oldest held completion or undelivered event (R482). -/
  | mgtPoll (c : Cmd)
  /-- Reads BAR0 words through the management latch (R487). -/
  | mgtRead (c : Cmd)
  /-- Writes a BAR0 register as writer M (R487). -/
  | mgtWrite (c : Cmd)
  /-- Reads one event-log entry by SEQ (R487). -/
  | mgtLogRead (c : Cmd)
  /-- Reads a health sensor (R487). -/
  | mgtHealth (c : Cmd)
  /-- Clears a block's lock bit and logs UNLOCK (R487). -/
  | mgtUnlock (c : Cmd)
  /-- Checks a slot's management firmware and restarts the MI on it (R487). -/
  | mgtMiRestart (c : Cmd)
  /-- Writes new link rate and addresses that take effect after the response (R487). -/
  | mgtLinkConfig (c : Cmd)
  /-- A performance counter wraps, continues from 0 or RELOAD, sets OVF and posts its event (R493). -/
  | counterWrap (e : Fin 40) (i : Fin 8)
  /-- A skid sample names the next instruction to retire within 32 cycles (R496). -/
  | skidSample (e : Fin 40)
  /-- A write of a performance counter stores its count and clears OVF (R492). -/
  | prfCounterWrite (ini : Ini) (blk : Bool) (e : Nat) (i : Nat) (lo : Word)
  /-- The monitors declare REFCLK lost, CLOCK_LOSS forces every target and the MI falls back to RC (R501). -/
  | refclkLost
  /-- REFCLK valid for 2 ms makes the MI log it and issue a forced cold restart (R502). -/
  | refclkRestored
  /-- A PLL loses lock and its domain stops (R503). -/
  | pllUnlock (pll : Fin 4)
  /-- A PLL relocks and its domain resumes, waiting records being written (R503). -/
  | pllRelock (pll : Fin 4)
  /-- Every 10 µs the supply comparators flag rails out of tolerance (R506). -/
  | supplyEvaluation (mv : List Nat)
  /-- VDD_CORE below 0.68 V for 1 µs resets the CP, MP and SI as a cold restart (R506). -/
  | brownout
  /-- VDD_AON below 0.70 V acts as an assertion of POR_N (R506). -/
  | vddAonLow
  /-- Every 10 µs the thermal comparators set or clear WARN, LIMIT and shutdown (R508). -/
  | thermalEvaluation (temps : List Int)
  /-- A write of CLK.TEMP_CFG sets the thresholds or is discarded when out of range (R509). -/
  | tempCfgWrite (ini : Ini) (v : Word)
  /-- VDDIO16 below 80 % for 1 µs makes every TRIP pin source active (R517). -/
  | tripBankFail
  /-- VDDIO16 within tolerance for 1 ms lets TRIP pin sources follow their pins again (R517). -/
  | tripBankRecover
  /-- A read of a 64-bit register's low word latches its high word for the reading initiator (R35). -/
  | lowWordRead (ini : Ini) (off : Nat)
  /-- A write of a 64-bit register's high word is held in the writer's staging register (R37). -/
  | highWordWrite (ini : Ini) (off : Nat) (v : Word)
  /-- A read of an RC register returns its value and clears it for all initiators (R30). -/
  | rcRead (ini : Ini) (off : Nat)
  /-- An access to an undefined offset returns 0 or is discarded and counted, or traps an engine (R31). -/
  | unmappedAccess (ini : Ini) (off : Nat) (isWrite : Bool)
  /-- A write to a register without a row of its own stores, clears, sets or is refused under its access code and writer set (R28). -/
  | registerWrite (ini : Ini) (off : Nat) (v : Word)
  /-- Every 4 µs an output stage evaluates its continuation plan, clamps the value and hands it off to its target (R173). -/
  | planEvaluation (stage : Fin 1024)
  /-- A fast channel stores a sample, which is written into the ARMED take's ring, counts toward its pre-trigger and POST parts and is tested by RISING, FALLING, WINDOW and late TIME triggers (R338). -/
  | fastStoredSample (ch : Fin 8) (codes : List Int)
  /-- An axis under a mode-2 move reaches its commanded velocity, ends its acceleration and sets AT_SPEED (R377). -/
  | axisAtSpeed (axis : Fin 64)
  /-- An A/B quadrature edge on ENCn updates the count and measured position, or is counted as an encoder error (R390). -/
  | encoderEdge (axis : Fin 64) (a b : Bool)
  /-- An edge on a safety input pair in COUNTER mode updates its count, which a brake test uses for its excursion (R432). -/
  | safetyCounterEdge (inp : Fin 12) (a b : Bool)
  /-- A press of PANEL_RST_N is recognised after its debounce, PRESSED sets and HELD_MS starts counting (R73). -/
  | panelPress
  /-- A release of PANEL_RST_N after 2 s is recognised, PRESSED and HELD_MS clear and nothing further is requested (R73). -/
  | panelLongRelease
  /-- The PCIe link completes training, and the endpoint answers configuration requests with the negotiated width and rate in HST.STATE (R458). -/
  | pcieLinkUp (gen : Fin 4) (width : Fin 3)
  /-- A DAC whose load falls back within the short-circuit limit leaves current limiting and OVERLOAD clears (R321). -/
  | dacOverloadClear (dac : Fin 32)
  deriving DecidableEq, Repr

end Sys2Proof
end

