-- ==== Sys2Proof/WellFormed.lean ====
section
/-! DEFINITION. WellFormed.lean: when a command's operands are ones that can reach the controller. A command that is not well
formed never arises outside; every meaning is total all the same. -/

namespace Sys2Proof

/-- The envelope a command carries, if it is a command of the envelope of 02 R41. -/
def Instr.cmd? : Instr → Option Cmd
  | .porNAssert _ => none
  | .porNRelease _ _ _ => none
  | .refclkValidAtBoot => none
  | .fusesRead _ => none
  | .nvmDiscovered _ => none
  | .headerRead => none
  | .imageStreamEnd _ => none
  | .nvmReadError => none
  | .signatureVerified => none
  | .outputsInit => none
  | .enginesSelfTested _ => none
  | .awaitWorldEntry => none
  | .panelShortPress => none
  | .panelLongPress => none
  | .panelStuck => none
  | .panelUnstuck => none
  | .sysColdRestart c => some c
  | .coldRestartReset => none
  | .sysSafeStopAll c => some c
  | .sysResume c => some c
  | .imgSlotWrite c => some c
  | .slotWriteDone _ => none
  | .imgSlotVerify c => some c
  | .slotVerifyDone _ _ => none
  | .imgSelect c => some c
  | .imgConfirm c => some c
  | .imgStage c => some c
  | .stageDone _ _ => none
  | .imgBankCopy c => some c
  | .imgBankWrite c => some c
  | .imgBankClose c => some c
  | .imgBankSwap c => some c
  | .bankSwap => none
  | .imgAdvanceRollback c _ _ => some c
  | .imgFuseKey c _ _ => some c
  | .wldDeclare c => some c
  | .declarationApply => none
  | .wldReport c => some c
  | .wldRead c => some c
  | .wldReplace c => some c
  | .wldRestore c => some c
  | .nodeDead _ _ => none
  | .seqLoad c => some c
  | .seqValidate c => some c
  | .validationDone _ => none
  | .seqUnload c => some c
  | .seqStart c => some c
  | .startTimeReached _ => none
  | .seqHold c => some c
  | .seqRelease c => some c
  | .seqAbort c => some c
  | .seqClear c => some c
  | .seqSmPost c => some c
  | .claimPresentation _ => none
  | .decisionTick _ => none
  | .stepEnd _ => none
  | .conditionEvaluation _ => none
  | .laneEvent _ _ => none
  | .stepTimeout _ => none
  | .holdToleranceExpiry _ => none
  | .stepStart _ => none
  | .safeTimeoutExpiry _ => none
  | .actSet _ _ => none
  | .actRamp _ _ => none
  | .rampUpdate _ => none
  | .rampEnd _ => none
  | .actDiscrete _ _ => none
  | .pulseEnd _ => none
  | .actMove _ _ => none
  | .actObjWrite _ _ => none
  | .actLoop _ _ => none
  | .actArm _ _ => none
  | .actSmPost _ _ => none
  | .actClaim _ _ => none
  | .enforceEvaluation => none
  | .smCycle _ => none
  | .smStateTimeout _ => none
  | .ledgerUpdate => none
  | .measuredTrigger _ => none
  | .rankRestore _ => none
  | .lgrCapacity c => some c
  | .lgrReport c => some c
  | .lgrRestore c => some c
  | .freshExpiry _ => none
  | .planExpiry _ => none
  | .hostOutSet c => some c
  | .outForce c => some c
  | .outRelease c => some c
  | .outLoop c => some c
  | .insAdd _ _ => none
  | .insSub _ _ => none
  | .insAnd _ _ => none
  | .insOr _ _ => none
  | .insXor _ _ => none
  | .insShl _ _ => none
  | .insShru _ _ => none
  | .insShrs _ _ => none
  | .insCmplt _ _ => none
  | .insCmpltu _ _ => none
  | .insMin _ _ => none
  | .insMax _ _ => none
  | .insMul _ _ => none
  | .insMulhi _ _ => none
  | .insMulhiu _ _ => none
  | .insDivs _ _ => none
  | .insDivu _ _ => none
  | .insMods _ _ => none
  | .insModu _ _ => none
  | .insShlk _ _ => none
  | .insShruk _ _ => none
  | .insShrsk _ _ => none
  | .insAddk _ _ => none
  | .insCmpltk _ _ => none
  | .insAndk _ _ => none
  | .insOrk _ _ => none
  | .insXork _ _ => none
  | .insHik _ _ => none
  | .insFadd _ _ => none
  | .insFsub _ _ => none
  | .insFmul _ _ => none
  | .insFdiv _ _ => none
  | .insFsqrt _ _ => none
  | .insFmin _ _ => none
  | .insFmax _ _ => none
  | .insFmac _ _ => none
  | .insFabs _ _ => none
  | .insFneg _ _ => none
  | .insFcmpeq _ _ => none
  | .insFcmplt _ _ => none
  | .insFcmple _ _ => none
  | .insItof _ _ => none
  | .insFtoi _ _ => none
  | .insLdw _ _ => none
  | .insLdh _ _ => none
  | .insLdhu _ _ => none
  | .insLdb _ _ => none
  | .insLdbu _ _ => none
  | .insLdp _ _ => none
  | .insStw _ _ => none
  | .insSth _ _ => none
  | .insStb _ _ => none
  | .insStp _ _ => none
  | .insAmoAdd _ _ => none
  | .insAmoSwp _ _ => none
  | .insAmoCas _ _ => none
  | .insFence _ _ => none
  | .insBreq _ _ => none
  | .insBrne _ _ => none
  | .insBrlt _ _ => none
  | .insBrge _ _ => none
  | .insBrltu _ _ => none
  | .insBrgeu _ _ => none
  | .insCall _ _ => none
  | .insJmpr _ _ => none
  | .insCwr _ _ => none
  | .insCww _ _ => none
  | .insKcall _ _ => none
  | .insTret _ _ => none
  | .insAbort _ _ => none
  | .insSigLd _ _ => none
  | .insSigSt _ _ => none
  | .insObjLd _ _ => none
  | .insOutSet _ _ => none
  | .insCurve _ _ => none
  | .insPost _ _ => none
  | .insCairnW _ _ => none
  | .insDone _ _ => none
  | .commitComplete _ => none
  | .budgetExpiry _ => none
  | .engCodeSwap c => some c
  | .codeSwapCopy _ => none
  | .dispatch _ _ => none
  | .minIntervalEnd _ => none
  | .dspEnable c => some c
  | .dspDisable c => some c
  | .dspSuspend c => some c
  | .dspResume c => some c
  | .dspKick c => some c
  | .lockstepMismatch _ => none
  | .eccUncorrectable _ => none
  | .heartbeatTimeout _ => none
  | .standinLoadDone _ => none
  | .aliveAfterDeath _ => none
  | .cntRestart c => some c
  | .quiesceEnd => none
  | .restartReset => none
  | .imageRegionVerified _ => none
  | .restartSelftestDone _ => none
  | .codeSetsLoaded => none
  | .serviceInitDone => none
  | .threadsRestored => none
  | .dispatchResume => none
  | .cntRelease c => some c
  | .releaseSelftestDone _ _ => none
  | .cntInject c => some c
  | .injectSilenceEnd _ => none
  | .segmentClose => none
  | .segmentSend _ => none
  | .portDown _ => none
  | .pathFailover _ => none
  | .portLinkUp _ => none
  | .recDest c => some c
  | .recFilter c => some c
  | .recQueueBind c => some c
  | .recReplay c => some c
  | .replayEnd _ => none
  | .recConfig c => some c
  | .tbSampleWrite _ _ => none
  | .ppsEdge => none
  | .slewEnd => none
  | .holdoverTimeout => none
  | .ptpMessageRx _ _ => none
  | .ptpMessageTx _ _ _ => none
  | .txtsPop _ _ _ => none
  | .toutEdge _ => none
  | .tinEdge _ _ => none
  | .tbSource c => some c
  | .tbSet c => some c
  | .tbAdjust c => some c
  | .tbTout c => some c
  | .tbTin c => some c
  | .sarConversionEnd _ _ => none
  | .dischargeSlot _ => none
  | .anaConvUrgent _ _ _ => none
  | .qPop _ _ _ => none
  | .bridgeOutput _ _ _ => none
  | .settlingEnd _ => none
  | .dacOverload _ => none
  | .anaConfig c => some c
  | .anaUrgent c => some c
  | .anaBridge c => some c
  | .anaWindow c => some c
  | .anaCalStage c => some c
  | .anaCalConfirm c => some c
  | .calApply => none
  | .calConfirmTimeout => none
  | .fastBlockClose _ => none
  | .fchComparatorAssert _ => none
  | .fchComparatorRelease _ => none
  | .timeTrigger _ => none
  | .takeComplete _ => none
  | .handoffStart _ => none
  | .handoffEnd _ => none
  | .holdoffEnd _ => none
  | .acqTake c => some c
  | .acqArm c => some c
  | .acqTrigger c => some c
  | .acqCompare c => some c
  | .acqChannel c => some c
  | .updatePoint _ => none
  | .syncRestart _ => none
  | .zcTimeout _ => none
  | .pwmCommit _ _ _ => none
  | .commitMaskWrite _ _ => none
  | .dutyShWrite _ _ _ => none
  | .tripPinEdge _ _ _ => none
  | .tripFilterCount _ _ => none
  | .blankWindowEnd _ => none
  | .pwmConfig c => some c
  | .pwmStop c => some c
  | .pwmOverride c => some c
  | .trpClear c => some c
  | .trpConfig c => some c
  | .trpAssert c => some c
  | .axisAtTarget _ => none
  | .reversal _ => none
  | .resolutionSwitch _ => none
  | .dcpFrameEnd _ _ => none
  | .standstillDelayExpiry _ => none
  | .deviation _ => none
  | .encoderIndex _ => none
  | .ssiFrame _ _ _ => none
  | .motionRecord _ => none
  | .motMove c => some c
  | .motEnable c => some c
  | .motProfile c => some c
  | .motSetPosition c => some c
  | .motLimits c => some c
  | .motPoint c => some c
  | .canFrameReceived _ _ => none
  | .startOfFrame _ => none
  | .canFrameSent _ => none
  | .canError _ _ _ => none
  | .busOffRecoveryEnd _ => none
  | .cyclicPeriod _ _ => none
  | .detectDwellEnd _ => none
  | .detectTimeout _ => none
  | .canMode c => some c
  | .canDetect c => some c
  | .canRecover c => some c
  | .canTx c => some c
  | .canCancel c => some c
  | .canRxoSnapRead _ _ => none
  | .serEntryDue _ _ => none
  | .serRequestSent _ => none
  | .serMessageEnd _ _ _ => none
  | .respTimeout _ => none
  | .serTurnEnd _ => none
  | .serMode c => some c
  | .serTrigger c => some c
  | .serSend c => some c
  | .dioEdge _ _ => none
  | .dioEdgeMergeEnd _ => none
  | .dioBankMismatch _ => none
  | .safetyCycle _ => none
  | .siSelfTestEnd _ => none
  | .siParamsAccepted => none
  | .periodicSelfTest _ => none
  | .siClockFail => none
  | .safeCopyReceived _ _ => none
  | .skewExpiry _ => none
  | .connectionTimeout _ => none
  | .graceExpiry _ => none
  | .discrepancyExpiry _ => none
  | .resetPress _ => none
  | .stopDelayExpiry _ => none
  | .testPulse _ _ => none
  | .edmTimeExpiry _ => none
  | .brakeTestPulse _ _ => none
  | .brakeTestRequest _ _ => none
  | .applyMsExpiry _ => none
  | .testWindowEnd _ => none
  | .brakeOverdue _ => none
  | .brakeGraceExpiry _ => none
  | .safParamStage c => some c
  | .safParamConfirm c => some c
  | .safParamApply => none
  | .paramConfirmTimeout => none
  | .safParamRead c => some c
  | .doorbellWrite _ _ => none
  | .commandFetch _ _ => none
  | .completionWrite _ => none
  | .eventLossEntry _ => none
  | .coalesceTimeout _ => none
  | .adminCtrlWrite _ => none
  | .pcieReset _ => none
  | .dmaError _ => none
  | .ethFrameRx _ _ => none
  | .hstQueueCreate c => some c
  | .hstQueueDelete c => some c
  | .hstEventRoute c => some c
  | .shavorRequest _ _ => none
  | .smbusBlockWrite _ _ _ => none
  | .smbusBlockRead _ => none
  | .alertResponseRead => none
  | .backoffEnd => none
  | .miSelfFault => none
  | .miRestartEnd => none
  | .logNvmCopy => none
  | .mirrorRefresh _ _ => none
  | .mgtHello c _ => some c
  | .mgtPoll c => some c
  | .mgtRead c => some c
  | .mgtWrite c => some c
  | .mgtLogRead c => some c
  | .mgtHealth c => some c
  | .mgtUnlock c => some c
  | .mgtMiRestart c => some c
  | .mgtLinkConfig c => some c
  | .counterWrap _ _ => none
  | .skidSample _ => none
  | .prfCounterWrite _ _ _ _ _ => none
  | .refclkLost => none
  | .refclkRestored => none
  | .pllUnlock _ => none
  | .pllRelock _ => none
  | .supplyEvaluation _ => none
  | .brownout => none
  | .vddAonLow => none
  | .thermalEvaluation _ => none
  | .tempCfgWrite _ _ => none
  | .tripBankFail => none
  | .tripBankRecover => none
  | .lowWordRead _ _ => none
  | .highWordWrite _ _ _ => none
  | .rcRead _ _ => none
  | .unmappedAccess _ _ _ => none
  | .registerWrite _ _ _ => none
  | .planEvaluation _ => none
  | .fastStoredSample _ _ => none
  | .axisAtSpeed _ => none
  | .encoderEdge _ _ _ => none
  | .safetyCounterEdge _ _ _ => none
  | .panelPress => none
  | .panelLongRelease => none
  | .pcieLinkUp _ _ => none
  | .dacOverloadClear _ => none

/-- ARGS is bytes 16–63 of the envelope (02 R41); an EXT block holds ARGLEN bytes; management arguments are at most 1,024 bytes
(20 R479). -/
def Cmd.wf (c : Cmd) : Bool :=
  c.args.length == 48 &&
  (!c.flags.toNat.testBit 0 || c.extData.length == c.arglen.toNat) &&
  (match c.issuer with
   | .host _ => true
   | .mgmt _ => decide (c.arglen.toNat ≤ 1024))

/-- A CAN frame of a legal length and identifier (17 R399, R404): at most 2,048 bytes, 29 bits. -/
def CanFrame.wf (f : CanFrame) : Bool := decide (f.data.length ≤ 2048) && decide (f.id < (if f.ide then 2 ^ 29 else 2 ^ 11))

/-- A signed code of `n` bits. -/
def codeWf (n : Nat) (x : Int) : Bool := decide (-(2 : Int) ^ (n - 1) ≤ x) && decide (x < (2 : Int) ^ (n - 1))

/-- The function codes that 08 R194 defines under an opcode of format A. -/
def fnDefined (op : Nat) : List Nat :=
  if op = 0x00 then [0x00, 0x01, 0x02, 0x03, 0x04, 0x05, 0x06, 0x07, 0x08, 0x09, 0x0A, 0x0B, 0x10, 0x11, 0x12, 0x18, 0x19, 0x1A, 0x1B,
    0x20, 0x21, 0x22]
  else if op = 0x08 then [0x00, 0x01, 0x02, 0x03, 0x04, 0x05, 0x06, 0x07, 0x08, 0x09, 0x0A, 0x0B, 0x0C, 0x10, 0x11]
  else if op = 0x1C then [0x00, 0x01, 0x02]
  else [0x00]

/-- A word of format A is read as this instruction when it carries its function code, or one that the opcode does not define (then the
word is illegal, 08 R194, and any row of the opcode stands for it). -/
def FormA.wf (f : FormA) (op own : Nat) : Bool := f.fn.toNat == own || !(fnDefined op).contains f.fn.toNat

/-- Operands that the constructor's types do not already bound. -/
def Instr.wf (i : Instr) : Bool :=
  (match i.cmd? with | some c => c.wf | none => true) &&
  (match i with
   | .canFrameReceived _ f => f.wf
   | .safeCopyReceived _ f => f.wf
   | .brakeTestRequest _ f => f.wf
   | .sarConversionEnd _ x => codeWf 20 x
   | .bridgeOutput _ x _ => codeWf 28 x
   | .fastStoredSample _ xs => xs != [] && decide (xs.length ≤ 64) && xs.all (codeWf 20)
   | .commandFetch _ env => env.length == 64
   | .mgtHello _ nonce => nonce.length == 16
   | .lowWordRead _ off => off % 4 == 0
   | .highWordWrite _ off _ => off % 4 == 0
   | .rcRead _ off => off % 4 == 0
   | .unmappedAccess _ off _ => off % 4 == 0
   | .registerWrite _ off _ => off % 4 == 0
   | .supplyEvaluation mv => mv.length == 11
   | .thermalEvaluation t => t.length == 6
   | .mirrorRefresh t v => t.length == 6 && v.length == 11
   | .insAdd _ f => f.wf 0x00 0x00
   | .insSub _ f => f.wf 0x00 0x01
   | .insAnd _ f => f.wf 0x00 0x02
   | .insOr _ f => f.wf 0x00 0x03
   | .insXor _ f => f.wf 0x00 0x04
   | .insShl _ f => f.wf 0x00 0x05
   | .insShru _ f => f.wf 0x00 0x06
   | .insShrs _ f => f.wf 0x00 0x07
   | .insCmplt _ f => f.wf 0x00 0x08
   | .insCmpltu _ f => f.wf 0x00 0x09
   | .insMin _ f => f.wf 0x00 0x0A
   | .insMax _ f => f.wf 0x00 0x0B
   | .insMul _ f => f.wf 0x00 0x10
   | .insMulhi _ f => f.wf 0x00 0x11
   | .insMulhiu _ f => f.wf 0x00 0x12
   | .insDivs _ f => f.wf 0x00 0x18
   | .insDivu _ f => f.wf 0x00 0x19
   | .insMods _ f => f.wf 0x00 0x1A
   | .insModu _ f => f.wf 0x00 0x1B
   | .insShlk _ f => f.wf 0x00 0x20
   | .insShruk _ f => f.wf 0x00 0x21
   | .insShrsk _ f => f.wf 0x00 0x22
   | .insFadd _ f => f.wf 0x08 0x00
   | .insFsub _ f => f.wf 0x08 0x01
   | .insFmul _ f => f.wf 0x08 0x02
   | .insFdiv _ f => f.wf 0x08 0x03
   | .insFsqrt _ f => f.wf 0x08 0x04
   | .insFmin _ f => f.wf 0x08 0x05
   | .insFmax _ f => f.wf 0x08 0x06
   | .insFmac _ f => f.wf 0x08 0x07
   | .insFabs _ f => f.wf 0x08 0x08
   | .insFneg _ f => f.wf 0x08 0x09
   | .insFcmpeq _ f => f.wf 0x08 0x0A
   | .insFcmplt _ f => f.wf 0x08 0x0B
   | .insFcmple _ f => f.wf 0x08 0x0C
   | .insItof _ f => f.wf 0x08 0x10
   | .insFtoi _ f => f.wf 0x08 0x11
   | .insAmoAdd _ f => f.wf 0x1C 0x00
   | .insAmoSwp _ f => f.wf 0x1C 0x01
   | .insAmoCas _ f => f.wf 0x1C 0x02
   | .insFence _ f => f.wf 0x1D 0x00
   | .insOutSet _ f => f.wf 0x33 0x00
   | .insCurve _ f => f.wf 0x34 0x00
   | _ => true)

end Sys2Proof
end

