-- ==== Sys2Proof/Config.lean ====
section
/-! DEFINITION. Config.lean: what the manual leaves open. Every constant here is opaque: nothing in Lean can see a value of
it, so a statement that holds holds for every value. -/

namespace Sys2Proof

/-- SHA-384 (03 R61), which the manual names and does not define (log 3). -/
opaque Config.sha384 : List Byte → List Byte
/-- HMAC-SHA-256 of a key and a message (20 R480), named and not defined by the manual (log 3). -/
opaque Config.hmacSha256 : List Byte → List Byte → List Byte
/-- ECDSA P-384 verification of (public key, digest, signature) (03 R61), named and not defined (log 3). -/
opaque Config.ecdsaVerify : List Byte → List Byte → List Byte → Bool
/-- A free natural number for the n-th open choice a run meets (log 4). -/
opaque Config.freeNat : Nat → Nat
/-- A free Boolean for the n-th open choice a run meets (log 4). -/
opaque Config.freeBool : Nat → Bool
/-- The result of a binary32 operation whose operand is a quiet NaN: 08 R196 fixes the NaN of an invalid operation only
(log 5). Arguments: the operation and its operands. -/
opaque Config.nanResult : Nat → Word → Word → Word → Word
/-- CRC-32 of a whole table bank: 03 R68 compares it and no rule gives the order of the bytes (log 6). -/
opaque Config.bankCrc : List (Nat × List Byte) → Word

/-- Whether an inexact division n / d that the manual writes without a rounding goes up (log 16). -/
opaque Config.roundUp : Int → Nat → Bool

/-- n / d to an integer where the manual states no rounding: exact when d divides n, else one of the two neighbours. -/
def divOpen (n : Int) (d : Nat) : Int :=
  let q := Int.fdiv n d
  if q * (d : Int) = n then q else q + (if Config.roundUp n d then 1 else 0)

/-- The bus load of CAN controller c at a time, in per cent: it counts bit times that the model does not carry (17 R424, log 22). -/
opaque Config.canLoad : Nat → Nat → Nat
/-- Does a binary32 value that is no number differ by at least a CHANGE filter's threshold (11 R279)? The manual does not say (log 28).
The argument is the record's time. -/
opaque Config.nanDiffers : Nat → Bool
/-- The LRC of a serial message, named and not defined by the manual (17 R416, log 23). -/
opaque Config.lrc : List Byte → Nat

/-- Whether an inexact signed quotient whose exact value is negative goes down instead of toward zero: 08 R195 and R196 state no rounding
(log 29). -/
opaque Config.divDown : Word → Word → Bool
/-- A choice that IEEE 754 leaves to an implementation and 08 R196 does not make (log 30): a number for the choice, and the operands. -/
opaque Config.ieee : Nat → Word → Word → Word → Bool

end Sys2Proof
end

