-- ==== Sys2Proof/Machine/Float.lean ====
section
/-! DEFINITION. Machine/Float.lean: binary32 as exact rationals with one rounding at the end. The rounding mode of 08 R196
(to nearest, ties to even) serves every evaluation in binary32 of the manual (log 7). -/

namespace Sys2Proof.Machine

/-- What a binary32 word says. -/
inductive F32 where
  | nan (quiet : Bool)
  | inf (neg : Bool)
  | fin (neg : Bool) (v : Rat)
  deriving DecidableEq, Repr

/-- 2 to an integer power. -/
def pow2 (e : Int) : Rat := if 0 ≤ e then ((2 ^ e.toNat : Nat) : Rat) else mkRat 1 (2 ^ (-e).toNat)

/-- Decode a binary32 word (IEEE 754). -/
def F32.decode (w : Word) : F32 :=
  let n := w.toNat
  let neg := n.testBit 31
  let e := field n 23 8
  let m := field n 0 23
  if e = 255 then (if m = 0 then .inf neg else .nan (m.testBit 22))
  else
    let mag : Rat := if e = 0 then (m : Rat) * pow2 (-149) else ((m + 2 ^ 23 : Nat) : Rat) * pow2 ((e : Int) - 150)
    .fin neg (if neg then -mag else mag)

/-- The binary32 word with sign `neg` and magnitude bits `mag`. -/
def packF32 (neg : Bool) (mag : Nat) : Word := BitVec.ofNat 32 ((if neg then 2 ^ 31 else 0) + mag)

/-- Exception flags of one operation, in the bit order of 08 (cw.FFLAGS): inexact, underflow, overflow, division by zero,
invalid. -/
structure FFlags where
  nx : Bool := false
  uf : Bool := false
  of : Bool := false
  dz : Bool := false
  nv : Bool := false
  deriving DecidableEq, Repr

/-- The 5 flag bits as a number. -/
def FFlags.toNat (f : FFlags) : Nat :=
  b2n f.nx + 2 * b2n f.uf + 4 * b2n f.of + 8 * b2n f.dz + 16 * b2n f.nv

/-- Round a magnitude `n / d` (`d > 0`) to nearest even: magnitude bits and whether it was inexact. -/
def roundMag (n d : Nat) : Nat × Bool :=
  if n = 0 then (0, false) else
  let e0 : Int := (Nat.log2 n : Int) - (Nat.log2 d : Int)
  -- 2^e0 may exceed n/d by one binade
  let e : Int := if 0 ≤ e0 then (if d * 2 ^ e0.toNat ≤ n then e0 else e0 - 1)
                 else (if d ≤ n * 2 ^ (-e0).toNat then e0 else e0 - 1)
  let sc : Int := if e - 23 < -149 then -149 else e - 23
  let num := if sc < 0 then n * 2 ^ (-sc).toNat else n
  let den := if sc < 0 then d else d * 2 ^ sc.toNat
  let q := num / den
  let r := num % den
  let up := den < 2 * r || (2 * r == den && q % 2 == 1)
  let m := if up then q + 1 else q
  let bits := (sc + 149).toNat * 2 ^ 23 + m
  (bits, r ≠ 0)

/-- Round an exact rational to binary32; `negZero` is the sign of an exact zero (08 R196). -/
def roundF32 (v : Rat) (negZero : Bool := false) : Word × FFlags :=
  if v = 0 then (packF32 negZero 0, default_flags) else
  let neg := decide (v < 0)
  let (bits, nx) := roundMag v.num.natAbs v.den
  if 0x7F800000 ≤ bits then (packF32 neg 0x7F800000, { default_flags with nx := true, of := true })
  else (packF32 neg bits, { default_flags with nx := nx, uf := nx && bits < 0x800000 })
where
  default_flags : FFlags := {}

/-- The quiet NaN of an invalid operation (08 R196). -/
def qnan : Word := 0x7FC00000#32

/-- Is the word a NaN? -/
def isNaN32 (w : Word) : Bool := match F32.decode w with | .nan _ => true | _ => false

/-- The exact value of a finite word; 0 for the others (their users test for them first). -/
def f32Rat (w : Word) : Rat := match F32.decode w with | .fin _ v => v | _ => 0

/-- Exact rational to the nearest binary32 word. -/
def ratF32 (v : Rat) : Word := (roundF32 v).1

/-- An integer as binary32. -/
def intF32 (v : Int) : Word := ratF32 (v : Rat)

/-- Round a rational to the nearest integer, ties to even. -/
def rneInt (v : Rat) : Int :=
  let f := v.floor
  let d := v - f
  if d < 1/2 then f else if 1/2 < d then f + 1 else (if f % 2 = 0 then f else f + 1)

/-- Ordered less-than of two non-NaN words. -/
def f32Lt (a b : Word) : Bool :=
  match F32.decode a, F32.decode b with
  | .nan _, _ => false
  | _, .nan _ => false
  | .inf na, .inf nb => na && !nb
  | .inf na, .fin _ _ => na
  | .fin _ _, .inf nb => !nb
  | .fin _ x, .fin _ y => decide (x < y)

/-- Equality of two words as numbers (+0 equals −0). -/
def f32Eq (a b : Word) : Bool :=
  match F32.decode a, F32.decode b with
  | .inf na, .inf nb => na == nb
  | .fin _ x, .fin _ y => decide (x = y)
  | _, _ => false

end Sys2Proof.Machine
end

