-- ==== Sys2Proof/Machine/State.lean ====
section
/-! DEFINITION. Machine/State.lean: everything the manual gives the controller to remember, as plain data. The registers of
BAR0 and BAR2 live in one register file, keyed by offset (02 R47, 19 R460); what no register shows stands beside it. -/

namespace Sys2Proof.Machine

/-- A finite table keyed by a number: keys rise strictly, an unlisted key has the table's default. -/
abbrev Tab (α : Type) := List (Nat × α)

/-- A byte memory: addresses rise strictly and no listed byte is 0, which is what an unlisted address reads as (log 9). -/
abbrev Mem := List Host.Cell

/-- Nobody raises a fault: the manual describes every error as a status, a flag, an event or a trap, and the model takes that
(safe: no step stops). -/
inductive Fault where
  | none
  deriving DecidableEq, Repr

/-- `notModelled` is raised by an arm of `exec` that has no meaning yet (safe: the machine stops). -/
inductive Refusal where
  | notModelled (mnemonic : String)
  deriving DecidableEq, Repr

/-- A completion (02 R42): status, reason, time and RESULT bytes from byte 16 on. -/
structure Completion where
  status : Nat
  reason : Nat
  time : Nat
  result : List Byte := []
  deriving DecidableEq, Repr

/-- A command accepted and not yet wholly answered (19 R463): its source (0..15, or 0xFFFF for management), opcode and tag,
whether its table lists QUEUED (two entries reserved), CMD_HEAD at its fetch, the completions it has, and what becomes of them once their queue is gone (1 discarded and
counted already, 2 counted in LOST_COMPLETIONS, 3 in the queue's DROPS). -/
structure Slot where
  src : Nat
  opcode : Nat
  tag : Nat
  notify : Bool := false
  cmdHead : Nat := 0
  two : Bool := false
  executed : Bool := false
  first : Option Completion := none
  firstWritten : Bool := false
  final : Option Completion := none
  lost : Nat := 0
  deriving DecidableEq, Repr

/-- Working state of one host queue beyond its registers (19 R466, R469): entries written since the last signal and when the
first of them was, events numbered, events lost since the last entry and the first loss, and whether it signalled while its vector was
masked. -/
structure QueueSt where
  unsig : Nat := 0
  since : Nat := 0
  seq : Nat := 0
  lost : Nat := 0
  lostFirst : Nat := 0
  masked : Bool := false
  deriving DecidableEq, Repr

/-- A record (11 R273). -/
structure Rec where
  time : Nat
  sid : Nat
  typ : Nat
  seq : Nat
  flags : Nat
  payload : List Byte
  deriving DecidableEq, Repr

/-- A closed segment of the reel (11 R282) and, for each port that has sent it, when it began to. -/
structure Segment where
  seqNo : Nat
  recs : List Rec
  openedAt : Nat
  sent : List (Nat × Nat) := []
  deriving DecidableEq, Repr

/-- A source's filter (11 R279), N or threshold, with its running state: records seen since the change and the last recorded value
and time. -/
structure Filter where
  kind : Nat := 0
  n : Nat := 0
  thr : Rat := 0
  maxGap : Nat := 0
  seen : Nat := 0
  lastVal : Option Rat := none
  lastTime : Nat := 0
  deriving DecidableEq, Repr

/-- A binding of a host record queue (11 R286). -/
structure Binding where
  sid : Nat
  mask : Nat
  typ : Nat
  deriving DecidableEq, Repr

/-- A replay in progress on a port (11 R288). -/
structure Replay where
  port : Nat
  next : Nat
  left : Nat
  src : Nat
  tag : Nat
  notify : Bool := false
  deriving DecidableEq, Repr

/-- The recorder beyond its registers (11): the open segment and the reel, sequence numbers, filters and those accepted on a tick and
not yet in force, bindings, losses of host record queues by queue × 2^24 + SID (number and first) and when a SID's last LOSS record was
written, destinations, the roles of the ports, when a failed
port became DOWN and whether the failover that follows has been made, and replays; while the DDR PLL is unlocked (22 R503) the reserved
records that wait, and by source the records lost at its tap (count, first number, first time). -/
structure Recorder where
  ddrDown : Bool := false
  waitRecs : List Rec := []
  tapLoss : Tab (Nat × Nat × Nat) := []
  openSeg : List Rec := []
  openedAt : Nat := 0
  segs : List Segment := []
  seqs : Tab Nat := []
  filters : Tab Filter := []
  newFilters : Tab (Nat × Filter) := []
  binds : Tab Binding := []
  qLoss : Tab (Nat × Nat) := []
  lossAt : Tab Nat := []
  dests : Tab (List Byte) := []
  roles : Tab Nat := []
  downSince : Tab Nat := []
  handled : List Nat := []
  replays : List Replay := []
  deriving DecidableEq, Repr

/-- An entry of the MI event log (20 R485). -/
structure LogEntry where
  time : Nat
  seq : Nat
  source : Nat
  code : Nat
  timeValid : Bool
  fromNvm : Bool := false
  detail : List Byte := []
  deriving DecidableEq, Repr

/-- The management island beyond its registers (20). -/
structure Mgmt where
  log : List LogEntry := []
  nvmLog : List LogEntry := []
  nonce : Option (List Byte) := none
  counters : Tab Nat := []
  authRun : Nat := 0
  backoff : Bool := false
  backoffSince : Nat := 0
  restarting : Bool := false
  firmware : Bool := false
  events : List (List Byte) := []
  rate : Nat := 0
  addr : Nat := 0x10
  smbAddr : Nat := 0x4C
  newLink : Option (Nat × Nat × Nat) := none
  partialFrame : List Byte := []
  response : List Byte := []
  respRead : Nat := 0
  alert : Bool := false
  reqRole : Nat := 0
  reqCounter : Nat := 0
  nextSeq : Nat := 1
  miSlot : Option Nat := none
  thermalHold : Bool := false
  refRestored : Option Nat := none
  aonSince : Nat := 0
  deriving DecidableEq, Repr

/-- A selection record of the NVM (03 R64); `ok` says that its CRC is valid. -/
structure SelRec where
  ok : Bool := false
  seq : Nat := 0
  slot : Nat := 0
  trial : Bool := false
  tried : Bool := false
  deriving DecidableEq, Repr

/-- The fuses (03 R61, R66): the programmed key hash (empty while blank), whether it is the development key, and the
thermometer count 0..64; and the per-device key of the management link (20 R480). -/
structure Fuses where
  devKey : List Byte := List.replicate 32 0#8
  keyHash : List Byte := []
  keyDev : Bool := false
  rollback : Nat := 0
  deriving DecidableEq, Repr

/-- An operation that a service engine carries (02 R43, 01 R11): the issuing source and tag, its argument bytes and whether it
is still held (not begun) and whether a continuity restart caught it (10 R263). -/
structure ServiceOp where
  src : Nat
  tag : Nat
  opcode : Nat
  object : Nat := 0
  data : List Byte := []
  notify : Bool := false
  held : Bool := false
  caught : Bool := false
  deriving DecidableEq, Repr

/-- The NVM operation in progress (03 R83): kind 1 slot write, 2 slot verify, 3 stage. -/
structure NvmOp where
  kind : Nat
  slot : Nat
  offset : Nat := 0
  op : ServiceOp
  deriving DecidableEq, Repr

/-- Cold start, image and panel state beyond registers (03). `milestone` is the last point t0..t10 of R50 passed, `t0` its
elapsed time; `por` says that POR_N is low, as it is until the first release; `panelLow` is when the present press began and
`panelLong` that it has requested its safe-stop; `testHold` says that TEST_EN read high (23 R519); `checking` is the slot under check and `other` says that the fall-back slot is being tried. -/
structure Boot where
  por : Bool := true
  t0 : Nat := 0
  milestone : Nat := 0
  waitRefclk : Bool := false
  testHold : Bool := false
  checking : Nat := 0
  other : Bool := false
  firstReason : Nat := 0
  streamed : Option ImageTables := none
  keyReadError : Bool := false
  sel0 : SelRec := {}
  sel1 : SelRec := {}
  restartBy : Option Nat := none
  nvm : Mem := []
  op : Option NvmOp := none
  staged : Option ImageTables := none
  stagedSlot : Nat := 0
  swapOp : Option ServiceOp := none
  swapAccepted : Nat := 0
  swapLate : Bool := false
  panelLow : Nat := 0
  panelLong : Bool := false
  stopAfterRestart : Bool := false
  deriving DecidableEq, Repr

/-- A node's working state (04 R91, R98–R101, 17 R413): AUTO, its timeout in ms, its last heartbeat or the tick it was declared,
the SID of the node a spare stands for (0 none), the last frame event and the frames since, and the node whose objects it has
exchanged with its own. -/
structure NodeSt where
  auto : Bool := false
  timeoutMs : Nat := 0
  heard : Nat := 0
  everHeard : Bool := false
  standsFor : Nat := 0
  lastEvt : Option Nat := none
  rateCount : Nat := 0
  boundTo : Option Nat := none
  deriving DecidableEq, Repr

/-- The world in force (04): the entries declared (16 bytes each), the declaration being checked and the last report. -/
structure World where
  entries : List (List Byte) := []
  checking : Option ServiceOp := none
  report : List (List Byte) := []
  nodes : Tab NodeSt := []
  deriving DecidableEq, Repr

/-- A pending action (05 R122, R124): its source, step index (0xFFFF for machines and posts), index in the action memory
(0xFFFFFFFF for a post), entry bytes, its time (none while it awaits its lane event), the tick from which it runs, whether it is
late, its placement and, for a CLAIM that waits for a ledger update, when it began to (06 R148). -/
structure Pend where
  src : ActSrc
  step : Nat
  idx : Nat
  entry : List Byte
  due : Option Nat
  runAt : Nat := 0
  late : Bool := false
  placed : Nat
  claimAt : Option Nat := none
  deriving DecidableEq, Repr

/-- A lane beyond its registers (05 R114–R120, R134–R137): the entries of the present step and of the next one once its start is
decided, the next step's index, the ends and starts known, what the wait has seen, the tolerance used, the wafer, a start that is
waiting, when the step began to wait for its safe-stop machine, the last fault tick and the check in progress. -/
structure LaneSt where
  cur : List Byte := []
  next : List Byte := []
  nextIdx : Nat := 0
  active : Bool := false
  tEnd : Nat := 0
  endAt : Option Nat := none
  tReady : Option Nat := none
  decided : Bool := false
  presented : Bool := false
  reasonsSeen : Nat := 0
  tolNs : Nat := 0
  tolFrom : Option Nat := none
  first : Bool := false
  held : Bool := false
  lastEpoch : Option Nat := none
  wafer : List Byte := []
  startAt : Option Nat := none
  startStep : Nat := 0
  safeSince : Option Nat := none
  safePosted : Bool := false
  faultAt : Option Nat := none
  faultRun : Bool := false
  check : Option ServiceOp := none
  checkSid : Nat := 0
  checkBank : Bool := false
  deriving DecidableEq, Repr

/-- A state machine beyond its register (05 R133): the queued events, the time of the last entry and the last 4 µs cycle in which
it was evaluated. -/
structure SmSt where
  queue : List Nat := []
  entered : Nat := 0
  cycle : Option Nat := none
  deriving DecidableEq, Repr

/-- A ramp generator at work (05 R123, 07 R183). -/
structure RampSt where
  start : Rat
  stop : Word
  durationUs : Nat
  curve : Nat
  begun : Nat
  src : ActSrc
  deriving DecidableEq, Repr

/-- A DISCRETE pulse in progress (05 R123). -/
structure PulseSt where
  back : Bool
  endAt : Nat
  action : Pend
  deriving DecidableEq, Repr

/-- Recipe lanes and the executor beyond their registers (05): the pending-action queue in order of placement, lanes, machines,
ramps and pulses by target, bit fields that the matrix holds, and the times of the actions of the last 2 µs (R125). -/
structure Seq where
  queue : List Pend := []
  lanes : Tab LaneSt := []
  sms : Tab SmSt := []
  ramps : Tab RampSt := []
  pulses : List (Nat × PulseSt) := []
  fieldForced : Tab Bool := []
  recent : List Nat := []
  deriving DecidableEq, Repr

/-- A consumer of the ledger (06): the lane holding its claim (255 none), committed and admitted claims, the minimum of the
present step, the rating in force, the limits that sheds put on it from its feed and circuit, its measured power, the grant in
force and one published for the next tick (R145). -/
structure ConsSt where
  lane : Nat := 255
  committed : Nat := 0
  admitted : Nat := 0
  min : Nat := 0
  rating : Nat := 0
  limitF : Option Rat := none
  limitC : Option Rat := none
  measured : Rat := 0
  grant : Rat := 0
  deriving DecidableEq, Repr

/-- A resource of the ledger (06 R142, R155): the declared capacity, the updates at which its restore conditions have held in a row, a requested
restore of all ranks and a temporary capacity waiting for the next update. -/
structure ResSt where
  declared : Nat := 0
  held : Nat := 0
  restoreAll : Bool := false
  newCap : Option Nat := none
  deriving DecidableEq, Repr

/-- A lane's claim set at the ledger (06 R146, R147, R149): the set presented (consumer, claim, minimum), when presented, whether
admitted, the start of its wait, the step it belongs to and the tick of its withdrawal. -/
structure ClaimSet where
  claims : List (Nat × Nat × Nat) := []
  presentedAt : Nat := 0
  waitingSince : Option Nat := none
  admitted : Bool := false
  step : Nat := 0
  withdrawn : Option Nat := none
  deriving DecidableEq, Repr

/-- The ledger beyond its registers (06): consumers, resources, claim sets by lane, the tick whose grants are published, the last
update, and the commands whose check is in progress. -/
structure Ledger where
  cons : Tab ConsSt := []
  res : Tab ResSt := []
  sets : Tab ClaimSet := []
  pub : Option Nat := none
  updAt : Option Nat := none
  deriving DecidableEq, Repr

/-- A plan in force (07 R172): its mode and points (time in ns, value), point 0 being the written value. -/
structure Plan where
  step : Bool := false
  points : List (Nat × Word) := []
  deriving DecidableEq, Repr

/-- An output stage beyond its registers (07): the latest plan and its start tick, the coasting start, host value, forced
interlock level and the policy value held when stale. -/
structure StageSt where
  plan : Plan := {}
  start : Nat := 0
  written : Bool := false
  coastSince : Option Nat := none
  hostVal : Word := 0
  lockVal : Word := 0
  ceilOn : Bool := false
  rangeOn : Bool := false
  accRat : Rat := 0
  accAt : Nat := 0
  lastDac : Option Nat := none
  before : Word := 0
  changedAt : Nat := 0
  deriving DecidableEq, Repr

/-- A completion route at work (07 R164, R165): completions counted and the latch. -/
structure RouteSt where
  count : Nat := 0
  latched : Bool := false
  deriving DecidableEq, Repr

/-- A loop beyond its registers (07 R166): its last dispatch and LOOP_SLOW event, and an enable or disable that waits for the end
of a continuity restart (05 R123). -/
structure LoopSt where
  lastDispatch : Option Nat := none
  slowPosted : Option Nat := none
  held : Option Bool := none
  deriving DecidableEq, Repr

/-- A thread beyond its registers: its ready time and last dispatch (09 R227, R228), a pending disable, suspension or continuity
suspension (1, 2, 3), the marks of its next activation (08 R204, 10 R246), whether it has a committed cairn, whether its slot is
being copied (08 R217), and the post results of its last commit (08 R202). -/
structure ThreadSt where
  readyAt : Nat := 0
  lastDispatch : Option Nat := none
  pendReq : Nat := 0
  replay : Bool := false
  resumed : Bool := false
  swapped : Bool := false
  cairned : Bool := false
  copying : Bool := false
  postRes : Nat := 0
  deriving DecidableEq, Repr

/-- A cached signal (08 R198): its value bits, flags and time, and the value it had
before that time (05 R130). -/
structure SigVal where
  value : DWord := 0
  flags : Nat := 0
  time : Nat := 0
  before : DWord := 0
  deriving DecidableEq, Repr

/-- The registers and control words of an activation on an engine (08 R192, R193), with the snapshot of `OBJ.LD` and, while a trap
handler runs, the trap record (09 R230). -/
structure EngCtx where
  v : Tab Word := []
  pc : Nat := 0
  fflags : Nat := 0
  arith : Nat := 0
  sflags : Nat := 0
  stime : Nat := 0
  oflags : Nat := 0
  cflags : Nat := 0
  htable : Nat := 0
  latch : Word := 0
  snap : List Byte := []
  kernel : Bool := false
  handler : Bool := false
  trapRec : List Byte := []
  deriving DecidableEq, Repr

/-- A staged post (08 R202): its kind, its SID, its event code and the action entry copied. -/
structure PostSt where
  kind : Nat
  sid : Nat
  code : Nat
  entry : List Byte
  deriving DecidableEq, Repr

/-- An activation (08 R193, R203, R212): its thread, number, how it began, dispatch time, budget left and used, what it has staged
(oldest first), and whether it has issued `DONE`. -/
structure ActSt where
  thread : Nat
  act : Nat
  start : Nat
  disp : Nat
  budget : Nat
  used : Nat := 0
  outs : List (Nat × Word × List Byte) := []
  sigs : List (Nat × DWord) := []
  posts : List PostSt := []
  cairn : Tab Word := []
  committing : Bool := false
  deriving DecidableEq, Repr

/-- An engine beyond its registers (08): its context and activation, the PREEMPTED activations with their contexts by priority, its
local RAMs, the epoch its writes carry, its store buffer (oldest first), whether it is held in reset, the end of an injected
silence, the fence (cause and time), the sample that waits for its skid (counter, cycles since the wrap), and a release at work. -/
structure EngSt where
  ctx : EngCtx := {}
  act : Option ActSt := none
  saved : List (Nat × EngCtx × ActSt) := []
  dram : Mem := []
  iram : List Byte := []
  epoch : Nat := 0
  stores : List (Nat × List Byte) := []
  inReset : Bool := true
  silentTo : Option Nat := none
  injected : Bool := false
  cause : Nat := 0
  fencedAt : Nat := 0
  skids : Tab Nat := []
  release : Option ServiceOp := none
  deriving DecidableEq, Repr

/-- A code set that waits for a stand-in (10 R247, R251): the fenced engine, the set and the moment of detection. -/
structure TakeItem where
  eng : Nat
  set : Nat
  at_ : Nat
  deriving DecidableEq, Repr

/-- Continuity beyond its registers (10): code sets that wait for their takeover, in order of their fences; the takeover
at work and its stand-in; the restart in progress (t0, state to return to, INSTALL, its command, whether it installed an
image, and the status it ends with); and the code swap in progress (thread, CAIRN_RESET, engines to copy to, slot bytes, command). -/
structure ContSt where
  waiting : List TakeItem := []
  taking : Option (TakeItem × Nat) := none
  t0 : Nat := 0
  back : Nat := 0
  install : Bool := false
  op : Option ServiceOp := none
  installed : Bool := false
  newFirmware : Bool := false
  endStatus : Nat := 0
  endReason : Nat := 0
  swapThread : Nat := 0
  swapReset : Bool := false
  swapEngines : List Nat := []
  swapCode : List Byte := []
  swapOp : Option ServiceOp := none
  deriving DecidableEq, Repr

/-- A TOUT pin beyond its registers (12 R301): its level, the time of its next edge, the time at which the pulse in progress falls, and the
late policy of its command. -/
structure ToutSt where
  level : Bool := false
  next : Option Nat := none
  fall : Nat := 0
  late : Nat := 0
  deriving DecidableEq, Repr

/-- A stamp in a port's transmit time-stamp queue (12 R299). -/
structure TxStamp where
  time : Nat
  kind : Nat
  seqId : Nat
  lost : Bool
  deriving DecidableEq, Repr

/-- The servo and time pins beyond their registers (12): samples within LOCK in a row, the last sample, the end of the slew in force, TOUT
pins, transmit stamps and ports that lost one, the last stamp of each TIN pin, the last PTP message of each port with its stamp, and,
for R296, the state a lane had before the tick of its last change. -/
structure TimeSt where
  good : Nat := 0
  last : Nat := 0
  slewEnd : Option Nat := none
  touts : Tab ToutSt := []
  txts : Tab (List TxStamp) := []
  txtsLost : Tab Bool := []
  tinAt : Tab Nat := []
  rx : Tab (Nat × List Byte) := []
  laneWas : Tab (Nat × Nat) := []
  deriving DecidableEq, Repr

/-- A safety input beyond its registers (18 R431, R432): state, filtered levels, the raw levels last sampled and since when, when the
channels began to disagree, the count of a COUNTER and when it last changed, when a button was pressed and whether its press has been
counted in this cycle. -/
structure SafIn where
  state : Nat := 0
  a : Bool := false
  b : Bool := false
  rawA : Bool := false
  rawB : Bool := false
  sinceA : Nat := 0
  sinceB : Nat := 0
  split : Option Nat := none
  count : Nat := 0
  moved : Option Nat := none
  encA : Bool := false
  encB : Bool := false
  pressed : Option Nat := none
  counted : Bool := false
  deriving DecidableEq, Repr

/-- A safety output (18 R433, R434): state, its two faults, and by when EDM must follow. -/
structure SafOut where
  state : Nat := 0
  edmFault : Bool := false
  testFault : Bool := false
  due : Option Nat := none
  deriving DecidableEq, Repr

/-- A safe brake (18 R444–R447): state, result and slip of the last test, EDM due, the start of the present phase of a test, the count at
the window's start and the largest excursion, OVERDUE, the cycle of the last PASS and its time, the cycle it became overdue in and
whether its grace has expired. -/
structure SafBrk where
  state : Nat := 0
  result : Nat := 0
  slip : Nat := 0
  due : Option Nat := none
  phase : Nat := 0
  origin : Nat := 0
  overdue : Bool := false
  passed : Option Nat := none
  passAt : Nat := 0
  overdueAt : Nat := 0
  graceOut : Bool := false
  failed : Bool := false
  deriving DecidableEq, Repr

/-- A copy of a safe message (18 R436, R437). -/
structure SafCopy where
  net : Nat
  time : Nat
  data : Nat
  counter : Nat
  status : Nat
  deriving DecidableEq, Repr

/-- A connection (18 R435–R438): state, effective data, last accepted COUNTER, the network missing, rejected copies and gaps, when data was
last accepted, matching pairs in a row, the end of a grace and whether one has been used, copies waiting for their partners, and
pairs to be accepted at the cycle's end. -/
structure SafConn where
  state : Nat := 0
  data : Nat := 0
  counter : Option Nat := none
  missing : Nat := 0
  errors : Nat := 0
  gaps : Nat := 0
  accepted : Nat := 0
  run : Nat := 0
  graceEnd : Nat := 0
  graceUsed : Bool := false
  waiting : List SafCopy := []
  ready : List (SafCopy × SafCopy) := []
  deriving DecidableEq, Repr

/-- A safety function (18 R440–R442): state, the time of the demand that began STOPPING, and whether an automatic release has been refused
since it last left AWAIT_RESET. -/
structure SafFn where
  state : Nat := 0
  demandAt : Nat := 0
  refused : Bool := false
  deriving DecidableEq, Repr

/-- The safety island (18). `notes` are SAFETY records and `flags` flag bits that the mirror takes over with the next copy; `next` is a
set to be applied at the next cycle boundary. -/
structure SiSt where
  state : Nat := 0
  fault : Nat := 0
  sd : Nat := 0xF
  refLost : Bool := false
  refSince : Nat := 0
  params : List Byte := []
  passed : List Byte := []
  paramsOk : Bool := false
  cycles : Nat := 0
  edm : Nat := 0
  ins : Tab SafIn := []
  outs : Tab SafOut := []
  brks : Tab SafBrk := []
  conns : Tab SafConn := []
  fns : Tab SafFn := []
  notes : List (Nat × List Byte) := []
  flags : List Nat := []
  next : Option (List Byte) := none
  count : Nat := 0
  deriving DecidableEq, Repr

/-- The safety parameters outside the island (18 R449, R450): what the MI holds in force and last took from an image, the change count,
and the pending stage with its CRC-32 and whether it is confirmed. -/
structure SafSt where
  inForce : List Byte := []
  taken : List Byte := []
  count : Nat := 0
  pend : Option ServiceOp := none
  crc : Nat := 0
  deadline : Nat := 0
  confirmed : Bool := false
  deriving DecidableEq, Repr

/-- What leaves the controller and how it is accounted: the REC, HST and BAR2 registers, the recorder, the completions owed, the
host queues and the bytes written into host memory, how many entries have been written (21 R491), and the command queue whose turn it is
with the entries it has had (19 R462). Nothing here reaches back into control (01 R9, R17). -/
structure OutSt where
  regs : Tab Word := []
  rrAt : Nat := 1
  rrTaken : Nat := 0
  entries : Nat := 0
  rcd : Recorder := {}
  slots : List Slot := []
  q : Tab QueueSt := []
  mem : Mem := []
  deriving DecidableEq, Repr

/-- A PWM pair beyond its registers (15): the start of the period in progress (ns), whether its mid-point has passed, the values
that governed its first half, whether the last period ended with the high side on, a commit waiting (R352), what the last update
point moved (R353: 1 PERIOD, 2 DUTY), a stop waiting (1 at the next boundary, 2 on resuming), the end of the restart delay, a
waiting override and configuration, the slow output's level and its edges waiting for TIN (R357), the master boundary last
followed (R358) and the source that forced it. -/
structure PairSt where
  start : Nat := 0
  half : Bool := false
  oldPeriod : Nat := 0
  oldDuty : Nat := 0
  endedHigh : Bool := false
  committed : Bool := false
  moved : Nat := 0
  stopAt : Nat := 0
  restartAt : Option Nat := none
  ovr : Option Nat := none
  cfg : Option (List Byte) := none
  slowHigh : Bool := false
  waitOn : Option Nat := none
  waitOff : Option Nat := none
  synced : Option Nat := none
  forcedBy : Nat := 0
  deriving DecidableEq, Repr

/-- A trip source beyond its registers (15 R359–R365): its pin's level, its own driver's activity, when the pin last changed, the
driver's assertion instant, whether it waits for a blanking window's end, and its last event (R365). -/
structure TripSt where
  pin : Bool := false
  own : Bool := false
  since : Nat := 0
  assertAt : Nat := 0
  blanked : Bool := false
  lastEvt : Option Nat := none
  deriving DecidableEq, Repr

/-- A motion axis beyond its registers (16): direction, speed, acceleration along it, the profile's exact position and the steps
issued (pu, unwrapped); the move in force (mode 0 to 4, 5 a stop of the controller's own), its target, commanded speed, profile
set in force and waiting (R382), scale in a group (R393), a deceleration held or raised (R381, R382), the limit that a velocity
runs to, the move that follows a reversal, and what delays its pulses; then the resolution, deviation and encoder. -/
structure AxisSt where
  dir : Int := 1
  s : Rat := 0
  a : Rat := 0
  pos : Rat := 0
  cmd : Int := 0
  mode : Nat := 3
  target : Rat := 0
  speed : Rat := 0
  set : Nat := 0
  prof : List Byte := []
  profNext : Option (List Byte) := none
  scale : Rat := 1
  decel : Option Rat := none
  limit : Option Rat := none
  braking : Bool := false
  ending : Bool := false
  next : Option (Nat × Rat × Nat) := none
  restAt : Nat := 0
  templ : Bool := false
  hold : Bool := false
  startAt : Nat := 0
  dirAt : Nat := 0
  lastStep : Nat := 0
  entry : Nat := 0
  switching : Option Nat := none
  devSince : Option Nat := none
  softOn : Bool := false
  offset : Int := 0
  encA : Bool := false
  encB : Bool := false
  lastEdge : Nat := 0
  grp : Option Nat := none
  lastRec : Nat := 0
  bound : Bool := false
  deriving DecidableEq, Repr

/-- A discrete line beyond its registers (17 R419, R420): the level that its writers last gave it, the last record's time and the
edges since. -/
structure DioSt where
  want : Bool := false
  lockForced : Bool := false
  lastRec : Option Nat := none
  edges : Nat := 0
  deriving DecidableEq, Repr

/-- A receive object's stored frame (17 R404, R405). -/
structure RxoSt where
  data : List Byte := []
  af : Nat := 0
  sdt : Nat := 0
  vcid : Nat := 0
  sec : Bool := false
  deriving DecidableEq, Repr

/-- A transmit object beyond its registers (17 R407–R410): its data, the data of the frame in progress, a cancel taken while
COMMITTED, and the next cyclic period. -/
structure TxoSt where
  data : List Byte := []
  frame : Option (List Byte) := none
  cancelled : Bool := false
  due : Option Nat := none
  deriving DecidableEq, Repr

/-- A CAN controller beyond its registers (17 R399–R411): the mode asked for while a frame is in progress, the detection at work
(candidates, the one on trial, when it began, frames without error in a row, data phase seen, DWELL and TIMEOUT and the command)
and the state to return to. -/
structure CanSt where
  want : Option (Nat × Nat × Bool) := none
  mask : Nat := 0
  trying : Nat := 0
  tryAt : Nat := 0
  good : Nat := 0
  heard : Nat := 0
  brsSeen : Bool := false
  dwell : Nat := 0
  timeoutAt : Nat := 0
  op : Option ServiceOp := none
  back : Nat := 0
  backSet : Nat := 0
  deriving DecidableEq, Repr

/-- A serial request waiting at a port (17 R417): an entry (64 for SEND), its bytes and the command. -/
structure SerReq where
  entry : Nat
  bytes : List Byte := []
  op : Option ServiceOp := none
  deriving DecidableEq, Repr

/-- A serial port beyond its registers (17 R417): waiting requests, AUTO entries due, the transaction in progress and its attempt,
when its request ended, whether its response is awaited, the turn-around, and a switch to OFF that waits. -/
structure SerSt where
  queue : List SerReq := []
  due : List Nat := []
  next : Tab Nat := []
  cur : Option SerReq := none
  attempt : Nat := 0
  sentAt : Nat := 0
  await : Bool := false
  turnFrom : Option Nat := none
  again : Bool := false
  off : Bool := false
  deriving DecidableEq, Repr

/-- A SAR converter beyond its registers (13 R309–R314): the input on conversion, configuration changes waiting for the next scan,
urgent requests, discharge slots still to come, the end of the settling window, the scan's start, the queue (time, input, tags,
code), inputs that lost a result and inputs whose range changed. -/
structure ConvSt where
  cur : Nat := 0
  pend : Tab Nat := []
  urgent : List (Nat × Option ServiceOp) := []
  slots : Nat := 0
  settleTo : Option Nat := none
  scanAt : Nat := 0
  queue : List (Nat × Nat × Nat × Nat) := []
  lost : List Nat := []
  ranged : List Nat := []
  deriving DecidableEq, Repr

/-- A bridge channel beyond its registers (13 R315–R317). -/
structure BrgSt where
  pend : Option Nat := none
  settleAt : Nat := 0
  ranged : Bool := false
  exc : Bool := false
  deriving DecidableEq, Repr

/-- A DAC beyond its register (13 R321, 07 R169): its last load and a code waiting for the end of that microsecond. -/
structure DacSt where
  loadAt : Option Nat := none
  waiting : Option Nat := none
  deriving DecidableEq, Repr

/-- Sealed calibration (13 R318–R320): the counter and the MI's curves, which outlast a cold start, the set last taken from an
image, the pending stage, its CRC-32 and whether it is confirmed. -/
structure CalSt where
  count : Nat := 0
  curves : Tab (List Byte) := []
  taken : Tab (List Byte) := []
  pend : Option ServiceOp := none
  crc : Nat := 0
  confirmed : Bool := false
  deriving DecidableEq, Repr

/-- A take beyond its registers (14 R339–R343): samples written since it was armed, the samples kept (oldest first), those after
the trigger, the trigger (instant, kind, LATE), the instant of its trigger sample, truncation, clamped samples and the first of
them, and what its header says of missed events; then its hand-off. -/
structure TakeSt where
  written : Nat := 0
  pre : List Int := []
  post : List Int := []
  instant : Nat := 0
  kind : Nat := 0
  late : Bool := false
  lateArm : Bool := false
  short : Bool := false
  trunc : Bool := false
  trigTime : Nat := 0
  ovrs : List Nat := []
  missed : Nat := 0
  firstMissed : Nat := 0
  started : Bool := false
  noRearm : Bool := false
  deriving DecidableEq, Repr

/-- A fast channel beyond its registers (14): the takes that are ARMED, TRIGGERED or QUEUED in order, those in hand-off, the
hold-off, missed events since the last take completed, the open block and the last stored sample. -/
structure FchSt where
  queue : List Nat := []
  handing : List Nat := []
  holdTo : Option Nat := none
  holdEvents : Nat := 0
  missed : Nat := 0
  firstMissed : Nat := 0
  block : List Int := []
  blockOvr : Bool := false
  blockCmp : Bool := false
  last : Option Int := none
  deriving DecidableEq, Repr

/-- Everything but the fuses, the island and the queue of commands. -/
structure Block where
  regs : Tab Word := []
  latch : Tab Word := []
  staging : Tab Word := []
  out : OutSt := {}
  now : Nat := 0
  frac : Nat := 0
  elapsed : Nat := 0
  refclk : Bool := false
  free : Nat := 0
  boot : Boot := {}
  cfg : Tab (List Byte) := []
  bankA : Tab (List Byte) := []
  bankB : Tab (List Byte) := []
  img : Tab (List Byte) := []
  sram : Mem := []
  cairn : Mem := []
  acqMem : Mem := []
  mgmt : Mgmt := {}
  world : World := {}
  seq : Seq := {}
  lgr : Ledger := {}
  heldOps : List ServiceOp := []
  stages : Tab StageSt := []
  routes : Tab RouteSt := []
  loops : Tab LoopSt := []
  sigs : Tab SigVal := []
  threads : Tab ThreadSt := []
  pairs : Tab PairSt := []
  trips : Tab TripSt := []
  tripForced : Tab Nat := []
  tripBank : Bool := false
  axes : Tab AxisSt := []
  dcp : Tab (List (Nat × Nat)) := []
  dio : Tab DioSt := []
  rxos : Tab RxoSt := []
  txos : Tab TxoSt := []
  cans : Tab CanSt := []
  sers : Tab SerSt := []
  convs : Tab ConvSt := []
  brgs : Tab BrgSt := []
  dacs : Tab DacSt := []
  winCount : Tab Nat := []
  cal : CalSt := {}
  takes : Tab TakeSt := []
  fchs : Tab FchSt := []
  engs : Tab EngSt := []
  cont : ContSt := {}
  tim : TimeSt := {}
  saf : SafSt := {}
  deriving DecidableEq, Repr

/-- The state of the block: the waiting commands first in, first out, the fuses, the safety island, and the rest. -/
structure State where
  pending : List Instr := []
  fuses : Fuses := {}
  si : SiSt := {}
  b : Block := {}
  deriving DecidableEq, Repr

/-- The controller as shipped, before its first cold start: every register at its reset value, no command waiting (the values
that the manual does not give are log 2). -/
def State.reset : State := {}

end Sys2Proof.Machine
end

