-- ==== Sys2Proof/Machine/RegMap.lean ====
section
/-! DEFINITION. Machine/RegMap.lean: the register map, row by row as the chapters give it (02 R47 and the register tables of
every chapter): offset, instances, access code, reset value and writer set (02 R27, R28). BAR2 (19 R460) stands at
0x0800_0000 in this numbering (log 10). -/

namespace Sys2Proof.Machine

/-- The access codes of 02 R27. -/
inductive Acc where
  | ro | rw | wo | w1c | w1s | rc | rwl
  deriving DecidableEq, Repr

/-- A row of a register table: base offset, two levels of instances (count, stride), access, reset, writers among host,
management and engines, and whether it is a 64-bit pair (02 R34). -/
structure RegRow where
  base : Nat
  n1 : Nat
  s1 : Nat
  n2 : Nat
  s2 : Nat
  acc : Acc
  reset : Nat
  h : Bool
  m : Bool
  e : Bool
  wide : Bool
  deriving DecidableEq, Repr

namespace Reg

/-- `SYS.ID` (R32). -/
def sysId : Nat := 0x00000000
/-- `SYS.WRITE_REFUSED` (R32). -/
def sysWriteRefused : Nat := 0x00000008
/-- `SYS.UNMAPPED` (R32). -/
def sysUnmapped : Nat := 0x0000000C
/-- `SYS.STATE_CONFLICTS` (R32). -/
def sysStateConflicts : Nat := 0x00000010
/-- `SYS.STATE` (R84). -/
def sysState : Nat := 0x00000020
/-- `SYS.START_US` (R84). -/
def sysStartUs : Nat := 0x00000024
/-- `SYS.PANEL` (R84). -/
def sysPanel : Nat := 0x00000030
/-- `SYS.PANEL_FLAGS` (R84). -/
def sysPanelFlags : Nat := 0x00000034
/-- `SYS.PANEL_FLAGS_SETS` (R84). -/
def sysPanelFlagsSets : Nat := 0x00000038
/-- `SYS.LOCK` (R84). -/
def sysLock : Nat := 0x000FFFF0
/-- `IMG.RUNNING` (R85). -/
def imgRunning : Nat := 0x00200000
/-- `IMG.FUSE` (R85). -/
def imgFuse : Nat := 0x00200004
/-- `IMG.BUILD_ID[0..7]` (R85). -/
def imgBuildId (i : Nat) : Nat := 0x00200010 + 0x4 * i
/-- `IMG.SLOT[n].STATUS` (R85). -/
def imgSlotStatus (i : Nat) : Nat := 0x00200030 + 0x4 * i
/-- `IMG.SELECT` (R85). -/
def imgSelect : Nat := 0x00200040
/-- `IMG.BANK` (R85). -/
def imgBank : Nat := 0x00200048
/-- `IMG.SWAP_AT` (R85). -/
def imgSwapAt : Nat := 0x00200050
/-- `IMG.BANK_CRC` (R85). -/
def imgBankCrc : Nat := 0x00200058
/-- `IMG.STAGE` (R85). -/
def imgStage : Nat := 0x0020005C
/-- `IMG.FLAGS` (R85). -/
def imgFlags : Nat := 0x00200060
/-- `IMG.FLAGS_SETS` (R85). -/
def imgFlagsSets : Nat := 0x00200064
/-- `IMG.LOCK` (R85). -/
def imgLock : Nat := 0x002FFFF0
/-- `WLD.STATE` (R106). -/
def wldState : Nat := 0x00300000
/-- `WLD.GENERATION` (R106). -/
def wldGeneration : Nat := 0x00300004
/-- `WLD.APPLIED_AT` (R106). -/
def wldAppliedAt : Nat := 0x00300008
/-- `WLD.CHECK` (R106). -/
def wldCheck : Nat := 0x00300010
/-- `WLD.FLAGS` (R106). -/
def wldFlags : Nat := 0x00300014
/-- `WLD.FLAGS_SETS` (R106). -/
def wldFlagsSets : Nat := 0x00300018
/-- `WLD.RETIRED_FRAMES[b]` (R106). -/
def wldRetiredFrames (i : Nat) : Nat := 0x00300020 + 0x4 * i
/-- `WLD.UNDECLARED_FRAMES[b]` (R106). -/
def wldUndeclaredFrames (i : Nat) : Nat := 0x00300040 + 0x4 * i
/-- `WLD.CHAMBER[n]` (R106). -/
def wldChamber (i : Nat) : Nat := 0x00300100 + 0x4 * i
/-- `WLD.NODE[b][n]` (R106). -/
def wldNode (i : Nat) (j : Nat) : Nat := 0x00301000 + 0x400 * i + 0x4 * j
/-- `WLD.LOCK` (R106). -/
def wldLock : Nat := 0x003FFFF0
/-- `SEQ.QUEUE` (R139). -/
def seqQueue : Nat := 0x00400000
/-- `SEQ.POOL` (R139). -/
def seqPool : Nat := 0x00400004
/-- `SEQ.ACTIONS_APPLIED` (R139). -/
def seqActionsApplied : Nat := 0x00400008
/-- `SEQ.LATE` (R139). -/
def seqLate : Nat := 0x00400010
/-- `SEQ.INTERLOCK_REFUSALS` (R139). -/
def seqInterlockRefusals : Nat := 0x00400014
/-- `SEQ.SM_DROPS` (R139). -/
def seqSmDrops : Nat := 0x00400018
/-- `SEQ.FLAGS` (R139). -/
def seqFlags : Nat := 0x00400020
/-- `SEQ.FLAGS_SETS` (R139). -/
def seqFlagsSets : Nat := 0x00400024
/-- `SEQ.LANE[n].STATE` (R139). -/
def seqLaneState (i : Nat) : Nat := 0x00401000 + 0x40 * i
/-- `SEQ.LANE[n].RECIPE` (R139). -/
def seqLaneRecipe (i : Nat) : Nat := 0x00401004 + 0x40 * i
/-- `SEQ.LANE[n].STEP` (R139). -/
def seqLaneStep (i : Nat) : Nat := 0x00401008 + 0x40 * i
/-- `SEQ.LANE[n].QUOTA` (R139). -/
def seqLaneQuota (i : Nat) : Nat := 0x0040100C + 0x40 * i
/-- `SEQ.LANE[n].STEP_START` (R139). -/
def seqLaneStepStart (i : Nat) : Nat := 0x00401010 + 0x40 * i
/-- `SEQ.LANE[n].HOLD_SINCE` (R139). -/
def seqLaneHoldSince (i : Nat) : Nat := 0x00401018 + 0x40 * i
/-- `SEQ.LANE[n].FLAGS` (R139). -/
def seqLaneFlags (i : Nat) : Nat := 0x00401020 + 0x40 * i
/-- `SEQ.LANE[n].FLAGS_SETS` (R139). -/
def seqLaneFlagsSets (i : Nat) : Nat := 0x00401024 + 0x40 * i
/-- `SEQ.LANE[n].RUN` (R139). -/
def seqLaneRun (i : Nat) : Nat := 0x00401028 + 0x40 * i
/-- `SEQ.LANE[n].FAULT` (R139). -/
def seqLaneFault (i : Nat) : Nat := 0x0040102C + 0x40 * i
/-- `SEQ.SM[m].STATE` (R139). -/
def seqSmState (i : Nat) : Nat := 0x00402000 + 0x4 * i
/-- `SEQ.LOCK` (R139). -/
def seqLock : Nat := 0x004FFFF0
/-- `LGR.STATE` (R161). -/
def lgrState : Nat := 0x00500000
/-- `LGR.UPDATES` (R161). -/
def lgrUpdates : Nat := 0x00500008
/-- `LGR.FLAGS` (R161). -/
def lgrFlags : Nat := 0x00500010
/-- `LGR.FLAGS_SETS` (R161). -/
def lgrFlagsSets : Nat := 0x00500014
/-- `LGR.SHEDS` (R161). -/
def lgrSheds : Nat := 0x00500018
/-- `LGR.THERMAL` (R161). -/
def lgrThermal : Nat := 0x0050001C
/-- `LGR.THERMAL_ENTRIES` (R161). -/
def lgrThermalEntries : Nat := 0x00500020
/-- `LGR.RES[r].CAPACITY` (R161). -/
def lgrResCapacity (i : Nat) : Nat := 0x00500100 + 0x20 * i
/-- `LGR.RES[r].RESERVE` (R161). -/
def lgrResReserve (i : Nat) : Nat := 0x00500104 + 0x20 * i
/-- `LGR.RES[r].STANDING` (R161). -/
def lgrResStanding (i : Nat) : Nat := 0x00500108 + 0x20 * i
/-- `LGR.RES[r].GRANTED` (R161). -/
def lgrResGranted (i : Nat) : Nat := 0x0050010C + 0x20 * i
/-- `LGR.RES[r].MEASURED` (R161). -/
def lgrResMeasured (i : Nat) : Nat := 0x00500110 + 0x20 * i
/-- `LGR.RES[r].LIMIT` (R161). -/
def lgrResLimit (i : Nat) : Nat := 0x00500114 + 0x20 * i
/-- `LGR.RES[r].STATUS` (R161). -/
def lgrResStatus (i : Nat) : Nat := 0x00500118 + 0x20 * i
/-- `LGR.LANE[n].WAIT` (R161). -/
def lgrLaneWait (i : Nat) : Nat := 0x00500400 + 0x10 * i
/-- `LGR.LANE[n].WAIT_SINCE` (R161). -/
def lgrLaneWaitSince (i : Nat) : Nat := 0x00500408 + 0x10 * i
/-- `LGR.CONS[c].CLAIM` (R161). -/
def lgrConsClaim (i : Nat) : Nat := 0x00501000 + 0x10 * i
/-- `LGR.CONS[c].GRANT` (R161). -/
def lgrConsGrant (i : Nat) : Nat := 0x00501004 + 0x10 * i
/-- `LGR.CONS[c].MEASURED` (R161). -/
def lgrConsMeasured (i : Nat) : Nat := 0x00501008 + 0x10 * i
/-- `LGR.CONS[c].STATUS` (R161). -/
def lgrConsStatus (i : Nat) : Nat := 0x0050100C + 0x10 * i
/-- `LGR.LOCK` (R161). -/
def lgrLock : Nat := 0x005FFFF0
/-- `OUT.COUNT_A` (R187). -/
def outCountA : Nat := 0x00600000
/-- `OUT.COUNT_B` (R187). -/
def outCountB : Nat := 0x00600004
/-- `OUT.COMMITS` (R187). -/
def outCommits : Nat := 0x00600008
/-- `OUT.FLAGS` (R187). -/
def outFlags : Nat := 0x00600010
/-- `OUT.FLAGS_SETS` (R187). -/
def outFlagsSets : Nat := 0x00600014
/-- `OUT.PLAN_ERRORS` (R187). -/
def outPlanErrors : Nat := 0x00600018
/-- `OUT.FOREIGN_WRITES` (R187). -/
def outForeignWrites : Nat := 0x0060001C
/-- `OUT.DISCARDED_COMMITS` (R187). -/
def outDiscardedCommits : Nat := 0x00600020
/-- `OUT.MAX_COAST` (R187). -/
def outMaxCoast : Nat := 0x00600024
/-- `OUT.STAGE[n].STATE` (R187). -/
def outStageState (i : Nat) : Nat := 0x00601000 + 0x20 * i
/-- `OUT.STAGE[n].VALUE` (R187). -/
def outStageValue (i : Nat) : Nat := 0x00601004 + 0x20 * i
/-- `OUT.STAGE[n].CEILING` (R187). -/
def outStageCeiling (i : Nat) : Nat := 0x00601008 + 0x20 * i
/-- `OUT.STAGE[n].AGE` (R187). -/
def outStageAge (i : Nat) : Nat := 0x0060100C + 0x20 * i
/-- `OUT.STAGE[n].LAST_WRITE` (R187). -/
def outStageLastWrite (i : Nat) : Nat := 0x00601010 + 0x20 * i
/-- `OUT.STAGE[n].FLAGS` (R187). -/
def outStageFlags (i : Nat) : Nat := 0x00601018 + 0x20 * i
/-- `OUT.STAGE[n].FLAGS_SETS` (R187). -/
def outStageFlagsSets (i : Nat) : Nat := 0x0060101C + 0x20 * i
/-- `OUT.LOOP[l].STATE` (R187). -/
def outLoopState (i : Nat) : Nat := 0x00609000 + 0x20 * i
/-- `OUT.LOOP[l].PERIOD` (R187). -/
def outLoopPeriod (i : Nat) : Nat := 0x00609004 + 0x20 * i
/-- `OUT.LOOP[l].ACTIVATIONS` (R187). -/
def outLoopActivations (i : Nat) : Nat := 0x00609008 + 0x20 * i
/-- `OUT.LOOP[l].PERIOD_MAX` (R187). -/
def outLoopPeriodMax (i : Nat) : Nat := 0x00609010 + 0x20 * i
/-- `OUT.LOOP[l].MISSED_INPUTS` (R187). -/
def outLoopMissedInputs (i : Nat) : Nat := 0x00609014 + 0x20 * i
/-- `OUT.LOOP[l].EXTRA_INPUTS` (R187). -/
def outLoopExtraInputs (i : Nat) : Nat := 0x00609018 + 0x20 * i
/-- `OUT.LOCK` (R187). -/
def outLock : Nat := 0x006FFFF0
/-- `ENG[n].STATE` (R221). -/
def engState (i : Nat) : Nat := 0x00800000 + 0x4000 * i
/-- `ENG[n].ROLE` (R221). -/
def engRole (i : Nat) : Nat := 0x00800004 + 0x4000 * i
/-- `ENG[n].EPOCH` (R221). -/
def engEpoch (i : Nat) : Nat := 0x00800008 + 0x4000 * i
/-- `ENG[n].FENCED_WRITES` (R221). -/
def engFencedWrites (i : Nat) : Nat := 0x0080000C + 0x4000 * i
/-- `ENG[n].ACTIVATIONS` (R221). -/
def engActivations (i : Nat) : Nat := 0x00800010 + 0x4000 * i
/-- `ENG[n].BUSY_CYCLES` (R221). -/
def engBusyCycles (i : Nat) : Nat := 0x00800018 + 0x4000 * i
/-- `ENG[n].FLAGS` (R221). -/
def engFlags (i : Nat) : Nat := 0x00800020 + 0x4000 * i
/-- `ENG[n].FLAGS_SETS` (R221). -/
def engFlagsSets (i : Nat) : Nat := 0x00800024 + 0x4000 * i
/-- `ENG[n].TRAPS` (R221). -/
def engTraps (i : Nat) : Nat := 0x00800028 + 0x4000 * i
/-- `ENG[n].BUDGET_ABORTS` (R221). -/
def engBudgetAborts (i : Nat) : Nat := 0x0080002C + 0x4000 * i
/-- `ENG[n].LAST_TRAP` (R221). -/
def engLastTrap (i : Nat) : Nat := 0x00800030 + 0x4000 * i
/-- `ENG[n].LAST_TRAP_PC` (R221). -/
def engLastTrapPc (i : Nat) : Nat := 0x00800034 + 0x4000 * i
/-- `ENG[n].LAST_TRAP_ARG` (R221). -/
def engLastTrapArg (i : Nat) : Nat := 0x00800038 + 0x4000 * i
/-- `ENG[n].ECC` (R221). -/
def engEcc (i : Nat) : Nat := 0x0080003C + 0x4000 * i
/-- `ENG[n].LAST_DISPATCH` (R221). -/
def engLastDispatch (i : Nat) : Nat := 0x00800040 + 0x4000 * i
/-- `ENG.SRAM_SPLIT` (R221). -/
def engSramSplit : Nat := 0x008A0000
/-- `ENG.SWAP` (R221). -/
def engSwap : Nat := 0x008A0004
/-- `ENG.LOCK` (R221). -/
def engLock : Nat := 0x008FFFF0
/-- `DSP.COUNTS` (R241). -/
def dspCounts : Nat := 0x00700000
/-- `DSP.DISPATCHES` (R241). -/
def dspDispatches : Nat := 0x00700008
/-- `DSP.PREEMPTIONS` (R241). -/
def dspPreemptions : Nat := 0x00700010
/-- `DSP.FLAGS` (R241). -/
def dspFlags : Nat := 0x00700018
/-- `DSP.FLAGS_SETS` (R241). -/
def dspFlagsSets : Nat := 0x0070001C
/-- `DSP.DISCARDS` (R241). -/
def dspDiscards : Nat := 0x00700020
/-- `DSP.CANCELS` (R241). -/
def dspCancels : Nat := 0x00700024
/-- `DSP.ABORTS` (R241). -/
def dspAborts : Nat := 0x00700028
/-- `DSP.MAX_WAIT` (R241). -/
def dspMaxWait : Nat := 0x0070002C
/-- `DSP.FLOOR_HELD` (R241). -/
def dspFloorHeld : Nat := 0x00700030
/-- `DSP.TRACE_EN[w]` (R241). -/
def dspTraceEn (i : Nat) : Nat := 0x00700040 + 0x4 * i
/-- `DSP.THREAD[t].STATE` (R241). -/
def dspThreadState (i : Nat) : Nat := 0x00701000 + 0x10 * i
/-- `DSP.THREAD[t].ACT` (R241). -/
def dspThreadAct (i : Nat) : Nat := 0x00701004 + 0x10 * i
/-- `DSP.THREAD[t].ABORTS` (R241). -/
def dspThreadAborts (i : Nat) : Nat := 0x00701008 + 0x10 * i
/-- `DSP.THREAD[t].DISCARDS` (R241). -/
def dspThreadDiscards (i : Nat) : Nat := 0x0070100C + 0x10 * i
/-- `DSP.LOCK` (R241). -/
def dspLock : Nat := 0x007FFFF0
/-- `CNT.STATE` (R271). -/
def cntState : Nat := 0x00900000
/-- `CNT.FLAGS` (R271). -/
def cntFlags : Nat := 0x00900004
/-- `CNT.FLAGS_SETS` (R271). -/
def cntFlagsSets : Nat := 0x00900008
/-- `CNT.FAILOVERS` (R271). -/
def cntFailovers : Nat := 0x0090000C
/-- `CNT.RESTARTS` (R271). -/
def cntRestarts : Nat := 0x00900010
/-- `CNT.LAST_FAULT` (R271). -/
def cntLastFault : Nat := 0x00900014
/-- `CNT.LAST_FAULT_AT` (R271). -/
def cntLastFaultAt : Nat := 0x00900018
/-- `CNT.TAKEOVER_NS` (R271). -/
def cntTakeoverNs : Nat := 0x00900020
/-- `CNT.MAX_TAKEOVER` (R271). -/
def cntMaxTakeover : Nat := 0x00900024
/-- `CNT.RESTART_US` (R271). -/
def cntRestartUs : Nat := 0x00900028
/-- `CNT.QUIESCE_ABANDONS` (R271). -/
def cntQuiesceAbandons : Nat := 0x0090002C
/-- `CNT.DUPLICATES` (R271). -/
def cntDuplicates : Nat := 0x00900030
/-- `CNT.LOCK` (R271). -/
def cntLock : Nat := 0x009FFFF0
/-- `REC.STATE` (R290). -/
def recState : Nat := 0x00A00000
/-- `REC.FLAGS` (R290). -/
def recFlags : Nat := 0x00A00008
/-- `REC.FLAGS_SETS` (R290). -/
def recFlagsSets : Nat := 0x00A0000C
/-- `REC.RECORDS` (R290). -/
def recRecords : Nat := 0x00A00010
/-- `REC.BYTES` (R290). -/
def recBytes : Nat := 0x00A00018
/-- `REC.TAP_LOSS` (R290). -/
def recTapLoss : Nat := 0x00A00020
/-- `REC.WRITE_SEG` (R290). -/
def recWriteSeg : Nat := 0x00A00028
/-- `REC.OLDEST_SEG` (R290). -/
def recOldestSeg : Nat := 0x00A00030
/-- `REC.REEL_LOSS` (R290). -/
def recReelLoss : Nat := 0x00A00038
/-- `REC.REEL_SEGMENTS` (R290). -/
def recReelSegments : Nat := 0x00A0003C
/-- `REC.BOOT_ID` (R290). -/
def recBootId : Nat := 0x00A00040
/-- `REC.FLUSH_US` (R290). -/
def recFlushUs : Nat := 0x00A00044
/-- `REC.REWIND_US` (R290). -/
def recRewindUs : Nat := 0x00A00048
/-- `REC.FILTERS` (R290). -/
def recFilters : Nat := 0x00A0004C
/-- `REC.PORT[p].STATE` (R290). -/
def recPortState (i : Nat) : Nat := 0x00A00100 + 0x40 * i
/-- `REC.PORT[p].SENT_SEG` (R290). -/
def recPortSentSeg (i : Nat) : Nat := 0x00A00108 + 0x40 * i
/-- `REC.PORT[p].DATAGRAMS` (R290). -/
def recPortDatagrams (i : Nat) : Nat := 0x00A00110 + 0x40 * i
/-- `REC.PORT[p].BACKLOG` (R290). -/
def recPortBacklog (i : Nat) : Nat := 0x00A00118 + 0x40 * i
/-- `REC.PORT[p].FAILOVERS` (R290). -/
def recPortFailovers (i : Nat) : Nat := 0x00A0011C + 0x40 * i
/-- `REC.QUEUE[q].DROPS` (R290). -/
def recQueueDrops (i : Nat) : Nat := 0x00A00200 + 0x4 * i
/-- `REC.LOCK` (R290). -/
def recLock : Nat := 0x00AFFFF0
/-- `TB.TIME` (R306). -/
def tbTime : Nat := 0x00B00000
/-- `TB.STATE` (R306). -/
def tbState : Nat := 0x00B00008
/-- `TB.FLAGS` (R306). -/
def tbFlags : Nat := 0x00B0000C
/-- `TB.FLAGS_SETS` (R306). -/
def tbFlagsSets : Nat := 0x00B00010
/-- `TB.FREQ` (R306). -/
def tbFreq : Nat := 0x00B00014
/-- `TB.SLEW` (R306). -/
def tbSlew : Nat := 0x00B00018
/-- `TB.OFFSET` (R306). -/
def tbOffset : Nat := 0x00B0001C
/-- `TB.SAMPLE` (R306). -/
def tbSample : Nat := 0x00B00020
/-- `TB.SERVO` (R306). -/
def tbServo : Nat := 0x00B00028
/-- `TB.LIMITS` (R306). -/
def tbLimits : Nat := 0x00B0002C
/-- `TB.STEP_US` (R306). -/
def tbStepUs : Nat := 0x00B00030
/-- `TB.HOLDOVER_MS` (R306). -/
def tbHoldoverMs : Nat := 0x00B00034
/-- `TB.LOCK_CFG` (R306). -/
def tbLockCfg : Nat := 0x00B00038
/-- `TB.STEPS` (R306). -/
def tbSteps : Nat := 0x00B0003C
/-- `TB.UTC_OFFSET` (R306). -/
def tbUtcOffset : Nat := 0x00B00040
/-- `TB.PORT[p].CTRL` (R306). -/
def tbPortCtrl (i : Nat) : Nat := 0x00B00100 + 0x40 * i
/-- `TB.PORT[p].LATENCY` (R306). -/
def tbPortLatency (i : Nat) : Nat := 0x00B00104 + 0x40 * i
/-- `TB.PORT[p].TXTS_TIME` (R306). -/
def tbPortTxtsTime (i : Nat) : Nat := 0x00B00108 + 0x40 * i
/-- `TB.PORT[p].TXTS_INFO` (R306). -/
def tbPortTxtsInfo (i : Nat) : Nat := 0x00B00110 + 0x40 * i
/-- `TB.PORT[p].TXTS_POP` (R306). -/
def tbPortTxtsPop (i : Nat) : Nat := 0x00B00114 + 0x40 * i
/-- `TB.PORT[p].TXTS_DROPS` (R306). -/
def tbPortTxtsDrops (i : Nat) : Nat := 0x00B00118 + 0x40 * i
/-- `TB.TOUT[n].CTRL` (R306). -/
def tbToutCtrl (i : Nat) : Nat := 0x00B00200 + 0x20 * i
/-- `TB.TOUT[n].START` (R306). -/
def tbToutStart (i : Nat) : Nat := 0x00B00208 + 0x20 * i
/-- `TB.TOUT[n].PERIOD` (R306). -/
def tbToutPeriod (i : Nat) : Nat := 0x00B00210 + 0x20 * i
/-- `TB.TOUT[n].WIDTH` (R306). -/
def tbToutWidth (i : Nat) : Nat := 0x00B00214 + 0x20 * i
/-- `TB.TIN[n].LAST` (R306). -/
def tbTinLast (i : Nat) : Nat := 0x00B00300 + 0x10 * i
/-- `TB.TIN[n].CTRL` (R306). -/
def tbTinCtrl (i : Nat) : Nat := 0x00B00308 + 0x10 * i
/-- `TB.TIN[n].DROPS` (R306). -/
def tbTinDrops (i : Nat) : Nat := 0x00B0030C + 0x10 * i
/-- `TB.LOCK` (R306). -/
def tbLock : Nat := 0x00BFFFF0
/-- `ANA.STATE` (R327). -/
def anaState : Nat := 0x00C00000
/-- `ANA.FLAGS` (R327). -/
def anaFlags : Nat := 0x00C00004
/-- `ANA.FLAGS_SETS` (R327). -/
def anaFlagsSets : Nat := 0x00C00008
/-- `ANA.CAL_COUNT` (R327). -/
def anaCalCount : Nat := 0x00C0000C
/-- `ANA.CAL_PENDING` (R327). -/
def anaCalPending : Nat := 0x00C00010
/-- `ANA.CAL_DEADLINE` (R327). -/
def anaCalDeadline : Nat := 0x00C00018
/-- `ANA.CONV[c].STATE` (R327). -/
def anaConvState (i : Nat) : Nat := 0x00C00100 + 0x40 * i
/-- `ANA.CONV[c].URGENT` (R327). -/
def anaConvUrgent (i : Nat) : Nat := 0x00C00104 + 0x40 * i
/-- `ANA.CONV[c].Q_HEAD_TIME` (R327). -/
def anaConvQHeadTime (i : Nat) : Nat := 0x00C00108 + 0x40 * i
/-- `ANA.CONV[c].Q_HEAD_DATA` (R327). -/
def anaConvQHeadData (i : Nat) : Nat := 0x00C00110 + 0x40 * i
/-- `ANA.CONV[c].Q_INFO` (R327). -/
def anaConvQInfo (i : Nat) : Nat := 0x00C00114 + 0x40 * i
/-- `ANA.CONV[c].Q_POP` (R327). -/
def anaConvQPop (i : Nat) : Nat := 0x00C00118 + 0x40 * i
/-- `ANA.CONV[c].QUEUE_DROPS` (R327). -/
def anaConvQueueDrops (i : Nat) : Nat := 0x00C0011C + 0x40 * i
/-- `ANA.CONV[c].URGENT_DROPS` (R327). -/
def anaConvUrgentDrops (i : Nat) : Nat := 0x00C00120 + 0x40 * i
/-- `ANA.CONV[c].DISCHARGES` (R327). -/
def anaConvDischarges (i : Nat) : Nat := 0x00C00124 + 0x40 * i
/-- `ANA.CONV[c].SCAN_NS` (R327). -/
def anaConvScanNs (i : Nat) : Nat := 0x00C00128 + 0x40 * i
/-- `ANA.CH[n].CFG` (R327). -/
def anaChCfg (i : Nat) : Nat := 0x00C01000 + 0x4 * i
/-- `ANA.BRG[b].CFG` (R327). -/
def anaBrgCfg (i : Nat) : Nat := 0x00C02000 + 0x10 * i
/-- `ANA.BRG[b].EXC` (R327). -/
def anaBrgExc (i : Nat) : Nat := 0x00C02004 + 0x10 * i
/-- `ANA.DAC[n].STATE` (R327). -/
def anaDacState (i : Nat) : Nat := 0x00C03000 + 0x4 * i
/-- `ANA.WIN[w].CFG` (R327). -/
def anaWinCfg (i : Nat) : Nat := 0x00C04000 + 0x10 * i
/-- `ANA.WIN[w].LIMITS` (R327). -/
def anaWinLimits (i : Nat) : Nat := 0x00C04004 + 0x10 * i
/-- `ANA.WIN[w].FIRES` (R327). -/
def anaWinFires (i : Nat) : Nat := 0x00C04008 + 0x10 * i
/-- `ANA.LOCK` (R327). -/
def anaLock : Nat := 0x00CFFFF0
/-- `ACQ.STATE` (R347). -/
def acqState : Nat := 0x00D00000
/-- `ACQ.FLAGS` (R347). -/
def acqFlags : Nat := 0x00D00004
/-- `ACQ.FLAGS_SETS` (R347). -/
def acqFlagsSets : Nat := 0x00D00008
/-- `ACQ.TAKES_DONE` (R347). -/
def acqTakesDone : Nat := 0x00D00010
/-- `ACQ.CH[n].CFG` (R347). -/
def acqChCfg (i : Nat) : Nat := 0x00D00100 + 0x40 * i
/-- `ACQ.CH[n].SHARE` (R347). -/
def acqChShare (i : Nat) : Nat := 0x00D00104 + 0x40 * i
/-- `ACQ.CH[n].CMP` (R347). -/
def acqChCmp (i : Nat) : Nat := 0x00D00108 + 0x40 * i
/-- `ACQ.CH[n].CMP_LIMITS` (R347). -/
def acqChCmpLimits (i : Nat) : Nat := 0x00D0010C + 0x40 * i
/-- `ACQ.CH[n].QUEUE` (R347). -/
def acqChQueue (i : Nat) : Nat := 0x00D00110 + 0x40 * i
/-- `ACQ.CH[n].CMP_FIRES` (R347). -/
def acqChCmpFires (i : Nat) : Nat := 0x00D00114 + 0x40 * i
/-- `ACQ.CH[n].MISSED` (R347). -/
def acqChMissed (i : Nat) : Nat := 0x00D00118 + 0x40 * i
/-- `ACQ.CH[n].EARLY_IGNORED` (R347). -/
def acqChEarlyIgnored (i : Nat) : Nat := 0x00D0011C + 0x40 * i
/-- `ACQ.CH[n].OVR_SAMPLES` (R347). -/
def acqChOvrSamples (i : Nat) : Nat := 0x00D00120 + 0x40 * i
/-- `ACQ.CH[n].LAST_TRIGGER` (R347). -/
def acqChLastTrigger (i : Nat) : Nat := 0x00D00128 + 0x40 * i
/-- `ACQ.TAKE[k].STATE` (R347). -/
def acqTakeState (i : Nat) : Nat := 0x00D01000 + 0x10 * i
/-- `ACQ.TAKE[k].SERIAL` (R347). -/
def acqTakeSerial (i : Nat) : Nat := 0x00D01004 + 0x10 * i
/-- `ACQ.TAKE[k].LAST_TRIGGER` (R347). -/
def acqTakeLastTrigger (i : Nat) : Nat := 0x00D01008 + 0x10 * i
/-- `ACQ.TAKE[k].DESC[i]` (R347). -/
def acqTakeDesc (i : Nat) (j : Nat) : Nat := 0x00D20000 + 0x20 * i + 0x4 * j
/-- `ACQ.LOCK` (R347). -/
def acqLock : Nat := 0x00DFFFF0
/-- `PWM.RUNNING` (R372). -/
def pwmRunning : Nat := 0x00E00000
/-- `PWM.FLAGS` (R372). -/
def pwmFlags : Nat := 0x00E00008
/-- `PWM.FLAGS_SETS` (R372). -/
def pwmFlagsSets : Nat := 0x00E0000C
/-- `PWM.COMMIT_MASK` (R372). -/
def pwmCommitMask : Nat := 0x00E00010
/-- `PWM.PAIR[n].CTRL` (R372). -/
def pwmPairCtrl (i : Nat) : Nat := 0x00E01000 + 0x40 * i
/-- `PWM.PAIR[n].STATE` (R372). -/
def pwmPairState (i : Nat) : Nat := 0x00E01004 + 0x40 * i
/-- `PWM.PAIR[n].PERIOD_SH` (R372). -/
def pwmPairPeriodSh (i : Nat) : Nat := 0x00E01008 + 0x40 * i
/-- `PWM.PAIR[n].DUTY_SH` (R372). -/
def pwmPairDutySh (i : Nat) : Nat := 0x00E0100C + 0x40 * i
/-- `PWM.PAIR[n].PERIOD` (R372). -/
def pwmPairPeriod (i : Nat) : Nat := 0x00E01010 + 0x40 * i
/-- `PWM.PAIR[n].DUTY` (R372). -/
def pwmPairDuty (i : Nat) : Nat := 0x00E01014 + 0x40 * i
/-- `PWM.PAIR[n].DEAD` (R372). -/
def pwmPairDead (i : Nat) : Nat := 0x00E01018 + 0x40 * i
/-- `PWM.PAIR[n].RESTART_DELAY` (R372). -/
def pwmPairRestartDelay (i : Nat) : Nat := 0x00E0101C + 0x40 * i
/-- `PWM.PAIR[n].COMMIT` (R372). -/
def pwmPairCommit (i : Nat) : Nat := 0x00E01020 + 0x40 * i
/-- `PWM.PAIR[n].FLAGS` (R372). -/
def pwmPairFlags (i : Nat) : Nat := 0x00E01024 + 0x40 * i
/-- `PWM.PAIR[n].FLAGS_SETS` (R372). -/
def pwmPairFlagsSets (i : Nat) : Nat := 0x00E01028 + 0x40 * i
/-- `PWM.PAIR[n].TRIPS` (R372). -/
def pwmPairTrips (i : Nat) : Nat := 0x00E0102C + 0x40 * i
/-- `PWM.PAIR[n].SYNC` (R372). -/
def pwmPairSync (i : Nat) : Nat := 0x00E01030 + 0x40 * i
/-- `TRP.ACTIVE` (R372). -/
def trpActive : Nat := 0x00E80000
/-- `TRP.LATCHED` (R372). -/
def trpLatched : Nat := 0x00E80008
/-- `TRP.RAW` (R372). -/
def trpRaw : Nat := 0x00E80010
/-- `TRP.FLAGS` (R372). -/
def trpFlags : Nat := 0x00E80018
/-- `TRP.FLAGS_SETS` (R372). -/
def trpFlagsSets : Nat := 0x00E8001C
/-- `TRP.CLEARS_REFUSED` (R372). -/
def trpClearsRefused : Nat := 0x00E80020
/-- `TRP.SRC[s].CFG` (R372). -/
def trpSrcCfg (i : Nat) : Nat := 0x00E80100 + 0x10 * i
/-- `TRP.SRC[s].FIRES` (R372). -/
def trpSrcFires (i : Nat) : Nat := 0x00E80104 + 0x10 * i
/-- `TRP.SRC[s].LAST` (R372). -/
def trpSrcLast (i : Nat) : Nat := 0x00E80108 + 0x10 * i
/-- `PWM.LOCK` (R372). -/
def pwmLock : Nat := 0x00EFFFF0
/-- `MOT.MOVING` (R397). -/
def motMoving : Nat := 0x00F00000
/-- `MOT.FLAGS` (R397). -/
def motFlags : Nat := 0x00F00008
/-- `MOT.FLAGS_SETS` (R397). -/
def motFlagsSets : Nat := 0x00F0000C
/-- `MOT.AX[n].CFG` (R397). -/
def motAxCfg (i : Nat) : Nat := 0x00F01000 + 0x40 * i
/-- `MOT.AX[n].STATE` (R397). -/
def motAxState (i : Nat) : Nat := 0x00F01004 + 0x40 * i
/-- `MOT.AX[n].CMD_POS` (R397). -/
def motAxCmdPos (i : Nat) : Nat := 0x00F01008 + 0x40 * i
/-- `MOT.AX[n].ENC_POS` (R397). -/
def motAxEncPos (i : Nat) : Nat := 0x00F0100C + 0x40 * i
/-- `MOT.AX[n].VELOCITY` (R397). -/
def motAxVelocity (i : Nat) : Nat := 0x00F01010 + 0x40 * i
/-- `MOT.AX[n].TARGET` (R397). -/
def motAxTarget (i : Nat) : Nat := 0x00F01014 + 0x40 * i
/-- `MOT.AX[n].FLAGS` (R397). -/
def motAxFlags (i : Nat) : Nat := 0x00F01018 + 0x40 * i
/-- `MOT.AX[n].FLAGS_SETS` (R397). -/
def motAxFlagsSets (i : Nat) : Nat := 0x00F0101C + 0x40 * i
/-- `MOT.AX[n].DEV_MAX` (R397). -/
def motAxDevMax (i : Nat) : Nat := 0x00F01020 + 0x40 * i
/-- `MOT.AX[n].ENC_COUNT` (R397). -/
def motAxEncCount (i : Nat) : Nat := 0x00F01024 + 0x40 * i
/-- `MOT.AX[n].INDEX` (R397). -/
def motAxIndex (i : Nat) : Nat := 0x00F01028 + 0x40 * i
/-- `MOT.AX[n].ENC_ERRORS` (R397). -/
def motAxEncErrors (i : Nat) : Nat := 0x00F0102C + 0x40 * i
/-- `MOT.AX[n].LIMIT_LO` (R397). -/
def motAxLimitLo (i : Nat) : Nat := 0x00F01030 + 0x40 * i
/-- `MOT.AX[n].LIMIT_HI` (R397). -/
def motAxLimitHi (i : Nat) : Nat := 0x00F01034 + 0x40 * i
/-- `MOT.GRP[g].STATE` (R397). -/
def motGrpState (i : Nat) : Nat := 0x00F02000 + 0x20 * i
/-- `MOT.GRP[g].MEMBERS` (R397). -/
def motGrpMembers (i : Nat) : Nat := 0x00F02004 + 0x20 * i
/-- `MOT.DCP[p].STATE` (R397). -/
def motDcpState (i : Nat) : Nat := 0x00F03000 + 0x10 * i
/-- `MOT.DCP[p].LAST_RX` (R397). -/
def motDcpLastRx (i : Nat) : Nat := 0x00F03008 + 0x10 * i
/-- `MOT.LOCK` (R397). -/
def motLock : Nat := 0x00FFFFF0
/-- `CAN[c].STATE` (R424). -/
def canState (i : Nat) : Nat := 0x01000000 + 0x100 * i
/-- `CAN[c].FLAGS` (R424). -/
def canFlags (i : Nat) : Nat := 0x01000004 + 0x100 * i
/-- `CAN[c].FLAGS_SETS` (R424). -/
def canFlagsSets (i : Nat) : Nat := 0x01000008 + 0x100 * i
/-- `CAN[c].RX_FRAMES` (R424). -/
def canRxFrames (i : Nat) : Nat := 0x01000010 + 0x100 * i
/-- `CAN[c].TX_FRAMES` (R424). -/
def canTxFrames (i : Nat) : Nat := 0x01000018 + 0x100 * i
/-- `CAN[c].ERRORS` (R424). -/
def canErrors (i : Nat) : Nat := 0x01000020 + 0x100 * i
/-- `CAN[c].BUS_OFFS` (R424). -/
def canBusOffs (i : Nat) : Nat := 0x01000024 + 0x100 * i
/-- `CAN[c].NO_MATCH` (R424). -/
def canNoMatch (i : Nat) : Nat := 0x01000028 + 0x100 * i
/-- `CAN[c].DETECT` (R424). -/
def canDetect (i : Nat) : Nat := 0x0100002C + 0x100 * i
/-- `CAN[c].LOAD` (R424). -/
def canLoad (i : Nat) : Nat := 0x01000030 + 0x100 * i
/-- `CAN.RXO[k].SNAP` (R424). -/
def canRxoSnap (i : Nat) : Nat := 0x01010000 + 0x20 * i
/-- `CAN.RXO[k].ID` (R424). -/
def canRxoId (i : Nat) : Nat := 0x01010004 + 0x20 * i
/-- `CAN.RXO[k].TIME` (R424). -/
def canRxoTime (i : Nat) : Nat := 0x01010008 + 0x20 * i
/-- `CAN.RXO[k].OVERWRITES` (R424). -/
def canRxoOverwrites (i : Nat) : Nat := 0x01010010 + 0x20 * i
/-- `CAN.RXO[k].CFG` (R424). -/
def canRxoCfg (i : Nat) : Nat := 0x01010014 + 0x20 * i
/-- `CAN.TXO[c][o].STATE` (R424). -/
def canTxoState (i : Nat) (j : Nat) : Nat := 0x01030000 + 0x2000 * i + 0x10 * j
/-- `CAN.TXO[c][o].SENT` (R424). -/
def canTxoSent (i : Nat) (j : Nat) : Nat := 0x01030004 + 0x2000 * i + 0x10 * j
/-- `CAN.TXO[c][o].RETRIES` (R424). -/
def canTxoRetries (i : Nat) (j : Nat) : Nat := 0x01030008 + 0x2000 * i + 0x10 * j
/-- `CAN.TXO[c][o].OVERRUNS` (R424). -/
def canTxoOverruns (i : Nat) (j : Nat) : Nat := 0x0103000C + 0x2000 * i + 0x10 * j
/-- `CAN.HOST_SNAP[i]` (R424). -/
def canHostSnap (i : Nat) : Nat := 0x01040000 + 0x4 * i
/-- `CAN.HOST_SNAP_XL` (R424). -/
def canHostSnapXl : Nat := 0x01040040
/-- `SER[p].STATE` (R424). -/
def serState (i : Nat) : Nat := 0x01080000 + 0x100 * i
/-- `SER[p].FLAGS` (R424). -/
def serFlags (i : Nat) : Nat := 0x01080004 + 0x100 * i
/-- `SER[p].FLAGS_SETS` (R424). -/
def serFlagsSets (i : Nat) : Nat := 0x01080008 + 0x100 * i
/-- `SER[p].CFG` (R424). -/
def serCfg (i : Nat) : Nat := 0x0108000C + 0x100 * i
/-- `SER[p].TRANSACTIONS` (R424). -/
def serTransactions (i : Nat) : Nat := 0x01080010 + 0x100 * i
/-- `SER[p].FAILS` (R424). -/
def serFails (i : Nat) : Nat := 0x01080018 + 0x100 * i
/-- `SER[p].SKIPPED` (R424). -/
def serSkipped (i : Nat) : Nat := 0x0108001C + 0x100 * i
/-- `SER[p].UNSOLICITED` (R424). -/
def serUnsolicited (i : Nat) : Nat := 0x01080020 + 0x100 * i
/-- `CAN.LOCK` (R424). -/
def canLock : Nat := 0x010FFFF0
/-- `DIO.IN[w]` (R425). -/
def dioIn (i : Nat) : Nat := 0x01100000 + 0x4 * i
/-- `DIO.OUT[w]` (R425). -/
def dioOut (i : Nat) : Nat := 0x01100020 + 0x4 * i
/-- `DIO.DIR[w]` (R425). -/
def dioDir (i : Nat) : Nat := 0x01100040 + 0x4 * i
/-- `DIO.FORCED[w]` (R425). -/
def dioForced (i : Nat) : Nat := 0x01100060 + 0x4 * i
/-- `DIO.FLAGS` (R425). -/
def dioFlags : Nat := 0x01100080
/-- `DIO.FLAGS_SETS` (R425). -/
def dioFlagsSets : Nat := 0x01100084
/-- `DIO.BANK[b].STATE` (R425). -/
def dioBankState (i : Nat) : Nat := 0x01100100 + 0x4 * i
/-- `DIO.LINE[n].CFG` (R425). -/
def dioLineCfg (i : Nat) : Nat := 0x01101000 + 0x4 * i
/-- `DIO.LOCK` (R425). -/
def dioLock : Nat := 0x011FFFF0
/-- `SAF.STATE` (R456). -/
def safState : Nat := 0x01200000
/-- `SAF.FLAGS` (R456). -/
def safFlags : Nat := 0x01200004
/-- `SAF.FLAGS_SETS` (R456). -/
def safFlagsSets : Nat := 0x01200008
/-- `SAF.PARAM_ID` (R456). -/
def safParamId : Nat := 0x0120000C
/-- `SAF.PARAM_COUNT` (R456). -/
def safParamCount : Nat := 0x01200010
/-- `SAF.STAGE` (R456). -/
def safStage : Nat := 0x01200014
/-- `SAF.STAGE_CRC` (R456). -/
def safStageCrc : Nat := 0x01200018
/-- `SAF.STAGE_DEADLINE` (R456). -/
def safStageDeadline : Nat := 0x01200020
/-- `SAF.CYCLES` (R456). -/
def safCycles : Nat := 0x01200028
/-- `SAF.EDM` (R456). -/
def safEdm : Nat := 0x01200030
/-- `SAF.IN[i]` (R456). -/
def safIn (i : Nat) : Nat := 0x01200100 + 0x4 * i
/-- `SAF.OUT[o]` (R456). -/
def safOut (i : Nat) : Nat := 0x01200140 + 0x4 * i
/-- `SAF.BRK[b]` (R456). -/
def safBrk (i : Nat) : Nat := 0x01200160 + 0x4 * i
/-- `SAF.BRK_PASS_AT[b]` (R456). -/
def safBrkPassAt (i : Nat) : Nat := 0x01200180 + 0x8 * i
/-- `SAF.CONN[c].STATE` (R456). -/
def safConnState (i : Nat) : Nat := 0x01200200 + 0x10 * i
/-- `SAF.CONN[c].ERRORS` (R456). -/
def safConnErrors (i : Nat) : Nat := 0x01200204 + 0x10 * i
/-- `SAF.CONN[c].SEQ_GAPS` (R456). -/
def safConnSeqGaps (i : Nat) : Nat := 0x01200208 + 0x10 * i
/-- `SAF.FN[f]` (R456). -/
def safFn (i : Nat) : Nat := 0x01200400 + 0x4 * i
/-- `SAF.LOCK` (R456). -/
def safLock : Nat := 0x012FFFF0
/-- `DB[q]` (R460). -/
def db (i : Nat) : Nat := 0x08000000 + 0x4 * i
/-- `ADMIN_CMD_BASE` (R460). -/
def adminCmdBase : Nat := 0x08000100
/-- `ADMIN_CPL_BASE` (R460). -/
def adminCplBase : Nat := 0x08000108
/-- `ADMIN_SIZE` (R460). -/
def adminSize : Nat := 0x08000110
/-- `ADMIN_CTRL` (R460). -/
def adminCtrl : Nat := 0x08000114
/-- `ADMIN_STATUS` (R460). -/
def adminStatus : Nat := 0x08000118
/-- `MSIX.ENTRY[v]` (R460). -/
def msixEntry (i : Nat) : Nat := 0x08002000 + 0x10 * i
/-- `MSIX.PENDING` (R460). -/
def msixPending : Nat := 0x08003000
/-- `HST.STATE` (R475). -/
def hstState : Nat := 0x01300000
/-- `HST.FLAGS` (R475). -/
def hstFlags : Nat := 0x01300004
/-- `HST.FLAGS_SETS` (R475). -/
def hstFlagsSets : Nat := 0x01300008
/-- `HST.FETCHED` (R475). -/
def hstFetched : Nat := 0x01300010
/-- `HST.LOST_COMPLETIONS` (R475). -/
def hstLostCompletions : Nat := 0x01300018
/-- `HST.DB_INVALID` (R475). -/
def hstDbInvalid : Nat := 0x0130001C
/-- `HST.DB_IGNORED` (R475). -/
def hstDbIgnored : Nat := 0x01300020
/-- `HST.EVENTS_UNROUTED` (R475). -/
def hstEventsUnrouted : Nat := 0x01300024
/-- `HST.ETH_DISCARDS[p]` (R475). -/
def hstEthDiscards (i : Nat) : Nat := 0x01300028 + 0x4 * i
/-- `HST.EVT_ROUTE[b]` (R475). -/
def hstEvtRoute (i : Nat) : Nat := 0x01300100 + 0x4 * i
/-- `HST.Q[q].CFG` (R475). -/
def hstQCfg (i : Nat) : Nat := 0x01301000 + 0x20 * i
/-- `HST.Q[q].BASE` (R475). -/
def hstQBase (i : Nat) : Nat := 0x01301008 + 0x20 * i
/-- `HST.Q[q].INDEX` (R475). -/
def hstQIndex (i : Nat) : Nat := 0x01301010 + 0x20 * i
/-- `HST.Q[q].COAL` (R475). -/
def hstQCoal (i : Nat) : Nat := 0x01301014 + 0x20 * i
/-- `HST.Q[q].DROPS` (R475). -/
def hstQDrops (i : Nat) : Nat := 0x01301018 + 0x20 * i
/-- `HST.LOCK` (R475). -/
def hstLock : Nat := 0x013FFFF0
/-- `MGT.STATE` (R488). -/
def mgtState : Nat := 0x01400000
/-- `MGT.FLAGS` (R488). -/
def mgtFlags : Nat := 0x01400004
/-- `MGT.FLAGS_SETS` (R488). -/
def mgtFlagsSets : Nat := 0x01400008
/-- `MGT.LOG_SEQ` (R488). -/
def mgtLogSeq : Nat := 0x0140000C
/-- `MGT.AUTH_FAILS` (R488). -/
def mgtAuthFails : Nat := 0x01400010
/-- `MGT.FRAME_ERRORS` (R488). -/
def mgtFrameErrors : Nat := 0x01400014
/-- `MGT.LOST_COMPLETIONS` (R488). -/
def mgtLostCompletions : Nat := 0x01400018
/-- `MGT.TEMP[s]` (R488). -/
def mgtTemp (i : Nat) : Nat := 0x01400100 + 0x4 * i
/-- `MGT.SUPPLY[v]` (R488). -/
def mgtSupply (i : Nat) : Nat := 0x01400200 + 0x4 * i
/-- `MGT.LOCK` (R488). -/
def mgtLock : Nat := 0x014FFFF0
/-- `PRF.FLAGS` (R498). -/
def prfFlags : Nat := 0x01500000
/-- `PRF.FLAGS_SETS` (R498). -/
def prfFlagsSets : Nat := 0x01500004
/-- `PRF.SAMPLES` (R498). -/
def prfSamples : Nat := 0x01500008
/-- `PRF.SKID_SAMPLES` (R498). -/
def prfSkidSamples : Nat := 0x01500010
/-- `PRF.USER[n]` (R498). -/
def prfUser (i : Nat) : Nat := 0x01500100 + 0x4 * i
/-- `PRF.ENG[n].CTR[i]` (R498). -/
def prfEngCtr (i : Nat) (j : Nat) : Nat := 0x01510000 + 0x100 * i + 0x20 * j
/-- `PRF.ENG[n].RELOAD[i]` (R498). -/
def prfEngReload (i : Nat) (j : Nat) : Nat := 0x01510008 + 0x100 * i + 0x20 * j
/-- `PRF.ENG[n].CFG[i]` (R498). -/
def prfEngCfg (i : Nat) (j : Nat) : Nat := 0x01510010 + 0x100 * i + 0x20 * j
/-- `PRF.ENG[n].WRAPS[i]` (R498). -/
def prfEngWraps (i : Nat) (j : Nat) : Nat := 0x01510014 + 0x100 * i + 0x20 * j
/-- `PRF.BLK[k].CTR` (R498). -/
def prfBlkCtr (i : Nat) : Nat := 0x01520000 + 0x20 * i
/-- `PRF.BLK[k].RELOAD` (R498). -/
def prfBlkReload (i : Nat) : Nat := 0x01520008 + 0x20 * i
/-- `PRF.BLK[k].CFG` (R498). -/
def prfBlkCfg (i : Nat) : Nat := 0x01520010 + 0x20 * i
/-- `PRF.BLK[k].WRAPS` (R498). -/
def prfBlkWraps (i : Nat) : Nat := 0x01520014 + 0x20 * i
/-- `PRF.LOCK` (R498). -/
def prfLock : Nat := 0x015FFFF0
/-- `CLK.STATE` (R510). -/
def clkState : Nat := 0x00100000
/-- `CLK.FLAGS` (R510). -/
def clkFlags : Nat := 0x00100004
/-- `CLK.FLAGS_SETS` (R510). -/
def clkFlagsSets : Nat := 0x00100008
/-- `CLK.REFCLK_LOSSES` (R510). -/
def clkRefclkLosses : Nat := 0x0010000C
/-- `CLK.TEMP_CFG` (R510). -/
def clkTempCfg : Nat := 0x00100010
/-- `CLK.TEMP_MAX` (R510). -/
def clkTempMax : Nat := 0x00100014
/-- `CLK.SUPPLY_STATE` (R510). -/
def clkSupplyState : Nat := 0x00100018
/-- `CLK.LOCK` (R510). -/
def clkLock : Nat := 0x001FFFF0

end Reg

/-- Register rows of the block at BAR0 offset 0x000_0000 (02 R47). -/
def regRows00 : List RegRow := [
  ⟨0x00000000, 1, 0x0, 1, 0x0, .ro, 0x80644200, false, false, false, false⟩,
  ⟨0x00000008, 1, 0x0, 1, 0x0, .ro, 0x0, false, false, false, false⟩,
  ⟨0x0000000C, 1, 0x0, 1, 0x0, .ro, 0x0, false, false, false, false⟩,
  ⟨0x00000010, 1, 0x0, 1, 0x0, .ro, 0x0, false, false, false, false⟩,
  ⟨0x00000020, 1, 0x0, 1, 0x0, .ro, 0x0, false, false, false, false⟩,
  ⟨0x00000024, 1, 0x0, 1, 0x0, .ro, 0x0, false, false, false, false⟩,
  ⟨0x00000030, 1, 0x0, 1, 0x0, .ro, 0x0, false, false, false, false⟩,
  ⟨0x00000034, 1, 0x0, 1, 0x0, .w1c, 0x0, true, true, false, false⟩,
  ⟨0x00000038, 1, 0x0, 1, 0x0, .ro, 0x0, false, false, false, false⟩,
  ⟨0x000FFFF0, 1, 0x0, 1, 0x0, .w1s, 0x0, true, true, false, false⟩]

/-- Register rows of the block at BAR0 offset 0x020_0000 (02 R47). -/
def regRows02 : List RegRow := [
  ⟨0x00200000, 1, 0x0, 1, 0x0, .ro, 0x0, false, false, false, false⟩,
  ⟨0x00200004, 1, 0x0, 1, 0x0, .ro, 0x0, false, false, false, false⟩,
  ⟨0x00200010, 8, 0x4, 1, 0x0, .ro, 0x0, false, false, false, false⟩,
  ⟨0x00200030, 2, 0x4, 1, 0x0, .ro, 0x0, false, false, false, false⟩,
  ⟨0x00200040, 1, 0x0, 1, 0x0, .ro, 0x0, false, false, false, false⟩,
  ⟨0x00200048, 1, 0x0, 1, 0x0, .ro, 0x0, false, false, false, false⟩,
  ⟨0x00200050, 1, 0x0, 1, 0x0, .ro, 0x0, false, false, false, true⟩,
  ⟨0x00200058, 1, 0x0, 1, 0x0, .ro, 0x0, false, false, false, false⟩,
  ⟨0x0020005C, 1, 0x0, 1, 0x0, .ro, 0x0, false, false, false, false⟩,
  ⟨0x00200060, 1, 0x0, 1, 0x0, .w1c, 0x0, true, true, false, false⟩,
  ⟨0x00200064, 1, 0x0, 1, 0x0, .ro, 0x0, false, false, false, false⟩,
  ⟨0x002FFFF0, 1, 0x0, 1, 0x0, .w1s, 0x0, true, true, false, false⟩]

/-- Register rows of the block at BAR0 offset 0x030_0000 (02 R47). -/
def regRows03 : List RegRow := [
  ⟨0x00300000, 1, 0x0, 1, 0x0, .ro, 0x0, false, false, false, false⟩,
  ⟨0x00300004, 1, 0x0, 1, 0x0, .ro, 0x0, false, false, false, false⟩,
  ⟨0x00300008, 1, 0x0, 1, 0x0, .ro, 0x0, false, false, false, true⟩,
  ⟨0x00300010, 1, 0x0, 1, 0x0, .ro, 0x0, false, false, false, false⟩,
  ⟨0x00300014, 1, 0x0, 1, 0x0, .w1c, 0x0, true, true, false, false⟩,
  ⟨0x00300018, 1, 0x0, 1, 0x0, .ro, 0x0, false, false, false, false⟩,
  ⟨0x00300020, 8, 0x4, 1, 0x0, .ro, 0x0, false, false, false, false⟩,
  ⟨0x00300040, 8, 0x4, 1, 0x0, .ro, 0x0, false, false, false, false⟩,
  ⟨0x00300100, 16, 0x4, 1, 0x0, .ro, 0xFF00, false, false, false, false⟩,
  ⟨0x00301000, 8, 0x400, 256, 0x4, .ro, 0xFF0000, false, false, false, false⟩,
  ⟨0x003FFFF0, 1, 0x0, 1, 0x0, .w1s, 0x0, true, true, false, false⟩]

/-- Register rows of the block at BAR0 offset 0x040_0000 (02 R47). -/
def regRows04 : List RegRow := [
  ⟨0x00400000, 1, 0x0, 1, 0x0, .ro, 0x0, false, false, false, false⟩,
  ⟨0x00400004, 1, 0x0, 1, 0x0, .ro, 0x0, false, false, false, false⟩,
  ⟨0x00400008, 1, 0x0, 1, 0x0, .ro, 0x0, false, false, false, true⟩,
  ⟨0x00400010, 1, 0x0, 1, 0x0, .ro, 0x0, false, false, false, false⟩,
  ⟨0x00400014, 1, 0x0, 1, 0x0, .ro, 0x0, false, false, false, false⟩,
  ⟨0x00400018, 1, 0x0, 1, 0x0, .ro, 0x0, false, false, false, false⟩,
  ⟨0x00400020, 1, 0x0, 1, 0x0, .w1c, 0x0, true, true, false, false⟩,
  ⟨0x00400024, 1, 0x0, 1, 0x0, .ro, 0x0, false, false, false, false⟩,
  ⟨0x00401000, 16, 0x40, 1, 0x0, .ro, 0x0, false, false, false, false⟩,
  ⟨0x00401004, 16, 0x40, 1, 0x0, .ro, 0x0, false, false, false, false⟩,
  ⟨0x00401008, 16, 0x40, 1, 0x0, .ro, 0xFFFF, false, false, false, false⟩,
  ⟨0x0040100C, 16, 0x40, 1, 0x0, .ro, 0x0, false, false, false, false⟩,
  ⟨0x00401010, 16, 0x40, 1, 0x0, .ro, 0x0, false, false, false, true⟩,
  ⟨0x00401018, 16, 0x40, 1, 0x0, .ro, 0x0, false, false, false, true⟩,
  ⟨0x00401020, 16, 0x40, 1, 0x0, .w1c, 0x0, true, true, false, false⟩,
  ⟨0x00401024, 16, 0x40, 1, 0x0, .ro, 0x0, false, false, false, false⟩,
  ⟨0x00401028, 16, 0x40, 1, 0x0, .ro, 0x0, false, false, false, false⟩,
  ⟨0x0040102C, 16, 0x40, 1, 0x0, .ro, 0x0, false, false, false, false⟩,
  ⟨0x00402000, 256, 0x4, 1, 0x0, .ro, 0xFF00, false, false, false, false⟩,
  ⟨0x004FFFF0, 1, 0x0, 1, 0x0, .w1s, 0x0, true, true, false, false⟩]

/-- Register rows of the block at BAR0 offset 0x050_0000 (02 R47). -/
def regRows05 : List RegRow := [
  ⟨0x00500000, 1, 0x0, 1, 0x0, .ro, 0x0, false, false, false, false⟩,
  ⟨0x00500008, 1, 0x0, 1, 0x0, .ro, 0x0, false, false, false, true⟩,
  ⟨0x00500010, 1, 0x0, 1, 0x0, .w1c, 0x0, true, true, false, false⟩,
  ⟨0x00500014, 1, 0x0, 1, 0x0, .ro, 0x0, false, false, false, false⟩,
  ⟨0x00500018, 1, 0x0, 1, 0x0, .ro, 0x0, false, false, false, false⟩,
  ⟨0x0050001C, 1, 0x0, 1, 0x0, .rwl, 0x18, true, true, false, false⟩,
  ⟨0x00500020, 1, 0x0, 1, 0x0, .ro, 0x0, false, false, false, false⟩,
  ⟨0x00500100, 12, 0x20, 1, 0x0, .ro, 0x0, false, false, false, false⟩,
  ⟨0x00500104, 12, 0x20, 1, 0x0, .ro, 0x0, false, false, false, false⟩,
  ⟨0x00500108, 12, 0x20, 1, 0x0, .ro, 0x0, false, false, false, false⟩,
  ⟨0x0050010C, 12, 0x20, 1, 0x0, .ro, 0x0, false, false, false, false⟩,
  ⟨0x00500110, 12, 0x20, 1, 0x0, .ro, 0x0, false, false, false, false⟩,
  ⟨0x00500114, 12, 0x20, 1, 0x0, .ro, 0xFFFFFFFF, false, false, false, false⟩,
  ⟨0x00500118, 12, 0x20, 1, 0x0, .ro, 0xF000, false, false, false, false⟩,
  ⟨0x00500400, 16, 0x10, 1, 0x0, .ro, 0xFF0000, false, false, false, false⟩,
  ⟨0x00500408, 16, 0x10, 1, 0x0, .ro, 0x0, false, false, false, true⟩,
  ⟨0x00501000, 512, 0x10, 1, 0x0, .ro, 0x0, false, false, false, false⟩,
  ⟨0x00501004, 512, 0x10, 1, 0x0, .ro, 0x0, false, false, false, false⟩,
  ⟨0x00501008, 512, 0x10, 1, 0x0, .ro, 0x0, false, false, false, false⟩,
  ⟨0x0050100C, 512, 0x10, 1, 0x0, .ro, 0xFF000000, false, false, false, false⟩,
  ⟨0x005FFFF0, 1, 0x0, 1, 0x0, .w1s, 0x0, true, true, false, false⟩]

/-- Register rows of the block at BAR0 offset 0x060_0000 (02 R47). -/
def regRows06 : List RegRow := [
  ⟨0x00600000, 1, 0x0, 1, 0x0, .ro, 0x0, false, false, false, false⟩,
  ⟨0x00600004, 1, 0x0, 1, 0x0, .ro, 0x0, false, false, false, false⟩,
  ⟨0x00600008, 1, 0x0, 1, 0x0, .ro, 0x0, false, false, false, true⟩,
  ⟨0x00600010, 1, 0x0, 1, 0x0, .w1c, 0x0, true, true, false, false⟩,
  ⟨0x00600014, 1, 0x0, 1, 0x0, .ro, 0x0, false, false, false, false⟩,
  ⟨0x00600018, 1, 0x0, 1, 0x0, .ro, 0x0, false, false, false, false⟩,
  ⟨0x0060001C, 1, 0x0, 1, 0x0, .ro, 0x0, false, false, false, false⟩,
  ⟨0x00600020, 1, 0x0, 1, 0x0, .ro, 0x0, false, false, false, false⟩,
  ⟨0x00600024, 1, 0x0, 1, 0x0, .rc, 0x0, false, false, false, false⟩,
  ⟨0x00601000, 1024, 0x20, 1, 0x0, .ro, 0x1FF0003, false, false, false, false⟩,
  ⟨0x00601004, 1024, 0x20, 1, 0x0, .ro, 0x0, false, false, false, false⟩,
  ⟨0x00601008, 1024, 0x20, 1, 0x0, .ro, 0x0, false, false, false, false⟩,
  ⟨0x0060100C, 1024, 0x20, 1, 0x0, .ro, 0x0, false, false, false, false⟩,
  ⟨0x00601010, 1024, 0x20, 1, 0x0, .ro, 0x0, false, false, false, true⟩,
  ⟨0x00601018, 1024, 0x20, 1, 0x0, .w1c, 0x0, true, true, false, false⟩,
  ⟨0x0060101C, 1024, 0x20, 1, 0x0, .ro, 0x0, false, false, false, false⟩,
  ⟨0x00609000, 1024, 0x20, 1, 0x0, .ro, 0xFFFF, false, false, false, false⟩,
  ⟨0x00609004, 1024, 0x20, 1, 0x0, .ro, 0x0, false, false, false, false⟩,
  ⟨0x00609008, 1024, 0x20, 1, 0x0, .ro, 0x0, false, false, false, true⟩,
  ⟨0x00609010, 1024, 0x20, 1, 0x0, .rc, 0x0, false, false, false, false⟩,
  ⟨0x00609014, 1024, 0x20, 1, 0x0, .ro, 0x0, false, false, false, false⟩,
  ⟨0x00609018, 1024, 0x20, 1, 0x0, .ro, 0x0, false, false, false, false⟩,
  ⟨0x006FFFF0, 1, 0x0, 1, 0x0, .w1s, 0x0, true, true, false, false⟩]

/-- Register rows of the block at BAR0 offset 0x080_0000 (02 R47). -/
def regRows08 : List RegRow := [
  ⟨0x00800000, 40, 0x4000, 1, 0x0, .ro, 0x0, false, false, false, false⟩,
  ⟨0x00800004, 40, 0x4000, 1, 0x0, .ro, 0xFF00, false, false, false, false⟩,
  ⟨0x00800008, 40, 0x4000, 1, 0x0, .ro, 0x0, false, false, false, false⟩,
  ⟨0x0080000C, 40, 0x4000, 1, 0x0, .ro, 0x0, false, false, false, false⟩,
  ⟨0x00800010, 40, 0x4000, 1, 0x0, .ro, 0x0, false, false, false, true⟩,
  ⟨0x00800018, 40, 0x4000, 1, 0x0, .ro, 0x0, false, false, false, true⟩,
  ⟨0x00800020, 40, 0x4000, 1, 0x0, .w1c, 0x0, true, true, false, false⟩,
  ⟨0x00800024, 40, 0x4000, 1, 0x0, .ro, 0x0, false, false, false, false⟩,
  ⟨0x00800028, 40, 0x4000, 1, 0x0, .ro, 0x0, false, false, false, false⟩,
  ⟨0x0080002C, 40, 0x4000, 1, 0x0, .ro, 0x0, false, false, false, false⟩,
  ⟨0x00800030, 40, 0x4000, 1, 0x0, .ro, 0x0, false, false, false, false⟩,
  ⟨0x00800034, 40, 0x4000, 1, 0x0, .ro, 0x0, false, false, false, false⟩,
  ⟨0x00800038, 40, 0x4000, 1, 0x0, .ro, 0x0, false, false, false, false⟩,
  ⟨0x0080003C, 40, 0x4000, 1, 0x0, .ro, 0x0, false, false, false, false⟩,
  ⟨0x00800040, 40, 0x4000, 1, 0x0, .ro, 0x0, false, false, false, true⟩,
  ⟨0x008A0000, 1, 0x0, 1, 0x0, .ro, 0x0, false, false, false, false⟩,
  ⟨0x008A0004, 1, 0x0, 1, 0x0, .ro, 0x0, false, false, false, false⟩,
  ⟨0x008FFFF0, 1, 0x0, 1, 0x0, .w1s, 0x0, true, true, false, false⟩]

/-- Register rows of the block at BAR0 offset 0x070_0000 (02 R47). -/
def regRows07 : List RegRow := [
  ⟨0x00700000, 1, 0x0, 1, 0x0, .ro, 0x0, false, false, false, false⟩,
  ⟨0x00700008, 1, 0x0, 1, 0x0, .ro, 0x0, false, false, false, true⟩,
  ⟨0x00700010, 1, 0x0, 1, 0x0, .ro, 0x0, false, false, false, true⟩,
  ⟨0x00700018, 1, 0x0, 1, 0x0, .w1c, 0x0, true, true, false, false⟩,
  ⟨0x0070001C, 1, 0x0, 1, 0x0, .ro, 0x0, false, false, false, false⟩,
  ⟨0x00700020, 1, 0x0, 1, 0x0, .ro, 0x0, false, false, false, false⟩,
  ⟨0x00700024, 1, 0x0, 1, 0x0, .ro, 0x0, false, false, false, false⟩,
  ⟨0x00700028, 1, 0x0, 1, 0x0, .ro, 0x0, false, false, false, false⟩,
  ⟨0x0070002C, 1, 0x0, 1, 0x0, .rc, 0x0, false, false, false, false⟩,
  ⟨0x00700030, 1, 0x0, 1, 0x0, .ro, 0x0, false, false, false, false⟩,
  ⟨0x00700040, 128, 0x4, 1, 0x0, .rw, 0x0, true, true, false, false⟩,
  ⟨0x00701000, 4096, 0x10, 1, 0x0, .ro, 0xFC00000, false, false, false, false⟩,
  ⟨0x00701004, 4096, 0x10, 1, 0x0, .ro, 0x0, false, false, false, false⟩,
  ⟨0x00701008, 4096, 0x10, 1, 0x0, .ro, 0x0, false, false, false, false⟩,
  ⟨0x0070100C, 4096, 0x10, 1, 0x0, .ro, 0x0, false, false, false, false⟩,
  ⟨0x007FFFF0, 1, 0x0, 1, 0x0, .w1s, 0x0, true, true, false, false⟩]

/-- Register rows of the block at BAR0 offset 0x090_0000 (02 R47). -/
def regRows09 : List RegRow := [
  ⟨0x00900000, 1, 0x0, 1, 0x0, .ro, 0x0, false, false, false, false⟩,
  ⟨0x00900004, 1, 0x0, 1, 0x0, .w1c, 0x0, true, true, false, false⟩,
  ⟨0x00900008, 1, 0x0, 1, 0x0, .ro, 0x0, false, false, false, false⟩,
  ⟨0x0090000C, 1, 0x0, 1, 0x0, .ro, 0x0, false, false, false, false⟩,
  ⟨0x00900010, 1, 0x0, 1, 0x0, .ro, 0x0, false, false, false, false⟩,
  ⟨0x00900014, 1, 0x0, 1, 0x0, .ro, 0x3F0000, false, false, false, false⟩,
  ⟨0x00900018, 1, 0x0, 1, 0x0, .ro, 0x0, false, false, false, true⟩,
  ⟨0x00900020, 1, 0x0, 1, 0x0, .ro, 0x0, false, false, false, false⟩,
  ⟨0x00900024, 1, 0x0, 1, 0x0, .rc, 0x0, false, false, false, false⟩,
  ⟨0x00900028, 1, 0x0, 1, 0x0, .ro, 0x0, false, false, false, false⟩,
  ⟨0x0090002C, 1, 0x0, 1, 0x0, .ro, 0x0, false, false, false, false⟩,
  ⟨0x00900030, 1, 0x0, 1, 0x0, .ro, 0x0, false, false, false, false⟩,
  ⟨0x009FFFF0, 1, 0x0, 1, 0x0, .w1s, 0x0, true, true, false, false⟩]

/-- Register rows of the block at BAR0 offset 0x0A0_0000 (02 R47). -/
def regRows0A : List RegRow := [
  ⟨0x00A00000, 1, 0x0, 1, 0x0, .ro, 0x0, false, false, false, false⟩,
  ⟨0x00A00008, 1, 0x0, 1, 0x0, .w1c, 0x0, true, true, false, false⟩,
  ⟨0x00A0000C, 1, 0x0, 1, 0x0, .ro, 0x0, false, false, false, false⟩,
  ⟨0x00A00010, 1, 0x0, 1, 0x0, .ro, 0x0, false, false, false, true⟩,
  ⟨0x00A00018, 1, 0x0, 1, 0x0, .ro, 0x0, false, false, false, true⟩,
  ⟨0x00A00020, 1, 0x0, 1, 0x0, .ro, 0x0, false, false, false, true⟩,
  ⟨0x00A00028, 1, 0x0, 1, 0x0, .ro, 0x0, false, false, false, true⟩,
  ⟨0x00A00030, 1, 0x0, 1, 0x0, .ro, 0x0, false, false, false, true⟩,
  ⟨0x00A00038, 1, 0x0, 1, 0x0, .ro, 0x0, false, false, false, false⟩,
  ⟨0x00A0003C, 1, 0x0, 1, 0x0, .ro, 0x0, false, false, false, false⟩,
  ⟨0x00A00040, 1, 0x0, 1, 0x0, .ro, 0x0, false, false, false, false⟩,
  ⟨0x00A00044, 1, 0x0, 1, 0x0, .ro, 0x3E8, false, false, false, false⟩,
  ⟨0x00A00048, 1, 0x0, 1, 0x0, .ro, 0x7D0, false, false, false, false⟩,
  ⟨0x00A0004C, 1, 0x0, 1, 0x0, .ro, 0x0, false, false, false, false⟩,
  ⟨0x00A00100, 2, 0x40, 1, 0x0, .ro, 0x0, false, false, false, false⟩,
  ⟨0x00A00108, 2, 0x40, 1, 0x0, .ro, 0x0, false, false, false, true⟩,
  ⟨0x00A00110, 2, 0x40, 1, 0x0, .ro, 0x0, false, false, false, true⟩,
  ⟨0x00A00118, 2, 0x40, 1, 0x0, .ro, 0x0, false, false, false, false⟩,
  ⟨0x00A0011C, 2, 0x40, 1, 0x0, .ro, 0x0, false, false, false, false⟩,
  ⟨0x00A00200, 16, 0x4, 1, 0x0, .ro, 0x0, false, false, false, false⟩,
  ⟨0x00AFFFF0, 1, 0x0, 1, 0x0, .w1s, 0x0, true, true, false, false⟩]

/-- Register rows of the block at BAR0 offset 0x0B0_0000 (02 R47). -/
def regRows0B : List RegRow := [
  ⟨0x00B00000, 1, 0x0, 1, 0x0, .ro, 0x0, false, false, false, true⟩,
  ⟨0x00B00008, 1, 0x0, 1, 0x0, .ro, 0x0, false, false, false, false⟩,
  ⟨0x00B0000C, 1, 0x0, 1, 0x0, .w1c, 0x0, true, true, false, false⟩,
  ⟨0x00B00010, 1, 0x0, 1, 0x0, .ro, 0x0, false, false, false, false⟩,
  ⟨0x00B00014, 1, 0x0, 1, 0x0, .ro, 0x0, false, false, false, false⟩,
  ⟨0x00B00018, 1, 0x0, 1, 0x0, .ro, 0x0, false, false, false, false⟩,
  ⟨0x00B0001C, 1, 0x0, 1, 0x0, .ro, 0x0, false, false, false, false⟩,
  ⟨0x00B00020, 1, 0x0, 1, 0x0, .wo, 0x0, false, false, true, true⟩,
  ⟨0x00B00028, 1, 0x0, 1, 0x0, .rwl, 0x80002000, true, true, true, false⟩,
  ⟨0x00B0002C, 1, 0x0, 1, 0x0, .rwl, 0xC803E8, true, true, true, false⟩,
  ⟨0x00B00030, 1, 0x0, 1, 0x0, .rwl, 0x3E8, true, true, true, false⟩,
  ⟨0x00B00034, 1, 0x0, 1, 0x0, .rwl, 0x3E8, true, true, true, false⟩,
  ⟨0x00B00038, 1, 0x0, 1, 0x0, .rwl, 0x8064064, true, true, true, false⟩,
  ⟨0x00B0003C, 1, 0x0, 1, 0x0, .ro, 0x0, false, false, false, false⟩,
  ⟨0x00B00040, 1, 0x0, 1, 0x0, .rw, 0x0, false, false, true, false⟩,
  ⟨0x00B00100, 2, 0x40, 1, 0x0, .rwl, 0x0, true, true, true, false⟩,
  ⟨0x00B00104, 2, 0x40, 1, 0x0, .rwl, 0x0, true, true, false, false⟩,
  ⟨0x00B00108, 2, 0x40, 1, 0x0, .ro, 0x0, false, false, false, true⟩,
  ⟨0x00B00110, 2, 0x40, 1, 0x0, .ro, 0x0, false, false, false, false⟩,
  ⟨0x00B00114, 2, 0x40, 1, 0x0, .wo, 0x0, false, false, true, false⟩,
  ⟨0x00B00118, 2, 0x40, 1, 0x0, .ro, 0x0, false, false, false, false⟩,
  ⟨0x00B00200, 8, 0x20, 1, 0x0, .ro, 0x0, false, false, false, false⟩,
  ⟨0x00B00208, 8, 0x20, 1, 0x0, .ro, 0x0, false, false, false, true⟩,
  ⟨0x00B00210, 8, 0x20, 1, 0x0, .ro, 0x0, false, false, false, false⟩,
  ⟨0x00B00214, 8, 0x20, 1, 0x0, .ro, 0x0, false, false, false, false⟩,
  ⟨0x00B00300, 8, 0x10, 1, 0x0, .ro, 0x0, false, false, false, true⟩,
  ⟨0x00B00308, 8, 0x10, 1, 0x0, .ro, 0x0, false, false, false, false⟩,
  ⟨0x00B0030C, 8, 0x10, 1, 0x0, .ro, 0x0, false, false, false, false⟩,
  ⟨0x00BFFFF0, 1, 0x0, 1, 0x0, .w1s, 0x0, true, true, false, false⟩]

/-- Register rows of the block at BAR0 offset 0x0C0_0000 (02 R47). -/
def regRows0C : List RegRow := [
  ⟨0x00C00000, 1, 0x0, 1, 0x0, .ro, 0x0, false, false, false, false⟩,
  ⟨0x00C00004, 1, 0x0, 1, 0x0, .w1c, 0x0, true, true, false, false⟩,
  ⟨0x00C00008, 1, 0x0, 1, 0x0, .ro, 0x0, false, false, false, false⟩,
  ⟨0x00C0000C, 1, 0x0, 1, 0x0, .ro, 0x0, false, false, false, false⟩,
  ⟨0x00C00010, 1, 0x0, 1, 0x0, .ro, 0x0, false, false, false, false⟩,
  ⟨0x00C00018, 1, 0x0, 1, 0x0, .ro, 0x0, false, false, false, true⟩,
  ⟨0x00C00100, 6, 0x40, 1, 0x0, .ro, 0x0, false, false, false, false⟩,
  ⟨0x00C00104, 6, 0x40, 1, 0x0, .wo, 0x0, true, false, true, false⟩,
  ⟨0x00C00108, 6, 0x40, 1, 0x0, .ro, 0x0, false, false, false, true⟩,
  ⟨0x00C00110, 6, 0x40, 1, 0x0, .ro, 0x0, false, false, false, false⟩,
  ⟨0x00C00114, 6, 0x40, 1, 0x0, .ro, 0x0, false, false, false, false⟩,
  ⟨0x00C00118, 6, 0x40, 1, 0x0, .wo, 0x0, true, false, true, false⟩,
  ⟨0x00C0011C, 6, 0x40, 1, 0x0, .ro, 0x0, false, false, false, false⟩,
  ⟨0x00C00120, 6, 0x40, 1, 0x0, .ro, 0x0, false, false, false, false⟩,
  ⟨0x00C00124, 6, 0x40, 1, 0x0, .ro, 0x0, false, false, false, false⟩,
  ⟨0x00C00128, 6, 0x40, 1, 0x0, .ro, 0x0, false, false, false, false⟩,
  ⟨0x00C01000, 96, 0x4, 1, 0x0, .ro, 0x0, false, false, false, false⟩,
  ⟨0x00C02000, 8, 0x10, 1, 0x0, .ro, 0x0, false, false, false, false⟩,
  ⟨0x00C02004, 8, 0x10, 1, 0x0, .ro, 0x0, false, false, false, false⟩,
  ⟨0x00C03000, 32, 0x4, 1, 0x0, .ro, 0x0, false, false, false, false⟩,
  ⟨0x00C04000, 16, 0x10, 1, 0x0, .ro, 0x0, false, false, false, false⟩,
  ⟨0x00C04004, 16, 0x10, 1, 0x0, .ro, 0x0, false, false, false, false⟩,
  ⟨0x00C04008, 16, 0x10, 1, 0x0, .ro, 0x0, false, false, false, false⟩,
  ⟨0x00CFFFF0, 1, 0x0, 1, 0x0, .w1s, 0x0, true, true, false, false⟩]

/-- Register rows of the block at BAR0 offset 0x0D0_0000 (02 R47). -/
def regRows0D : List RegRow := [
  ⟨0x00D00000, 1, 0x0, 1, 0x0, .ro, 0x0, false, false, false, false⟩,
  ⟨0x00D00004, 1, 0x0, 1, 0x0, .w1c, 0x0, true, true, false, false⟩,
  ⟨0x00D00008, 1, 0x0, 1, 0x0, .ro, 0x0, false, false, false, false⟩,
  ⟨0x00D00010, 1, 0x0, 1, 0x0, .ro, 0x0, false, false, false, true⟩,
  ⟨0x00D00100, 8, 0x40, 1, 0x0, .ro, 0x0, false, false, false, false⟩,
  ⟨0x00D00104, 8, 0x40, 1, 0x0, .ro, 0x0, false, false, false, false⟩,
  ⟨0x00D00108, 8, 0x40, 1, 0x0, .ro, 0x0, false, false, false, false⟩,
  ⟨0x00D0010C, 8, 0x40, 1, 0x0, .ro, 0x0, false, false, false, false⟩,
  ⟨0x00D00110, 8, 0x40, 1, 0x0, .ro, 0x0, false, false, false, false⟩,
  ⟨0x00D00114, 8, 0x40, 1, 0x0, .ro, 0x0, false, false, false, false⟩,
  ⟨0x00D00118, 8, 0x40, 1, 0x0, .ro, 0x0, false, false, false, false⟩,
  ⟨0x00D0011C, 8, 0x40, 1, 0x0, .ro, 0x0, false, false, false, false⟩,
  ⟨0x00D00120, 8, 0x40, 1, 0x0, .ro, 0x0, false, false, false, false⟩,
  ⟨0x00D00128, 8, 0x40, 1, 0x0, .ro, 0x0, false, false, false, true⟩,
  ⟨0x00D01000, 4096, 0x10, 1, 0x0, .ro, 0x0, false, false, false, false⟩,
  ⟨0x00D01004, 4096, 0x10, 1, 0x0, .ro, 0x0, false, false, false, false⟩,
  ⟨0x00D01008, 4096, 0x10, 1, 0x0, .ro, 0x0, false, false, false, true⟩,
  ⟨0x00D20000, 4096, 0x20, 8, 0x4, .ro, 0x0, false, false, false, false⟩,
  ⟨0x00DFFFF0, 1, 0x0, 1, 0x0, .w1s, 0x0, true, true, false, false⟩]

/-- Register rows of the block at BAR0 offset 0x0E0_0000 (02 R47). -/
def regRows0E : List RegRow := [
  ⟨0x00E00000, 1, 0x0, 1, 0x0, .ro, 0x0, false, false, false, true⟩,
  ⟨0x00E00008, 1, 0x0, 1, 0x0, .w1c, 0x0, true, true, false, false⟩,
  ⟨0x00E0000C, 1, 0x0, 1, 0x0, .ro, 0x0, false, false, false, false⟩,
  ⟨0x00E00010, 1, 0x0, 1, 0x0, .wo, 0x0, true, false, true, true⟩,
  ⟨0x00E01000, 48, 0x40, 1, 0x0, .ro, 0x0, false, false, false, false⟩,
  ⟨0x00E01004, 48, 0x40, 1, 0x0, .ro, 0x0, false, false, false, false⟩,
  ⟨0x00E01008, 48, 0x40, 1, 0x0, .rw, 0x8, true, false, true, false⟩,
  ⟨0x00E0100C, 48, 0x40, 1, 0x0, .rw, 0x0, true, false, true, false⟩,
  ⟨0x00E01010, 48, 0x40, 1, 0x0, .ro, 0x8, false, false, false, false⟩,
  ⟨0x00E01014, 48, 0x40, 1, 0x0, .ro, 0x0, false, false, false, false⟩,
  ⟨0x00E01018, 48, 0x40, 1, 0x0, .ro, 0x0, false, false, false, false⟩,
  ⟨0x00E0101C, 48, 0x40, 1, 0x0, .ro, 0x0, false, false, false, false⟩,
  ⟨0x00E01020, 48, 0x40, 1, 0x0, .wo, 0x0, true, false, true, false⟩,
  ⟨0x00E01024, 48, 0x40, 1, 0x0, .w1c, 0x0, true, true, false, false⟩,
  ⟨0x00E01028, 48, 0x40, 1, 0x0, .ro, 0x0, false, false, false, false⟩,
  ⟨0x00E0102C, 48, 0x40, 1, 0x0, .ro, 0x0, false, false, false, false⟩,
  ⟨0x00E01030, 48, 0x40, 1, 0x0, .ro, 0xFF0000, false, false, false, false⟩,
  ⟨0x00E80000, 1, 0x0, 1, 0x0, .ro, 0x0, false, false, false, true⟩,
  ⟨0x00E80008, 1, 0x0, 1, 0x0, .ro, 0x0, false, false, false, true⟩,
  ⟨0x00E80010, 1, 0x0, 1, 0x0, .ro, 0x0, false, false, false, true⟩,
  ⟨0x00E80018, 1, 0x0, 1, 0x0, .w1c, 0x0, true, true, false, false⟩,
  ⟨0x00E8001C, 1, 0x0, 1, 0x0, .ro, 0x0, false, false, false, false⟩,
  ⟨0x00E80020, 1, 0x0, 1, 0x0, .ro, 0x0, false, false, false, false⟩,
  ⟨0x00E80100, 64, 0x10, 1, 0x0, .ro, 0x1, false, false, false, false⟩,
  ⟨0x00E80104, 64, 0x10, 1, 0x0, .ro, 0x0, false, false, false, false⟩,
  ⟨0x00E80108, 64, 0x10, 1, 0x0, .ro, 0x0, false, false, false, true⟩,
  ⟨0x00EFFFF0, 1, 0x0, 1, 0x0, .w1s, 0x0, true, true, false, false⟩]

/-- Register rows of the block at BAR0 offset 0x0F0_0000 (02 R47). -/
def regRows0F : List RegRow := [
  ⟨0x00F00000, 1, 0x0, 1, 0x0, .ro, 0x0, false, false, false, true⟩,
  ⟨0x00F00008, 1, 0x0, 1, 0x0, .w1c, 0x0, true, true, false, false⟩,
  ⟨0x00F0000C, 1, 0x0, 1, 0x0, .ro, 0x0, false, false, false, false⟩,
  ⟨0x00F01000, 64, 0x40, 1, 0x0, .ro, 0x0, false, false, false, false⟩,
  ⟨0x00F01004, 64, 0x40, 1, 0x0, .ro, 0x8000, false, false, false, false⟩,
  ⟨0x00F01008, 64, 0x40, 1, 0x0, .ro, 0x0, false, false, false, false⟩,
  ⟨0x00F0100C, 64, 0x40, 1, 0x0, .ro, 0x0, false, false, false, false⟩,
  ⟨0x00F01010, 64, 0x40, 1, 0x0, .ro, 0x0, false, false, false, false⟩,
  ⟨0x00F01014, 64, 0x40, 1, 0x0, .ro, 0x0, false, false, false, false⟩,
  ⟨0x00F01018, 64, 0x40, 1, 0x0, .w1c, 0x0, true, true, false, false⟩,
  ⟨0x00F0101C, 64, 0x40, 1, 0x0, .ro, 0x0, false, false, false, false⟩,
  ⟨0x00F01020, 64, 0x40, 1, 0x0, .rc, 0x0, false, false, false, false⟩,
  ⟨0x00F01024, 64, 0x40, 1, 0x0, .ro, 0x0, false, false, false, false⟩,
  ⟨0x00F01028, 64, 0x40, 1, 0x0, .ro, 0x0, false, false, false, false⟩,
  ⟨0x00F0102C, 64, 0x40, 1, 0x0, .ro, 0x0, false, false, false, false⟩,
  ⟨0x00F01030, 64, 0x40, 1, 0x0, .ro, 0x80000000, false, false, false, false⟩,
  ⟨0x00F01034, 64, 0x40, 1, 0x0, .ro, 0x7FFFFFFF, false, false, false, false⟩,
  ⟨0x00F02000, 16, 0x20, 1, 0x0, .ro, 0x0, false, false, false, false⟩,
  ⟨0x00F02004, 16, 0x20, 1, 0x0, .ro, 0x0, false, false, false, false⟩,
  ⟨0x00F03000, 8, 0x10, 1, 0x0, .ro, 0x0, false, false, false, false⟩,
  ⟨0x00F03008, 8, 0x10, 1, 0x0, .ro, 0x0, false, false, false, true⟩,
  ⟨0x00FFFFF0, 1, 0x0, 1, 0x0, .w1s, 0x0, true, true, false, false⟩]

/-- Register rows of the block at BAR0 offset 0x100_0000 (02 R47). -/
def regRows10 : List RegRow := [
  ⟨0x01000000, 8, 0x100, 1, 0x0, .ro, 0x0, false, false, false, false⟩,
  ⟨0x01000004, 8, 0x100, 1, 0x0, .w1c, 0x0, true, true, false, false⟩,
  ⟨0x01000008, 8, 0x100, 1, 0x0, .ro, 0x0, false, false, false, false⟩,
  ⟨0x01000010, 8, 0x100, 1, 0x0, .ro, 0x0, false, false, false, true⟩,
  ⟨0x01000018, 8, 0x100, 1, 0x0, .ro, 0x0, false, false, false, true⟩,
  ⟨0x01000020, 8, 0x100, 1, 0x0, .ro, 0x0, false, false, false, false⟩,
  ⟨0x01000024, 8, 0x100, 1, 0x0, .ro, 0x0, false, false, false, false⟩,
  ⟨0x01000028, 8, 0x100, 1, 0x0, .ro, 0x0, false, false, false, false⟩,
  ⟨0x0100002C, 8, 0x100, 1, 0x0, .ro, 0x0, false, false, false, false⟩,
  ⟨0x01000030, 8, 0x100, 1, 0x0, .ro, 0x0, false, false, false, false⟩,
  ⟨0x01010000, 4096, 0x20, 1, 0x0, .rc, 0x0, false, false, false, false⟩,
  ⟨0x01010004, 4096, 0x20, 1, 0x0, .ro, 0x0, false, false, false, false⟩,
  ⟨0x01010008, 4096, 0x20, 1, 0x0, .ro, 0x0, false, false, false, true⟩,
  ⟨0x01010010, 4096, 0x20, 1, 0x0, .ro, 0x0, false, false, false, false⟩,
  ⟨0x01010014, 4096, 0x20, 1, 0x0, .ro, 0xFF000000, false, false, false, false⟩,
  ⟨0x01030000, 8, 0x2000, 512, 0x10, .ro, 0x0, false, false, false, false⟩,
  ⟨0x01030004, 8, 0x2000, 512, 0x10, .ro, 0x0, false, false, false, false⟩,
  ⟨0x01030008, 8, 0x2000, 512, 0x10, .ro, 0x0, false, false, false, false⟩,
  ⟨0x0103000C, 8, 0x2000, 512, 0x10, .ro, 0x0, false, false, false, false⟩,
  ⟨0x01040000, 16, 0x4, 1, 0x0, .ro, 0x0, false, false, false, false⟩,
  ⟨0x01040040, 1, 0x0, 1, 0x0, .ro, 0x0, false, false, false, true⟩,
  ⟨0x01080000, 4, 0x100, 1, 0x0, .ro, 0x0, false, false, false, false⟩,
  ⟨0x01080004, 4, 0x100, 1, 0x0, .w1c, 0x0, true, true, false, false⟩,
  ⟨0x01080008, 4, 0x100, 1, 0x0, .ro, 0x0, false, false, false, false⟩,
  ⟨0x0108000C, 4, 0x100, 1, 0x0, .ro, 0x0, false, false, false, false⟩,
  ⟨0x01080010, 4, 0x100, 1, 0x0, .ro, 0x0, false, false, false, true⟩,
  ⟨0x01080018, 4, 0x100, 1, 0x0, .ro, 0x0, false, false, false, false⟩,
  ⟨0x0108001C, 4, 0x100, 1, 0x0, .ro, 0x0, false, false, false, false⟩,
  ⟨0x01080020, 4, 0x100, 1, 0x0, .ro, 0x0, false, false, false, false⟩,
  ⟨0x010FFFF0, 1, 0x0, 1, 0x0, .w1s, 0x0, true, true, false, false⟩]

/-- Register rows of the block at BAR0 offset 0x110_0000 (02 R47). -/
def regRows11 : List RegRow := [
  ⟨0x01100000, 6, 0x4, 1, 0x0, .ro, 0x0, false, false, false, false⟩,
  ⟨0x01100020, 6, 0x4, 1, 0x0, .ro, 0x0, false, false, false, false⟩,
  ⟨0x01100040, 6, 0x4, 1, 0x0, .ro, 0x0, false, false, false, false⟩,
  ⟨0x01100060, 6, 0x4, 1, 0x0, .ro, 0x0, false, false, false, false⟩,
  ⟨0x01100080, 1, 0x0, 1, 0x0, .w1c, 0x0, true, true, false, false⟩,
  ⟨0x01100084, 1, 0x0, 1, 0x0, .ro, 0x0, false, false, false, false⟩,
  ⟨0x01100100, 12, 0x4, 1, 0x0, .ro, 0x0, false, false, false, false⟩,
  ⟨0x01101000, 192, 0x4, 1, 0x0, .ro, 0x0, false, false, false, false⟩,
  ⟨0x011FFFF0, 1, 0x0, 1, 0x0, .w1s, 0x0, true, true, false, false⟩]

/-- Register rows of the block at BAR0 offset 0x120_0000 (02 R47). -/
def regRows12 : List RegRow := [
  ⟨0x01200000, 1, 0x0, 1, 0x0, .ro, 0xF0, false, false, false, false⟩,
  ⟨0x01200004, 1, 0x0, 1, 0x0, .w1c, 0x0, true, true, false, false⟩,
  ⟨0x01200008, 1, 0x0, 1, 0x0, .ro, 0x0, false, false, false, false⟩,
  ⟨0x0120000C, 1, 0x0, 1, 0x0, .ro, 0x0, false, false, false, false⟩,
  ⟨0x01200010, 1, 0x0, 1, 0x0, .ro, 0x0, false, false, false, false⟩,
  ⟨0x01200014, 1, 0x0, 1, 0x0, .ro, 0x0, false, false, false, false⟩,
  ⟨0x01200018, 1, 0x0, 1, 0x0, .ro, 0x0, false, false, false, false⟩,
  ⟨0x01200020, 1, 0x0, 1, 0x0, .ro, 0x0, false, false, false, true⟩,
  ⟨0x01200028, 1, 0x0, 1, 0x0, .ro, 0x0, false, false, false, true⟩,
  ⟨0x01200030, 1, 0x0, 1, 0x0, .ro, 0x0, false, false, false, false⟩,
  ⟨0x01200100, 12, 0x4, 1, 0x0, .ro, 0x0, false, false, false, false⟩,
  ⟨0x01200140, 4, 0x4, 1, 0x0, .ro, 0x0, false, false, false, false⟩,
  ⟨0x01200160, 4, 0x4, 1, 0x0, .ro, 0x0, false, false, false, false⟩,
  ⟨0x01200180, 4, 0x8, 1, 0x0, .ro, 0x0, false, false, false, true⟩,
  ⟨0x01200200, 16, 0x10, 1, 0x0, .ro, 0x0, false, false, false, false⟩,
  ⟨0x01200204, 16, 0x10, 1, 0x0, .ro, 0x0, false, false, false, false⟩,
  ⟨0x01200208, 16, 0x10, 1, 0x0, .ro, 0x0, false, false, false, false⟩,
  ⟨0x01200400, 16, 0x4, 1, 0x0, .ro, 0x0, false, false, false, false⟩,
  ⟨0x012FFFF0, 1, 0x0, 1, 0x0, .w1s, 0x0, true, true, false, false⟩]

/-- Register rows of the block at BAR0 offset 0x800_0000 (02 R47). -/
def regRows80 : List RegRow := [
  ⟨0x08000000, 64, 0x4, 1, 0x0, .wo, 0x0, true, false, false, false⟩,
  ⟨0x08000100, 1, 0x0, 1, 0x0, .rw, 0x0, true, false, false, true⟩,
  ⟨0x08000108, 1, 0x0, 1, 0x0, .rw, 0x0, true, false, false, true⟩,
  ⟨0x08000110, 1, 0x0, 1, 0x0, .rw, 0x0, true, false, false, false⟩,
  ⟨0x08000114, 1, 0x0, 1, 0x0, .rw, 0x0, true, false, false, false⟩,
  ⟨0x08000118, 1, 0x0, 1, 0x0, .ro, 0x0, false, false, false, false⟩,
  ⟨0x08002000, 64, 0x10, 4, 0x4, .rw, 0x0, true, false, false, false⟩,
  ⟨0x08003000, 1, 0x0, 1, 0x0, .ro, 0x0, false, false, false, true⟩]

/-- Register rows of the block at BAR0 offset 0x130_0000 (02 R47). -/
def regRows13 : List RegRow := [
  ⟨0x01300000, 1, 0x0, 1, 0x0, .ro, 0x0, false, false, false, false⟩,
  ⟨0x01300004, 1, 0x0, 1, 0x0, .w1c, 0x0, true, true, false, false⟩,
  ⟨0x01300008, 1, 0x0, 1, 0x0, .ro, 0x0, false, false, false, false⟩,
  ⟨0x01300010, 1, 0x0, 1, 0x0, .ro, 0x0, false, false, false, true⟩,
  ⟨0x01300018, 1, 0x0, 1, 0x0, .ro, 0x0, false, false, false, false⟩,
  ⟨0x0130001C, 1, 0x0, 1, 0x0, .ro, 0x0, false, false, false, false⟩,
  ⟨0x01300020, 1, 0x0, 1, 0x0, .ro, 0x0, false, false, false, false⟩,
  ⟨0x01300024, 1, 0x0, 1, 0x0, .ro, 0x0, false, false, false, false⟩,
  ⟨0x01300028, 2, 0x4, 1, 0x0, .ro, 0x0, false, false, false, false⟩,
  ⟨0x01300100, 22, 0x4, 1, 0x0, .ro, 0x20, false, false, false, false⟩,
  ⟨0x01301000, 64, 0x20, 1, 0x0, .ro, 0x0, false, false, false, false⟩,
  ⟨0x01301008, 64, 0x20, 1, 0x0, .ro, 0x0, false, false, false, true⟩,
  ⟨0x01301010, 64, 0x20, 1, 0x0, .ro, 0x0, false, false, false, false⟩,
  ⟨0x01301014, 64, 0x20, 1, 0x0, .ro, 0x0, false, false, false, false⟩,
  ⟨0x01301018, 64, 0x20, 1, 0x0, .ro, 0x0, false, false, false, false⟩,
  ⟨0x013FFFF0, 1, 0x0, 1, 0x0, .w1s, 0x0, true, true, false, false⟩]

/-- Register rows of the block at BAR0 offset 0x140_0000 (02 R47). -/
def regRows14 : List RegRow := [
  ⟨0x01400000, 1, 0x0, 1, 0x0, .ro, 0x0, false, false, false, false⟩,
  ⟨0x01400004, 1, 0x0, 1, 0x0, .w1c, 0x0, true, true, false, false⟩,
  ⟨0x01400008, 1, 0x0, 1, 0x0, .ro, 0x0, false, false, false, false⟩,
  ⟨0x0140000C, 1, 0x0, 1, 0x0, .ro, 0x0, false, false, false, false⟩,
  ⟨0x01400010, 1, 0x0, 1, 0x0, .ro, 0x0, false, false, false, false⟩,
  ⟨0x01400014, 1, 0x0, 1, 0x0, .ro, 0x0, false, false, false, false⟩,
  ⟨0x01400018, 1, 0x0, 1, 0x0, .ro, 0x0, false, false, false, false⟩,
  ⟨0x01400100, 6, 0x4, 1, 0x0, .ro, 0x0, false, false, false, false⟩,
  ⟨0x01400200, 11, 0x4, 1, 0x0, .ro, 0x0, false, false, false, false⟩,
  ⟨0x014FFFF0, 1, 0x0, 1, 0x0, .w1s, 0x0, true, true, false, false⟩]

/-- Register rows of the block at BAR0 offset 0x150_0000 (02 R47). -/
def regRows15 : List RegRow := [
  ⟨0x01500000, 1, 0x0, 1, 0x0, .w1c, 0x0, true, true, false, false⟩,
  ⟨0x01500004, 1, 0x0, 1, 0x0, .ro, 0x0, false, false, false, false⟩,
  ⟨0x01500008, 1, 0x0, 1, 0x0, .ro, 0x0, false, false, false, true⟩,
  ⟨0x01500010, 1, 0x0, 1, 0x0, .ro, 0x0, false, false, false, true⟩,
  ⟨0x01500100, 40, 0x4, 1, 0x0, .rwl, 0x0, true, true, false, false⟩,
  ⟨0x01510000, 40, 0x100, 8, 0x20, .rw, 0x0, true, true, true, true⟩,
  ⟨0x01510008, 40, 0x100, 8, 0x20, .rw, 0x0, true, true, true, true⟩,
  ⟨0x01510010, 40, 0x100, 8, 0x20, .rwl, 0x0, true, true, true, false⟩,
  ⟨0x01510014, 40, 0x100, 8, 0x20, .ro, 0x0, false, false, false, false⟩,
  ⟨0x01520000, 32, 0x20, 1, 0x0, .rw, 0x0, true, true, true, true⟩,
  ⟨0x01520008, 32, 0x20, 1, 0x0, .rw, 0x0, true, true, true, true⟩,
  ⟨0x01520010, 32, 0x20, 1, 0x0, .rwl, 0x20, true, true, true, false⟩,
  ⟨0x01520014, 32, 0x20, 1, 0x0, .ro, 0x0, false, false, false, false⟩,
  ⟨0x015FFFF0, 1, 0x0, 1, 0x0, .w1s, 0x0, true, true, false, false⟩]

/-- Register rows of the block at BAR0 offset 0x010_0000 (02 R47). -/
def regRows01 : List RegRow := [
  ⟨0x00100000, 1, 0x0, 1, 0x0, .ro, 0x0, false, false, false, false⟩,
  ⟨0x00100004, 1, 0x0, 1, 0x0, .w1c, 0x0, true, true, false, false⟩,
  ⟨0x00100008, 1, 0x0, 1, 0x0, .ro, 0x0, false, false, false, false⟩,
  ⟨0x0010000C, 1, 0x0, 1, 0x0, .ro, 0x0, false, false, false, false⟩,
  ⟨0x00100010, 1, 0x0, 1, 0x0, .rwl, 0x7D6903, true, true, false, false⟩,
  ⟨0x00100014, 1, 0x0, 1, 0x0, .rc, 0x0, false, false, false, false⟩,
  ⟨0x00100018, 1, 0x0, 1, 0x0, .ro, 0x0, false, false, false, false⟩,
  ⟨0x001FFFF0, 1, 0x0, 1, 0x0, .w1s, 0x0, true, true, false, false⟩]

/-- The whole register map. -/
def regRows : List RegRow :=
  regRows00 ++
  regRows02 ++
  regRows03 ++
  regRows04 ++
  regRows05 ++
  regRows06 ++
  regRows08 ++
  regRows07 ++
  regRows09 ++
  regRows0A ++
  regRows0B ++
  regRows0C ++
  regRows0D ++
  regRows0E ++
  regRows0F ++
  regRows10 ++
  regRows11 ++
  regRows12 ++
  regRows80 ++
  regRows13 ++
  regRows14 ++
  regRows15 ++
  regRows01

/-- The row that a word offset falls in, and whether it is the high word of a pair (02 R34). -/
def RegRow.hit (r : RegRow) (off : Nat) : Option Bool :=
  if off < r.base then none else
  let d := off - r.base
  let i := if r.s1 = 0 then 0 else d / r.s1
  let d1 := if r.s1 = 0 then d else d % r.s1
  let i := if r.n1 ≤ i then r.n1 else i
  let j := if r.s2 = 0 then 0 else d1 / r.s2
  let rest := if r.s2 = 0 then d1 else d1 % r.s2
  if i < r.n1 ∧ j < r.n2 then
    (if rest = 0 then some false else if r.wide ∧ rest = 4 then some true else none)
  else none

/-- Find the register at a word offset among rows. -/
def findRow : List RegRow → Nat → Option (RegRow × Bool)
  | [], _ => none
  | r :: rs, off => match r.hit off with
    | some hi => some (r, hi)
    | none => findRow rs off

/-- The rows of the block that an offset lies in. -/
def rowsOf (off : Nat) : List RegRow :=
  match off / 0x100000 with
  | 0x0 => regRows00
  | 0x2 => regRows02
  | 0x3 => regRows03
  | 0x4 => regRows04
  | 0x5 => regRows05
  | 0x6 => regRows06
  | 0x8 => regRows08
  | 0x7 => regRows07
  | 0x9 => regRows09
  | 0xA => regRows0A
  | 0xB => regRows0B
  | 0xC => regRows0C
  | 0xD => regRows0D
  | 0xE => regRows0E
  | 0xF => regRows0F
  | 0x10 => regRows10
  | 0x11 => regRows11
  | 0x12 => regRows12
  | 0x80 => regRows80
  | 0x13 => regRows13
  | 0x14 => regRows14
  | 0x15 => regRows15
  | 0x1 => regRows01
  | _ => []

/-- The register at a word offset (02 R31: none where no block defines it). -/
def regAt (off : Nat) : Option (RegRow × Bool) := findRow (rowsOf off) off

/-- Reset value of a word (the register tables; MSI-X vectors reset masked as PCIe prescribes, log 11). -/
def regReset (off : Nat) : Word :=
  match regAt off with
  | some (r, hi) => if r.base = 0x08002000 then (if off % 16 = 12 then 1#32 else 0#32)
      else BitVec.ofNat 32 (if hi then r.reset >>> 32 else r.reset)
  | none => 0#32

end Sys2Proof.Machine
end

