-- ==== Sys2Proof/Machine/Ops.lean ====
section
/-! DEFINITION. Machine/Ops.lean: the named operations that every command's meaning is built from: tables, memories, the
register file, flags and their events (02 R38–R40), records (11 R273–R286), host-queue entries (19 R464–R469), and commands
with their completions (02 R41–R46). -/

namespace Sys2Proof.Machine

/-! ### Tables, memories, bytes -/

/-- The entry of a table at a key. -/
def tget? {α : Type} : Tab α → Nat → Option α
  | [], _ => none
  | (i, v) :: r, k => if k = i then some v else tget? r k

/-- The entry of a table at a key, `d` where none is listed. -/
def tget {α : Type} (d : α) (t : Tab α) (k : Nat) : α := (tget? t k).getD d

/-- Set the entry of a table at a key, keys staying strictly rising. -/
def tput {α : Type} : Tab α → Nat → α → Tab α
  | [], k, v => [(k, v)]
  | (i, w) :: r, k, v => if k = i then (k, v) :: r else if k < i then (k, v) :: (i, w) :: r else (i, w) :: tput r k v

/-- Remove the entry of a table at a key. -/
def tdel {α : Type} : Tab α → Nat → Tab α
  | [], _ => []
  | (i, w) :: r, k => if k = i then r else (i, w) :: tdel r k

/-- Read one byte of memory. -/
def mget (m : Mem) (a : Nat) : Byte := tget 0#8 m a

/-- Write one byte of memory, keeping the canonical form. -/
def mput (m : Mem) (a : Nat) (v : Byte) : Mem := if v = 0#8 then tdel m a else tput m a v

/-- The canonical form of a memory: addresses strictly rising and no listed zero. -/
def Memory.wf : Mem → Bool
  | [] => true
  | [(_, v)] => v != 0#8
  | (a, v) :: (b, w) :: r => decide (a < b) && v != 0#8 && Memory.wf ((b, w) :: r)

/-- Read `n` bytes from address `a` up. -/
def mread (m : Mem) (a : Nat) : Nat → List Byte
  | 0 => []
  | n + 1 => mget m a :: mread m (a + 1) n

/-- Write bytes from address `a` up. -/
def mwrite (m : Mem) (a : Nat) : List Byte → Mem
  | [] => m
  | v :: r => mwrite (mput m a v) (a + 1) r

/-- The little-endian number that bytes spell (00, document conventions). -/
def leNat : List Byte → Nat
  | [] => 0
  | v :: r => v.toNat + 256 * leNat r

/-- The `k` little-endian bytes of a number. -/
def leBytes : Nat → Nat → List Byte
  | 0, _ => []
  | k + 1, n => BitVec.ofNat 8 n :: leBytes k (n / 256)

/-- Byte `i` of an entry; bytes beyond its end read 0. -/
def u8 (e : List Byte) (i : Nat) : Nat := (e.getD i 0#8).toNat
/-- Two bytes from byte `i` of an entry. -/
def u16 (e : List Byte) (i : Nat) : Nat := u8 e i + 256 * u8 e (i + 1)
/-- Three bytes from byte `i` of an entry (a SID, 04 R87). -/
def u24 (e : List Byte) (i : Nat) : Nat := u16 e i + 65536 * u8 e (i + 2)
/-- Four bytes from byte `i` of an entry. -/
def u32 (e : List Byte) (i : Nat) : Nat := u16 e i + 65536 * u16 e (i + 2)
/-- Eight bytes from byte `i` of an entry. -/
def u64 (e : List Byte) (i : Nat) : Nat := u32 e i + 2 ^ 32 * u32 e (i + 4)
/-- A word from byte `i` of an entry. -/
def w32 (e : List Byte) (i : Nat) : Word := BitVec.ofNat 32 (u32 e i)
/-- A signed 32-bit field. -/
def s32 (e : List Byte) (i : Nat) : Int := toSigned 32 (u32 e i)
/-- A signed 16-bit field. -/
def s16 (e : List Byte) (i : Nat) : Int := toSigned 16 (u16 e i)
/-- Bytes `i` to `i + n − 1` of an entry. -/
def slice (e : List Byte) (i n : Nat) : List Byte := (e.drop i).take n
/-- Are bytes `i` to `i + n − 1` of an entry 0? -/
def zeros (e : List Byte) (i n : Nat) : Bool := (slice e i n).all (· == 0#8)
/-- An entry padded with 0, or cut, to `n` bytes. -/
def padTo (n : Nat) (e : List Byte) : List Byte := (e ++ List.replicate (n - e.length) 0#8).take n
/-- `n` zero bytes. -/
def zeroBytes (n : Nat) : List Byte := List.replicate n 0#8

/-- One bit of the CRC-32 of IEEE 802.3, reflected. -/
def crcBits : Nat → Nat → Nat
  | 0, c => c
  | n + 1, c => crcBits n (if c % 2 = 1 then (c / 2) ^^^ 0xEDB88320 else c / 2)

/-- CRC-32 with the IEEE 802.3 polynomial (03 R59). -/
def crc32 (l : List Byte) : Nat :=
  (l.foldl (fun c v => crcBits 8 (c ^^^ v.toNat)) 0xFFFFFFFF) ^^^ 0xFFFFFFFF

/-! ### SIDs (04 R87) -/

/-- The device SID. -/
def sidDevice : Nat := 0x000001
def sidStage (n : Nat) : Nat := 0x500000 + n
def sidLoop (l : Nat) : Nat := 0x400000 + l
def sidLane (n : Nat) : Nat := 0x900000 + n
def sidMachine (m : Nat) : Nat := 0x920000 + m
def sidThread (t : Nat) : Nat := 0xB00000 + t
def sidEngine (e : Nat) : Nat := 0xB01000 + e
def sidNode (b n : Nat) : Nat := 0x810000 + 256 * b + n
def sidCons (c : Nat) : Nat := 0xA01000 + c
/-- Resource r of the ledger: feeds 0..7, circuits 8..11 (06). -/
def sidRes (r : Nat) : Nat := if r < 8 then 0xA00000 + r else 0xA00010 + (r - 8)

/-! ### The register file -/

/-- Does a word belong to what leaves the controller (the REC and HST blocks and BAR2)? -/
def isOut (off : Nat) : Bool := off / 0x100000 == 0x0A || off / 0x100000 == 0x13 || off / 0x100000 == 0x80

/-- A word of a register file. -/
def rdR (rs : Tab Word) (off : Nat) : Word := (tget? rs off).getD (regReset off)

/-- Field of a register word, as a number. -/
def fldR (rs : Tab Word) (off lo n : Nat) : Nat := field (rdR rs off).toNat lo n

/-- Replace a field of a register word. -/
def setFldR (rs : Tab Word) (off lo n x : Nat) : Tab Word :=
  tput rs off (BitVec.ofNat 32 (setField (rdR rs off).toNat lo n x))

/-- Add to a 32-bit counter that wraps. -/
def addR (rs : Tab Word) (off n : Nat) : Tab Word := tput rs off (BitVec.ofNat 32 ((rdR rs off).toNat + n))

/-- A 64-bit pair of a register file (02 R34). -/
def rd64R (rs : Tab Word) (off : Nat) : Nat := (rdR rs off).toNat + 2 ^ 32 * (rdR rs (off + 4)).toNat

/-- Write a 64-bit pair. -/
def wr64R (rs : Tab Word) (off v : Nat) : Tab Word :=
  tput (tput rs off (BitVec.ofNat 32 v)) (off + 4) (BitVec.ofNat 32 (v >>> 32))

/-- Add to a 48-bit counter, bits 63:48 reading 0 (02 R34). -/
def add48R (rs : Tab Word) (off n : Nat) : Tab Word := wr64R rs off ((rd64R rs off + n) % 2 ^ 48)

/-- Present value of a register word. -/
def Block.rd (b : Block) (off : Nat) : Word := if isOut off then rdR b.out.regs off else rdR b.regs off

/-- Store a register word. -/
def Block.wr (b : Block) (off : Nat) (v : Word) : Block :=
  if isOut off then { b with out := { b.out with regs := tput b.out.regs off v } } else { b with regs := tput b.regs off v }

/-- Store a number into a register word. -/
def Block.wrN (b : Block) (off v : Nat) : Block := b.wr off (BitVec.ofNat 32 v)
/-- A register word as a number. -/
def Block.rdN (b : Block) (off : Nat) : Nat := (b.rd off).toNat
/-- A field of a register word. -/
def Block.fld (b : Block) (off lo n : Nat) : Nat := field (b.rdN off) lo n
/-- One bit of a register word. -/
def Block.bit (b : Block) (off i : Nat) : Bool := (b.rdN off).testBit i
/-- Set a field of a register word. -/
def Block.setFld (b : Block) (off lo n x : Nat) : Block := b.wrN off (setField (b.rdN off) lo n x)
/-- Count on a 32-bit counter that wraps. -/
def Block.count (b : Block) (off : Nat) (n : Nat := 1) : Block := b.wrN off (b.rdN off + n)
/-- A 64-bit pair. -/
def Block.rd64 (b : Block) (off : Nat) : Nat := b.rdN off + 2 ^ 32 * b.rdN (off + 4)
/-- Store a 64-bit pair. -/
def Block.wr64 (b : Block) (off v : Nat) : Block := (b.wrN off v).wrN (off + 4) (v >>> 32)
/-- Count on a 48-bit counter. -/
def Block.count48 (b : Block) (off : Nat) (n : Nat := 1) : Block := b.wr64 off ((b.rd64 off + n) % 2 ^ 48)

/-! ### Host queues (19) -/

/-- Queue states of 19 R470. -/
def qDisabled : Nat := 0
def qReady : Nat := 1
def qRestarting : Nat := 2
def qFault : Nat := 3

/-- State code of host queue `q`. -/
def OutSt.qState (o : OutSt) (q : Nat) : Nat := fldR o.regs (Reg.hstQCfg q) 30 2
/-- Is the queue in service (READY, or RESTARTING, which works as READY)? -/
def OutSt.qUp (o : OutSt) (q : Nat) : Bool := o.qState q == qReady || o.qState q == qRestarting
def OutSt.qSize (o : OutSt) (q : Nat) : Nat := fldR o.regs (Reg.hstQCfg q) 0 13
def OutSt.qHead (o : OutSt) (q : Nat) : Nat := fldR o.regs (Reg.hstQIndex q) 0 12
def OutSt.qTail (o : OutSt) (q : Nat) : Nat := fldR o.regs (Reg.hstQIndex q) 16 12
/-- Free entries: one entry always stays empty (19 R461). -/
def OutSt.qRoom (o : OutSt) (q : Nat) : Nat :=
  let s := o.qSize q
  if s = 0 then 0 else (o.qHead q + s - o.qTail q - 1) % s

/-- Signal a queue's MSI-X vector, or set its pending bit while masked (19 R469). -/
def OutSt.signal (o : OutSt) (q : Nat) : OutSt :=
  let v := fldR o.regs (Reg.hstQCfg q) 24 6
  let st := tget ({} : QueueSt) o.q q
  let o := { o with q := tput o.q q { st with unsig := 0 } }
  if fldR o.regs (Reg.hstQCfg q) 23 1 = 0 then o else
  let ctrl := (rdR o.regs (Reg.msixEntry v + 12)).toNat
  if ctrl.testBit 0 then
    let p := rd64R o.regs Reg.msixPending
    { o with regs := wr64R o.regs Reg.msixPending (p ||| 2 ^ v), q := tput o.q q { st with unsig := 0, masked := true } }
  else
    { o with mem := mwrite o.mem (rd64R o.regs (Reg.msixEntry v)) (leBytes 4 (rdR o.regs (Reg.msixEntry v + 8)).toNat) }

/-- Write one 64-byte entry at the tail of a queue that has room: bytes 0–55, the mechanics of bytes 56–62 and PHASE
(19 R464), then the coalescing of 19 R469. -/
def OutSt.push (o : OutSt) (now q : Nat) (body mech : List Byte) : OutSt :=
  let t := o.qTail q
  let ph := fldR o.regs (Reg.hstQCfg q) 22 1
  let base := rd64R o.regs (Reg.hstQBase q)
  let o := { o with mem := mwrite o.mem (base + 64 * t) (padTo 56 body ++ padTo 7 mech ++ leBytes 1 ph), entries := o.entries + 1 }
  let t' := if t + 1 = o.qSize q then 0 else t + 1
  let o := { o with regs := setFldR o.regs (Reg.hstQIndex q) 16 12 t' }
  let o := if t' = 0 then { o with regs := setFldR o.regs (Reg.hstQCfg q) 22 1 (1 - ph) } else o
  let st := tget ({} : QueueSt) o.q q
  let o := { o with q := tput o.q q { st with unsig := st.unsig + 1, since := if st.unsig = 0 then now else st.since } }
  let cnt := fldR o.regs (Reg.hstQCoal q) 0 8
  let us := fldR o.regs (Reg.hstQCoal q) 16 10
  if us = 0 ∨ cnt ≤ st.unsig + 1 then o.signal q else o

/-! ### Records, events and flags -/

/-- What the recorder needs to know of the rest: the time, whether the timebase is locked, and the image's catalogue. -/
structure Ctx where
  now : Nat
  synced : Bool
  cfg : Tab (List Byte)

/-- Table numbers of what an image spells (log 8): the banked tables of section 0x0005 first. -/
def tLane : Nat := 1
def tLaneTrailer : Nat := 2
def tRecipe : Nat := 3
def tStep : Nat := 4
def tClaim : Nat := 5
def tAction : Nat := 6
def tMachine : Nat := 7
def tSmState : Nat := 8
def tTrans : Nat := 9
def tLock : Nat := 10
def tLgrHead : Nat := 11
def tCons : Nat := 12
def tCurve : Nat := 13
def tPoint : Nat := 14
def tFormat : Nat := 15
def tSer : Nat := 17
def tSerPart : Nat := 18
/-- Tables that are not banked. -/
def tThread : Nat := 32
def tLoop : Nat := 33
def tRoute : Nat := 34
def tStage : Nat := 35
def tSignal : Nat := 36
def tCodeSet : Nat := 37
def tSlot : Nat := 38
def tRole : Nat := 39
def tDevice : Nat := 40
def tAnaCh : Nat := 41
def tBridge : Nat := 42
def tWindow : Nat := 43
def tDac : Nat := 44
def tSealed : Nat := 45
def tFast : Nat := 46
def tTake : Nat := 47
def tShare : Nat := 48
def tPair : Nat := 49
def tTripSrc : Nat := 50
def tTripAssign : Nat := 51
def tAxis : Nat := 52
def tProfile : Nat := 53
def tGroup : Nat := 54
def tTemplate : Nat := 55
def tDcp : Nat := 56
def tCanCtl : Nat := 57
def tCanSet : Nat := 58
def tRxo : Nat := 59
def tTxo : Nat := 60
def tSerPort : Nat := 61
def tDioLine : Nat := 62
def tDioBank : Nat := 63
def tSafety : Nat := 64
def tSafetyPart : Nat := 65
def tImage : Nat := 66
def tChamber : Nat := 67
def tAout : Nat := 68
def tGroupPoint : Nat := 69
def tNode : Nat := 70

/-- The key of entry `i` of table `k`. -/
def key (k i : Nat) : Nat := k * 0x1000000 + i

/-- Entry `i` of table `k`; empty where none is listed. -/
def ent (t : Tab (List Byte)) (k i : Nat) : List Byte := tget [] t (key k i)
/-- Is there an entry `i` of table `k`? -/
def hasEnt (t : Tab (List Byte)) (k i : Nat) : Bool := (tget? t (key k i)).isSome
/-- All entries of table `k`, with their indices. -/
def entsOf (t : Tab (List Byte)) (k : Nat) : List (Nat × List Byte) :=
  (t.filter fun p => p.1 / 0x1000000 == k).map fun p => (p.1 % 0x1000000, p.2)

/-- The catalogue entry of a SID (04 R88). -/
def catEntry (cfg : Tab (List Byte)) (sid : Nat) : Option (List Byte) :=
  ((entsOf cfg tSignal).find? fun p => u24 p.2 0 == sid).map (·.2)

/-- Is a SID a raw channel (11 R279, 04 R87)? -/
def isRaw (sid : Nat) : Bool :=
  (0x100000 ≤ sid && sid ≤ 0x10005F) || (0x200000 ≤ sid && sid ≤ 0x200007) || (0x300000 ≤ sid && sid ≤ 0x300007)

/-- Is the calibration of a source sealed: does a catalogue entry with SEALED name it or derive from it (13, sealed calibration;
11 R274)? -/
def isSealed (cfg : Tab (List Byte)) (sid : Nat) : Bool :=
  (entsOf cfg tSignal).any fun p => (u24 p.2 0 == sid || u24 p.2 4 == sid) && (u8 p.2 7).testBit 1

/-- The filter a source has at cold start (11 R279). -/
def startFilter (cfg : Tab (List Byte)) (sid : Nat) : Filter :=
  if isRaw sid then
    (if (entsOf cfg tSignal).any fun p => (u24 p.2 0 == sid || u24 p.2 4 == sid) && (u8 p.2 7).testBit 0 then {} else { kind := 1 })
  else {}

/-- Do records of a SID's class have filters (11 R279)? -/
def filtered (sid : Nat) : Bool :=
  let c := sid / 0x100000
  (1 ≤ c && c ≤ 8) || c == 0xF

/-- Bytes a record occupies (11 R273). -/
def Rec.size (r : Rec) : Nat := 16 + (r.payload.length + 7) / 8 * 8

/-- The bytes of a record (11 R273). -/
def Rec.bytes (r : Rec) : List Byte :=
  leBytes 8 r.time ++ leBytes 3 r.sid ++ leBytes 1 r.typ ++ leBytes 2 r.seq ++ leBytes 1 ((r.payload.length + 7) / 8) ++
    leBytes 1 r.flags ++ padTo ((r.payload.length + 7) / 8 * 8) r.payload

/-- Bytes used by a segment holding records (11 R282). -/
def segBytes (rs : List Rec) : Nat := 64 + (rs.map Rec.size).sum

/-- What is to be emitted: a record offered to the recorder, an event of a block, the setting of a W1C flag of the output side,
the LOSS records that host record queues now have room for, or a record that has its number and goes to the reel. -/
inductive Job where
  | record (time sid typ : Nat) (payload : List Byte) (pass : Bool) (val : Option Rat)
  | event (blk sid kind status reason source wher bit : Nat) (detail : List Byte)
  | flag (off bit : Nat) (always : Bool) (detail : List Byte)
  | losses
  | write (r : Rec)
  deriving DecidableEq, Repr

/-- The 48 bytes of an event (19 R465). -/
def eventBytes (now sid kind status reason source wher bit : Nat) (detail : List Byte) : List Byte :=
  leBytes 8 now ++ leBytes 3 sid ++ leBytes 1 kind ++ leBytes 1 status ++ leBytes 1 reason ++ leBytes 2 source ++
    leBytes 4 wher ++ leBytes 1 bit ++ zeroBytes 3 ++ padTo 24 detail

/-- Close the open segment (11 R282); an empty one stays open. -/
def OutSt.closeSeg (o : OutSt) : OutSt :=
  if o.rcd.openSeg.isEmpty then o else
  let n := rd64R o.regs Reg.recWriteSeg
  let s : Segment := { seqNo := n, recs := o.rcd.openSeg, openedAt := o.rcd.openedAt }
  { o with rcd := { o.rcd with openSeg := [], segs := o.rcd.segs ++ [s] }, regs := wr64R o.regs Reg.recWriteSeg (n + 1) }

/-- Does an ACTIVE port that the segment is assigned to still have to send it (11 R283, R285)? -/
def OutSt.unsent (o : OutSt) (s : Segment) : Bool :=
  let act (p : Nat) := fldR o.regs (Reg.recPortState p) 0 2 == 2
  let due (p : Nat) := if act 0 && act 1 then s.seqNo % 2 == p else act p
  s.sent.isEmpty && [0, 1].any fun p => due p

/-- The filter's verdict on a record: pass it, and the filter's next state (11 R279). -/
def Filter.step (f : Filter) (now : Nat) (pass : Bool) (val : Option Rat) : Bool × Filter :=
  let seen := { f with seen := f.seen + 1 }
  if f.kind = 1 then (false, seen)
  else if f.kind = 2 then (pass || decide (f.n ≤ 1) || f.seen % f.n == 0, seen)
  else if f.kind = 3 then
    let far := match f.lastVal, val with
      | some a, some v => decide (f.thr ≤ if a < v then v - a else a - v)
      | none, some _ => true
      | _, none => Config.nanDiffers now
    let old := decide (f.lastTime + f.maxGap * 1000 ≤ now)
    if pass || far || old then (true, { seen with lastVal := val, lastTime := now }) else (false, seen)
  else (true, seen)

/-- The filter in force for a source: one accepted on an earlier tick replaces the one before (11 R279). -/
def OutSt.filterOf (cx : Ctx) (o : OutSt) (sid : Nat) : Filter :=
  match tget? o.rcd.newFilters sid with
  | some (t, f) => if t < cx.now then f else tget (startFilter cx.cfg sid) o.rcd.filters sid
  | none => tget (startFilter cx.cfg sid) o.rcd.filters sid

/-- Keep the running state of the filter in force. -/
def OutSt.putFilter (cx : Ctx) (o : OutSt) (sid : Nat) (f : Filter) : OutSt :=
  let nf := match tget? o.rcd.newFilters sid with
    | some (t, _) => if t < cx.now then tdel o.rcd.newFilters sid else o.rcd.newFilters
    | none => o.rcd.newFilters
  { o with rcd := { o.rcd with filters := tput o.rcd.filters sid f, newFilters := nf } }

/-- Does a binding of host record queue `q` match a record's SID and type (11 R286)? -/
def OutSt.bindHit (o : OutSt) (q sid typ : Nat) : Bool :=
  (List.range 8).any fun i => match tget? o.rcd.binds (q * 8 + i) with
    | some bd => (sid &&& bd.mask) == (bd.sid &&& bd.mask) && (bd.typ == 0xFF || bd.typ == typ)
    | none => false

/-- Copy a record into every host record queue with a binding that matches (11 R286, 19 R467); answers whether one of them had no
room. -/
def OutSt.copyRec (o : OutSt) (now : Nat) (r : Rec) : List Nat → OutSt × Bool
  | [] => (o, false)
  | q :: qs =>
    if !o.bindHit q r.sid r.typ then o.copyRec now r qs else
    let bs := r.bytes
    let n := (bs.length + 55) / 56
    if o.qUp q && n ≤ o.qRoom q then
      let o' := (List.range n).foldl (fun o i =>
        o.push now q (slice bs (56 * i) 56)
          (leBytes 2 (b2n (i == 0) + 2 * b2n (i + 1 == n)) ++ leBytes 1 (o.qState q))) o
      o'.copyRec now r qs
    else
      let l := tget (0, now) o.rcd.qLoss (q * 0x1000000 + r.sid)
      let o := { o with regs := addR o.regs (Reg.recQueueDrops (q - 48)) 1,
                        rcd := { o.rcd with qLoss := tput o.rcd.qLoss (q * 0x1000000 + r.sid) (l.1 + 1, l.2) } }
      ((o.copyRec now r qs).1, true)

/-- The losses of host record queues that may be accounted now: their queue has room and a millisecond has passed since the SID's
last LOSS record (11 R277, R286). -/
def OutSt.lossDue (o : OutSt) (now : Nat) : List (Nat × (Nat × Nat)) :=
  o.rcd.qLoss.filter fun p =>
    o.qUp (p.1 / 0x1000000) && o.qRoom (p.1 / 0x1000000) != 0 &&
      match tget? o.rcd.lossAt (p.1 % 0x1000000) with
      | some t => decide (t + 1000000 ≤ now)
      | none => true

/-- Take one such loss off the list and place its LOSS record in the queue itself, unless a binding of the queue copies it there
anyway. -/
def OutSt.takeLoss (o : OutSt) (now : Nat) (p : Nat × (Nat × Nat)) : OutSt × List Byte :=
  let q := p.1 / 0x1000000
  let sid := p.1 % 0x1000000
  let pay := leBytes 3 sid ++ leBytes 1 3 ++ leBytes 4 p.2.1 ++ leBytes 8 q ++ leBytes 8 p.2.2
  let o := { o with rcd := { o.rcd with qLoss := tdel o.rcd.qLoss p.1, lossAt := tput o.rcd.lossAt sid now } }
  if o.bindHit q sidDevice 0x70 then (o, pay) else
  let r : Rec := { time := now, sid := sidDevice, typ := 0x70, seq := tget 0 o.rcd.seqs sidDevice % 65536, flags := 0, payload := pay }
  (o.push now q r.bytes (leBytes 2 3 ++ leBytes 1 (o.qState q)), pay)

/-- The rise of a flag of the outward side posts its event (02 R40). -/
def OutSt.emitFlag (em : OutSt → Job → OutSt) (o : OutSt) (off bit : Nat) (always : Bool) (detail : List Byte) : OutSt :=
  let old := (rdR o.regs off).toNat
  let rs := tput o.regs off (BitVec.ofNat 32 (old ||| 2 ^ bit))
  let o := { o with regs := addR rs (off + 4) 1 }
  if always || !old.testBit bit then
    em o (.event (off / 0x100000) sidDevice 1 0 0 0xFFFD off bit detail)
  else o

/-- An event is recorded and routed to its queue (19 R465, R466). -/
def OutSt.emitEvent (em : OutSt → Job → OutSt) (cx : Ctx) (o : OutSt) (blk sid kind status reason source wher bit : Nat)
    (detail : List Byte) : OutSt :=
  let bs := eventBytes cx.now sid kind status reason source wher bit detail
  let o := em o (.record cx.now sid 0x60 bs true none)
  let q := fldR o.regs (Reg.hstEvtRoute blk) 0 6
  let st := tget ({} : QueueSt) o.q q
  let mech := leBytes 2 st.seq ++ leBytes 1 (o.qState q) ++ leBytes 4 (st.seq >>> 16)
  if !o.qUp q then { o with regs := addR o.regs Reg.hstEventsUnrouted 1 }
  else if o.qRoom q = 0 ∨ 0 < st.lost then
    let first := if st.lost = 0 then cx.now else st.lostFirst
    let st := { st with seq := st.seq + 1, lost := st.lost + 1, lostFirst := first }
    let o := { o with q := tput o.q q st, regs := addR o.regs (Reg.hstQDrops q) 1 }
    em o (.flag Reg.hstFlags 2 false [])
  else
    let o := o.push cx.now q bs mech
    let st := tget ({} : QueueSt) o.q q
    { o with q := tput o.q q { st with seq := st.seq + 1 } }

/-- The losses of host record queues that may be accounted now are recorded (11 R277, R286). -/
def OutSt.emitLosses (em : OutSt → Job → OutSt) (cx : Ctx) (o : OutSt) : OutSt :=
  (o.lossDue cx.now).foldl (fun o p =>
    if o.qRoom (p.1 / 0x1000000) = 0 then o else
    let ol := o.takeLoss cx.now p
    em ol.1 (.record cx.now sidDevice 0x70 ol.2 true none)) o

/-- A record is offered to the recorder: its filter, its number and flags, and the loss at its tap (11 R272–R280, 22 R503). -/
def OutSt.emitRecord (em : OutSt → Job → OutSt) (cx : Ctx) (o : OutSt) (time sid typ : Nat) (payload : List Byte) (pass : Bool)
    (val : Option Rat) : OutSt :=
  if fldR o.regs Reg.recState 0 1 = 0 then o else
  let o := if typ = 0x70 then o else em o .losses
  let f := o.filterOf cx sid
  let (ok, f') := if filtered sid && typ != 0x60 then f.step cx.now pass val else (true, f)
  let o := if filtered sid && typ != 0x60 then o.putFilter cx sid f' else o
  if !ok then o else
  let n := tget 0 o.rcd.seqs sid
  let fl := 2 * b2n (filtered sid && f.kind != 0) + 4 * b2n (!cx.synced) + 8 * b2n (isSealed cx.cfg sid)
  let o := { o with rcd := { o.rcd with seqs := tput o.rcd.seqs sid (n + 1) } }
  let kept := typ == 0x70 || typ == 0x73 || typ == 0x74
  let r : Rec := { time := time, sid := sid, typ := typ, seq := n % 65536, flags := fl, payload := payload }
  if o.rcd.ddrDown then
    -- the DDR PLL is unlocked (22 R503)
    if kept then { o with rcd := { o.rcd with waitRecs := o.rcd.waitRecs ++ [r] } } else
    let l := tget (0, n % 65536, time) o.rcd.tapLoss sid
    let o := { o with rcd := { o.rcd with tapLoss := tput o.rcd.tapLoss sid (l.1 + 1, l.2) }, regs := add48R o.regs Reg.recTapLoss 1 }
    em o (.flag Reg.recFlags 0 false [])
  else
    match (if kept then none else tget? o.rcd.tapLoss sid) with
    | some l =>
      let o := { o with rcd := { o.rcd with tapLoss := tdel o.rcd.tapLoss sid } }
      let o := em o (.record cx.now sidDevice 0x70
        (leBytes 3 sid ++ leBytes 1 1 ++ leBytes 4 l.1 ++ leBytes 8 l.2.1 ++ leBytes 8 l.2.2) true none)
      em o (.write { r with flags := fl + 1 })
    | none => em o (.write r)

/-- A record goes to the reel and the host record queues (11 R282–R286). -/
def OutSt.emitWrite (em : OutSt → Job → OutSt) (cx : Ctx) (o : OutSt) (r : Rec) : OutSt :=
  let o := if 65536 < segBytes o.rcd.openSeg + r.size then o.closeSeg else o
  let opened := if o.rcd.openSeg.isEmpty then cx.now else o.rcd.openedAt
  let rs := add48R (add48R o.regs Reg.recRecords 1) Reg.recBytes r.size
  let o := { o with rcd := { o.rcd with openSeg := o.rcd.openSeg ++ [r], openedAt := opened }, regs := rs }
  let (o, drop) := o.copyRec cx.now r ((List.range 16).map (48 + ·))
  let o := if drop then em o (.flag Reg.recFlags 2 false []) else o
  -- the ring of the reel (11 R283)
  let cap := (rdR o.regs Reg.recReelSegments).toNat
  match o.rcd.segs with
  | s :: rest =>
    if cap ≤ o.rcd.segs.length then
      let lost := o.unsent s
      let o := { o with rcd := { o.rcd with segs := rest }, regs := wr64R o.regs Reg.recOldestSeg (s.seqNo + 1) }
      if lost then
        let o := { o with regs := addR o.regs Reg.recReelLoss 1 }
        let t0 := match s.recs.head? with | some r => r.time | none => cx.now
        let o := em o (.record cx.now sidDevice 0x70
          (leBytes 3 0 ++ leBytes 1 2 ++ leBytes 4 1 ++ leBytes 8 s.seqNo ++ leBytes 8 t0) true none)
        em o (.flag Reg.recFlags 1 false [])
      else o
    else o
  | [] => o

/-- Carry out a job, its consequences through `em`. -/
def OutSt.emitStep (em : OutSt → Job → OutSt) (cx : Ctx) (o : OutSt) : Job → OutSt
  | .flag off bit always detail => OutSt.emitFlag em o off bit always detail
  | .event blk sid kind status reason source wher bit detail => OutSt.emitEvent em cx o blk sid kind status reason source wher bit detail
  | .losses => OutSt.emitLosses em cx o
  | .record time sid typ payload pass val => OutSt.emitRecord em cx o time sid typ payload pass val
  | .write r => OutSt.emitWrite em cx o r

/-- Carry out a job and everything that follows from it. The first argument bounds the chain, which ends because a flag that is
already set posts nothing more. -/
def OutSt.emit (cx : Ctx) : Nat → OutSt → Job → OutSt
  | 0, o, _ => o
  | fuel + 1, o, j => OutSt.emitStep (OutSt.emit cx fuel) cx o j

/-- Depth of the chain of consequences that one emission can have (see `OutSt.emit`). -/
def emitDepth : Nat := 40

/-- Is the timebase locked (12, 11 R274)? TB.STATE.STATE 0b10 is LOCKED. -/
def Block.synced (b : Block) : Bool := b.fld Reg.tbState 0 2 == 2

/-- The recorder's view of the block. -/
def Block.ctx (b : Block) : Ctx := { now := b.now, synced := b.synced, cfg := b.cfg }

/-- Emit a job from the block, the block counters left aside. -/
def Block.emitRaw (b : Block) (j : Job) : Block := { b with out := OutSt.emit b.ctx emitDepth b.out j }

/-- Add `n` counts to a 48-bit performance counter (21 R493): the value where it stands after them, and how often it wrapped. With
RELOAD_EN it continues from RELOAD, else from 0. -/
def prfAdd (v n reload : Nat) : Nat × Nat :=
  if v + n < 2 ^ 48 then (v + n, 0) else
  let ovr := v + n - 2 ^ 48
  let span := 2 ^ 48 - reload % 2 ^ 48
  (reload % 2 ^ 48 + ovr % span, 1 + ovr / span)

/-- Each wrap sets OVF, counts, posts the counter's own event and sets PRF.FLAGS.WRAP (21 R493). `em` emits. -/
def Block.prfWrap (em : Block → Job → Block) (b : Block) (cfg wraps sid : Nat) : Nat → Block
  | 0 => b
  | k + 1 =>
    let b := (b.setFld cfg 31 1 1).count wraps
    let b := em b (.event 0x15 sid 1 0 0 0xFFFD cfg 31 [])
    let was := b.bit Reg.prfFlags 0
    let b := (b.wrN Reg.prfFlags (b.rdN Reg.prfFlags ||| 1)).count Reg.prfFlagsSets
    let b := if was then b else em b (.event 0x15 sidDevice 1 0 0 0xFFFD Reg.prfFlags 0 [])
    Block.prfWrap em b cfg wraps sid k

/-- The block counters that select an event (21 R491): the reset EVENT is 0x20. -/
def Block.blkCounters (b : Block) (ev : Nat) : List Nat :=
  if ev = 0x20 then (List.range 32).filter fun k => b.fld (Reg.prfBlkCfg k) 0 8 == ev
  else (b.regs.filter fun p => 0x01520010 ≤ p.1 && p.1 < 0x01520410 && p.1 % 0x20 == 0x10 && p.2.toNat % 256 == ev).map
    fun p => (p.1 - 0x01520010) / 0x20

/-- Count `n` occurrences of an event on the block counters that select it. -/
def Block.blkCountWith (em : Block → Job → Block) (b : Block) (ev n : Nat) : Block :=
  if n = 0 then b else
  (b.blkCounters ev).foldl (fun (b : Block) k =>
    let r := prfAdd (b.rd64 (Reg.prfBlkCtr k)) n 0
    (b.wr64 (Reg.prfBlkCtr k) r.1).prfWrap em (Reg.prfBlkCfg k) (Reg.prfBlkWraps k) (0xE01000 + k) r.2) b

/-- Emit a job and count the records and entries it wrote (21 R491); the first argument bounds the events of wraps. -/
def Block.emitN : Nat → Block → Job → Block
  | 0, b, j => b.emitRaw j
  | k + 1, b, j =>
    let n := rd64R b.out.regs Reg.recRecords
    let l := rd64R b.out.regs Reg.recTapLoss
    let e := b.out.entries
    let b := b.emitRaw j
    let b := b.blkCountWith (Block.emitN k) 0x26 (rd64R b.out.regs Reg.recRecords - n)
    let b := b.blkCountWith (Block.emitN k) 0x27 (rd64R b.out.regs Reg.recTapLoss - l)
    b.blkCountWith (Block.emitN k) 0x29 (b.out.entries - e)

/-- Emit a job from the block. -/
def Block.emit (b : Block) (j : Job) : Block := b.emitN 3 j

/-- Count `n` occurrences of a block event (21 R491). -/
def Block.blkCount (b : Block) (ev : Nat) (n : Nat := 1) : Block := b.blkCountWith Block.emit ev n

/-- Offer a record to the recorder (11 R272), with the header time given. -/
def Block.recordAt (b : Block) (time sid typ : Nat) (payload : List Byte) (pass : Bool := false) (val : Option Rat := none) : Block :=
  b.emit (.record time sid typ payload pass val)

/-- Offer a record stamped with the present time. -/
def Block.record (b : Block) (sid typ : Nat) (payload : List Byte) (pass : Bool := false) (val : Option Rat := none) : Block :=
  b.recordAt b.now sid typ payload pass val

/-- Post an event of a block (19 R465); source 0xFFFD is the controller itself. -/
def Block.event (b : Block) (blk sid kind : Nat) (status reason : Nat := 0) (source : Nat := 0xFFFD) (wher bit : Nat := 0)
    (detail : List Byte := []) : Block :=
  b.emit (.event blk sid kind status reason source wher bit detail)

/-- Hardware sets bit `bit` of the W1C register at `off` (02 R38, R39). -/
def Block.setFlag (b : Block) (off bit : Nat) : Block :=
  let b := b.wrN off (b.rdN off ||| 2 ^ bit)
  b.count (off + 4)

/-- Hardware sets a flag; its transition from 0 to 1 posts an event of kind FLAG (02 R40, 19 R465). -/
def Block.raise (b : Block) (off bit : Nat) (sid : Nat := sidDevice) (detail : List Byte := []) : Block :=
  let was := b.bit off bit
  let b := b.setFlag off bit
  if was then b else b.event (off / 0x100000) sid 1 0 0 0xFFFD off bit detail

/-- A condition that a rule says sets a flag and posts an event: the event is posted on every occurrence (02 R40). -/
def Block.raisePost (b : Block) (off bit : Nat) (sid : Nat := sidDevice) (detail : List Byte := []) : Block :=
  (b.setFlag off bit).event (off / 0x100000) sid 1 0 0 0xFFFD off bit detail

/-! ### Device state (03 R49) -/

def dsBoot : Nat := 0
def dsImageCheck : Nat := 1
def dsAwaitWorld : Nat := 2
def dsOperational : Nat := 3
def dsRestart : Nat := 4
def dsSafeStop : Nat := 5
def dsFailed : Nat := 6

/-- The device state code of 03 R49. -/
def Block.dev (b : Block) : Nat := b.fld Reg.sysState 0 8

/-- Enter a device state: the register and the DEVICE event with old and new codes (19 R465). -/
def Block.setDev (b : Block) (d : Nat) : Block :=
  let old := b.dev
  (b.setFld Reg.sysState 0 8 d).event 0 sidDevice 5 0 0 0xFFFD (old + 256 * d)

/-- An entry in the MI event log (20 R485). -/
def Block.log (b : Block) (source code : Nat) (detail : List Byte := []) : Block :=
  let m := b.mgmt
  let valid := b.dev != dsBoot && b.refclk
  let e : LogEntry := { time := if valid then b.now else b.elapsed - m.aonSince, seq := m.nextSeq, source := source, code := code,
                        timeValid := valid, detail := detail }
  let l := m.log ++ [e]
  let m := { m with log := if 4096 < l.length then l.drop 1 else l, nextSeq := m.nextSeq + 1,
                    events := m.events ++ [leBytes 4 e.seq] , alert := true }
  { b with mgmt := m }

/-! ### Commands (02 R41–R46) -/

/-- Status codes of 02 R45. -/
def stDone : Nat := 0x00
def stDoneLate : Nat := 0x01
def stQueued : Nat := 0x02
def stBadArg : Nat := 0x10
def stBadRef : Nat := 0x11
def stConflict : Nat := 0x12
def stBusy : Nat := 0x13
def stNoSpace : Nat := 0x14
def stInterlock : Nat := 0x20
def stLimit : Nat := 0x21
def stLedger : Nat := 0x22
def stRestarted : Nat := 0x30
def stFenced : Nat := 0x31
def stAbandoned : Nat := 0x32
def stAuth : Nat := 0x40
def stImage : Nat := 0x41
def stSealed : Nat := 0x42
def stInternal : Nat := 0x7F

/-- Roles of 20 R479. -/
def roleNone : Nat := 0
def roleObserver : Nat := 1
def roleOperator : Nat := 2
def roleMaintainer : Nat := 3

/-- The source number of a command (02 R42). -/
def issuerSrc : Issuer → Nat
  | .host q => q.val
  | .mgmt _ => 0xFFFF

/-- Is the command from the host? -/
def issuerIsHost : Issuer → Bool
  | .host _ => true
  | .mgmt _ => false

/-- The argument bytes of a command: the EXT block, or ARGS; bytes beyond ARGLEN read 0 (02 R41, log 12). -/
def cArg (c : Cmd) : List Byte :=
  if c.flags.toNat.testBit 0 then c.extData.take c.arglen.toNat else c.args.take c.arglen.toNat
def cExt (c : Cmd) : Bool := c.flags.toNat.testBit 0
def cNotify (c : Cmd) : Bool := c.flags.toNat.testBit 1
/-- OBJECT as a SID. -/
def cObj (c : Cmd) : Nat := c.object.toNat % 0x1000000

/-- A refusal: status, reason and, for STATE_CONFLICT, the state code that caused it (02 R46). -/
structure Refuse where
  status : Nat
  reason : Nat := 0
  code : Nat := 0
  deriving DecidableEq, Repr

/-- Refuse when a condition holds. -/
def deny (p : Bool) (status : Nat) (reason : Nat := 0) (code : Nat := 0) : Option Refuse :=
  if p then some { status := status, reason := reason, code := code } else none

/-- The first refusal that applies (02 R43). -/
def firstRefusal : List (Option Refuse) → Option Refuse
  | [] => none
  | some r :: _ => some r
  | none :: rest => firstRefusal rest

/-- Check 1: the issuer's authority (02 R44, 20 R481). Host commands are the maintainer's; `mgmtOnly` marks those that belong to
the management link alone. -/
def authCheck (c : Cmd) (role : Nat) (mgmtOnly : Bool := false) : Option Refuse :=
  match c.issuer with
  | .host _ => deny mgmtOnly stAuth
  | .mgmt r => deny (decide (r.val < role)) stAuth

/-- The device-state part of check 4, made before check 2 and 3 (02 R43): refusal with the device state's code, by the management island
where REFCLK is lost or the CP is not yet up (20 R486). -/
def devCheck (b : Block) (legal : List Nat) : Option Refuse :=
  if b.dev ≠ dsBoot ∧ !b.refclk then some { status := stConflict, reason := 0x11, code := b.dev }
  else if legal.contains b.dev then none
  else
    some { status := stConflict, reason := if b.dev = dsBoot then 0x10 else 0, code := b.dev }

/-- All device states from AWAIT_WORLD on, but FAILED. -/
def devLive : List Nat := [dsAwaitWorld, dsOperational, dsRestart, dsSafeStop]
/-- The states in which a world is in force. -/
def devWorld : List Nat := [dsOperational, dsRestart, dsSafeStop]

/-- The envelope part of check 2 (02 R41, 20 R479): VERSION, reserved bits and bytes, ARGLEN. -/
def envCheck (c : Cmd) : Option Refuse :=
  deny (c.version != 1#8 || decide (4 ≤ c.flags.toNat) || decide (0x1000000 ≤ c.object.toNat) || c.reserved != 0#32 ||
    (!(cExt c) && decide (48 < c.arglen.toNat)) || (cExt c && !(zeros c.args 8 40 && (issuerIsHost c.issuer || zeros c.args 0 8)))) stBadArg

/-- A command that acts on the block as a whole carries OBJECT 0 (02 R41). -/
def noObject (c : Cmd) : Option Refuse := deny ((cObj c) != 0) stBadArg

/-- A command that writes into host memory cannot come over the link (20 R479). -/
def hostOnly (c : Cmd) : Option Refuse := deny (!(issuerIsHost c.issuer)) stBadArg 0x0F

/-- The device SID stands in for OBJECT 0 (02 R46). -/
def objSid (obj : Nat) : Nat := if obj = 0 then sidDevice else obj

/-- Update the first element of a list that satisfies `p`; `d` is appended where none does. -/
def updFirst {α : Type} (p : α → Bool) (f : α → α) (d : α) : List α → List α
  | [] => [f d]
  | x :: xs => if p x then f x :: xs else x :: updFirst p f d xs

/-- A command's completion entries that are known and not yet written. -/
def Slot.known (x : Slot) : Nat := b2n (x.first.isSome && !x.firstWritten) + b2n x.final.isSome

/-- Completions of commands whose queue is gone are discarded and counted (19 R458, R470, R473). -/
def OutSt.dropLost (o : OutSt) : OutSt :=
  let gone := o.slots.filter fun x => x.lost != 0 && x.known != 0
  let o := gone.foldl (fun (o : OutSt) x =>
    if x.lost = 2 then { o with regs := addR o.regs Reg.hstLostCompletions x.known }
    else if x.lost = 3 then { o with regs := addR o.regs (Reg.hstQDrops (x.src + 16)) x.known }
    else o) o
  { o with slots := (o.slots.filter fun x => x.lost == 0 || x.first.isNone || (x.two && x.final.isNone)).map fun x =>
             if x.lost != 0 && x.first.isSome then { x with firstWritten := true } else x }

/-- Record a completion of a command for its source: the first one, or the final one of a QUEUED command (19 R463). A command
that was not fetched through a queue (log 13) gets a slot of its own. -/
def Block.answer (b : Block) (src opcode tag : Nat) (notify : Bool) (cpl : Completion) : Block :=
  let d : Slot := { src := src, opcode := opcode, tag := tag, notify := notify, two := cpl.status == stQueued }
  let slots := updFirst (fun s => s.src == src && s.opcode == opcode && s.tag == tag && s.first.isNone)
    (fun s => { s with executed := true, first := some cpl, notify := notify, two := cpl.status == stQueued }) d b.out.slots
  let b := if src = 0xFFFF then { b with mgmt := { b.mgmt with alert := true } } else b
  { b with out := { b.out with slots := slots }.dropLost }

/-- Record the final completion of a QUEUED command. -/
def Block.answerFinal (b : Block) (src opcode tag : Nat) (cpl : Completion) : Block :=
  let d : Slot := { src := src, opcode := opcode, tag := tag, two := true, firstWritten := true, executed := true }
  let slots := updFirst (fun s => s.src == src && s.opcode == opcode && s.tag == tag && s.two && s.final.isNone)
    (fun s => { s with final := some cpl }) d b.out.slots
  let b := if src = 0xFFFF then { b with mgmt := { b.mgmt with alert := true } } else b
  { b with out := { b.out with slots := slots }.dropLost }

/-- Bytes 16–39 of a completion, for a NOTIFY copy (19 R465). -/
def notifyBytes (cpl : Completion) : List Byte := padTo 24 cpl.result

/-- Is a refusal the management island's own, for want of a path to the CP: reason 0x10 NOT_AVAILABLE or 0x11 NO_REFCLK (02 R46, 20 R486)?
It is logged, neither counted nor posted; the CODE of that log entry is free (log 4). -/
def Block.unreached (b : Block) (opcode reason : Nat) : Bool :=
  (reason == 0x10 || reason == 0x11) && (b.dev == dsBoot || !b.refclk || opcode / 256 == 0x14)

/-- Complete a command: its completion, the event and count of a STATE_CONFLICT (02 R46), and the NOTIFY copy (02 R41). -/
def Block.complete (b : Block) (opcode : Nat) (c : Cmd) (status : Nat) (reason : Nat := 0) (result : List Byte := [])
    (code : Nat := 0) : Block :=
  let cpl : Completion := { status := status, reason := reason, time := b.now, result := result }
  let b := b.answer (issuerSrc c.issuer) opcode c.tag.toNat (cNotify c) cpl
  let b := if status = stConflict then
      (if b.unreached opcode reason then
        ({ b with free := b.free + 1 }).log 6 (Config.freeNat b.free % 256) (leBytes 2 opcode ++ leBytes 2 c.tag.toNat ++
          leBytes 2 (issuerSrc c.issuer) ++ leBytes 3 (objSid (cObj c)) ++ leBytes 1 code)
       else (b.count Reg.sysStateConflicts).event (opcode / 256) (objSid (cObj c)) 2 status reason (issuerSrc c.issuer)
          (opcode + 65536 * c.tag.toNat) code)
    else b
  if cNotify c && !(status == stConflict && b.unreached opcode reason) then
    b.event (opcode / 256) (objSid (cObj c)) 3 status reason (issuerSrc c.issuer) (opcode + 65536 * c.tag.toNat) 0 (notifyBytes cpl)
  else b

/-- What is kept of a command that completes later. -/
def opOf (c : Cmd) (opcode : Nat) (data : List Byte := []) : ServiceOp :=
  { src := issuerSrc c.issuer, tag := c.tag.toNat, opcode := opcode, object := cObj c, data := data, notify := cNotify c }

/-- The completion of a command that completes later: the final one of a QUEUED command, or the only one of another. A command that a
continuity restart caught reports RESTARTED in place of DONE (10 R263). -/
def Block.settle (b : Block) (o : ServiceOp) (queued : Bool) (status : Nat) (reason : Nat := 0) (result : List Byte := [])
    (code : Nat := 0) : Block :=
  let status := if o.caught && status == stDone then stRestarted else status
  let cpl : Completion := { status := status, reason := reason, time := b.now, result := result }
  let b := if queued then b.answerFinal o.src o.opcode o.tag cpl else b.answer o.src o.opcode o.tag o.notify cpl
  let b := if status = stConflict then
      (b.count Reg.sysStateConflicts).event (o.opcode / 256) (objSid o.object) 2 status reason o.src (o.opcode + 65536 * o.tag) code
    else b
  if o.notify then
    b.event (o.opcode / 256) (objSid o.object) 3 status reason o.src (o.opcode + 65536 * o.tag) 0 (notifyBytes cpl)
  else b

/-- Run a command: the first refusal completes it with no side effect (02 R43); otherwise `eff` gives the new block, status,
reason and result. -/
def Block.run (b : Block) (opcode : Nat) (c : Cmd) (refusals : List (Option Refuse))
    (eff : Block → Block × Nat × Nat × List Byte) : Block :=
  match firstRefusal refusals with
  | some r => b.complete opcode c r.status r.reason [] r.code
  | none => let (b', st, rs, res) := eff b; b'.complete opcode c st rs res

/-- Run a command that completes with DONE and no result. -/
def Block.runDone (b : Block) (opcode : Nat) (c : Cmd) (refusals : List (Option Refuse)) (eff : Block → Block) : Block :=
  b.run opcode c refusals fun b => (eff b, stDone, 0, [])

/-- Accept a command that completes later: the first refusal completes it, else `eff` begins it. -/
def Block.accept (b : Block) (opcode : Nat) (c : Cmd) (refusals : List (Option Refuse)) (eff : Block → Block) : Block :=
  match firstRefusal refusals with
  | some r => b.complete opcode c r.status r.reason [] r.code
  | none => eff b

/-- Is a service engine in IDLE or RUNNING (01 R11, 10 R250)? None is during a continuity restart. -/
def Block.serviceUp (b : Block) : Bool :=
  b.dev != dsRestart && (List.range 4).any fun i => let s := b.fld (Reg.engState (36 + i)) 0 3; s == 1 || s == 2

/-- What is kept of a command that a service engine carries: held while none is available (01 R11), and caught where that is for a
continuity restart (10 R263). -/
def Block.serviceOp (b : Block) (c : Cmd) (opcode : Nat) (data : List Byte := []) : ServiceOp :=
  { opOf c opcode data with held := !b.serviceUp, caught := b.dev == dsRestart }

/-- Draw a free Boolean (log 4). -/
def Block.drawBool (b : Block) : Bool × Block := (Config.freeBool b.free, { b with free := b.free + 1 })
/-- Draw a free number (log 4). -/
def Block.drawNat (b : Block) : Nat × Block := (Config.freeNat b.free, { b with free := b.free + 1 })

/-- Has t0 of a cold start come (03 R50, R53): POR_N released, REFCLK valid, and nothing that prolongs BOOT (23 R519, 22 R508)? -/
def Block.started (b : Block) : Bool :=
  b.refclk && !b.boot.por && !b.boot.waitRefclk && !b.boot.testHold && !b.mgmt.thermalHold

/-- A meaning that changes the block alone. -/
def nextB (s : State) (f : Block → Block) : Host.Outcome State Fault Refusal := .next { s with b := f s.b }

end Sys2Proof.Machine
end

