-- ==== Sys2Proof/Machine/HostQ.lean ====
section
/-! DEFINITION. Machine/HostQ.lean: host queues as registers of BAR2 make, move and delete them (19 R460–R461, R468–R471). -/

namespace Sys2Proof.Machine

/-- Change what leaves the controller. -/
def Block.onOut (b : Block) (f : OutSt → OutSt) : Block := { b with out := f b.out }

/-- Set a queue's state; `ADMIN_STATUS` shows those of the admin pair (R460, R470). -/
def OutSt.setQ (o : OutSt) (q st : Nat) : OutSt :=
  let rs := setFldR o.regs (Reg.hstQCfg q) 30 2 st
  { o with regs := if q = 0 then setFldR rs Reg.adminStatus 0 2 st else if q = 16 then setFldR rs Reg.adminStatus 8 2 st else rs }

/-- A queue comes into service, empty, on its first pass (R464); during a continuity restart it is RESTARTING (R470). -/
def OutSt.makeQ (o : OutSt) (q size vec : Nat) (inten : Bool) (base coal us : Nat) (restarting : Bool) : OutSt :=
  let cfg := size % 8192 + 2 ^ 22 * b2n (decide (16 ≤ q)) + 2 ^ 23 * b2n inten + 2 ^ 24 * (vec % 64)
  let rs := tput o.regs (Reg.hstQCfg q) (BitVec.ofNat 32 cfg)
  let rs := tput (wr64R rs (Reg.hstQBase q) base) (Reg.hstQIndex q) 0#32
  let rs := tput rs (Reg.hstQCoal q) (BitVec.ofNat 32 (coal % 256 + 65536 * (us % 1024)))
  let o := { o with regs := rs, q := tput o.q q {} }
  o.setQ q (if restarting then qRestarting else qReady)

/-- Completion entries reserved for a command and not yet written (R463). -/
def Slot.reserved (x : Slot) : Nat := b2n (!x.firstWritten) + b2n x.two

/-- Delete a queue (R473): a command queue stops fetching; a completion queue's unwritten entries and reserved slots are discarded and
counted. -/
def OutSt.deleteQ (o : OutSt) (q : Nat) : OutSt :=
  let o := (o.setQ q qDisabled)
  let o := { o with q := tput o.q q {} }
  if q < 16 ∨ 32 ≤ q then o else
  let n := ((o.slots.filter fun x => x.src == q - 16 && x.lost == 0).map Slot.reserved).sum
  let o := { o with regs := addR o.regs Reg.hstLostCompletions n,
                    slots := o.slots.map fun (x : Slot) => if x.src == q - 16 && x.lost == 0 then { x with lost := 1 } else x }
  o.dropLost

/-- All the host's queues go DISABLED on a PCIe-side reset; what the accepted commands complete with is discarded and counted (R458). -/
def OutSt.pcieReset (o : OutSt) : OutSt :=
  let o := (List.range 64).foldl (fun (o : OutSt) q => { o with q := tput o.q q {} }.setQ q qDisabled) o
  let o := { o with slots := o.slots.map fun (x : Slot) => if x.src < 16 && x.lost == 0 then { x with lost := 2 } else x }.dropLost
  -- the admin registers and the MSI-X structures return to their reset values
  { o with regs := o.regs.filter fun p => decide (p.1 < Reg.adminCmdBase) || decide (Reg.msixPending + 8 ≤ p.1) || p.1 == Reg.adminStatus,
           rrAt := 1, rrTaken := 0 }

/-- A queue whose head reaches its tail withdraws a pending signal that it alone caused (R469). -/
def OutSt.withdraw (o : OutSt) (q : Nat) : OutSt :=
  let st := tget ({} : QueueSt) o.q q
  let o := { o with q := tput o.q q { st with unsig := 0, masked := false } }
  if !st.masked then o else
  let v := fldR o.regs (Reg.hstQCfg q) 24 6
  let others := (List.range 64).any fun k => (tget ({} : QueueSt) o.q k).masked && fldR o.regs (Reg.hstQCfg k) 24 6 == v
  if others then o else
  let p := rd64R o.regs Reg.msixPending
  if p.testBit v then { o with regs := wr64R o.regs Reg.msixPending (p - 2 ^ v) } else o

/-- The indices that a doorbell write may give (R468): below SIZE, and moving a command tail no further than the head leaves room, or
another queue's head no further than the tail. -/
def OutSt.dbValid (o : OutSt) (q i : Nat) : Bool :=
  let s := o.qSize q
  let h := o.qHead q
  let t := o.qTail q
  decide (i < s) &&
    (if q < 16 then decide ((t + s - h) % s + (i + s - t) % s < s) else decide ((i + s - h) % s ≤ (t + s - h) % s))

/-- A doorbell write (R462, R468). -/
def Block.onDoorbell (b : Block) (q : Nat) (v : Word) : Block :=
  let i := v.toNat % 4096
  if !b.out.qUp q then b.count Reg.hstDbIgnored
  else if !b.out.dbValid q i then (b.count Reg.hstDbInvalid).emit (.flag Reg.hstFlags 1 false [])
  else if q < 16 then b.setFld (Reg.hstQIndex q) 16 12 i
  else
    let b := b.setFld (Reg.hstQIndex q) 0 12 i
    let b := if i = b.out.qTail q then b.onOut (·.withdraw q) else b
    if 48 ≤ q then b.emit .losses else b

/-- May the admin pair be enabled: sizes and bases as the table gives them (R460, R461)? -/
def OutSt.adminOk (o : OutSt) : Bool :=
  let cs := fldR o.regs Reg.adminSize 0 13
  let ps := fldR o.regs Reg.adminSize 16 13
  decide (16 ≤ cs) && decide (cs ≤ 4096) && decide (16 ≤ ps) && decide (ps ≤ 4096) &&
    rd64R o.regs Reg.adminCmdBase % 4096 == 0 && rd64R o.regs Reg.adminCplBase % 4096 == 0

/-- A write of `ADMIN_CTRL` (R460): setting ENABLE brings the pair into service or is refused; clearing it deletes the pair. -/
def Block.onAdminCtrl (b : Block) (v : Word) : Block :=
  let was := b.bit Reg.adminCtrl 0
  let vec := field v.toNat 8 6
  let ie := v.toNat.testBit 1
  let w := 256 * vec + 2 * b2n ie
  if v.toNat.testBit 0 then
    if was then
      ((b.wrN Reg.adminCtrl (w + 1)).setFld (Reg.hstQCfg 16) 24 6 vec).setFld (Reg.hstQCfg 16) 23 1 (b2n ie)
    else if b.out.adminOk then
      let r := b.dev == dsRestart
      let b := b.wrN Reg.adminCtrl (w + 1)
      let b := b.onOut fun o => o.makeQ 16 (fldR o.regs Reg.adminSize 16 13) vec ie (rd64R o.regs Reg.adminCplBase) 0 0 r
      b.onOut fun o => o.makeQ 0 (fldR o.regs Reg.adminSize 0 13) 0 false (rd64R o.regs Reg.adminCmdBase) 0 0 r
    else (b.wrN Reg.adminCtrl w).emit (.flag Reg.hstFlags 4 false [])
  else
    let b := b.wrN Reg.adminCtrl w
    if was then (b.onOut (·.deleteQ 0)).onOut (·.deleteQ 16) else b

/-- A write of a word of the MSI-X table: unmasking a vector sends what is pending (R469; log 11). -/
def Block.onMsix (b : Block) (off : Nat) (v : Word) : Block :=
  let e := (off - 0x08002000) / 16
  if off % 16 != 12 then b.wr off v else
  let b := b.wrN off (v.toNat % 2)
  let p := b.rd64 Reg.msixPending
  if v.toNat.testBit 0 || !p.testBit e then b else
  (b.wr64 Reg.msixPending (p - 2 ^ e)).onOut fun o =>
    { o with mem := mwrite o.mem (rd64R o.regs (Reg.msixEntry e)) (leBytes 4 (rdR o.regs (Reg.msixEntry e + 8)).toNat),
             q := o.q.map fun x => if fldR o.regs (Reg.hstQCfg x.1) 24 6 == e then (x.1, { x.2 with masked := false }) else x }

end Sys2Proof.Machine
end

