-- ==== Sys2Proof/Machine/Signals.lean ====
section
/-! DEFINITION. Machine/Signals.lean: the signal catalogue (04 R88, R89), curves (07 R181, R182), the signal cache and the
comparisons of steps, interlock rules and guards (05 R112). -/

namespace Sys2Proof.Machine

/-- The active table bank: every reader of banked tables reads it (03 R68). -/
def Block.bank (b : Block) : Tab (List Byte) := if b.bit Reg.imgBank 0 then b.bankB else b.bankA
/-- The inactive table bank. -/
def Block.idleBank (b : Block) : Tab (List Byte) := if b.bit Reg.imgBank 0 then b.bankA else b.bankB
/-- Replace the inactive bank. -/
def Block.setIdleBank (b : Block) (t : Tab (List Byte)) : Block :=
  if b.bit Reg.imgBank 0 then { b with bankA := t } else { b with bankB := t }
/-- Entry of a banked table of the active bank. -/
def Block.act (b : Block) (k i : Nat) : List Byte := ent b.bank k i
/-- Entry of a table that is not banked. -/
def Block.fix (b : Block) (k i : Nat) : List Byte := ent b.cfg k i

/-! ### Curves -/

/-- A curve as data: kind STEP, EXTRAPOLATE, and the points (x, y) as words. -/
structure CurveData where
  step : Bool
  extra : Bool
  pts : List (Word × Word)

/-- Curve `k` of a bank (07 R181). -/
def curveOf (t : Tab (List Byte)) (k : Nat) : CurveData :=
  let h := ent t tCurve k
  { step := u8 h 2 == 1, extra := (u8 h 3).testBit 0,
    pts := (List.range (u16 h 0)).map fun i => let p := ent t tPoint (u32 h 4 + i); (w32 p 0, w32 p 4) }

/-- The line through two points at x. -/
def lineAt (x0 y0 x1 y1 x : Rat) : Rat := if x1 = x0 then y0 else y0 + (y1 - y0) * (x - x0) / (x1 - x0)

/-- Within the points: the segment that holds x. -/
def curveSeg (step : Bool) (x : Rat) : List (Word × Word) → Rat
  | [] => 0
  | [p] => f32Rat p.2
  | p :: q :: r =>
    if x < f32Rat q.1 then (if step then f32Rat p.2 else lineAt (f32Rat p.1) (f32Rat p.2) (f32Rat q.1) (f32Rat q.2) x)
    else curveSeg step x (q :: r)

/-- Evaluate a curve (07 R182): the result and its flag, 1 CURVE_LOW, 2 CURVE_HIGH. A curve with no points yields a free value:
the manual states no result (log 14). -/
def CurveData.eval (c : CurveData) (x : Word) : Word × Nat :=
  match c.pts with
  | [] => (Config.nanResult 100 x 0#32 0#32, 0)
  | p0 :: _ =>
    let pl := c.pts.getLast?.getD p0
    let p1 := (c.pts.drop 1).headD p0
    let pk := (c.pts.reverse.drop 1).headD pl
    match F32.decode x with
    | .nan _ => (qnan, 1)
    | .inf neg =>
      if c.extra then (Config.nanResult 101 x p0.1 pl.1, 0) else if neg then (p0.2, 1) else (pl.2, 2)
    | .fin _ v =>
      if v < f32Rat p0.1 then
        (if c.extra then (ratF32 (lineAt (f32Rat p0.1) (f32Rat p0.2) (f32Rat p1.1) (f32Rat p1.2) v), 0) else (p0.2, 1))
      else if f32Rat pl.1 < v then
        (if c.extra then (ratF32 (lineAt (f32Rat pk.1) (f32Rat pk.2) (f32Rat pl.1) (f32Rat pl.2) v), 0) else (pl.2, 2))
      else (ratF32 (curveSeg c.step v c.pts), 0)

/-- A curve of the active bank; index 0xFFFF leaves x as it is. -/
def Block.curve (b : Block) (k : Nat) (x : Word) : Word × Nat :=
  if k = 0xFFFF then (x, 0) else (curveOf b.bank k).eval x

/-! ### Signals -/

/-- The catalogue entry of a signal (04 R88). -/
def Block.sigEntry (b : Block) (sid : Nat) : Option (List Byte) := catEntry b.cfg sid

/-- The catalogue TYPE of a SID; output stages are binary32, DIO lines and trip sources bits, others 32-bit integers where the
catalogue lists no entry. -/
def Block.sigType (b : Block) (sid : Nat) : Nat :=
  match b.sigEntry sid with
  | some e => u8 e 3
  | none => if sid / 0x100000 = 5 then 4 else if sid / 0x100000 = 6 then 5 else 3

/-- Does node `n` of a bus have its place in the world in force: is the node that serves its objects (its spare after a takeover,
R99) declared present, acting, or dead without a takeover (04 R98)? A spare and a retired node have none (log 15). -/
def Block.nodePlace (b : Block) (bus n : Nat) : Bool :=
  let m := (tget ({} : NodeSt) b.world.nodes (256 * bus + n)).boundTo.getD n
  let st := b.fld (Reg.wldNode bus m) 0 3
  let spare := (tget ({} : NodeSt) b.world.nodes (256 * bus + m)).standsFor != 0
  (st == 2 || st == 3 || st == 5) && !spare

/-- Is the object named in a REQUIRES field present in the world in force (04 R89)? -/
def Block.present (b : Block) (sid : Nat) : Bool :=
  if sid = 0 then true
  else if 0x810000 ≤ sid ∧ sid < 0x810800 then b.nodePlace ((sid - 0x810000) / 256) ((sid - 0x810000) % 256)
  else if 0xA01000 ≤ sid ∧ sid < 0xA01200 then b.bit (Reg.lgrConsStatus (sid - 0xA01000)) 0
  else if 0xA00000 ≤ sid ∧ sid < 0xA00008 then b.fld (Reg.lgrResStatus (sid - 0xA00000)) 0 2 != 0
  else if 0xA00010 ≤ sid ∧ sid < 0xA00014 then b.fld (Reg.lgrResStatus (sid - 0xA00010 + 8)) 0 2 != 0
  else false

/-- Is a signal ABSENT (04 R89)? -/
def Block.absent (b : Block) (sid : Nat) : Bool :=
  match b.sigEntry sid with
  | none => false
  | some e =>
    !(b.present (u24 e 12)) || (u8 e 11 != 0xFF && !(b.bit (Reg.wldChamber (u8 e 11)) 0))

/-- The cached value of a signal; for an output stage the value it applied on the last tick (07, output stages). -/
def Block.sig (b : Block) (sid : Nat) : SigVal :=
  if 0x500000 ≤ sid ∧ sid < 0x500400 then
    { value := (b.rd (Reg.outStageValue (sid - 0x500000))).zeroExtend 64, flags := 0, time := b.now }
  else tget ({} : SigVal) b.sigs sid

/-- The number a cached value stands for in its catalogue TYPE; none for a NaN or an infinity. -/
def valRat (ty : Nat) (v : DWord) : Option Rat :=
  if ty = 4 then
    match F32.decode (v.truncate 32) with
    | .fin _ x => some x
    | _ => none
  else if ty = 5 then some ((b2n (v.toNat.testBit 0) : Nat) : Rat)
  else some ((v.toInt : Int) : Rat)

/-- The number a 32-bit operand of a comparison stands for in a TYPE. -/
def opRat (ty : Nat) (w : Word) : Option Rat :=
  if ty = 4 then (match F32.decode w with | .fin _ x => some x | _ => none)
  else if ty = 5 then some ((b2n (w.toNat.testBit 0) : Nat) : Rat)
  else some ((w.toInt : Int) : Rat)

/-- The comparison codes of 05 R112 on a value of a TYPE; a binary32 NaN compares false. -/
def compareAs (ty op : Nat) (v : DWord) (w : Word) : Bool :=
  if op = 6 then v.toNat.testBit (w.toNat % 32)
  else if op = 7 then !v.toNat.testBit (w.toNat % 32)
  else if ty = 4 then
    let a := v.truncate 32
    if isNaN32 a || isNaN32 w then false else
    match op with
    | 0 => f32Eq a w
    | 1 => !f32Eq a w
    | 2 => f32Lt a w
    | 3 => f32Lt a w || f32Eq a w
    | 4 => f32Lt w a
    | 5 => f32Lt w a || f32Eq a w
    | _ => false
  else
    match valRat ty v, opRat ty w with
    | some a, some c =>
      (match op with
       | 0 => a = c | 1 => a ≠ c | 2 => a < c | 3 => a ≤ c | 4 => c < a | 5 => c ≤ a | _ => false : Bool)
    | _, _ => false

/-- Compare a signal with a value (05 R112): false while the signal is ABSENT. -/
def Block.compare (b : Block) (sid op : Nat) (w : Word) : Bool :=
  !b.absent sid && compareAs (b.sigType sid) op (b.sig sid).value w

/-- Narrow a number to a TYPE's cached bits: integers to nearest and saturating, bits by 0.5 (log 16). -/
def toType (ty : Nat) (y : Word) : DWord :=
  if ty = 4 then y.zeroExtend 64
  else
    match F32.decode y with
    | .fin _ v =>
      let i := rneInt v
      if ty = 1 then BitVec.ofInt 64 (clampInt (-32768) 32767 i)
      else if ty = 2 then BitVec.ofInt 64 (clampInt (-8388608) 8388607 i)
      else if ty = 3 then BitVec.ofInt 64 (clampInt (-2147483648) 2147483647 i)
      else if ty = 5 then (if v < 1/2 then 0 else 1)
      else BitVec.ofInt 64 i
    | _ => (Config.nanResult 102 y 0#32 0#32).zeroExtend 64

/-- The binary32 word a cached value enters a curve with. -/
def toF32 (ty : Nat) (v : DWord) : Word :=
  if ty = 4 then v.truncate 32 else match valRat ty v with | some x => ratF32 x | none => qnan

/-- Store a value in the cache. -/
def Block.putSig (b : Block) (sid : Nat) (v : DWord) (flags : Nat) : Block :=
  let o := tget ({} : SigVal) b.sigs sid
  let before := if o.time = b.now then o.before else o.value
  { b with sigs := tput b.sigs sid { value := v, flags := flags, time := b.now, before := before } }

/-- A signal's cached value as it stood on the tick before this one (05 R130). -/
def Block.sigBefore (b : Block) (sid : Nat) : DWord :=
  if 0x500000 ≤ sid ∧ sid < 0x500400 then
    let st := tget ({} : StageSt) b.stages (sid - 0x500000)
    (if st.changedAt = b.now then st.before else b.rd (Reg.outStageValue (sid - 0x500000))).zeroExtend 64
  else
    let o := tget ({} : SigVal) b.sigs sid
    if o.time = b.now then o.before else o.value

/-- Compare a signal's value of the tick before (05 R130). -/
def Block.compareBefore (b : Block) (sid op : Nat) (w : Word) : Bool :=
  !b.absent sid && compareAs (b.sigType sid) op (b.sigBefore sid) w

/-- The curve of a signal marked SEALED: its sealed calibration (07, curves; 13 R318). An entry is the SID in bytes 0–2, then the
16-byte curve header of R181 from byte 4, then its points (log 8). -/
def Block.sealedCurve (b : Block) (sid : Nat) : Option CurveData :=
  match (entsOf b.cfg tSealed).find? fun p => u24 p.2 0 == sid with
  | some (_, e) =>
    let pts := (List.range (u16 e 4)).map fun i => (w32 e (20 + 8 * i), w32 e (24 + 8 * i))
    some { step := u8 e 6 == 1, extra := (u8 e 7).testBit 0, pts := pts }
  | none => none

/-- The value a derived signal takes from its source (04 R88), and the curve flag bits (07 R182). -/
def Block.derive (b : Block) (e : List Byte) (srcTy : Nat) (v : DWord) : DWord × Nat :=
  let ty := u8 e 3
  match (if (u8 e 7).testBit 1 then b.sealedCurve (u24 e 0) else none) with
  | some c => let (y, f) := c.eval (toF32 srcTy v); (toType ty y, f)
  | none =>
    if u16 e 8 = 0xFFFF then ((if ty = srcTy then v else toType ty (toF32 srcTy v)), 0)
    else let (y, f) := b.curve (u16 e 8) (toF32 srcTy v); (toType ty y, f)

/-- Update the cache of a SID and of every signal derived from it, in turn (07 R164). Answers the SIDs that completed, in table
order; an ABSENT signal completes nothing. The first argument bounds the depth of derivation. -/
def Block.cacheAll (b : Block) : Nat → Nat → DWord → Nat → Block × List Nat
  | 0, _, _, _ => (b, [])
  | fuel + 1, sid, v, flags =>
    let ty := b.sigType sid
    let b0 := if b.absent sid then b else b.putSig sid v flags
    let here := if b.absent sid then [] else [sid]
    let kids := (entsOf b.cfg tSignal).filter fun p => u24 p.2 4 == sid && u24 p.2 0 != sid
    kids.foldl (fun (acc : Block × List Nat) p =>
      let (dv, cf) := acc.1.derive p.2 ty v
      -- the flags CURVE_LOW and CURVE_HIGH go with the derived value (07 R182, 08 R198)
      let (b', l) := acc.1.cacheAll fuel (u24 p.2 0) dv (flags ||| (cf <<< 8))
      (b', acc.2 ++ l)) (b0, here)

/-- Depth of derivation followed; the catalogue holds at most this many entries (04 R88). -/
def deriveDepth : Nat := 16

end Sys2Proof.Machine
end

