-- ==== Sys2Proof/Machine/Threads.lean ====
section
/-! DEFINITION. Machine/Threads.lean: thread states and dependence counters (09 R222–R228, R235), completion routes (07
R163–R165) and the trace (09 R238). -/

namespace Sys2Proof.Machine

/-- Thread states (09 R223). -/
def thDormant : Nat := 0
def thWaiting : Nat := 1
def thReady : Nat := 2
def thRunning : Nat := 3
def thPreempted : Nat := 4
def thSuspended : Nat := 5

/-- A thread's descriptor (09 R222). -/
def Block.thDesc (b : Block) (t : Nat) : List Byte := b.fix tThread t
def Block.thUsed (b : Block) (t : Nat) : Bool := (u8 (b.thDesc t) 1).testBit 0
def Block.thState (b : Block) (t : Nat) : Nat := b.fld (Reg.dspThreadState t) 0 3
def Block.thEngine (b : Block) (t : Nat) : Nat := b.fld (Reg.dspThreadState t) 22 6
def Block.thCause (b : Block) (t : Nat) : Nat := b.fld (Reg.dspThreadState t) 20 2
def Block.thCounter (b : Block) (t : Nat) : Nat := b.fld (Reg.dspThreadState t) 12 8
def Block.thPrio (b : Block) (t : Nat) : Nat := u8 (b.thDesc t) 0
def Block.thSet (b : Block) (t : Nat) : Nat := u16 (b.thDesc t) 4
def Block.th (b : Block) (t : Nat) : ThreadSt := tget {} b.threads t
def Block.putTh (b : Block) (t : Nat) (s : ThreadSt) : Block := { b with threads := tput b.threads t s }
def Block.setThState (b : Block) (t s : Nat) : Block := b.setFld (Reg.dspThreadState t) 0 3 s
def Block.reload (b : Block) (t : Nat) : Block := b.setFld (Reg.dspThreadState t) 12 8 (u8 (b.thDesc t) 2)

/-- Is a thread one of the service threads: KERNEL set, its code set loaded on E36 to E39 (09 R224)? -/
def Block.isService (b : Block) (t : Nat) : Bool :=
  (u8 (b.thDesc t) 1).testBit 2 && ((List.range 4).any fun i => b.fld (Reg.engRole (36 + i)) 8 8 == b.thSet t)

/-- The loop descriptor that names a thread (07 R162). -/
def Block.loopOf (b : Block) (t : Nat) : Option Nat :=
  ((entsOf b.cfg tLoop).find? fun p => u16 p.2 0 == t).map (·.1)

/-- Write a TRACE record (09 R238); `always` for READY_CANCELLED, which is written for every thread. Its cw.ACT is that of the
thread's next or present activation, one above the committed count (10 R255); a COMMIT has been counted already. -/
def Block.trace (b : Block) (t ev eng detail used by_ : Nat) (always : Bool := false) : Block :=
  if always || b.bit (Reg.dspTraceEn (t / 32)) (t % 32) then
    b.record (sidThread t) 0x30 (leBytes 1 ev ++ leBytes 1 eng ++ leBytes 1 (b.thPrio t) ++ leBytes 1 detail ++
      leBytes 4 (b.rdN (Reg.dspThreadAct t) + (if ev = 5 then 0 else 1)) ++ leBytes 4 used ++ leBytes 2 by_ ++ zeroBytes 2)
  else b

/-- A READY thread is held by MIN_INTERVAL (09 R228). -/
def Block.earlyHeld (b : Block) (t : Nat) : Bool :=
  match (b.th t).lastDispatch with
  | some d => decide (b.now < d + u32 (b.thDesc t) 12)
  | none => false

/-- A READY thread is held by the thermal floor (06 R158, 09 R228). -/
def Block.floorHeld (b : Block) (t : Nat) : Bool :=
  b.bit Reg.lgrThermal 8 && decide (b.fld Reg.lgrThermal 0 5 < b.thPrio t)

/-- Is a READY thread held (09 R228)? -/
def Block.held (b : Block) (t : Nat) : Bool := b.earlyHeld t || b.floorHeld t || (b.th t).copying

/-- Update the hold fields of a thread's register for its present state (09 R228, R237). -/
def Block.holdFields (b : Block) (t : Nat) : Block :=
  let r := b.thState t == thReady
  let b := b.setFld (Reg.dspThreadState t) 4 1 (b2n (r && b.earlyHeld t))
  b.setFld (Reg.dspThreadState t) 5 1 (b2n (r && b.floorHeld t))

/-- The READY record (09 R238). -/
def Block.readyTrace (b : Block) (t : Nat) : Block :=
  b.trace t 1 0xFF (b2n (b.earlyHeld t) + 2 * b2n (b.floorHeld t)) 0 0xFFFF

/-- A thread becomes READY (09 R227): its counter reloads and its latches clear (07 R165). -/
def Block.makeReady (b : Block) (t : Nat) : Block :=
  let b := (b.setThState t thReady).reload t
  let b := b.putTh t { b.th t with readyAt := b.now }
  let clr := b.routes.map fun p => if u16 (b.fix tRoute p.1) 4 == t then (p.1, { p.2 with latched := false }) else p
  let b := { b with routes := clr }
  let b := if b.earlyHeld t then b.raise Reg.dspFlags 4 (sidThread t) else b
  (b.holdFields t).readyTrace t

/-- A completion that finds the thread not WAITING (09 R226). -/
def Block.discard (b : Block) (t : Nat) (loopIn : Option Nat) : Block :=
  let b := match loopIn with
    | some l => b.count (Reg.outLoopMissedInputs l)
    | none => b.count (Reg.dspThreadDiscards t)
  let b := b.count Reg.dspDiscards
  if b.bit Reg.dspFlags 3 then b.setFlag Reg.dspFlags 3 else b.raise Reg.dspFlags 3 (sidThread t)

/-- One accepted completion takes one from a WAITING thread's counter (09 R225, R227). -/
def Block.decrement (b : Block) (t : Nat) : Block :=
  let n := b.thCounter t
  if n ≤ 1 then b.makeReady t else b.setFld (Reg.dspThreadState t) 12 8 (n - 1)

/-- Is the loop of a route enabled; a route of a thread that is no loop thread always counts (07 R164)? -/
def Block.routeOn (b : Block) (t : Nat) : Bool :=
  match b.loopOf t with
  | some l => b.bit (Reg.outLoopState l) 16
  | none => true

/-- One completion reaches route `i` (07 R164, R165). -/
def Block.routePass (b : Block) (i : Nat) : Block :=
  let e := b.fix tRoute i
  let t := u16 e 4
  if !b.routeOn t then b else
  let st := tget ({} : RouteSt) b.routes i
  let n := st.count + 1
  let b := { b with routes := tput b.routes i { st with count := n } }
  if n % (u8 e 3) != 0 then b
  else if b.thState t != thWaiting then
    (if b.thState t == thDormant then b else b.discard t (b.loopOf t))
  else if st.latched then
    (match b.loopOf t with
     | some l => b.count (Reg.outLoopExtraInputs l)
     | none => b)
  else
    let b := { b with routes := tput b.routes i { st with count := n, latched := true } }
    b.decrement t

/-- A completion of a SID: every signal derived from it completes with it, and their routes pass in table order (07 R164). -/
def Block.completes (b : Block) (sids : List Nat) : Block :=
  let rs := (entsOf b.cfg tRoute).filter fun p => sids.contains (u24 p.2 0)
  rs.foldl (fun b p => b.routePass p.1) b

/-- A new value of a SID arrives: the cache, then the completion routes (07 R164). -/
def Block.arrive (b : Block) (sid : Nat) (v : DWord) (flags : Nat := 0) : Block :=
  let (b, l) := b.cacheAll deriveDepth sid v flags
  b.completes l

/-- A completion of a SID that carries no value of its own (a receive object, 07 R164). -/
def Block.completion (b : Block) (sid : Nat) : Block :=
  if b.absent sid then b else b.completes [sid]

/-- A disable of a thread that is WAITING, READY, SUSPENDED, RUNNING or PREEMPTED (09 R224, R235). -/
def Block.disableThread (b : Block) (t : Nat) : Block :=
  let s := b.thState t
  if s == thWaiting || s == thSuspended then
    ((b.setThState t thDormant).reload t).setFld (Reg.dspThreadState t) 20 2 0 |>.setFld (Reg.dspThreadState t) 6 1 0
  else if s == thReady then
    let b := ((b.setThState t thDormant).reload t).holdFields t
    -- it became READY on this very tick: the activation is cancelled (09 R235)
    if (b.th t).readyAt != b.now then b else
    let b := b.count Reg.dspCancels
    let b := b.raise Reg.dspFlags 2 (sidThread t)
    b.trace t 7 0xFF 0 0 0xFFFF true
  else if s == thRunning || s == thPreempted then
    (b.putTh t { b.th t with pendReq := 1 }).setFld (Reg.dspThreadState t) 3 1 1
  else b

/-- Enable a DORMANT thread (09 R224): WAITING with its counter reloaded. -/
def Block.enableThread (b : Block) (t : Nat) : Block :=
  if b.thState t == thDormant then (b.setThState t thWaiting).reload t else
  -- an enable cancels a disable that waits for the activation's end
  if (b.th t).pendReq == 1 then (b.putTh t { b.th t with pendReq := 0 }).setFld (Reg.dspThreadState t) 3 1 0 else b

/-- Suspend a thread (09 R224, R235) with a cause: at once when it is WAITING or READY, else when its activation ends. -/
def Block.suspendThread (b : Block) (t cause : Nat) : Block :=
  let s := b.thState t
  if s == thWaiting || s == thReady then
    let b := (b.setFld (Reg.dspThreadState t) 20 2 cause).setFld (Reg.dspThreadState t) 6 1 (b2n (s == thReady))
    let b := (b.setThState t thSuspended).holdFields t
    b.trace t 8 0xFF cause 0 0xFFFF
  else if s == thRunning || s == thPreempted then
    (b.putTh t { b.th t with pendReq := 2 }).setFld (Reg.dspThreadState t) 3 1 1
  else b

/-- Resume a suspended thread (09 R224, R235). -/
def Block.resumeThread (b : Block) (t : Nat) : Block :=
  let ready := b.bit (Reg.dspThreadState t) 6
  let b := (b.setFld (Reg.dspThreadState t) 20 2 0).setFld (Reg.dspThreadState t) 6 1 0
  let b := if ready then ((b.setThState t thReady).holdFields t).readyTrace t else (b.setThState t thWaiting).reload t
  b.trace t 9 0xFF (if ready then thReady else thWaiting) 0 0xFFFF

end Sys2Proof.Machine
end

