-- ==== Sys2Proof/Machine/Pairs.lean ====
section
/-! DEFINITION. Machine/Pairs.lean: PWM pairs (15 R348–R358): waveform, shadows and the hand-off of a stage; the trip
assignments (R360) and what a target's sources say. -/

namespace Sys2Proof.Machine

/-! ### Pair states and fields (R348, R372) -/

def pwOff : Nat := 0
def pwRunning : Nat := 1
def pwTripped : Nat := 2
def pwRestarting : Nat := 3

def Block.pr (b : Block) (n : Nat) : PairSt := tget {} b.pairs n
def Block.putPr (b : Block) (n : Nat) (p : PairSt) : Block := { b with pairs := tput b.pairs n p }
def Block.prState (b : Block) (n : Nat) : Nat := b.fld (Reg.pwmPairState n) 0 2
/-- Set a pair's state and its bit of `PWM.RUNNING`. -/
def Block.setPrState (b : Block) (n s : Nat) : Block :=
  (b.setFld (Reg.pwmPairState n) 0 2 s).setFld (Reg.pwmRunning + 4 * (n / 32)) (n % 32) 1 (b2n (s == pwRunning))
def Block.prMode (b : Block) (n : Nat) : Nat := b.fld (Reg.pwmPairCtrl n) 0 2
/-- SLOW mode (R357). -/
def Block.prSlow (b : Block) (n : Nat) : Bool := b.prMode n == 1
def Block.prGroup (b : Block) (n : Nat) : Bool := b.bit (Reg.pwmPairCtrl n) 5
def Block.prMid (b : Block) (n : Nat) : Bool := b.bit (Reg.pwmPairCtrl n) 4 && b.bit (Reg.pwmPairCtrl n) 3
def Block.prBound (b : Block) (n : Nat) : Bool := b.bit (Reg.pwmPairState n) 6

/-- Raise a pair's flag and its summary in `PWM.FLAGS`. -/
def Block.prFlag (b : Block) (n i : Nat) : Block := (b.raise (Reg.pwmPairFlags n) i).raise Reg.pwmFlags i

/-- A shadow write waits for its transfer (R351). -/
def Block.writeDutySh (b : Block) (n v : Nat) : Block := (b.wrN (Reg.pwmPairDutySh n) v).setFld (Reg.pwmPairState n) 5 1 1
def Block.writePeriodSh (b : Block) (n v : Nat) : Block := (b.wrN (Reg.pwmPairPeriodSh n) v).setFld (Reg.pwmPairState n) 4 1 1
/-- Commit a pair's shadows (R352). -/
def Block.commitPair (b : Block) (n : Nat) : Block := b.putPr n { b.pr n with committed := true }

/-- Steps (ticks in SLOW mode) in a period (R349, R357). -/
def Block.prUnits (b : Block) (n period : Nat) : Nat := if b.prSlow n then period else period * 8

/-- Hand-off from an output stage (R352): the duty shadow is the fraction of PERIOD_SH, to nearest; under GROUP it commits too. -/
def Block.handPair (b : Block) (n : Nat) (v : Word) : Block :=
  let d := rneInt (f32Rat v * ((b.prUnits n (b.rdN (Reg.pwmPairPeriodSh n)) : Nat) : Rat))
  let b := b.writeDutySh n (satNat 0xFFFFFFFF d.toNat)
  if b.prGroup n then b.commitPair n else b

/-! ### Waveform (R349, R350, R357) -/

/-- The two waveforms of a pair at `t` steps from the period's start: high side and low side, with dead time. `p1`, `d1` govern
the first half and `p2`, `d2` the second (equal but after a mid-point transfer). -/
def pairWave (center endedHigh : Bool) (p1 d1 p2 d2 dead t : Nat) : Bool × Bool :=
  let total := 4 * p1 + 4 * p2
  let firstHigh := if endedHigh then 0 else dead
  let firstLow := if endedHigh then dead else 0
  if d1 = 0 ∧ d2 = 0 then (false, decide (firstLow ≤ t))
  else if 8 * p1 ≤ d1 ∧ 8 * p2 ≤ d2 then (decide (firstHigh ≤ t), false)
  else if center then
    let h0 := 4 * p1 - (d1 + 1) / 2
    let h1 := 4 * p1 + (d2 - (d2 + 1) / 2)
    (decide (2 ≤ h1 - (h0 + dead)) && decide (h0 + dead ≤ t) && decide (t < h1),
     decide (2 ≤ (total - (h1 + dead)) + (h0 - firstLow)) && ((decide (firstLow ≤ t) && decide (t < h0)) || decide (h1 + dead ≤ t)))
  else
    (decide (2 ≤ d2 - firstHigh) && decide (firstHigh ≤ t) && decide (t < d2),
     decide (2 ≤ total - (d2 + dead)) && decide (d2 + dead ≤ t))

/-- The waveforms of a RUNNING pair now, before overrides and forcing; steps are 500 ps. -/
def Block.wave (b : Block) (n : Nat) : Bool × Bool :=
  let st := b.pr n
  let p := b.rdN (Reg.pwmPairPeriod n)
  let d := b.rdN (Reg.pwmPairDuty n)
  let ns := b.now - st.start
  if b.prSlow n then
    (if b.bit (Reg.pwmPairCtrl n) 12 then st.slowHigh else decide (ns < d * 4), false)
  else
    let p1 := if st.half then st.oldPeriod else p
    let d1 := if st.half then st.oldDuty else d
    pairWave (b.bit (Reg.pwmPairCtrl n) 3) st.endedHigh p1 d1 p d (b.fld (Reg.pwmPairDead n) 0 12) (2 * ns)

/-- The window of a channel (R358, R364): channel 2n is the high side of pair n, 2n + 1 its low side. A pair that is not RUNNING
gives none. -/
def Block.window (b : Block) (ch : Nat) : Bool :=
  b.prState (ch / 2) == pwRunning && (if ch % 2 = 0 then (b.wave (ch / 2)).1 else (b.wave (ch / 2)).2)

/-! ### Trip assignments (R360) -/

/-- Target kinds of trip assignments. -/
def tkPair : Nat := 0
def tkDio : Nat := 1
def tkAout : Nat := 2
def tkAxis : Nat := 3

/-- The source CLOCK_LOSS, which forces every target (R359, R360). -/
def srcClockLoss : Nat := 44

/-- The assignment of a target. -/
def Block.assignOf (b : Block) (kind target : Nat) : Option (List Byte) :=
  ((entsOf b.cfg tTripAssign).find? fun p => u8 p.2 0 == kind && u16 p.2 2 == target).map (·.2)

/-- The sources that force a target, as a mask. -/
def Block.sourcesOf (b : Block) (kind target : Nat) : Nat :=
  (match b.assignOf kind target with | some e => u64 e 8 | none => 0) ||| 2 ^ srcClockLoss

/-- Every target of the part (R360). -/
def allTargets : List (Nat × Nat) :=
  (List.range 48).map (fun n => (tkPair, n)) ++ (List.range 192).map (fun n => (tkDio, n)) ++
    (List.range 32).map (fun n => (tkAout, n)) ++ (List.range 64).map (fun n => (tkAxis, n))

/-- The targets that a source forces (R360, R361). -/
def Block.targetsOf (b : Block) (s : Nat) : List (Nat × Nat) :=
  if s = srcClockLoss then allTargets
  else ((entsOf b.cfg tTripAssign).filter fun p => (u64 p.2 8).testBit s).map fun p => (u8 p.2 0, u16 p.2 2)

/-- Is some source of a target active or latched (R365, R366)? -/
def Block.sourcesHold (b : Block) (kind target : Nat) : Bool :=
  (b.sourcesOf kind target &&& (b.rd64 Reg.trpActive ||| b.rd64 Reg.trpLatched)) != 0

/-- Key of a forced target. -/
def tripKey (kind target : Nat) : Nat := kind * 256 + target

/-- Does the trip network hold a target now? -/
def Block.tripHeld (b : Block) (kind target : Nat) : Bool := (tget? b.tripForced (tripKey kind target)).isSome

/-- The trip levels of a target: bit 0 of LEVELS is the high side or line, bit 1 the low side; 0 when unlisted (R55, R360). -/
def Block.tripLevels (b : Block) (kind target : Nat) : Nat :=
  match b.assignOf kind target with
  | some e => u8 e 1 % 4
  | none => 0

/-- The levels of a pair's pins (R348, R356, R361): low in OFF; trip levels while forced; otherwise the waveforms under SWAP and
INVERT, both low in TIMER mode. -/
def Block.pairPins (b : Block) (n : Nat) : Bool × Bool :=
  let s := b.prState n
  if s = pwOff then (false, false)
  else if s = pwRunning then
    (if b.prMode n = 2 then (false, false) else
     let w := b.wave n
     let w := if b.bit (Reg.pwmPairCtrl n) 6 then (w.2, w.1) else w
     if b.bit (Reg.pwmPairCtrl n) 7 then (!w.1, !w.2) else w)
  else ((b.tripLevels tkPair n).testBit 0, (b.tripLevels tkPair n).testBit 1)

/-- Trip value of a stage's target by the stage's KIND (07 R530): DAC, pair, axis, DIO line. -/
def Block.tripValue (b : Block) (kind target : Nat) : Word :=
  match kind with
  | 0 => (match b.assignOf tkAout target with | some e => w32 e 4 | none => 0#32)
  | 1 => if (b.tripLevels tkPair target).testBit 0 then 0x3F800000#32 else 0#32
  | 3 => if (b.tripLevels tkDio target).testBit 0 then 0x3F800000#32 else 0#32
  | _ => 0#32

end Sys2Proof.Machine
end

