-- ==== Sys2Proof/Machine/Axes.lean ====
section
/-! DEFINITION. Machine/Axes.lean: motion generators (16 R373–R394) as shared operations: profiles, moves, stops, resolution,
standstill, encoders and groups. -/

namespace Sys2Proof.Machine

/-! ### States and descriptors (R375, R376, R385) -/

def axDisabled : Nat := 0
def axStandstill : Nat := 1
def axMoving : Nat := 2
def axStopping : Nat := 3
def axHalted : Nat := 4

def sidAxis (n : Nat) : Nat := 0x700000 + n
def sidEncoder (n : Nat) : Nat := 0x701000 + n
def sidGroup (g : Nat) : Nat := 0x702000 + g

def Block.ax (b : Block) (n : Nat) : AxisSt := tget {} b.axes n
def Block.putAx (b : Block) (n : Nat) (x : AxisSt) : Block := { b with axes := tput b.axes n x }
def Block.axDesc (b : Block) (n : Nat) : List Byte := b.fix tAxis n
def Block.axState (b : Block) (n : Nat) : Nat := b.fld (Reg.motAxState n) 0 3
/-- FLAGS of the descriptor as in force (LIMITS may be rewritten). -/
def Block.axFlag (b : Block) (n i : Nat) : Bool := b.bit (Reg.motAxCfg n) i
def Block.axMedium (b : Block) (n : Nat) : Bool := b.axFlag n 2
def Block.axRotary (b : Block) (n : Nat) : Bool := b.axFlag n 1
def Block.axPresent (b : Block) (n : Nat) : Bool := b.axFlag n 0
def Block.axModulo (b : Block) (n : Nat) : Nat := u32 (b.axDesc n) 4
/-- Profile set `k` of axis `n`. -/
def Block.axProf (b : Block) (n k : Nat) : List Byte := b.fix tProfile (16 * n + k)
/-- Deceleration of the controller's own stops: D_EMERG, on a MEDIUM axis D_MEDIUM (R381, R388). -/
def Block.axEmerg (b : Block) (n : Nat) : Rat := f32Rat (w32 (b.axDesc n) (if b.axMedium n then 12 else 8))

/-- Fields of a profile set. -/
def pfJerk (p : List Byte) : Bool := u8 p 0 == 1
def pfVmax (p : List Byte) : Rat := f32Rat (w32 p 4)
def pfStart (p : List Byte) : Rat := f32Rat (w32 p 8)
def pfStop (p : List Byte) : Rat := f32Rat (w32 p 12)
def pfBreak (p : List Byte) : Rat := f32Rat (w32 p 16)
def pfA1 (p : List Byte) : Rat := f32Rat (w32 p 20)
def pfA2 (p : List Byte) : Rat := f32Rat (w32 p 24)
def pfD2 (p : List Byte) : Rat := f32Rat (w32 p 28)
def pfD1 (p : List Byte) : Rat := f32Rat (w32 p 32)
def pfJ (p : List Byte) : Rat := f32Rat (w32 p 36)

/-- Does a profile set break R376 on an axis with this descriptor? -/
def profileBad (medium : Bool) (dEmerg dMedium : Rat) (p : List Byte) : Bool :=
  let fin (o : Nat) := match F32.decode (w32 p o) with | .fin _ v => decide (0 ≤ v) | _ => false
  let acc (v : Rat) := decide (0 < v) && decide (v ≤ dEmerg)
  decide (1 < u8 p 0) || !zeros p 1 3 || !([4, 8, 12, 16, 20, 24, 28, 32, 36].all fin) ||
  (if pfJerk p then
     pfStart p ≠ 0 || pfStop p ≠ 0 || pfA1 p ≠ 0 || pfD1 p ≠ 0 || pfBreak p ≠ 0 || !acc (pfA2 p) || !acc (pfD2 p) ||
       pfJ p ≤ 0 || (medium && decide (dMedium < pfD2 p))
   else
     decide (pfBreak p < pfStart p) || decide (pfVmax p < pfBreak p) || decide (pfVmax p < pfStop p) ||
       !acc (pfA1 p) || !acc (pfA2 p) || !acc (pfD1 p) || !acc (pfD2 p) ||
       (medium && (decide (dMedium < pfD1 p) || decide (dMedium < pfD2 p))))

/-- Commanded position as a register shows it: modulo MODULO on a ROTARY axis, else 32 bits (R373). -/
def Block.axWrap (b : Block) (n : Nat) (x : Int) : Nat :=
  if b.axRotary n && b.axModulo n != 0 then (x % (b.axModulo n : Int)).toNat else ofSigned 32 x

/-- Difference of two shown positions, the short way round. -/
def Block.axDiff (b : Block) (n : Nat) (x y : Nat) : Int :=
  if b.axRotary n && b.axModulo n != 0 then
    let m := (b.axModulo n : Int)
    let d := ((x : Int) - y) % m
    if m < 2 * d then d - m else d
  else toSigned 32 (ofSigned 32 ((x : Int) - y))

/-! ### Distances (R377) -/

/-- Distance to stop from speed `s` on a TRAPEZOID set scaled by `k`. -/
def stopDist (p : List Byte) (k s : Rat) : Rat :=
  let vs := pfStop p * k
  let vb := pfBreak p * k
  let d1 := pfD1 p * k
  let d2 := pfD2 p * k
  if s ≤ vs then 0
  else if s ≤ vb then (s * s - vs * vs) / (2 * d1)
  else if vb ≤ vs then (s * s - vs * vs) / (2 * d2)
  else (vb * vb - vs * vs) / (2 * d1) + (s * s - vb * vb) / (2 * d2)

/-- Must a JERK axis with speed `s` and acceleration `a` brake now to stop within `rem`? From the point where acceleration is
zero, with speed v there, the stop covers v (v/D + D/J)/2, or, when the peak D is not reached, √(v³/J) (R377). -/
def jerkMustBrake (d j s a rem : Rat) : Bool :=
  if j ≤ 0 ∨ d ≤ 0 then true else
  let v := s + a * a / (2 * j)
  -- the way from here to that point when accelerating, or from that point to here when braking
  let w := if 0 ≤ a then s * a / j + a * a * a / (3 * j * j)
           else -(v * (-a) / j - (-a) * (-a) * (-a) / (6 * j * j))
  let r := rem - w
  if r ≤ 0 then true
  else if d * d / j ≤ v then decide (r ≤ v * (v / d + d / j) / 2)
  else decide (r * r ≤ v * v * v / j)

/-- Distance of the stop of either shape, rounded up for JERK sets below their peak (used where a stop point is planned). -/
def planStop (p : List Byte) (k s : Rat) : Rat :=
  if pfJerk p then
    let d := pfD2 p * k
    let j := pfJ p * k
    if d ≤ 0 ∨ j ≤ 0 then 0 else s * (s / d + d / j) / 2
  else stopDist p k s

/-! ### One tick of a generator (R377, R378, R384) -/

/-- Seconds in a tick. -/
def dtTick : Rat := 4 / 1000000000

/-- What still lies ahead: the way to the target, or to the limit that a velocity runs to. -/
def AxisSt.rem (x : AxisSt) : Option Rat :=
  if x.mode ≤ 1 && x.next.isNone then some (if 0 < x.dir then x.target - x.pos else x.pos - x.target)
  else x.limit.map fun l => if 0 < x.dir then l - x.pos else x.pos - l

/-- Is the axis decelerating to rest? -/
def AxisSt.toRest (x : AxisSt) : Bool := decide (3 ≤ x.mode) || x.next.isSome || x.braking

/-- Speed and acceleration after one tick, and whether the axis has come to the end of a deceleration to rest. -/
def AxisSt.advance (x : AxisSt) : Rat × Rat × Bool × Bool :=
  let p := x.prof
  let k := x.scale
  if pfJerk p && x.decel.isNone then
    let jd := pfJ p * k * dtTick
    let d := pfD2 p * k
    let brake := x.toRest || (match x.rem with | some r => jerkMustBrake d (pfJ p * k) x.s x.a r | none => false)
    if brake then
      let a' := if x.a < 0 && decide (x.s ≤ x.a * x.a / (2 * (pfJ p * k))) then x.a + jd
                else (if x.a - jd < -d then -d else x.a - jd)
      let s' := x.s + a' * dtTick
      if s' ≤ 0 ∨ (0 ≤ a' ∧ x.a < 0) then (0, 0, true, true) else (s', a', false, true)
    else if x.s < x.speed then
      let a' := if 0 < x.a && decide (x.speed - x.s ≤ x.a * x.a / (2 * (pfJ p * k))) then (if x.a - jd < 0 then 0 else x.a - jd)
                else (if pfA2 p * k < x.a + jd then pfA2 p * k else x.a + jd)
      let s' := x.s + a' * dtTick
      if x.speed ≤ s' then (x.speed, 0, false, false) else (s', a', false, false)
    else if x.speed < x.s then
      let a' := if x.a < 0 && decide (x.s - x.speed ≤ x.a * x.a / (2 * (pfJ p * k))) then (if 0 < x.a + jd then 0 else x.a + jd)
                else (if x.a - jd < -d then -d else x.a - jd)
      let s' := x.s + a' * dtTick
      if s' ≤ x.speed then (x.speed, 0, false, false) else (s', a', false, false)
    else (x.s, 0, false, false)
  else
    let vs := pfStop p * k
    let vb := pfBreak p * k
    let down := x.decel.getD (if vb < x.s then pfD2 p * k else pfD1 p * k)
    let up := if x.s < vb then pfA1 p * k else pfA2 p * k
    let brake := x.toRest || (match x.rem with | some r => decide (r ≤ stopDist p k x.s) | none => false)
    if brake && x.s != 0 then
      let s' := x.s - down * dtTick
      if s' ≤ vs ∨ s' ≤ 0 then (0, 0, true, true) else (s', 0, false, true)
    else if x.toRest then (0, 0, true, true)
    else if x.s = 0 && pfStart p ≠ 0 then ((if x.speed < pfStart p * k then x.speed else pfStart p * k), 0, false, false)
    else if x.s < x.speed then
      let s' := x.s + up * dtTick
      ((if x.speed < s' then x.speed else s'), 0, false, false)
    else if x.speed < x.s then
      let s' := x.s - down * dtTick
      if x.speed = 0 ∧ s' ≤ vs then (0, 0, false, false) else ((if s' < x.speed then x.speed else s'), 0, false, false)
    else (x.s, 0, false, false)

/-- Size of a step of resolution code `c`, pu (R378). -/
def stepSize (c : Nat) : Nat := 256 / 2 ^ c

/-- The resolution entry that the speed calls for, from the entry in force (R384). -/
def wantEntry (d : List Byte) (i : Nat) (s : Rat) : Nat :=
  let up (k : Nat) := f32Rat (w32 d (44 + 4 * k))
  if i < 3 ∧ u8 d (44 + (i + 1)) ≠ 0xFF ∧ up (i + 1) ≤ s then i + 1
  else if 0 < i ∧ s < up i * (1 - ((u8 d 60 : Nat) : Rat) / 256) then i - 1
  else i

/-- Does the axis want another resolution and stand on a whole full step, so that it withholds steps (R384)? -/
def AxisSt.atSwitch (x : AxisSt) (d : List Byte) : Bool := wantEntry d x.entry x.s != x.entry && x.cmd % 256 == 0

/-- Emit a step if one is due and the pulse rules allow it (R378). -/
def AxisSt.emitStep (x : AxisSt) (d : List Byte) (now : Nat) : AxisSt :=
  let u : Int := stepSize (u8 d (44 + x.entry))
  let high := u8 d 41 * 4
  let ok := x.switching.isNone && !x.atSwitch d && decide (x.lastStep + 2 * high ≤ now) && decide (x.lastStep + 200 ≤ now) &&
    decide (x.dirAt + u8 d 42 * 4 ≤ now)
  if !ok then x
  else if (x.cmd + u : Rat) ≤ x.pos then { x with cmd := x.cmd + u, lastStep := now }
  else if x.pos ≤ (x.cmd - u : Rat) then { x with cmd := x.cmd - u, lastStep := now }
  else x

/-- One tick of a generator that is MOVING or STOPPING (R377). A waiting change of a JERK set is taken outside its jerk phases
(R382). -/
def AxisSt.tick (x : AxisSt) (d : List Byte) (now : Nat) (active : Bool) : AxisSt :=
  if !active then x.emitStep d now
  else if x.hold || decide (now < x.startAt) || x.ending then x.emitStep d now
  else
    let x := match x.profNext with
      | some p => if !pfJerk x.prof || x.a = 0 || x.a = pfA2 x.prof * x.scale || x.a = -(pfD2 x.prof * x.scale)
          then { x with prof := p, profNext := none } else x
      | none => x
    let (s', a', fin, br) := x.advance
    let pos' := x.pos + (x.dir : Rat) * s' * dtTick
    let pos' := if fin then (match x.rem with
        | some r => if x.mode ≤ 2 then x.pos + (x.dir : Rat) * r else pos'
        | none => pos') else pos'
    let x := { x with s := s', a := a', pos := pos', braking := br && (x.rem.isSome || x.braking), ending := fin,
                      restAt := if fin then now else x.restAt }
    x.emitStep d now

/-! ### What registers and signals show -/

/-- The state of a group: that of its most advanced member (R396). -/
def Block.groupMembers (b : Block) (g : Nat) : List Nat :=
  let e := b.fix tGroup g
  (List.range (u8 e 0)).map fun i => u8 e (1 + i)

/-- Refresh the status word of the group that an axis belongs to. -/
def Block.groupShow (b : Block) (n : Nat) : Block :=
  match (entsOf b.cfg tGroup).find? fun p => (b.groupMembers p.1).contains n with
  | some (g, _) =>
    let ms := b.groupMembers g
    let s := ms.foldl (fun a m => max a (b.axState m)) 0
    let b := b.setFld (Reg.motGrpState g) 0 3 s
    let b := b.setFld (Reg.motGrpState g) 5 1 (b2n (ms.all fun m => b.bit (Reg.motAxState m) 5))
    b.putSig (sidGroup g) ((b.rd (Reg.motGrpState g)).zeroExtend 64) 0
  | none => b

/-- Refresh an axis's registers and its signal (R374, R397). -/
def Block.axShow (b : Block) (n : Nat) : Block :=
  let x := b.ax n
  let b := b.wrN (Reg.motAxCmdPos n) (b.axWrap n x.cmd)
  let b := b.wr (Reg.motAxVelocity n) (ratF32 ((x.dir : Rat) * x.s))
  let b := b.setFld (Reg.motAxState n) 7 1 (b2n (x.dir < 0))
  let b := b.setFld (Reg.motAxState n) 12 4 (u8 (b.axDesc n) (44 + x.entry))
  (b.putSig (sidAxis n) ((b.rd (Reg.motAxState n)).zeroExtend 64) 0).groupShow n

/-- Write a MOTION record with its cause (R394). -/
def Block.motionRec (b : Block) (n cause : Nat) : Block :=
  let cmd := b.rdN (Reg.motAxCmdPos n)
  let meas := if b.axFlag n 6 then b.rdN (Reg.motAxEncPos n) else cmd
  let b := b.putAx n { b.ax n with lastRec := b.now }
  b.record (sidAxis n) 0x07 (leBytes 4 cmd ++ leBytes 4 meas ++ leBytes 4 (b.rdN (Reg.motAxVelocity n)) ++
    leBytes 1 (b.axState n) ++ leBytes 1 cause ++ leBytes 1 (b.fld (Reg.motAxState n) 12 4) ++ zeroBytes 1) (cause != 0)

/-- Raise an axis flag and, where it has one, its summary flag (R397). -/
def Block.axRaise (b : Block) (n i : Nat) : Block :=
  let b := b.raise (Reg.motAxFlags n) i (sidAxis n)
  match i with
  | 6 => b.raise Reg.motFlags 0
  | 1 => b.raise Reg.motFlags 1
  | 2 => b.raise Reg.motFlags 2
  | 3 => b.raise Reg.motFlags 3
  | _ => b

/-- Enter an axis state, with the record of the change. -/
def Block.setAx (b : Block) (n s cause : Nat) : Block :=
  let old := b.axState n
  let b := b.setFld (Reg.motAxState n) 0 3 s
  let b := b.setFld (Reg.motMoving + 4 * (n / 32)) (n % 32) 1 (b2n (s == axMoving || s == axStopping))
  let b := b.axShow n
  if s = old then b else b.motionRec n cause

/-! ### Driver-control ports (R392) -/

/-- Template kinds on a port: 0–8 resolution codes, then these. -/
def tmHold : Nat := 9
def tmOff : Nat := 10
def tmShort : Nat := 11
def tmRun : Nat := 12
def tmMask : Nat := 13

/-- Ask for a frame to axis `n`; the first in the queue is being sent. -/
def Block.dcpSend (b : Block) (n kind : Nat) : Block :=
  let p := n / 8
  let q := tget [] b.dcp p ++ [(n, kind)]
  let b := { b with dcp := tput b.dcp p q }
  (b.setFld (Reg.motDcpState p) 0 1 1).setFld (Reg.motDcpState p) 4 4 (satNat 15 (q.length - 1))

/-! ### Moves (R379–R383, R387, R389, R393) -/

/-- Highest speed that R378 allows at a resolution code, pu/s. -/
def rateLimit (d : List Byte) (c : Nat) : Rat :=
  let byPulse : Rat := if u8 d 41 = 0 then 5000000 else 1 / (2 * ((u8 d 41 : Nat) : Rat) * dtTick)
  (if byPulse < 5000000 then byPulse else 5000000) * ((stepSize c : Nat) : Rat)

/-- Codes of the resolution entries in use. -/
def resCodes (d : List Byte) : List Nat := ([44, 45, 46, 47].map fun o => u8 d o).filter (· != 0xFF)

/-- The code that a speed would use (R384). -/
def resFor (d : List Byte) (v : Rat) : Nat :=
  let pick := [1, 2, 3].filter fun i => u8 d (44 + i) != 0xFF && decide (f32Rat (w32 d (44 + 4 * i)) ≤ v)
  u8 d (44 + pick.getLast?.getD 0)

/-- The rate refusal of R379 for a speed. -/
def rateRefusal (d : List Byte) (v : Rat) : Option Refuse :=
  let coarse := (resCodes d).getLast?.getD 8
  if rateLimit d coarse < v then some { status := stLimit, reason := 0x04 }
  else if rateLimit d (resFor d v) < v then some { status := stLimit, reason := 0x03 }
  else none

/-- The value of a move as a number: positions are integers, velocities binary32. -/
def moveVal (mode : Nat) (v : Word) : Rat := if mode = 2 then f32Rat v else ((v.toInt : Int) : Rat)

/-- The unwrapped target of a mode 0 or 1 move. A ROTARY target is taken in the revolution the axis is in (log 17). -/
def Block.axTarget (b : Block) (n mode : Nat) (v : Word) : Rat :=
  let x := b.ax n
  if mode = 1 then ((x.cmd + v.toInt : Int) : Rat)
  else if b.axRotary n && b.axModulo n != 0 then
    let m := (b.axModulo n : Int)
    ((x.cmd - x.cmd % m + v.toInt % m : Int) : Rat)
  else ((v.toInt : Int) : Rat)

/-- Is the axis limited by its virtual limits (R373, R375)? -/
def Block.axLimited (b : Block) (n : Nat) : Bool := b.axFlag n 3 && !b.axRotary n

def Block.limLo (b : Block) (n : Nat) : Int := toSigned 32 (b.rdN (Reg.motAxLimitLo n))
def Block.limHi (b : Block) (n : Nat) : Int := toSigned 32 (b.rdN (Reg.motAxLimitHi n))

/-- Would the move turn the axis round, or overshoot its target (R380)? `p` is the new set. -/
def AxisSt.reverses (x : AxisSt) (mode : Nat) (t : Rat) (p : List Byte) : Bool :=
  if x.s = 0 then false
  else if mode = 2 then decide (t * (x.dir : Rat) < 0)
  else
    let ahead := if 0 < x.dir then t - x.pos else x.pos - t
    decide (ahead < 0) || decide (ahead < planStop p x.scale x.s)

/-- Is the REJECT policy in force (R380, R388)? -/
def Block.axReject (b : Block) (n : Nat) : Bool := b.axFlag n 4 || b.axMedium n

/-- The argument refusals of a move (R379). -/
def moveArgs (p : List Byte) (mode set : Nat) (v : Word) (group : Bool) : Option Refuse :=
  firstRefusal [deny (decide (4 < mode) || decide (15 < set)) stBadArg,
    deny (mode == 4 && !pfJerk p) stBadArg, deny (mode == 2 && group) stBadArg,
    deny (mode == 2 && (match F32.decode v with | .fin _ _ => false | _ => true)) stBadArg]

/-- The state and limit refusals of a move to an axis (R379–R383, R386, R389, R393, R396). -/
def Block.moveState (b : Block) (n mode set : Nat) (v : Word) (group : Bool) : Option Refuse :=
  let s := b.axState n
  let x := b.ax n
  let p := b.axProf n set
  let emerg := s == axStopping && b.bit (Reg.motAxState n) 10
  let t := if mode = 2 then moveVal 2 v else b.axTarget n mode v
  let sp := if mode = 2 then (if t < 0 then -t else t) else pfVmax p
  let conf (r : Nat) : Option Refuse := some { status := stConflict, reason := r, code := s }
  if b.tripHeld tkAxis n || s = axHalted then conf 0x04
  else if 3 ≤ mode then none
  else if s = axDisabled then conf 0x06
  else if emerg then conf 0x03
  else if !group && x.grp.isSome then conf 0x05
  else if x.bound && mode ≤ 1 && !b.bit (Reg.motAxState n) 11 then conf 0x01
  else if b.axReject n && x.reverses mode t p && pfStop x.prof < x.s then conf 0x02
  else if mode ≤ 1 ∧ b.axLimited n ∧ (t < (b.limLo n : Rat) ∨ (b.limHi n : Rat) < t) then some { status := stLimit, reason := 0x02 }
  else rateRefusal (b.axDesc n) sp

/-- Leave rest: the RUN template first where a standstill template is in force (R387). -/
def Block.axLeave (b : Block) (n : Nat) : Block :=
  let x := b.ax n
  if x.templ then (b.putAx n { x with templ := false, hold := true }).dcpSend n tmRun else b

/-- The limit in the direction of a velocity (R381). -/
def Block.axLimitAhead (b : Block) (n : Nat) (dir : Int) : Option Rat :=
  if b.axLimited n then some (((if 0 < dir then b.limHi n else b.limLo n) : Int) : Rat) else none

/-- The deceleration of a stop planned from here (R381): raised to stop at a virtual limit, up to the emergency value; with
whether even that overruns. -/
def Block.stopRaise (b : Block) (n : Nat) (x : AxisSt) (p : List Byte) : Option Rat × Bool :=
  match b.axLimitAhead n x.dir with
  | none => (none, false)
  | some l =>
    let r := if 0 < x.dir then l - x.pos else x.pos - l
    if planStop p x.scale x.s ≤ r then (none, false)
    else
      let need := if r ≤ 0 then b.axEmerg n + 1 else x.s * x.s / (2 * r)
      if need ≤ b.axEmerg n then (some need, false) else (some (b.axEmerg n), true)

/-- Start a move of mode 0 to 2 from rest. -/
def Block.axBegin (b : Block) (n mode set : Nat) (t : Rat) (scale : Rat) (grp : Option Nat) : Block :=
  let x := b.ax n
  let p := b.axProf n set
  let d : Rat := if mode = 2 then t else t - x.pos
  let dir : Int := if d < 0 then -1 else 1
  let vm := pfVmax p * scale
  let sp := if mode = 2 then (let a := if t < 0 then -t else t; if vm < a then vm else a) else vm
  let x := { x with dirAt := if dir = x.dir then x.dirAt else b.now, dir := dir, mode := mode, target := t, speed := sp, set := set,
                    prof := p, profNext := none, scale := scale, decel := none, braking := false, ending := false, next := none,
                    limit := if mode = 2 then b.axLimitAhead n dir else none, grp := grp, s := 0, a := 0 }
  let b := (b.putAx n x).axLeave n
  let b := b.setFld (Reg.motAxState n) 5 1 0 |>.setFld (Reg.motAxState n) 6 1 0 |>.setFld (Reg.motAxState n) 8 1 0
  let b := if mode = 2 then b else b.wrN (Reg.motAxTarget n) (b.axWrap n (rneInt t))
  b.setAx n axMoving 1

/-- Stop on a deceleration set (R381, R383): a normal or jerk-limited stop, mode 3 or 4. -/
def Block.axStop (b : Block) (n mode set : Nat) : Block :=
  let s := b.axState n
  if s == axMoving || (s == axStopping && !b.bit (Reg.motAxState n) 10) then
    let x := b.ax n
    let p := b.axProf n set
    let dr := b.stopRaise n x p
    let x := { x with mode := mode, prof := if pfJerk x.prof && pfJerk p then x.prof else p,
                      profNext := if pfJerk x.prof && pfJerk p then some p else none, set := set, decel := dr.1, next := none,
                      limit := none, speed := 0, ending := false, braking := true }
    let b := b.putAx n x
    let b := if x.bound then b.setFld (Reg.motAxState n) 11 1 1 else b
    let b := if dr.2 then b.axRaise n 1 else b
    b.setAx n axStopping 1
  else b

/-- A stop that the controller makes by itself (R388, R391): at D_EMERG, or D_MEDIUM on a MEDIUM axis, scaled in a group. -/
def Block.axEmergency (b : Block) (n cause : Nat) : Block :=
  let s := b.axState n
  if s == axMoving || s == axStopping then
    let x := b.ax n
    let dr := b.stopRaise n x x.prof
    let x := { x with mode := 5, decel := some (b.axEmerg n * x.scale), next := none, limit := none, speed := 0, ending := false,
                      braking := true, a := 0 }
    let b := (b.putAx n x).setFld (Reg.motAxState n) 10 1 1
    let b := if x.bound then b.setFld (Reg.motAxState n) 11 1 1 else b
    let b := if dr.2 then b.axRaise n 1 else b
    b.setAx n axStopping cause
  else b

/-- Stop the group in which an axis moves, along the path (R393). -/
def Block.groupStop (b : Block) (n cause : Nat) : Block :=
  match (b.ax n).grp with
  | some g => (b.groupMembers g).foldl (fun b m => if (b.ax m).grp == some g then b.axEmergency m cause else b) b
  | none => b.axEmergency n cause

/-- Take a move that passed its checks (R379–R383). -/
def Block.axMove (b : Block) (n mode set : Nat) (v : Word) (scale : Rat := 1) (grp : Option Nat := none) : Block :=
  if 3 ≤ mode then b.axStop n mode set
  else
    let x := b.ax n
    let p := b.axProf n set
    -- a mode-2 move to a detached bound axis only attaches it again (R389)
    if x.bound && mode = 2 && b.bit (Reg.motAxState n) 11 then b.setFld (Reg.motAxState n) 11 1 0 |>.axShow n
    else
    let t := if mode = 2 then moveVal 2 v else b.axTarget n mode v
    if x.s = 0 then b.axBegin n mode set t scale grp
    else if x.reverses mode t p then
      if x.s ≤ pfStop x.prof then
        -- at or below V_STOP the axis stops at once and then turns (R380)
        let x := { x with s := 0, a := 0, pos := (x.cmd : Rat), ending := true, next := some (mode, t, set), restAt := b.now }
        (b.putAx n x).setAx n axStopping 1
      else
        let dr := b.stopRaise n x p
        let jj := pfJerk x.prof && pfJerk p
        let x := { x with prof := if jj then x.prof else p, profNext := if jj then some p else none, set := set, decel := dr.1,
                          next := some (mode, t, set), limit := none, braking := true, ending := false }
        let b := b.putAx n x
        let b := if dr.2 then b.axRaise n 1 else b
        b.setAx n axMoving 1
    else
      let vm := pfVmax p * scale
      let sp := if mode = 2 then (let a := if t < 0 then -t else t; if vm < a then vm else a) else vm
      let jj := pfJerk x.prof && pfJerk p
      -- a stop point past the target keeps the deceleration that reaches it (R382)
      let ahead := if 0 < x.dir then t - x.pos else x.pos - t
      let held := mode ≤ 1 && x.braking && !pfJerk p && decide (ahead < stopDist p scale x.s)
      let need := if ahead ≤ 0 then b.axEmerg n else x.s * x.s / (2 * ahead)
      let x := { x with mode := mode, target := t, speed := sp, set := set, prof := if jj then x.prof else p,
                        profNext := if jj then some p else none, scale := scale, braking := false, ending := false, next := none,
                        decel := if held then some (if b.axEmerg n < need then b.axEmerg n else need) else none,
                        limit := if mode = 2 then b.axLimitAhead n x.dir else none, grp := grp }
      let b := b.putAx n x
      let b := if held then b.axRaise n 0 else b
      let b := b.setFld (Reg.motAxState n) 5 1 0 |>.setFld (Reg.motAxState n) 6 1 0 |>.setFld (Reg.motAxState n) 8 1 0
      let b := if mode = 2 then b else b.wrN (Reg.motAxTarget n) (b.axWrap n (rneInt t))
      b.setAx n axMoving 1

/-- A velocity handed off by an output stage of KIND 2 (R389): a mode-2 velocity under VEL_SET, ignored while detached or where
a move would be refused. -/
def Block.handAxis (b : Block) (n : Nat) (v : Word) : Block :=
  let set := u8 (b.axDesc n) 43
  if b.bit (Reg.motAxState n) 11 || (b.moveState n 2 set v false).isSome || isNaN32 v then b
  else
    let x := b.ax n
    -- a standing axis stays at rest under velocity 0, and the velocity in force needs no new move
    if x.s = 0 ∧ f32Rat v = 0 then b
    else if x.mode = 2 ∧ b.axState n = axMoving ∧ x.target = f32Rat v ∧ x.next = none then b
    else b.axMove n 2 set v

/-! ### Groups (R393) -/

/-- Point `i` of a group's table: position of member `k`. -/
def Block.pointOf (b : Block) (g i k : Nat) : Word := w32 (b.fix tGroupPoint (1024 * g + i)) (4 * k)

/-- Distance that a member goes in a group move. -/
def Block.memberDist (b : Block) (g m k i mode : Nat) : Rat :=
  let d := b.axTarget m mode (b.pointOf g i k) - ((b.ax m).cmd : Rat)
  if d < 0 then -d else d

/-- Members of a group with their places. -/
def Block.members (b : Block) (g : Nat) : List (Nat × Nat) := (b.groupMembers g).zip (List.range 8)

/-- The first refusal that a member of a group would make (R393). -/
def Block.groupState (b : Block) (g mode set : Nat) (i : Nat) : Option Refuse :=
  firstRefusal ((b.members g).map fun p => b.moveState p.1 mode set (if mode ≤ 1 then b.pointOf g i p.2 else 0#32) true)

/-- Start or stop a group (R393): the member with the longest way runs its set, the others scaled to arrive with it. -/
def Block.groupMove (b : Block) (g mode set : Nat) (i : Nat) : Block :=
  let ms := b.members g
  if 3 ≤ mode then ms.foldl (fun b p => b.axStop p.1 mode set) b
  else
    let dmax := ms.foldl (fun a p => max a (b.memberDist g p.1 p.2 i mode)) 0
    let b := b.setFld (Reg.motGrpState g) 9 1 0
    ms.foldl (fun (b : Block) p =>
      let d := b.memberDist g p.1 p.2 i mode
      if dmax = 0 ∨ d = 0 then b else b.axMove p.1 mode set (b.pointOf g i p.2) (d / dmax) (some g)) b

/-! ### Trips (R386) -/

/-- A trip forces an axis. -/
def Block.axHalt (b : Block) (n : Nat) : Block :=
  if b.axState n = axHalted then b else
  let x := b.ax n
  let g := x.grp
  let b := b.putAx n { x with s := 0, a := 0, pos := (x.cmd : Rat), mode := 3, next := none, ending := false, braking := false,
                              hold := false, grp := none, decel := none, restAt := b.now }
  let b := b.setFld (Reg.motAxState n) 10 1 0
  let b := if x.bound then b.setFld (Reg.motAxState n) 11 1 1 else b
  let b := (b.setAx n axHalted 1).axRaise n 6
  match g with
  | some k =>
    let b := (b.groupMembers k).foldl (fun b m => if (b.ax m).grp == some k then b.axEmergency m 1 else b) b
    (b.setFld (Reg.motGrpState k) 9 1 1).groupShow n
  | none => b

/-- The trips that forced an axis have cleared: it stands still at rest (R386). -/
def Block.axRelease (b : Block) (n : Nat) : Block :=
  if b.axState n = axHalted then (b.putAx n { b.ax n with restAt := b.now }).setAx n axStandstill 1 else b

/-! ### Encoders (R390, R391) -/

/-- Refresh the measured position from a raw count (R390). -/
def Block.encShow (b : Block) (n : Nat) (count : Int) : Block :=
  let d := b.axDesc n
  let pos := divOpen (count * (u16 d 32 : Int)) (u16 d 34) + (b.ax n).offset
  let b := b.wrN (Reg.motAxEncCount n) (ofSigned 32 count)
  let b := b.wrN (Reg.motAxEncPos n) (b.axWrap n pos)
  b.putSig (sidEncoder n) (BitVec.ofInt 64 (toSigned 32 (b.rdN (Reg.motAxEncPos n)))) 0

/-- Count an encoder error (R390). -/
def Block.encError (b : Block) (n : Nat) : Block := (b.count (Reg.motAxEncErrors n)).axRaise n 4

/-- Compare commanded and measured positions on a tick (R391). -/
def Block.deviationTick (b : Block) (n : Nat) : Block :=
  if !b.axFlag n 6 then b else
  let d := (b.axDiff n (b.rdN (Reg.motAxCmdPos n)) (b.rdN (Reg.motAxEncPos n))).natAbs
  let b := if b.rdN (Reg.motAxDevMax n) < d then b.wrN (Reg.motAxDevMax n) (satNat 0xFFFFFFFF d) else b
  let x := b.ax n
  if u32 (b.axDesc n) 24 < d then
    (if x.devSince.isNone then b.putAx n { x with devSince := some b.now } else b)
  else
    let b := if x.devSince.isSome then b.putAx n { x with devSince := none } else b
    b.setFld (Reg.motAxState n) 9 1 0

/-- One tick of every axis whose image entry is present. -/
def Block.axesTick (b : Block) : Block :=
  (entsOf b.cfg tAxis).foldl (fun (b : Block) p =>
    let n := p.1
    let s := b.axState n
    if !b.axPresent n || s = axDisabled || s = axHalted then b else
    let x := b.ax n
    let x' := x.tick (b.axDesc n) b.now (s == axMoving || s == axStopping)
    let b := if x' = x then b else (b.putAx n x').axShow n
    b.deviationTick n) b

end Sys2Proof.Machine
end

