-- ==== Sys2Proof/Machine/CanObj.lean ====
section
/-! DEFINITION. Machine/CanObj.lean: discrete lines (17 R419, R420) and the data of transmit objects (17 R406–R412) as shared
operations. -/

namespace Sys2Proof.Machine

/-! ### Discrete lines -/

def sidDio (n : Nat) : Nat := 0x600000 + n
def Block.dioSt (b : Block) (n : Nat) : DioSt := tget {} b.dio n
def Block.putDio (b : Block) (n : Nat) (d : DioSt) : Block := { b with dio := tput b.dio n d }
/-- Is the line an output of the image whose bank works (R419)? -/
def Block.dioIsOut (b : Block) (n : Nat) : Bool := b.bit (Reg.dioDir (n / 32)) (n % 32)
def Block.dioOut (b : Block) (n : Nat) : Bool := b.bit (Reg.dioOut (n / 32)) (n % 32)
def Block.dioForcedBit (b : Block) (n : Nat) : Bool := b.bit (Reg.dioForced (n / 32)) (n % 32)
def Block.bankBad (b : Block) (n : Nat) : Bool := b.bit (Reg.dioBankState (n / 16)) 2

/-- Write a line's DIO_EDGE record (R420). -/
def Block.dioRecord (b : Block) (n edges : Nat) (level : Bool) : Block :=
  let b := b.putDio n { b.dioSt n with lastRec := some b.now, edges := 0 }
  b.record (sidDio n) 0x06 (leBytes 1 (b2n level) ++ leBytes 1 (b2n (b.dioIsOut n) + 2 * b2n (b.dioForcedBit n)) ++ zeroBytes 2 ++
    leBytes 4 edges) false (some (b2n level : Rat))

/-- An edge of a line: recorded at once, or merged with those of the 4 µs after the line's previous record (R420). -/
def Block.dioEdge (b : Block) (n : Nat) (level : Bool) : Block :=
  if !b.bit (Reg.dioLineCfg n) 1 then b else
  match (b.dioSt n).lastRec with
  | some t => if b.now < t + 4000 then b.putDio n { b.dioSt n with edges := (b.dioSt n).edges + 1 } else b.dioRecord n 1 level
  | none => b.dioRecord n 1 level

/-- Put a level on an output line, which `DIO.IN` then shows as the line's level. -/
def Block.dioPut (b : Block) (n : Nat) (l : Bool) : Block :=
  if b.bankBad n || b.dioOut n == l then b else
  let b := (b.setFld (Reg.dioOut (n / 32)) (n % 32) 1 (b2n l)).setFld (Reg.dioIn (n / 32)) (n % 32) 1 (b2n l)
  (b.putSig (sidDio n) (BitVec.ofNat 64 (b2n l)) 0).dioEdge n l

/-- A writer gives a line a level: it stands while no trip forces the line, and it ends an interlock forcing (R131, R177). -/
def Block.dioDrive (b : Block) (n : Nat) (l : Bool) : Block :=
  let b := b.putDio n { b.dioSt n with want := l, lockForced := false }
  if b.tripHeld tkDio n then b
  else (b.setFld (Reg.dioForced (n / 32)) (n % 32) 1 0).dioPut n l

/-- The interlock matrix forces a line to a level (R131). -/
def Block.dioLock (b : Block) (n : Nat) (l : Bool) : Block :=
  let b := b.putDio n { b.dioSt n with want := l, lockForced := true }
  if b.tripHeld tkDio n then b
  else (b.setFld (Reg.dioForced (n / 32)) (n % 32) 1 1).dioPut n l

/-- A trip forces an output line to its trip level; an unlisted line takes its reset state, low (R55, R360). -/
def Block.dioTrip (b : Block) (n : Nat) : Block :=
  if !b.dioIsOut n then b else
  (b.setFld (Reg.dioForced (n / 32)) (n % 32) 1 1).dioPut n ((b.tripLevels tkDio n).testBit 0)

/-- The trips have cleared: the line returns to the level that its writers or the matrix give it. -/
def Block.dioUntrip (b : Block) (n : Nat) : Block :=
  if !b.dioIsOut n then b else
  let d := b.dioSt n
  (b.setFld (Reg.dioForced (n / 32)) (n % 32) 1 (b2n d.lockForced)).dioPut n d.want

/-! ### Nodes and their objects -/

def Block.nodeState (b : Block) (bus n : Nat) : Nat := b.fld (Reg.wldNode bus n) 0 3
def Block.node (b : Block) (bus n : Nat) : NodeSt := tget {} b.world.nodes (256 * bus + n)
def Block.putNode (b : Block) (bus n : Nat) (s : NodeSt) : Block :=
  { b with world := { b.world with nodes := tput b.world.nodes (256 * bus + n) s } }
/-- The node that an object of node `n` serves: its partner after a takeover (R99). -/
def Block.servedBy (b : Block) (bus n : Nat) : Nat := (b.node bus n).boundTo.getD n

/-- Receive objects of a node, in table order. -/
def Block.rxosOf (b : Block) (bus n : Nat) : List Nat :=
  ((entsOf b.cfg tRxo).filter fun p => (u8 p.2 1).testBit 0 && u8 p.2 0 == bus && u8 p.2 2 == n).map (·.1)
/-- Transmit objects of a node, in table order: indices 512c + o. -/
def Block.txosOf (b : Block) (bus n : Nat) : List Nat :=
  ((entsOf b.cfg tTxo).filter fun p => (u8 p.2 0).testBit 0 && p.1 / 512 == bus && u8 p.2 1 == n).map (·.1)

/-- The item of `ys` at the place that `x` has in `xs`. -/
def counterpart (xs ys : List Nat) (x : Nat) : Option Nat :=
  match xs, ys with
  | a :: as, y :: rest => if a = x then some y else counterpart as rest x
  | _, _ => none

/-- The descriptor whose identifier a receive object answers to: its counterpart's after a takeover. -/
def Block.rxoIdDesc (b : Block) (k : Nat) : List Byte :=
  let e := b.fix tRxo k
  match (b.node (u8 e 0) (u8 e 2)).boundTo with
  | some m => (match counterpart (b.rxosOf (u8 e 0) (u8 e 2)) (b.rxosOf (u8 e 0) m) k with
      | some k' => b.fix tRxo k'
      | none => e)
  | none => e

/-- The descriptor whose identifier a transmit object is sent with. -/
def Block.txoIdDesc (b : Block) (i : Nat) : List Byte :=
  let e := b.fix tTxo i
  match (b.node (i / 512) (u8 e 1)).boundTo with
  | some m => (match counterpart (b.txosOf (i / 512) (u8 e 1)) (b.txosOf (i / 512) m) i with
      | some i' => b.fix tTxo i'
      | none => e)
  | none => e

/-! ### Transmit objects -/

/-- Transmit-object states (R407). -/
def txEmpty : Nat := 0
def txPending : Nat := 1
def txCommitted : Nat := 2
def txSent : Nat := 3
def txCancelled : Nat := 4

def sidRxo (k : Nat) : Nat := 0x820000 + k
def sidTxo (i : Nat) : Nat := 0x830000 + i
def Block.txo (b : Block) (i : Nat) : TxoSt := tget {} b.txos i
def Block.putTxo (b : Block) (i : Nat) (t : TxoSt) : Block := { b with txos := tput b.txos i t }
def Block.txoReg (i : Nat) : Nat := Reg.canTxoState (i / 512) (i % 512)
def Block.txoState (b : Block) (i : Nat) : Nat := b.fld (Block.txoReg i) 0 3
def Block.setTxo (b : Block) (i s : Nat) : Block := b.setFld (Block.txoReg i) 0 3 s
def Block.txoUsed (b : Block) (i : Nat) : Bool := (u8 (b.fix tTxo i) 0).testBit 0
def Block.txoLen (b : Block) (i : Nat) : Nat := u16 (b.fix tTxo i) 2

/-- Is the object's node ABSENT or RETIRED (R407)? -/
def Block.txoNoNode (b : Block) (i : Nat) : Bool :=
  let n := u8 (b.fix tTxo i) 1
  n != 0xFF && (let s := b.nodeState (i / 512) (b.servedBy (i / 512) n); s == 0 || s == 1 || s == 6)

/-- A trigger that is accepted (R407). `cyclic` marks a cyclic period. -/
def Block.txTrigger (b : Block) (i : Nat) (cyclic : Bool := false) : Block :=
  let s := b.txoState i
  if s = txPending then
    (if cyclic then (b.count (Reg.canTxoOverruns (i / 512) (i % 512))).raise (Reg.canFlags (i / 512)) 6 else b)
  else if s = txCommitted then b.setFld (Block.txoReg i) 15 1 1
  else (b.setTxo i txPending).setFld (Block.txoReg i) 13 1 0

/-- Write bytes into an object's data from an offset (R408). -/
def Block.txData (b : Block) (i off : Nat) (bs : List Byte) : Block :=
  let d := padTo (b.txoLen i) (b.txo i).data
  b.putTxo i { b.txo i with data := d.take off ++ bs ++ d.drop (off + bs.length) }

/-! ### Fields (R412) -/

/-- The raw value of a field within data, or none when it lies beyond them. -/
def fieldGet (e data : List Byte) : Option Nat :=
  let n := (u8 e 10 + u8 e 11 + 7) / 8
  let lo := u16 e 8
  if data.length < lo + n then none else
  let bs := slice data lo n
  let v := if (u8 e 3).testBit 1 then leNat bs.reverse else leNat bs
  some (field v (u8 e 10) (u8 e 11))

/-- Place a raw value of a field into data. -/
def fieldPut (e data : List Byte) (raw : Nat) : List Byte :=
  let n := (u8 e 10 + u8 e 11 + 7) / 8
  let lo := u16 e 8
  let big := (u8 e 3).testBit 1
  let bs := slice data lo n
  let v := if big then leNat bs.reverse else leNat bs
  let v' := setField v (u8 e 10) (u8 e 11) raw
  let out := if big then (leBytes n v').reverse else leBytes n v'
  (data.take lo ++ out ++ data.drop (lo + n)).take data.length

/-- The value of a field in its catalogue TYPE from its raw bits (R412). -/
def fieldValue (e : List Byte) (raw : Nat) : DWord :=
  if (u8 e 3).testBit 2 then BitVec.ofInt 64 (toSigned (u8 e 11) raw) else BitVec.ofNat 64 raw

/-- The format-table entry of a transmit field. -/
def Block.txField (b : Block) (sid : Nat) : Option (List Byte) :=
  ((entsOf b.bank tFormat).find? fun p => u24 p.2 0 == sid && (u8 p.2 3).testBit 0).map (·.2)

/-- Index 512c + o of a transmit object's SID. -/
def txoOf (sid : Nat) : Nat := sid - sidTxo 0

/-- Saturate a value to a field's range: the raw bits and whether it clamped (R412). -/
def fieldSat (e : List Byte) (v : DWord) : Nat × Bool :=
  let len := u8 e 11
  if (u8 e 3).testBit 4 then (v.toNat % 2 ^ 32, false)
  else
    let i := v.toInt
    let lo : Int := if (u8 e 3).testBit 2 then -((2 : Int) ^ (len - 1)) else 0
    let hi : Int := if (u8 e 3).testBit 2 then (2 : Int) ^ (len - 1) - 1 else (2 : Int) ^ len - 1
    let c := clampInt lo hi i
    (ofSigned len c, c ≠ i)

/-- Write a transmit field (R412). -/
def Block.fieldWrite (b : Block) (sid : Nat) (v : DWord) : Block :=
  match b.txField sid with
  | some e =>
    let i := txoOf (u24 e 4)
    let rc := fieldSat e v
    let b := if rc.2 then b.raise (Reg.canFlags (i / 512)) 7 (0x800000 + i / 512) else b
    let d := padTo (b.txoLen i) (b.txo i).data
    let b := b.putTxo i { b.txo i with data := fieldPut e d rc.1 }
    b.putSig sid (fieldValue e rc.1) 0
  | none => b

/-- The present value of a bit field of a transmit object. -/
def Block.fieldBit (b : Block) (sid : Nat) : Bool :=
  match b.txField sid with
  | some e =>
    let i := txoOf (u24 e 4)
    (match fieldGet e (padTo (b.txoLen i) (b.txo i).data) with
     | some raw => raw.testBit 0
     | none => false)
  | none => false

end Sys2Proof.Machine
end

