-- ==== Sys2Proof/Machine/Targets.lean ====
section
/-! DEFINITION. Machine/Targets.lean: the DACs to which output stages hand their value (07 R169, 13 R321). Pairs, axes, lines and
bus fields have their hand-offs in the files before. -/

namespace Sys2Proof.Machine

def Block.dacSt (b : Block) (n : Nat) : DacSt := tget {} b.dacs n
def Block.putDac (b : Block) (n : Nat) (d : DacSt) : Block := { b with dacs := tput b.dacs n d }
/-- A DAC that a stage names is enabled from t7 (R321). -/
def Block.dacOn (b : Block) (n : Nat) : Bool := b.bit (Reg.anaDacState n) 17

/-- The code of a voltage (R321): two's complement of ±10 V or straight binary of 0..10 V, saturating. -/
def Block.dacCode (b : Block) (n : Nat) (v : Word) : Nat :=
  let uni := b.bit (Reg.anaDacState n) 16
  match F32.decode v with
  | .fin _ x =>
    let c := x / 10 * (if uni then 65536 else 32768)
    let i := divOpen c.num c.den
    if uni then (clampInt 0 65535 i).toNat else ofSigned 16 (clampInt (-32768) 32767 i)
  | .inf neg => if uni then (if neg then 0 else 65535) else (if neg then 0x8000 else 0x7FFF)
  | .nan _ => (Config.nanResult 103 v 0#32 0#32).toNat % 65536

/-- Load a code now. -/
def Block.dacLoad (b : Block) (n code : Nat) : Block :=
  (b.putDac n { loadAt := some b.now, waiting := none }).setFld (Reg.anaDacState n) 0 16 code

/-- A stage hands a voltage to a DAC: one value per 1 µs, a later one within it waits for its end and replaces an earlier one
(07 R169). -/
def Block.handDac (b : Block) (n : Nat) (v : Word) : Block :=
  if !b.dacOn n || b.tripHeld tkAout n then b else
  let code := b.dacCode n v
  match (b.dacSt n).loadAt with
  | some t => if b.now < t + 1000 then b.putDac n { b.dacSt n with waiting := some code } else b.dacLoad n code
  | none => b.dacLoad n code

/-- A trip loads the trip code; an unlisted AOUT takes its reset state, amplifier disabled at 0 V (R55, R321, R360, R530). -/
def Block.dacTrip (b : Block) (n : Nat) : Block :=
  match b.assignOf tkAout n with
  | some e => b.dacLoad n (b.dacCode n (w32 e 4))
  | none => (b.dacLoad n 0).setFld (Reg.anaDacState n) 17 1 0

/-- Does an output stage name the AOUT? -/
def Block.dacNamed (b : Block) (n : Nat) : Bool :=
  (entsOf b.cfg tStage).any fun p => u8 p.2 3 == 0 && u24 p.2 0 == n

/-- The trips have cleared. -/
def Block.dacUntrip (b : Block) (n : Nat) : Block := b.setFld (Reg.anaDacState n) 17 1 (b2n (b.dacNamed n))

/-- DACs whose microsecond has ended load their waiting code. -/
def Block.dacsTick (b : Block) : Block :=
  b.dacs.foldl (fun (b : Block) p =>
    match p.2.waiting, p.2.loadAt with
    | some c, some t => if t + 1000 ≤ b.now then b.dacLoad p.1 c else b
    | _, _ => b) b

end Sys2Proof.Machine
end

