-- ==== Sys2Proof/Machine/Interlock.lean ====
section
/-! DEFINITION. Machine/Interlock.lean: the interlock matrix (05 R129, R130). -/

namespace Sys2Proof.Machine

/-- Does a rule guard a level (05 R129)? -/
def ruleGuards (e : List Byte) (level : Bool) : Bool :=
  let d := field (u8 e 3) 1 2
  if level then d.testBit 0 else d.testBit 1

/-- Is a rule of kind ENFORCE (05 R129)? -/
def ruleEnforce (e : List Byte) : Bool := (u8 e 3).testBit 0

/-- Are all used terms of a rule true, on the cache of the tick before (05 R130)? -/
def Block.ruleOk (b : Block) (e : List Byte) : Bool :=
  [8, 16, 24].all fun o => u24 e o == 0 || b.compareBefore (u24 e o) (u8 e (o + 3)) (w32 e (o + 4))

/-- Are all used terms of a rule true on the present cache (05 R131)? -/
def Block.ruleOkNow (b : Block) (e : List Byte) : Bool :=
  [8, 16, 24].all fun o => u24 e o == 0 || b.compare (u24 e o) (u8 e (o + 3)) (w32 e (o + 4))

/-- The REASON of the first rule that refuses a target the level, if any (05 R130). With `enforceOnly` only ENFORCE rules
count (05 R123, the end of a pulse). -/
def Block.refusal (b : Block) (target : Nat) (level : Bool) (enforceOnly : Bool := false) : Option Nat :=
  ((entsOf b.bank tLock).find? fun p => u24 p.2 0 == target && ruleGuards p.2 level && (!enforceOnly || ruleEnforce p.2) &&
    !b.ruleOk p.2).map fun p => u8 p.2 5

/-- The level that a stage's value stands for (05 R130): of its hand-off for KIND 3, else whether it is other than 0.0. -/
def valueLevel (kind : Nat) (v : Word) : Bool :=
  if kind = 3 then (match F32.decode v with | .fin _ x => decide (1/2 ≤ x) | .inf n => !n | .nan _ => false)
  else !f32Eq v 0#32

end Sys2Proof.Machine
end

