-- ==== Sys2Proof/Machine/Stages.lean ====
section
/-! DEFINITION. Machine/Stages.lean: output stages (07 R168–R180, R186, R530) as shared operations. -/

namespace Sys2Proof.Machine

/-- Stage states (07 R176). -/
def osLive : Nat := 0
def osCoasting : Nat := 1
def osStale : Nat := 2
def osForced : Nat := 3
/-- Forcing reasons as bits of REASONS (07 R187). -/
def frInit : Nat := 0
def frHost : Nat := 1
def frStale : Nat := 2
def frLock : Nat := 3
def frTrip : Nat := 4

def Block.sgDesc (b : Block) (n : Nat) : List Byte := b.fix tStage n
def Block.sg (b : Block) (n : Nat) : StageSt := tget {} b.stages n
def Block.putSg (b : Block) (n : Nat) (s : StageSt) : Block := { b with stages := tput b.stages n s }
def Block.sgState (b : Block) (n : Nat) : Nat := b.fld (Reg.outStageState n) 0 2
def Block.sgReasons (b : Block) (n : Nat) : Nat := b.fld (Reg.outStageState n) 24 5
def Block.sgKind (b : Block) (n : Nat) : Nat := u8 (b.sgDesc n) 3
def Block.sgOwner (b : Block) (n : Nat) : Nat := u16 (b.sgDesc n) 24
def Block.sgFresh (b : Block) (n : Nat) : Nat := u16 (b.sgDesc n) 20
/-- A stage exists when the image lists it with a KIND other than 0xFF. -/
def Block.sgUsed (b : Block) (n : Nat) : Bool := hasEnt b.cfg tStage n && b.sgKind n != 0xFF

/-- Is the loop of the stage's owner enabled (07 R170)? -/
def Block.ownerOn (b : Block) (n : Nat) : Bool :=
  match b.loopOf (b.sgOwner n) with
  | some l => b.bit (Reg.outLoopState l) 16
  | none => false

/-- Is the stage direct (07 R170)? -/
def Block.direct (b : Block) (n : Nat) : Bool :=
  b.sgOwner n == 0xFFFF || b.sgFresh n == 0 || !b.ownerOn n

/-- Plan time code to ns (07 R172). -/
def planNs (q : Nat) : Nat := (q + 1) * 4000

/-- The plan that a write with pointer 0 stands for (07 R172): one point holding the value until DEFAULT_HORIZON. -/
def Block.holdPlan (b : Block) (n : Nat) (v : Word) : Plan :=
  { step := false, points := [(0, v), (planNs (u16 (b.sgDesc n) 22), v)] }

/-- A plan read from its bytes, with the written value as point 0 (07 R172, R173). -/
def planOf (v : Word) (e : List Byte) : Plan :=
  { step := u8 e 1 == 1,
    points := (0, v) :: (List.range (u8 e 0)).map fun i => (planNs (u16 e (8 + 8 * i)), w32 e (12 + 8 * i)) }

/-- Times strictly ascending. -/
def ascending : List Nat → Bool
  | a :: b :: r => decide (a < b) && ascending (b :: r)
  | _ => true

/-- Is a write malformed (07 R174)? COUNT 0 or above 8, a reserved MODE, times that do not ascend, or a NaN. -/
def planBad (v : Word) (e : List Byte) : Bool :=
  u8 e 0 == 0 || decide (8 < u8 e 0) || decide (1 < u8 e 1) ||
  !ascending ((List.range (u8 e 0)).map fun i => u16 e (8 + 8 * i)) ||
  isNaN32 v || (List.range (u8 e 0)).any fun i => isNaN32 (w32 e (12 + 8 * i))

/-- A plan's value at an age (07 R173), evaluated on the 4 µs grid from its start. -/
def planAt (step : Bool) (age : Nat) : List (Nat × Word) → Word
  | [] => 0#32
  | [p] => p.2
  | p :: q :: r =>
    if age < q.1 then
      (if step || age ≤ p.1 then p.2
       else ratF32 (f32Rat p.2 + (f32Rat q.2 - f32Rat p.2) * (((age - p.1 : Nat) : Rat) / ((q.1 - p.1 : Nat) : Rat))))
    else planAt step age (q :: r)

/-- The time of a plan's last point. -/
def Plan.last (p : Plan) : Nat := (p.points.getLast?.map (·.1)).getD 0
/-- The plan's value at an age, on the 4 µs grid. -/
def Plan.value (p : Plan) (age : Nat) : Word := planAt p.step (age / 4000 * 4000) p.points
/-- Has the plan expired: an evaluation has passed its last point (07 R173)? -/
def Plan.expired (p : Plan) (age : Nat) : Bool := decide (p.last < age / 4000 * 4000)

/-- Age of the plan in force, ns. -/
def Block.sgAge (b : Block) (n : Nat) : Nat := b.now - (b.sg n).start

/-- The ruling forcing reason's value (07 R177). -/
def Block.forcedValue (b : Block) (n : Nat) : Word :=
  let r := b.sgReasons n
  let d := b.sgDesc n
  if r.testBit frTrip then b.tripValue (u8 d 3) (u24 d 0)
  else if r.testBit frLock then (b.sg n).lockVal
  else if r.testBit frStale then w32 d 16
  else if r.testBit frHost then (b.sg n).hostVal
  else w32 d 12

/-- The stale-policy value (07 R178): HOLD keeps the last plan value, the others SAFE. -/
def Block.staleValue (b : Block) (n : Nat) : Word :=
  if field (u8 (b.sgDesc n) 27) 0 2 = 0 then ((b.sg n).plan.points.getLast?.map (·.2)).getD 0#32 else w32 (b.sgDesc n) 16

/-- The consumer whose ceiling clamps the stage (06 R141). -/
def Block.consOf (b : Block) (n : Nat) : Option Nat :=
  ((entsOf b.bank tCons).find? fun p => u16 p.2 10 == n).map (·.1)

/-- OUTPUT record of a stage (07 R186). -/
def Block.outputRec (b : Block) (n : Nat) (fresh : Bool) : Block :=
  let st := b.sg n
  b.record (sidStage n) 0x10 (leBytes 4 (b.rdN (Reg.outStageValue n)) ++ leBytes 1 (b.sgState n) ++
    leBytes 1 (b2n st.ceilOn + 2 * b2n st.rangeOn + 4 * b2n fresh) ++ leBytes 1 (b.sgReasons n) ++ zeroBytes 1)

/-- The bytes of a plan (07 R172). -/
def Plan.bytes (p : Plan) : List Byte :=
  let pts := p.points.drop 1
  leBytes 1 pts.length ++ leBytes 1 (b2n p.step) ++ zeroBytes 6 ++
    (pts.map fun q => leBytes 2 (q.1 / 4000 - 1) ++ zeroBytes 2 ++ leBytes 4 q.2.toNat).flatten

/-- OUTPUT_PLAN record of a stage (07 R186). -/
def Block.planRec (b : Block) (n : Nat) : Block := b.record (sidStage n) 0x11 (b.sg n).plan.bytes

/-- Hand an applied value to the stage's target (07 R169); a DIO line or a bus bit field passes the interlock matrix (05 R130). -/
def Block.handOut (b : Block) (n : Nat) (v : Word) : Block :=
  let d := b.sgDesc n
  let t := u24 d 0
  match u8 d 3 with
  | 0 => b.handDac t v
  | 1 => b.handPair t v
  | 2 => b.handAxis t v
  | 3 =>
    let l := valueLevel 3 v
    if b.dioOut t == l then b
    else match b.refusal (sidStage n) l, b.refusal (0x600000 + t) l with
      | none, none => b.dioDrive t l
      | _, _ => b.count Reg.seqInterlockRefusals
  | 4 => b.fieldWrite t (toType (b.sigType t) v)
  | _ => b

/-- Form and hand out the applied value of this tick (07 R171, R530). A clamp that starts or ends has its OUTPUT record, unless the caller
writes the record of this application itself (`quiet`): one application has one record (07 R186). -/
def Block.applyStage (b : Block) (n : Nat) (quiet : Bool := false) : Block :=
  let d := b.sgDesc n
  let st := b.sg n
  let s := b.sgState n
  let forced := s == osForced
  let v0 := if forced then b.forcedValue n
    else if s == osStale then b.staleValue n else st.plan.value (b.sgAge n)
  let lo := w32 d 8
  let hi := w32 d 4
  let range := !forced && (f32Lt v0 lo || f32Lt hi v0)
  let v1 := if forced then v0 else if f32Lt v0 lo then lo else if f32Lt hi v0 then hi else v0
  let cons := b.consOf n
  let c := match cons with | some _ => b.rd (Reg.outStageCeiling n) | none => hi
  let ceil := !forced && f32Lt c v1
  let v2 := if ceil then c else v1
  let tripping := forced && (b.sgReasons n).testBit frTrip
  let out := if tripping then v2 else (b.curve (u16 d 28) v2).1
  let acc := st.accRat + f32Rat (b.rd (Reg.outStageValue n)) * ((b.now - st.accAt : Nat) : Rat)
  let old := b.rd (Reg.outStageValue n)
  let before := if st.changedAt = b.now then st.before else old
  let b := b.putSg n { st with accRat := acc, accAt := b.now, ceilOn := ceil, rangeOn := range, before := before, changedAt := b.now }
  let b := (b.wr (Reg.outStageValue n) v2).setFld (Reg.outStageState n) 3 1 (b2n ceil)
  let b := if range && !st.rangeOn then b.raise (Reg.outStageFlags n) 1 (sidStage n) else b
  let b := if ceil && !st.ceilOn then (b.raise (Reg.outStageFlags n) 0 (sidStage n)).raise Reg.outFlags 4 (sidStage n) else b
  let b := match cons with
    | some k => if ceil then b.setFld (Reg.lgrConsStatus k) 2 1 1 else b
    | none => b
  let b := if !quiet && (ceil != st.ceilOn || range != st.rangeOn) then b.outputRec n false else b
  if tripping then
    -- a pair keeps a current duty in its shadow while it is tripped (07 R530)
    (if u8 d 3 = 1 then b.handPair (u24 d 0) (b.curve (u16 d 28) (st.plan.value (b.sgAge n))).1 else b)
  else b.handOut n out

/-- End a COASTING interval and keep the longest (07 R176). -/
def Block.endCoast (b : Block) (n : Nat) : Block :=
  match (b.sg n).coastSince with
  | some t =>
    let us := satNat 0xFFFFFFFF ((b.now - t) / 1000)
    let b := b.putSg n { b.sg n with coastSince := none }
    if b.rdN Reg.outMaxCoast < us then b.wrN Reg.outMaxCoast us else b
  | none => b

/-- Set a stage's state, with its OUTPUT record on a change (07 R186). -/
def Block.setSg (b : Block) (n s : Nat) : Block :=
  let old := b.sgState n
  let b := if old == osCoasting && s != osCoasting then b.endCoast n else b
  b.setFld (Reg.outStageState n) 0 2 s

/-- The state a stage takes when no reason forces it: by the age of its latest plan (07 R177). -/
def Block.unforcedState (b : Block) (n : Nat) : Nat :=
  if b.direct n then osLive
  else if (b.sg n).plan.expired (b.sgAge n) then osStale
  else if u16 (b.sgDesc n) 20 * 4000 < b.sgAge n then osCoasting else osLive

/-- Enter COASTING (07 R176): the interval starts, the plan is recorded, and the value is the plan's at this tick. -/
def Block.coastStage (b : Block) (n : Nat) : Block :=
  if b.sgState n != osLive || b.direct n then b else
  let b := b.putSg n { b.sg n with coastSince := some b.now }
  (((b.setSg n osCoasting).applyStage n true).planRec n).outputRec n false

/-- Add a forcing reason (07 R177). -/
def Block.forceStage (b : Block) (n r : Nat) : Block :=
  let rs := b.sgReasons n
  if b.sgState n == osForced && rs.testBit r then b.applyStage n else
  let b := (b.setFld (Reg.outStageState n) 24 5 (rs ||| 2 ^ r)).setSg n osForced
  (b.applyStage n true).outputRec n false

/-- Clear a forcing reason; when the last clears, the latest plan applies again from the next tick (07 R177), so that the record of the
change still carries the forced value; the end of a trip itself comes with that tick (15 R361). -/
def Block.unforceStage (b : Block) (n r : Nat) : Block :=
  let rs := b.sgReasons n
  if !rs.testBit r then b else
  let rs' := rs - 2 ^ r
  let b := b.setFld (Reg.outStageState n) 24 5 rs'
  if rs' != 0 then (b.applyStage n true).outputRec n false else
  let s := b.unforcedState n
  let b := if s == osCoasting then b.putSg n { b.sg n with coastSince := some b.now } else b
  if r = frTrip then ((b.setSg n s).applyStage n true).outputRec n false else ((b.setSg n s).outputRec n false).applyStage n

/-- Stage KIND of a trip-assignment kind. -/
def stageKind (tk : Nat) : Nat := if tk = 0 then 1 else if tk = 1 then 3 else if tk = 2 then 0 else 2

/-- The stages whose TARGET is a trip target. -/
def Block.targetStages (b : Block) (kind t : Nat) : List Nat :=
  ((entsOf b.cfg tStage).filter fun p => u8 p.2 3 == stageKind kind && u24 p.2 0 == t).map (·.1)

/-- A target other than a pair leaves the trip network's hold (15 R366); its stages lose reason TRIP. -/
def Block.releaseTarget (b : Block) (kind t : Nat) : Block :=
  let b := { b with tripForced := tdel b.tripForced (tripKey kind t) }
  let b := if kind = tkDio then b.dioUntrip t else if kind = tkAout then b.dacUntrip t else if kind = tkAxis then b.axRelease t else b
  (b.targetStages kind t).foldl (fun b n => b.unforceStage n frTrip) b

def Block.trp (b : Block) (s : Nat) : TripSt := tget {} b.trips s
def Block.putTrp (b : Block) (s : Nat) (t : TripSt) : Block := { b with trips := tput b.trips s t }
/-- Bit s of one of the 64-bit trip registers. -/
def Block.trpBit (b : Block) (reg s : Nat) : Bool := b.bit (reg + 4 * (s / 32)) (s % 32)
def Block.setTrpBit (b : Block) (reg s : Nat) (v : Bool) : Block := b.setFld (reg + 4 * (s / 32)) (s % 32) 1 (b2n v)

/-- Is a driver of the source active (15 R359): its own, or a stage whose stale policy TRIP names it (R178)? -/
def Block.driven (b : Block) (s : Nat) : Bool :=
  (b.trp s).own || (entsOf b.cfg tStage).any fun p =>
    u8 p.2 30 == s && field (u8 p.2 27) 0 2 == 2 && (b.sgReasons p.1).testBit frStale

/-- A source's drivers are all inactive: it is inactive, and a target that nothing holds any more is released. -/
def Block.quietSrc (b : Block) (s : Nat) : Block :=
  let b := (b.setTrpBit Reg.trpRaw s false).setTrpBit Reg.trpActive s false
  let b := b.putTrp s { b.trp s with blanked := false }
  (b.targetsOf s).foldl (fun (b : Block) p =>
    if p.1 != tkPair && b.tripHeld p.1 p.2 && !b.sourcesHold p.1 p.2 then b.releaseTarget p.1 p.2 else b) b

/-- The stage's TRIP_SRC goes quiet when reason STALE has cleared (R178). -/
def Block.endStaleTrip (b : Block) (n : Nat) : Block :=
  let s := u8 (b.sgDesc n) 30
  if s < 64 ∧ field (u8 (b.sgDesc n) 27) 0 2 = 2 ∧ !b.driven s then b.quietSrc s else b

/-- A fresh write is applied (07 R173, R176, R177): it becomes the latest plan; it clears STALE, INTERLOCK once accepted by the
matrix, and INIT after the entry to OPERATIONAL; the stage is LIVE unless still forced. `count` counts it in OUT.COMMITS. -/
def Block.freshWrite (b : Block) (n : Nat) (p : Plan) (fresh : Bool := true) : Block :=
  let b := b.putSg n { b.sg n with plan := p, start := b.now, written := true }
  let b := b.wr64 (Reg.outStageLastWrite n) b.now
  let clr := 2 ^ frStale ||| 2 ^ frLock ||| (if b.dev == dsOperational || b.dev == dsRestart || b.dev == dsSafeStop then 2 ^ frInit else 0)
  let rs := b.sgReasons n
  let rs' := rs - (rs &&& clr)
  let b := b.setFld (Reg.outStageState n) 24 5 rs'
  let s := if rs' == 0 then osLive else osForced
  let noted := (fresh && rs' == 0) || rs' != rs || s != b.sgState n
  let b := b.setSg n s
  let b := if fresh && rs' == 0 then (b.count48 Reg.outCommits).blkCount 0x25 else b
  let b := b.applyStage n noted
  let b := if noted then b.outputRec n (fresh && rs' == 0) else b
  let b := if rs.testBit frStale then b.endStaleTrip n else b
  if fresh && (u8 (b.sgDesc n) 27).testBit 3 then b.planRec n else b

/-- A value applied between the ends of a ramp: no fresh write, no count (05 R123). -/
def Block.rampWrite (b : Block) (n : Nat) (v : Word) : Block :=
  let b := b.putSg n { b.sg n with plan := b.holdPlan n v, start := b.now }
  b.applyStage n

/-- Refresh the DIRECT bit of a stage's register (07 R187). -/
def Block.showDirect (b : Block) (n : Nat) : Block := b.setFld (Reg.outStageState n) 4 1 (b2n (b.direct n))

/-- A plan expires with no fresh write: the stale policy (07 R178). Under TRIP the stage is FORCED with reason STALE; the source it
asserts is answered for the trip network. -/
def Block.expirePlan (b : Block) (n : Nat) : Block :=
  let b := b.raise (Reg.outStageFlags n) 2 (sidStage n)
  let b := b.raisePost Reg.outFlags 0 (sidStage n)
  if field (u8 (b.sgDesc n) 27) 0 2 = 2 then b.forceStage n frStale
  else ((b.setSg n osStale).applyStage n true).outputRec n false

/-- The stages of a thread (07 R168). -/
def Block.stagesOf (b : Block) (t : Nat) : List Nat :=
  ((entsOf b.cfg tStage).filter fun p => u16 p.2 24 == t && u8 p.2 3 != 0xFF).map (·.1)

/-- The stages of an output group (07 R180). -/
def Block.groupStages (b : Block) (g : Nat) : List Nat :=
  ((entsOf b.cfg tStage).filter fun p => u8 p.2 26 == g && u8 p.2 3 != 0xFF).map (·.1)

end Sys2Proof.Machine
end

