-- ==== Sys2Proof/Machine/Takes.lean ====
section
/-! DEFINITION. Machine/Takes.lean: takes and their triggers (14 R334–R344) as shared operations. -/

namespace Sys2Proof.Machine

/-- Take states (R336). -/
def tkIdle : Nat := 0
def tkQueued : Nat := 1
def tkArmed : Nat := 2
def tkTriggered : Nat := 3
def tkHandoff : Nat := 4

def sidFch (n : Nat) : Nat := 0x300000 + n
def sidTake (k : Nat) : Nat := 0x301000 + k
def Block.fch (b : Block) (n : Nat) : FchSt := tget {} b.fchs n
def Block.putFch (b : Block) (n : Nat) (f : FchSt) : Block := { b with fchs := tput b.fchs n f }
def Block.take (b : Block) (k : Nat) : TakeSt := tget {} b.takes k
def Block.putTake (b : Block) (k : Nat) (t : TakeSt) : Block := { b with takes := tput b.takes k t }
def Block.takeState (b : Block) (k : Nat) : Nat := b.fld (Reg.acqTakeState k) 0 3
def Block.setTake (b : Block) (k s : Nat) : Block := b.setFld (Reg.acqTakeState k) 0 3 s
/-- The descriptor in force (R334, R347). -/
def Block.takeDesc (b : Block) (k : Nat) : List Byte :=
  ((List.range 8).map fun i => leBytes 4 (b.rdN (Reg.acqTakeDesc k i))).flatten
def tdChannel (d : List Byte) : Nat := u8 d 0 % 8
def tdFlag (d : List Byte) (i : Nat) : Bool := (u8 d 1).testBit i
def tdLength (d : List Byte) : Nat := u32 d 20
def tdPost (d : List Byte) : Nat := u32 d 24

/-- Does a descriptor break the field ranges of R334? -/
def takeBad (d : List Byte) : Bool :=
  decide (7 < u8 d 0) || decide (15 < u8 d 1) || decide (7 < u8 d 2) || decide (6 < u8 d 3) || u32 d 16 % 32 != 0 ||
    decide (tdLength d < 32) || decide (1048576 < tdLength d) || tdPost d == 0 || decide (2 < u8 d 28) || u8 d 29 != 0 ||
    (u8 d 28 != 0 && u16 d 30 == 0) || (u8 d 2 == 5 && decide (63 < u16 d 6)) || (u8 d 2 == 7 && decide (7 < u16 d 6)) ||
    (!([3, 5, 7].contains (u8 d 2)) && u16 d 6 != 0) || (u8 d 2 != 6 && u64 d 8 != 0)

/-- Samples in the share of a channel: 64 KiB units of 2-byte samples. -/
def Block.shareSamples (b : Block) (ch : Nat) : Nat := b.fld (Reg.acqChShare ch) 16 8 * 32768

/-- The LIMIT refusals of R335. -/
def Block.takeLimit (b : Block) (d : List Byte) : Option Refuse :=
  if tdLength d < tdPost d then some { status := stLimit, reason := 0x01 }
  else if b.shareSamples (tdChannel d) < u32 d 16 + tdLength d then some { status := stLimit, reason := 0x02 }
  else none

/-- Refresh `ACQ.CH[n].QUEUE`. -/
def Block.showQueue (b : Block) (n : Nat) : Block :=
  let f := b.fch n
  b.wrN (Reg.acqChQueue n) (match f.queue with
    | k :: _ => k + 4096 + 65536 * (f.queue.length + f.handing.length)
    | [] => 65536 * f.handing.length)

/-- Is the channel in hold-off (R340)? -/
def Block.inHoldoff (b : Block) (n : Nat) : Bool :=
  let f := b.fch n
  (match f.holdTo with | some t => decide (b.now < t) | none => false) || decide (0 < f.holdEvents)

/-- Show HOLDOFF on the takes of a channel (R347). -/
def Block.showHold (b : Block) (n : Nat) : Block :=
  let f := b.fch n
  (f.queue ++ f.handing).foldl (fun (b : Block) k => b.setFld (Reg.acqTakeState k) 5 1 (b2n (b.inHoldoff n))) b

/-- The head of a channel's queue becomes ARMED and writes its segment afresh (R337); a TIME that has passed already will fire
late (R338). -/
def Block.armHead (b : Block) (n : Nat) : Block :=
  match (b.fch n).queue with
  | k :: _ =>
    if b.takeState k != tkQueued then b else
    let d := b.takeDesc k
    let b := b.putTake k { lateArm := u8 d 2 == 6 && decide (u64 d 8 < b.now) }
    (b.setTake k tkArmed).setFld (Reg.acqTakeState k) 4 1 (b2n (tdLength d ≤ tdPost d))
  | [] => b

/-- Put a take at the tail of its channel's queue. -/
def Block.enqueueTake (b : Block) (k : Nat) : Block :=
  let n := tdChannel (b.takeDesc k)
  let b := b.putFch n { b.fch n with queue := (b.fch n).queue ++ [k] }
  let b := (b.setTake k tkQueued).setFld (Reg.acqTakeState k) 3 1 0
  (b.armHead n).showQueue n |>.showHold n

/-- Why an arm is refused (R335, R337). -/
def Block.armRefusal (b : Block) (k : Nat) : Option Refuse :=
  if b.takeState k != tkIdle then none else
  let d := b.takeDesc k
  let n := tdChannel d
  let f := b.fch n
  let overlap := (List.range 4096).any fun j =>
    j != k && (f.queue.contains j || f.handing.contains j) &&
      (let e := b.takeDesc j
       decide (u32 e 16 < u32 d 16 + tdLength d) && decide (u32 d 16 < u32 e 16 + tdLength e))
  firstRefusal [deny (takeBad d) stBadRef,
    deny (!b.bit (Reg.acqChCfg n) 16) stConflict 0x01 (b.takeState k),
    deny overlap stConflict 0x02 (b.takeState k),
    deny (decide (16 ≤ f.queue.length + f.handing.length)) stNoSpace,
    b.takeLimit d]

/-- An accepted arm (R337). -/
def Block.armTake (b : Block) (k : Nat) : Block :=
  if b.takeState k = tkIdle then b.enqueueTake k
  else if b.takeState k = tkHandoff then
    (b.putTake k { b.take k with noRearm := false }).setFld (Reg.acqTakeState k) 3 1 1
  else b

/-! ### Triggers (R338–R340) -/

/-- A missed trigger event (R340). -/
def Block.missTrigger (b : Block) (n instant : Nat) : Block :=
  let f := b.fch n
  let b := b.putFch n { f with missed := f.missed + 1, firstMissed := if f.missed = 0 then instant else f.firstMissed,
                               holdEvents := f.holdEvents - 1 }
  ((b.count (Reg.acqChMissed n)).raise Reg.acqFlags 2 (sidFch n)).showHold n

/-- A trigger event of kind `kind` reaches a channel. -/
def Block.trigger1 (b : Block) (n kind instant : Nat) (late : Bool) : Block × Bool :=
  match (b.fch n).queue with
  | [] => (b, false)
  | k :: _ =>
    let s := b.takeState k
    let d := b.takeDesc k
    if b.inHoldoff n || s == tkTriggered then (b.missTrigger n instant, false)
    else if s != tkArmed then (b, false)
    else
      let t := b.take k
      let need := tdLength d - tdPost d
      let short := decide (t.written < need)
      if short && tdFlag d 0 then ((b.count (Reg.acqChEarlyIgnored n)).raise Reg.acqFlags 3 (sidFch n), false)
      else
        let b := b.putTake k { t with instant := instant, kind := kind, late := late, short := short }
        let b := b.setTake k tkTriggered
        let b := b.wr64 (Reg.acqChLastTrigger n) instant
        let b := if late then b.raise Reg.acqFlags 5 (sidTake k) else b
        let f := b.fch n
        let hk := u8 d 28
        let b := b.putFch n { f with holdTo := if hk = 1 then some (instant + 1000 * u16 d 30) else none,
                                     holdEvents := if hk = 2 then u16 d 30 else 0 }
        (b.showHold n, true)

/-- A trigger event, and the LINK takes that fire with it (R338). -/
def Block.takeTrigger (b : Block) (n kind instant : Nat) (late : Bool := false) : Block :=
  let r := b.trigger1 n kind instant late
  if !r.2 || kind = 7 then r.1 else
  (List.range 8).foldl (fun (b : Block) m =>
    match (b.fch m).queue with
    | k :: _ => let d := b.takeDesc k
                if u8 d 2 = 7 ∧ u16 d 6 = n ∧ m ≠ n then (b.trigger1 m 7 instant false).1 else b
    | [] => b) r.1

/-- A trip source asserts: it triggers the takes of kind TRIP_SOURCE that name it. -/
def Block.tripTriggers (b : Block) (s instant : Nat) : Block :=
  (List.range 8).foldl (fun (b : Block) m =>
    match (b.fch m).queue with
    | k :: _ => let d := b.takeDesc k
                if u8 d 2 = 5 ∧ u16 d 6 = s then b.takeTrigger m 5 instant else b
    | [] => b) b

/-- A take is complete (R337, R339–R341, R344): handed off, or held with its SID completing; the next take is armed. -/
def Block.completeTake (b : Block) (k : Nat) : Block :=
  let d := b.takeDesc k
  let n := tdChannel d
  let f := b.fch n
  let b := b.putTake k { b.take k with missed := f.missed, firstMissed := f.firstMissed, started := false }
  let b := b.putFch n { f with missed := 0, firstMissed := 0, queue := f.queue.filter (· != k) }
  let b := b.count (Reg.acqTakeSerial k)
  let b := b.wr64 (Reg.acqTakeLastTrigger k) (b.take k).instant
  let b := if (b.take k).trunc then b.raise Reg.acqFlags 4 (sidTake k) else b
  let b := if tdFlag d 2 then
      (b.putFch n { b.fch n with handing := (b.fch n).handing ++ [k] }).setTake k tkHandoff
    else
      let b := (b.setTake k tkIdle).count48 Reg.acqTakesDone
      let b := b.arrive (sidTake k) (BitVec.ofNat 64 (b.take k).instant)
      if tdFlag d 1 && !(b.take k).noRearm then b.enqueueTake k else b
  (b.armHead n).showQueue n |>.showHold n

/-- A disarm (R341). -/
def Block.disarmTake (b : Block) (k : Nat) : Block :=
  let s := b.takeState k
  let n := tdChannel (b.takeDesc k)
  if s = tkQueued ∨ s = tkArmed then
    let b := b.putFch n { b.fch n with queue := (b.fch n).queue.filter (· != k) }
    let b := (b.putTake k {}).setTake k tkIdle |>.setFld (Reg.acqTakeState k) 4 1 0
    (b.armHead n).showQueue n
  else if s = tkTriggered then (b.putTake k { b.take k with trunc := true, noRearm := true }).completeTake k
  else if s = tkHandoff then (b.putTake k { b.take k with noRearm := true }).setFld (Reg.acqTakeState k) 3 1 0
  else b

end Sys2Proof.Machine
end

