-- ==== Sys2Proof/Machine/Trips.lean ====
section
/-! DEFINITION. Machine/Trips.lean: the trip network (15 R359–R371): sources, firing, forcing, clearing, and the commands and
events of its sources. -/

namespace Sys2Proof.Machine

def sidSource (s : Nat) : Nat := 0x601000 + s
def Block.srcCfg (b : Block) (s : Nat) : Nat := b.rdN (Reg.trpSrcCfg s)
def Block.srcCycle (b : Block) (s : Nat) : Bool := (b.srcCfg s).testBit 2
def Block.srcFilter (b : Block) (s : Nat) : Nat := if s < 16 then field (b.srcCfg s) 12 8 else 0
/-- A source's state code (R371): bit 1 latched, bit 0 active. -/
def Block.srcCode (b : Block) (s : Nat) : Nat := b2n (b.trpBit Reg.trpActive s) + 2 * b2n (b.trpBit Reg.trpLatched s)
/-- The network is armed from t7 (R56). -/
def Block.tripArmed (b : Block) : Bool := decide (7 ≤ b.boot.milestone)

/-- Write a TRIP record (R368). -/
def Block.tripRecord (b : Block) (s kind : Nat) : Block :=
  b.record (sidSource s) 0x40 (leBytes 1 kind ++ leBytes 1 (b2n (b.srcCycle s)) ++ leBytes 2 (b.targetsOf s).length ++
    zeroBytes 4 ++ leBytes 8 (b.trp s).assertAt) true

/-- Force one target (R361): a pair enters TRIPPED, an axis is HALTED, a line and a DAC take their trip values; its stages enter
FORCED with reason TRIP. A pair that was OFF returns to OFF when it is released (log 18). -/
def Block.forceTarget (b : Block) (s : Nat) (p : Nat × Nat) : Block :=
  let (kind, t) := p
  let b := { b with tripForced := tput b.tripForced (tripKey kind t) 1 }
  let b :=
    if kind = tkPair then
      let st := b.prState t
      let x := b.pr t
      let stop := if st = pwOff then 2 else if st = pwRunning ∧ x.stopAt = 1 then 2 else x.stopAt
      let b := b.putPr t { x with restartAt := none, forcedBy := s, waitOn := none, waitOff := none, slowHigh := false, stopAt := stop }
      if st = pwTripped then b else (b.setPrState t pwTripped).count (Reg.pwmPairTrips t)
    else if kind = tkDio then b.dioTrip t
    else if kind = tkAout then b.dacTrip t
    else b.axHalt t
  (b.targetStages kind t).foldl (fun b n => b.forceStage n frTrip) b

/-- A source fires (R361, R364, R365). -/
def Block.fire (b : Block) (s : Nat) (atEnd : Bool := false) : Block :=
  let b := b.putTrp s { b.trp s with blanked := false }
  let b := (b.count (Reg.trpSrcFires s)).wr64 (Reg.trpSrcLast s) b.now
  let b := if b.srcCycle s then b else b.setTrpBit Reg.trpLatched s true
  let b := (b.targetsOf s).foldl (fun b p => b.forceTarget s p) b
  let b := b.tripRecord s (if atEnd then 4 else 1)
  let quiet := b.srcCycle s && (match (b.trp s).lastEvt with | some t => decide (b.now < t + 100000000) | none => false)
  let b := if quiet then b.setFlag Reg.trpFlags 0
    else (b.putTrp s { b.trp s with lastEvt := some b.now }).raisePost Reg.trpFlags 0 (sidSource s)
  if atEnd then b.raise Reg.trpFlags 2 (sidSource s) else b

/-- Is the source blanked now (R364)? -/
def Block.srcBlanked (b : Block) (s : Nat) : Bool :=
  (b.srcCfg s).testBit 3 && b.window (field (b.srcCfg s) 4 7)

/-- A source is asserted: it fires at once, or at the end of the window that blanks it. -/
def Block.assertSrc (b : Block) (s : Nat) : Block :=
  let b := b.tripTriggers s (b.trp s).assertAt
  if !b.tripArmed || !(b.srcCfg s).testBit 0 then b
  else if b.srcBlanked s then b.putTrp s { b.trp s with blanked := true }
  else b.fire s

/-- A source becomes active (R359, R362). -/
def Block.activate (b : Block) (s : Nat) : Block :=
  if b.trpBit Reg.trpActive s then b else
  ((b.setTrpBit Reg.trpActive s true).putTrp s { b.trp s with assertAt := b.now }).assertSrc s

/-- A driver of an unfiltered source becomes active or inactive (R359). -/
def Block.driveSrc (b : Block) (s : Nat) (on : Bool) : Block :=
  let b := b.putTrp s { b.trp s with own := on }
  if on then (b.setTrpBit Reg.trpRaw s true).activate s
  else if b.driven s then b else b.quietSrc s

/-- A stage's stale policy TRIP asserts its source (R178). -/
def Block.staleTrip (b : Block) (n : Nat) : Block :=
  let s := u8 (b.sgDesc n) 30
  if s < 64 ∧ field (u8 (b.sgDesc n) 27) 0 2 = 2 then (b.setTrpBit Reg.trpRaw s true).activate s else b

/-! ### Pins (R362, R516, R517) -/

/-- Is a pin source's driver asserted: the pin's level against POLARITY, or its bank failed? -/
def Block.pinAsserted (b : Block) (s : Nat) : Bool :=
  b.tripBank || ((b.trp s).pin != (b.srcCfg s).testBit 1)

/-- The driver of a pin source follows its pin: RAW at once; activity at once under FILTER 0, else after the filter's count. -/
def Block.pinShow (b : Block) (s : Nat) : Block :=
  let on := b.pinAsserted s
  if b.srcFilter s = 0 then b.driveSrc s on
  else if on != b.trpBit Reg.trpRaw s then (b.setTrpBit Reg.trpRaw s on).putTrp s { b.trp s with since := b.now }
  else b

/-- The pin changes to `level`; a pulse (width other than 0) returns after `width` ns. Under FILTER 0 a pulse of 4 ns or more
takes effect; of a shorter one that is not defined and the choice is free (R516, log 4). -/
def Block.pinEdge (b : Block) (s : Nat) (level : Bool) (width : Nat) : Block :=
  if width = 0 then (b.putTrp s { b.trp s with pin := level }).pinShow s
  else if b.srcFilter s != 0 then b
  else
    let old := (b.trp s).pin
    let back (b : Block) : Block := (b.putTrp s { b.trp s with pin := old }).pinShow s
    if 4 ≤ width then back ((b.putTrp s { b.trp s with pin := level }).pinShow s)
    else
      let d := b.drawBool
      if d.1 then back ((d.2.putTrp s { d.2.trp s with pin := level }).pinShow s) else d.2

/-- A filtered pin has been sampled at its level on FILTER consecutive ticks (R362). -/
def Block.filterCount (b : Block) (s : Nat) (level : Bool) : Block :=
  let k := b.srcFilter s
  if k = 0 || b.trpBit Reg.trpRaw s != level || decide (b.now < (b.trp s).since + 4 * k) then b
  else if level then (b.putTrp s { b.trp s with own := true }).activate s
  else
    let b := b.putTrp s { b.trp s with own := false }
    if b.driven s then b else b.quietSrc s

/-- The bank of the trip pins fails or has recovered (R517): every pin source's driver is active while it is failed. -/
def Block.tripBankSet (b : Block) (bad : Bool) : Block :=
  (List.range 16).foldl (fun (b : Block) s => b.pinShow s) { b with tripBank := bad }

/-- A blanking window ends: a source still active fires (R364). -/
def Block.blankEnd (b : Block) (s : Nat) : Block :=
  if (b.trp s).blanked && b.trpBit Reg.trpActive s && !b.srcBlanked s then b.fire s true else b

/-- Arm the network at t7 (R56): that counts as an assertion, and every enabled source whose driver is active fires. -/
def Block.armTrips (b : Block) : Block :=
  (List.range 64).foldl (fun (b : Block) s =>
    if b.trpBit Reg.trpActive s then (b.putTrp s { b.trp s with assertAt := b.now }).assertSrc s else b) b

/-! ### Events and commands -/

def execTripPinEdge (pin : Fin 16) (level : Bool) (widthNs : Nat) (s : State) : Host.Outcome State Fault Refusal :=
  nextB s fun b => b.pinEdge pin.val level widthNs

def execTripFilterCount (pin : Fin 16) (level : Bool) (s : State) : Host.Outcome State Fault Refusal :=
  nextB s fun b => b.filterCount pin.val level

def execBlankWindowEnd (src : Fin 64) (s : State) : Host.Outcome State Fault Refusal :=
  nextB s fun b => b.blankEnd src.val

/-- 23 R517. -/
def execTripBankFail (s : State) : Host.Outcome State Fault Refusal := nextB s fun b => b.tripBankSet true
/-- 23 R517. -/
def execTripBankRecover (s : State) : Host.Outcome State Fault Refusal := nextB s fun b => b.tripBankSet false

/-- Does a SID name a trip source? -/
def isSource (sid : Nat) : Bool := decide (0x601000 ≤ sid) && decide (sid < 0x601040)

/-- Clear a latched, inactive source (R366): its latch clears and each target that no other source holds is released. -/
def Block.clearSrc (b : Block) (s : Nat) : Block :=
  let b := b.setTrpBit Reg.trpLatched s false
  let b := (b.targetsOf s).foldl (fun (b : Block) p =>
    let (kind, t) := p
    if !b.tripHeld kind t || b.sourcesHold kind t then b
    else if kind = tkPair then
      (if b.prState t = pwTripped then
        (b.putPr t { b.pr t with restartAt := some (b.now + 1000 * b.fld (Reg.pwmPairRestartDelay t) 0 16) }).setPrState t pwRestarting
       else b)
    else b.releaseTarget kind t) b
  b.tripRecord s 2

/-- Refuse a clear while the source is active (R366). -/
def Block.refuseClear (b : Block) (s : Nat) : Block :=
  ((b.count Reg.trpClearsRefused).raise Reg.trpFlags 1 (sidSource s)).tripRecord s 3

/-- R366, R369, R371. -/
def execTrpClear (c : Cmd) (s : State) : Host.Outcome State Fault Refusal :=
  nextB s fun b =>
    let src := cObj c - 0x601000
    let active := b.trpBit Reg.trpLatched src && b.trpBit Reg.trpActive src
    let pre := [authCheck c roleOperator, devCheck b devLive, envCheck c, deny (!isSource (cObj c)) stBadRef,
      deny (!b.trpBit Reg.trpLatched src) stConflict 0x02 (b.srcCode src)]
    let b := if (firstRefusal pre).isNone && active then b.refuseClear src else b
    b.runDone 0x0E10 c (pre ++ [deny active stConflict 0x01 (b.srcCode src)]) fun b => b.clearSrc src

/-- Is a source assigned to a target other than a pair? -/
def Block.nonPairTargets (b : Block) (s : Nat) : Bool := (b.targetsOf s).any fun p => p.1 != tkPair

/-- A new configuration of a source (R369): it may assert the source, and it leaves any latch. -/
def Block.configSrc (b : Block) (s v : Nat) : Block :=
  let was := (b.srcCfg s).testBit 0
  let b := b.wrN (Reg.trpSrcCfg s) (v &&& 0xFF7FF)
  let b := if s < 16 then b.pinShow s else b
  if !was && (b.srcCfg s).testBit 0 && b.trpBit Reg.trpActive s && !b.trpBit Reg.trpLatched s then b.assertSrc s else b

/-- R369. -/
def execTrpConfig (c : Cmd) (s : State) : Host.Outcome State Fault Refusal :=
  nextB s fun b =>
    let src := cObj c - 0x601000
    let v := u32 (cArg c) 0
    b.runDone 0x0E11 c [authCheck c roleMaintainer, devCheck b devLive, envCheck c,
      deny (isSource (cObj c) && decide (16 ≤ src) && decide (src < 48)) stBadArg 0x01,
      deny (isSource (cObj c) && v.testBit 2 && b.nonPairTargets src) stBadArg 0x03,
      deny (decide (95 < field v 4 7)) stBadArg,
      deny (!isSource (cObj c)) stBadRef] fun b => b.configSrc src v

/-- R369. -/
def execTrpAssert (c : Cmd) (s : State) : Host.Outcome State Fault Refusal :=
  nextB s fun b =>
    let src := cObj c - 0x601000
    b.runDone 0x0E12 c [authCheck c roleOperator, devCheck b devLive, envCheck c,
      deny (!isSource (cObj c) || decide (src < 48)) stBadArg 0x02] fun b => b.driveSrc src ((u8 (cArg c) 0).testBit 0)

end Sys2Proof.Machine
end

