-- ==== Sys2Proof/Machine/Acquisition.lean ====
section
/-! DEFINITION. Machine/Acquisition.lean: fast channels, comparators and the commands and events of takes (14). -/

namespace Sys2Proof.Machine

/-! ### Samples and blocks (R328, R329, R342) -/

/-- A fast-channel code clamped to 14 bits (R328). -/
def fchClamp (x : Int) : Int := clampInt (-8192) 8191 x

/-- A stored sample: the mean of the codes of its interval × 4, to nearest even, saturating at 16 bits (R342). -/
def storedSample (codes : List Int) : Int :=
  let cs := codes.map fchClamp
  clampInt (-32768) 32767 (rneInt (((4 * cs.sum : Int) : Rat) / ((cs.length : Nat) : Rat)))

/-- Byte address in acquisition memory of sample position `i` of a take's segment (R344). -/
def Block.segAddr (b : Block) (d : List Byte) (i : Nat) : Nat :=
  2 * (b.fld (Reg.acqChShare (tdChannel d)) 0 7 * 32768 + u32 d 16 + i)

/-- Write a stored sample into the take that is ARMED or TRIGGERED (R339); a take whose POST samples are in takes no more. -/
def Block.takeSample (b : Block) (k : Nat) (v : Int) (ovr : Bool) : Block :=
  let d := b.takeDesc k
  let t := b.take k
  let s := b.takeState k
  if s != tkArmed && (s != tkTriggered || decide (tdPost d ≤ t.post.length)) then b else
  let b := { b with acqMem := mwrite b.acqMem (b.segAddr d (t.written % tdLength d)) (leBytes 2 (ofSigned 16 v)) }
  if s = tkArmed then
    let need := tdLength d - tdPost d
    let pre := t.pre ++ [v]
    let ovrs := if ovr then t.ovrs ++ [t.written] else t.ovrs
    let b := b.putTake k { t with written := t.written + 1, pre := pre.drop (pre.length - need), ovrs := ovrs }
    b.setFld (Reg.acqTakeState k) 4 1 (b2n (need ≤ t.written + 1))
  else
    let ovrs := if ovr then t.ovrs ++ [t.written] else t.ovrs
    b.putTake k { t with written := t.written + 1, post := t.post ++ [v], ovrs := ovrs,
                         trigTime := if t.post.isEmpty then b.now else t.trigTime }

/-- Does a stored sample fire the take's own sample trigger (R338)? -/
def sampleFires (d : List Byte) (last : Option Int) (v : Int) : Bool :=
  let lv := s16 d 4
  let l2 := s16 d 6
  match u8 d 2 with
  | 1 => (match last with | some p => decide (lv ≤ v) && decide (p < lv) | none => false)
  | 2 => (match last with | some p => decide (v < lv) && decide (lv ≤ p) | none => false)
  | 3 => decide (v < lv) || decide (l2 < v)
  | _ => false

/-- For events that count once per assertion (R340): did the sample before fire too? -/
def firedBefore (d : List Byte) (last : Option Int) : Bool :=
  match last with
  | some p => u8 d 2 == 3 && (decide (p < s16 d 4) || decide (s16 d 6 < p))
  | none => false

/-- R338: a stored sample: the trigger tests, then the ring or the post-trigger part. `codes` are the conversions of its interval
before they clamp. -/
def execFastStoredSample (ch : Fin 8) (codes : List Int) (s : State) : Host.Outcome State Fault Refusal :=
  nextB s fun b =>
    let n := ch.val
    if !b.bit (Reg.acqChCfg n) 16 || codes.isEmpty then b else
    let bad := codes.filter fun x => decide (x < -8192) || decide (8191 < x)
    let ovr := !bad.isEmpty
    let v := storedSample codes
    let f := b.fch n
    let b := b.putFch n { f with block := f.block ++ codes.map fchClamp, blockOvr := f.blockOvr || ovr, last := some v }
    let b := if ovr then (b.count (Reg.acqChOvrSamples n) bad.length).raise Reg.acqFlags 0 (sidFch n) else b
    let b := b.setFld (Reg.acqChCfg n) 17 1 (b2n (match codes.getLast? with | some x => decide (x < -8192) || decide (8191 < x) | none => false))
    match f.queue with
    | k :: _ =>
      let d := b.takeDesc k
      let b := if sampleFires d f.last v && (b.takeState k == tkArmed || !firedBefore d f.last) then b.takeTrigger n (u8 d 2) b.now else b
      let b := if b.takeState k = tkArmed ∧ (b.take k).lateArm then b.takeTrigger n 6 b.now true else b
      b.takeSample k v ovr
    | [] => b

/-- Every N-th sample from the first (11 R279). -/
def everyNth (n : Nat) : Nat → List Int → List Int
  | _, [] => []
  | 0, x :: r => x :: everyNth n (n - 1) r
  | i + 1, _ :: r => everyNth n i r

/-- R329: BLOCK samples are in: the block is recorded and the channel completes. -/
def execFastBlockClose (ch : Fin 8) (s : State) : Host.Outcome State Fault Refusal :=
  nextB s fun b =>
    let n := ch.val
    let sid := sidFch n
    let f := b.fch n
    let blk := b.fld (Reg.acqChCfg n) 0 10
    if !b.bit (Reg.acqChCfg n) 16 || blk = 0 || decide (f.block.length < blk) then b else
    let xs := f.block.take blk
    let b := b.putFch n { f with block := f.block.drop blk, blockOvr := false, blockCmp := false }
    let ft := b.out.filterOf b.ctx sid
    let dec := if ft.kind = 2 then max 1 ft.n else 1
    let ys := everyNth dec 0 xs
    let pl := leBytes 2 ys.length ++ leBytes 2 dec ++ leBytes 1 (b2n f.blockOvr + 2 * b2n f.blockCmp) ++ zeroBytes 3 ++
      (ys.map fun y => leBytes 2 (ofSigned 16 y)).flatten
    -- EVERY_N thins the samples within the block, so the block itself passes (11 R279)
    let b := if b.absent sid then b
      else b.recordAt (b.now - 5 * (blk - 1)) sid 0x03 pl (f.blockOvr || f.blockCmp || ft.kind == 2) none
    b.arrive sid (BitVec.ofInt 64 (xs.getLast?.getD 0)) 0

/-! ### Comparators (R331–R333) -/

/-- R332: an output asserts. -/
def execFchComparatorAssert (ch : Fin 8) (s : State) : Host.Outcome State Fault Refusal :=
  nextB s fun b =>
    let n := ch.val
    if !b.bit (Reg.acqChCmp n) 0 || b.bit (Reg.acqChCmp n) 15 then b else
    let b := (b.setFld (Reg.acqChCmp n) 15 1 1).setFld Reg.acqState (8 + n) 1 1
    let b := (b.count (Reg.acqChCmpFires n)).raise Reg.acqFlags 1 (sidFch n)
    let b := b.putFch n { b.fch n with blockCmp := true }
    let b := b.driveSrc (16 + n) true
    match (b.fch n).queue with
    | k :: _ => if u8 (b.takeDesc k) 2 = 4 then b.takeTrigger n 4 b.now else b
    | [] => b

/-- The output of a comparator is no longer asserted. -/
def Block.cmpRelease (b : Block) (n : Nat) : Block :=
  ((b.setFld (Reg.acqChCmp n) 15 1 0).setFld Reg.acqState (8 + n) 1 0).driveSrc (16 + n) false

/-- R331. -/
def execFchComparatorRelease (ch : Fin 8) (s : State) : Host.Outcome State Fault Refusal :=
  nextB s fun b => if b.bit (Reg.acqChCmp ch.val) 15 then b.cmpRelease ch.val else b

/-! ### Takes: events -/

/-- R338: the timebase reaches TIME. -/
def execTimeTrigger (ch : Fin 8) (s : State) : Host.Outcome State Fault Refusal :=
  nextB s fun b =>
    let n := ch.val
    match (b.fch n).queue with
    | k :: _ =>
      let d := b.takeDesc k
      if u8 d 2 = 6 ∧ u64 d 8 ≤ b.now ∧ (b.take k).lateArm = false then b.takeTrigger n 6 (u64 d 8) else b
    | [] => b

/-- R337, R339: POST samples are in. -/
def execTakeComplete (ch : Fin 8) (s : State) : Host.Outcome State Fault Refusal :=
  nextB s fun b =>
    match (b.fch ch.val).queue with
    | k :: _ =>
      if b.takeState k = tkTriggered ∧ tdPost (b.takeDesc k) ≤ (b.take k).post.length then b.completeTake k else b
    | [] => b

/-- Samples of a take, oldest first. -/
def TakeSt.samples (t : TakeSt) : List Int := t.pre ++ t.post

/-- The 64-byte take header (R343). -/
def Block.takeHeader (b : Block) (k : Nat) : List Byte :=
  let d := b.takeDesc k
  let t := b.take k
  let xs := t.samples
  let m := u8 d 3
  let step := 5 * 2 ^ m
  -- a sample's place counts from the oldest kept
  let first := t.written - xs.length
  let ovrs := (t.ovrs.filter fun i => decide (first ≤ i)).map fun i => i - first
  let t0 := if t.post.isEmpty then 0 else t.trigTime - t.pre.length * step
  leBytes 2 k ++ leBytes 1 (tdChannel d) ++ leBytes 1 m ++ leBytes 1 t.kind ++
    leBytes 1 (b2n t.short + 2 * b2n (!ovrs.isEmpty) + 4 * b2n t.trunc + 8 * b2n t.late) ++ leBytes 2 ((xs.length + 999) / 1000) ++
    leBytes 8 t.instant ++ leBytes 8 t0 ++ leBytes 4 t.pre.length ++ leBytes 4 t.post.length ++
    leBytes 4 (b.rdN (Reg.acqTakeSerial k)) ++ leBytes 4 t.missed ++ leBytes 8 t.firstMissed ++ leBytes 4 ovrs.length ++
    leBytes 4 (ovrs.headD 0xFFFFFFFF) ++ leBytes 4 (crc32 (xs.map fun x => leBytes 2 (ofSigned 16 x)).flatten) ++ zeroBytes 4

/-- R343, R344: part 0 with the header, then parts of up to 1,000 samples. -/
def execHandoffStart (take : Fin 4096) (s : State) : Host.Outcome State Fault Refusal :=
  nextB s fun b =>
    let k := take.val
    let t := b.take k
    if b.takeState k != tkHandoff || t.started then b else
    let b := b.putTake k { t with started := true }
    let b := b.record (sidTake k) 0x04 (b.takeHeader k)
    (List.range ((t.samples.length + 999) / 1000)).foldl (fun (b : Block) i =>
      let xs := (t.samples.drop (1000 * i)).take 1000
      b.record (sidTake k) 0x04 (leBytes 4 (1000 * i) ++ leBytes 2 xs.length ++ leBytes 2 (i + 1) ++
        (xs.map fun x => leBytes 2 (ofSigned 16 x)).flatten)) b

/-- R344: the hand-off ends; the SID completes and a take that is to be armed again joins the queue's tail (R337, R341). -/
def execHandoffEnd (take : Fin 4096) (s : State) : Host.Outcome State Fault Refusal :=
  nextB s fun b =>
    let k := take.val
    let t := b.take k
    if b.takeState k != tkHandoff || !t.started then b else
    let n := tdChannel (b.takeDesc k)
    let b := b.putFch n { b.fch n with handing := (b.fch n).handing.filter (· != k) }
    let b := (b.setTake k tkIdle).count48 Reg.acqTakesDone
    let b := b.arrive (sidTake k) (BitVec.ofNat 64 t.instant)
    let again := b.bit (Reg.acqTakeState k) 3 || (tdFlag (b.takeDesc k) 1 && !t.noRearm)
    if again then b.enqueueTake k else b.showQueue n

/-- R340: a TIME hold-off ends. -/
def execHoldoffEnd (ch : Fin 8) (s : State) : Host.Outcome State Fault Refusal :=
  nextB s fun b =>
    let n := ch.val
    match (b.fch n).holdTo with
    | some t => if t ≤ b.now then (b.putFch n { b.fch n with holdTo := none }).showHold n else b
    | none => b

/-! ### Commands (R345, R346) -/

def isTake (sid : Nat) : Bool := decide (0x301000 ≤ sid) && decide (sid < 0x302000)
def isFch (sid : Nat) : Bool := decide (0x300000 ≤ sid) && decide (sid < 0x300008)

/-- Checks that the ACQ commands share. -/
def Block.acqPre (b : Block) (c : Cmd) (role : Nat) : List (Option Refuse) := [authCheck c role, devCheck b devLive, envCheck c]

/-- Put a descriptor in force. -/
def Block.setTakeDesc (b : Block) (k : Nat) (d : List Byte) : Block :=
  let b := (List.range 8).foldl (fun (b : Block) i => b.wr (Reg.acqTakeDesc k i) (w32 d (4 * i))) b
  b.setFld (Reg.acqTakeState k) 8 3 (tdChannel d)

/-- R334, R335, R345, R346. -/
def execAcqTake (c : Cmd) (s : State) : Host.Outcome State Fault Refusal :=
  nextB s fun b =>
    let k := cObj c - 0x301000
    let d := padTo 32 (cArg c)
    b.runDone 0x0D01 c (b.acqPre c roleOperator ++ [deny (takeBad d) stBadArg, deny (!isTake (cObj c)) stBadRef,
      deny (b.takeState k != tkIdle) stConflict 0 (b.takeState k), b.takeLimit d]) fun b => b.setTakeDesc k d

/-- The refusals of an arm or disarm, for the command and the ARM action (R335, R337, R345). -/
def Block.armRefusals (b : Block) (sid : Nat) (arm : Bool) : List (Option Refuse) :=
  [deny (!isTake sid) stBadRef, (if arm then b.armRefusal (sid - 0x301000) else deny (takeBad (b.takeDesc (sid - 0x301000))) stBadRef)]

/-- Arm or disarm. -/
def Block.armRun (b : Block) (sid : Nat) (arm : Bool) : Block :=
  if arm then b.armTake (sid - 0x301000) else b.disarmTake (sid - 0x301000)

/-- R337, R341, R345, R346. -/
def execAcqArm (c : Cmd) (s : State) : Host.Outcome State Fault Refusal :=
  nextB s fun b =>
    let arm := (u8 (cArg c) 0).testBit 0
    b.runDone 0x0D02 c (b.acqPre c roleOperator ++ b.armRefusals (cObj c) arm) fun b => b.armRun (cObj c) arm

/-- R338, R345: fires the channel's ARMED take whatever its kind. -/
def execAcqTrigger (c : Cmd) (s : State) : Host.Outcome State Fault Refusal :=
  nextB s fun b =>
    let n := cObj c - 0x300000
    b.run 0x0D03 c (b.acqPre c roleOperator ++ [deny (!isFch (cObj c)) stBadRef]) fun b =>
      match (b.fch n).queue with
      | k :: _ =>
        if b.takeState k = tkTriggered ∨ b.inHoldoff n then (b.missTrigger n b.now, stAbandoned, 0x0B, [])
        else if b.takeState k = tkArmed then (b.takeTrigger n 0 b.now, stDone, 0, [])
        else (b, stAbandoned, 0x0A, [])
      | [] => (b, stAbandoned, 0x0A, [])

/-- A comparator's settings in force (R331, R333): disabling one deasserts its source. -/
def Block.cmpApply (b : Block) (n : Nat) (a : List Byte) : Block :=
  let b := b.wrN (Reg.acqChCmp n) ((b.rdN (Reg.acqChCmp n) &&& 0x8000) + u8 a 0 % 2 + 256 * (u8 a 1 % 16) + 4096 * field (u8 a 0) 1 2)
  let b := b.wrN (Reg.acqChCmpLimits n) (u16 a 4 % 1024 + 65536 * (u16 a 2 % 1024))
  if !(u8 a 0).testBit 0 && b.bit (Reg.acqChCmp n) 15 then b.cmpRelease n else b

/-- R331, R333, R345. -/
def execAcqCompare (c : Cmd) (s : State) : Host.Outcome State Fault Refusal :=
  nextB s fun b =>
    let a := cArg c
    let off (x : Int) := decide (x < -512) || decide (511 < x)
    b.runDone 0x0D04 c (b.acqPre c roleMaintainer ++ [deny (field (u8 a 0) 1 2 == 3 || decide (15 < u8 a 1) || off (s16 a 2) ||
      off (s16 a 4) || decide (s16 a 2 < s16 a 4)) stBadArg, deny (!isFch (cObj c)) stBadRef]) fun b =>
      b.cmpApply (cObj c - 0x300000) a

/-- A channel's settings in force (R329). -/
def Block.fchApply (b : Block) (n : Nat) (a : List Byte) : Block :=
  let en := (u8 a 0).testBit 0
  let b := (b.setFld (Reg.acqChCfg n) 0 10 (u16 a 2)).setFld (Reg.acqChCfg n) 16 1 (b2n en)
  let b := b.setFld Reg.acqState n 1 (b2n en)
  if en then b else b.putFch n { b.fch n with block := [], blockOvr := false, blockCmp := false, last := none }

/-- R329, R345. -/
def execAcqChannel (c : Cmd) (s : State) : Host.Outcome State Fault Refusal :=
  nextB s fun b =>
    let a := cArg c
    let n := cObj c - 0x300000
    let f := b.fch n
    b.runDone 0x0D05 c (b.acqPre c roleOperator ++ [deny (u16 a 2 == 0 || decide (1000 < u16 a 2)) stBadArg,
      deny (!isFch (cObj c)) stBadRef,
      deny (!(u8 a 0).testBit 0 && !(f.queue.isEmpty && f.handing.isEmpty)) stConflict 0x03 b.dev]) fun b => b.fchApply n a

/-! ### Loading and entry to OPERATIONAL -/

/-- What the image gives the block at t7 (R332, R334, R347): channel entries hold the arguments of `ACQ.CHANNEL` in bytes 0–3 and
of `ACQ.COMPARE` in bytes 8–13, shares SIZE and BASE (log 8). -/
def Block.acqInit (b : Block) : Block :=
  let b := (entsOf b.cfg tShare).foldl (fun (b : Block) p => b.wrN (Reg.acqChShare p.1) (u8 p.2 1 % 128 + 65536 * u8 p.2 0)) b
  let b := (entsOf b.cfg tTake).foldl (fun (b : Block) p => b.setTakeDesc p.1 (padTo 32 p.2)) b
  (entsOf b.cfg tFast).foldl (fun (b : Block) p => (b.fchApply p.1 p.2).cmpApply p.1 (p.2.drop 8)) b

/-- Takes with ARM_AT_START are armed in take-number order on entry to OPERATIONAL (R344). -/
def Block.acqStart (b : Block) : Block :=
  (entsOf b.cfg tTake).foldl (fun (b : Block) p =>
    if (u8 p.2 1).testBit 3 && (b.armRefusal p.1).isNone then b.armTake p.1 else b) b

end Sys2Proof.Machine
end

