-- ==== Sys2Proof/Machine/Analog.lean ====
section
/-! DEFINITION. Machine/Analog.lean: SAR converters, bridge channels, windows and sealed calibration (13). -/

namespace Sys2Proof.Machine

/-- Converter states (R327). -/
def cvStopped : Nat := 0
def cvScanning : Nat := 1
def cvUrgent : Nat := 2
def cvDischarge : Nat := 3

def sidAin (n : Nat) : Nat := 0x100000 + n
def sidBrg (n : Nat) : Nat := 0x200000 + n
def Block.conv (b : Block) (c : Nat) : ConvSt := tget {} b.convs c
def Block.putConv (b : Block) (c : Nat) (x : ConvSt) : Block := { b with convs := tput b.convs c x }
def Block.convState (b : Block) (c : Nat) : Nat := b.fld (Reg.anaConvState c) 0 2
/-- Set a converter's state and its bit of `ANA.STATE.CONV_ACTIVE`. -/
def Block.setConv (b : Block) (c s : Nat) : Block :=
  (b.setFld (Reg.anaConvState c) 0 2 s).setFld Reg.anaState c 1 (b2n (s != cvStopped))
/-- Inputs of a converter that are scanned, in ascending number (R309). -/
def Block.scanList (b : Block) (c : Nat) : List Nat := (List.range 16).filter fun i => b.bit (Reg.anaConvState c) (16 + i)
/-- Refresh URGENT_PENDING. -/
def Block.showUrgent (b : Block) (c : Nat) : Block := b.setFld (Reg.anaConvState c) 8 3 (b.conv c).urgent.length

/-- Bits 31:16 of the flags word of a sealed channel's record (R318). -/
def Block.calBits (b : Block) (sid : Nat) : Nat := if isSealed b.cfg sid then b.cal.count % 65536 else 0

/-- Do the tag flags pass every filter but BLOCK (11 R279)? OVR_HI, OVR_LO, SETTLE, LOST. -/
def tagPass (tags : Nat) : Bool := tags % 16 != 0

/-! ### Windows (R322, R323) -/

/-- A result reaches the windows that watch its input. -/
def Block.windowResult (b : Block) (ain : Nat) (code : Int) (tags : Nat) : Block :=
  if tags.testBit 2 then b else
  (List.range 16).foldl (fun (b : Block) w =>
    let cfg := b.rdN (Reg.anaWinCfg w)
    if !(cfg.testBit 12) || field cfg 0 7 != ain then b else
    let lo := toSigned 16 (b.fld (Reg.anaWinLimits w) 0 16)
    let hi := toSigned 16 (b.fld (Reg.anaWinLimits w) 16 16)
    let out := tags.testBit 0 || tags.testBit 1 || decide (code < lo) || decide (hi < code)
    let hit := if cfg.testBit 13 then !out else out
    if hit then
      let k := tget 0 b.winCount w + 1
      let b := { b with winCount := tput b.winCount w (satNat 15 k) }
      if cfg.testBit 15 || decide (k < field cfg 8 4) then b
      else
        let b := (b.setFld (Reg.anaWinCfg w) 15 1 1).count (Reg.anaWinFires w)
        let b := b.raisePost Reg.anaFlags 4 (sidAin ain)
        if cfg.testBit 14 then b.driveSrc (24 + w) true else b
    else
      let b := { b with winCount := tput b.winCount w 0 }
      if cfg.testBit 15 then (b.setFld (Reg.anaWinCfg w) 15 1 0).driveSrc (24 + w) false else b) b

/-! ### Scans (R309, R312–R314) -/

/-- The next scan starts: configuration changes take effect (R309). -/
def Block.scanStart (b : Block) (c : Nat) : Block :=
  let x := b.conv c
  let b := x.pend.foldl (fun (b : Block) p =>
    let n := 16 * c + p.1
    let old := b.rdN (Reg.anaChCfg n)
    let b := b.wrN (Reg.anaChCfg n) ((old &&& 0x10) + p.2 % 16)
    let b := b.setFld (Reg.anaConvState c) (16 + p.1) 1 (field p.2 2 1)
    if old % 4 != p.2 % 4 then b.putConv c { b.conv c with ranged := (b.conv c).ranged ++ [p.1] } else b) b
  let b := b.putConv c { b.conv c with pend := [], scanAt := b.now }
  match b.scanList c with
  | i :: _ => (b.putConv c { b.conv c with cur := i }).setConv c cvScanning
  | [] => b.setConv c cvStopped

/-- What the converter does next (R312–R314): a discharge slot, an urgent conversion, or the scan. -/
def Block.convNext (b : Block) (c : Nat) : Block :=
  let x := b.conv c
  if 0 < x.slots then (b.count (Reg.anaConvDischarges c)).setConv c cvDischarge
  else if !x.urgent.isEmpty then b.setConv c cvUrgent
  else if (b.scanList c).isEmpty then b.scanStart c
  else b.setConv c cvScanning

/-- The scan moves on from the entry just converted. -/
def Block.scanAdvance (b : Block) (c : Nat) : Block :=
  let x := b.conv c
  match (b.scanList c).filter (fun i => decide (x.cur < i)) with
  | i :: _ => b.putConv c { x with cur := i }
  | [] => (b.wrN (Reg.anaConvScanNs c) (satNat 0xFFFFFFFF (b.now - x.scanAt))).scanStart c

/-- Refresh the head registers of a queue (R327). -/
def Block.showConvQueue (b : Block) (c : Nat) : Block :=
  match (b.conv c).queue with
  | (t, n, tags, code) :: _ =>
    ((b.wr64 (Reg.anaConvQHeadTime c) t).wrN (Reg.anaConvQHeadData c) (65536 * tags + code)).wrN (Reg.anaConvQInfo c)
      ((b.conv c).queue.length + 65536 * n)
  | [] => ((b.wr64 (Reg.anaConvQHeadTime c) 0).wrN (Reg.anaConvQHeadData c) 0).wrN (Reg.anaConvQInfo c) 0

/-- Full scale in codes of a result's range, from the code of zero input up: twice it bounds the single discharge slot (R308, R314). -/
def overTwice (range : Nat) (code : Int) : Bool :=
  if range = 0 ∨ range = 2 then decide (65536 < code.natAbs) else decide (131072 < (code + 32768).natAbs)

/-- A conversion ends (R310, R311, R314): the tagged result, its queue, cache, completions, record and windows, then discharge
slots. `code` is the conversion before it clamps. -/
def Block.sarResult (b : Block) (c i : Nat) (code : Int) (urgent : Bool) : Block × Nat × Int :=
  let n := 16 * c + i
  let sid := sidAin n
  let x := b.conv c
  let hi := decide (32767 < code)
  let lo := decide (code < -32768)
  let v := clampInt (-32768) 32767 code
  let settle := match x.settleTo with | some t => decide (b.now ≤ t) | none => false
  let tags := b2n hi + 2 * b2n lo + 4 * b2n settle + 8 * b2n (x.lost.contains i) + 16 * b2n urgent + 32 * b2n (x.ranged.contains i)
  let b := b.putConv c { x with lost := x.lost.filter (· != i), ranged := x.ranged.filter (· != i) }
  let keep := b.bit (Reg.anaChCfg n) 3
  let b :=
    if !keep then b
    else if 512 ≤ (b.conv c).queue.length then
      let b := b.putConv c { b.conv c with lost := (b.conv c).lost ++ [i] }
      (b.count (Reg.anaConvQueueDrops c)).raise Reg.anaFlags 0 sid
    else
      (b.putConv c { b.conv c with queue := (b.conv c).queue ++ [(b.now, n, tags, ofSigned 16 v)] }).showConvQueue c
  let b := if b.absent sid then b
    else b.record sid 0x01 (leBytes 2 (ofSigned 16 v) ++ zeroBytes 2 ++ leBytes 2 tags ++ leBytes 2 (b.calBits sid)) (tagPass tags) (some (v : Rat))
  let b := (b.arrive sid (BitVec.ofInt 64 v) tags).windowResult n v tags
  let b :=
    if !(hi || lo) then b
    else
      let b := b.raise Reg.anaFlags 2 sid
      if overTwice (b.fld (Reg.anaChCfg n) 0 2) code then
        -- until the residual detector clears, one to three slots (R314, log 4)
        let d := b.drawNat
        d.2.putConv c { d.2.conv c with slots := d.1 % 3 + 1, settleTo := some (d.2.now + 1500) }
      else b.putConv c { b.conv c with slots := 1 }
  (b, tags, v)

/-- R311: the conversion that the converter is making ends. -/
def execSarConversionEnd (conv : Fin 6) (code : Int) (s : State) : Host.Outcome State Fault Refusal :=
  nextB s fun b =>
    let c := conv.val
    if b.convState c = cvUrgent then
      match (b.conv c).urgent with
      | (i, op) :: rest =>
        let b := (b.putConv c { b.conv c with urgent := rest }).showUrgent c
        let r := b.sarResult c i code true
        let b := match op with
          | some o =>
            let res := leBytes 2 (ofSigned 16 r.2.2) ++ leBytes 2 r.2.1 ++ zeroBytes 4 ++ leBytes 8 r.1.now
            r.1.settle o false stDone 0 res
          | none => r.1
        b.convNext c
      | [] => b.convNext c
    else if b.convState c = cvScanning then
      let r := b.sarResult c (b.conv c).cur code false
      let b := r.1.scanAdvance c
      b.convNext c
    else b

/-- R314: an inserted slot ends. -/
def execDischargeSlot (conv : Fin 6) (s : State) : Host.Outcome State Fault Refusal :=
  nextB s fun b =>
    let c := conv.val
    if b.convState c = cvDischarge then (b.putConv c { b.conv c with slots := (b.conv c).slots - 1 }).convNext c else b

/-- An urgent request (R312, R313): it abandons the conversion in progress; during an urgent conversion or a discharge it waits. -/
def Block.urgentAsk (b : Block) (c i : Nat) (op : Option ServiceOp) : Block :=
  let x := b.conv c
  if 4 ≤ x.urgent.length then (b.count (Reg.anaConvUrgentDrops c)).raise Reg.anaFlags 1 (sidAin (16 * c + i))
  else
    let b := (b.putConv c { x with urgent := x.urgent ++ [(i, op)] }).showUrgent c
    if b.convState c = cvDischarge then b else b.setConv c cvUrgent

/-- A write of 1 to `Q_POP` removes the head (R311). -/
def Block.onQPop (b : Block) (c : Nat) (v : Word) : Block :=
  if v.toNat.testBit 0 then (b.putConv c { b.conv c with queue := (b.conv c).queue.drop 1 }).showConvQueue c else b

/-- A write of `ANA.CONV[c].URGENT` (R312). -/
def Block.onConvUrgent (b : Block) (c : Nat) (v : Word) : Block := b.urgentAsk c (v.toNat % 16) none

/-! ### Bridges (R315–R317) -/

/-- Output rate of a RATE code, S/s. -/
def brgRate (r : Nat) : Nat :=
  match r with | 0 => 10 | 1 => 25 | 2 => 50 | 3 => 100 | 4 => 400 | 5 => 1200 | 6 => 2400 | _ => 4800

def Block.brg (b : Block) (n : Nat) : BrgSt := tget {} b.brgs n
def Block.putBrg (b : Block) (n : Nat) (x : BrgSt) : Block := { b with brgs := tput b.brgs n x }

/-- Begin a settling time of 4 output periods (R316). -/
def Block.brgSettle (b : Block) (n : Nat) : Block :=
  (b.putBrg n { b.brg n with settleAt := b.now }).setFld (Reg.anaBrgCfg n) 12 1 1

/-- Bits of `ANA.BRG[b].CFG` from the arguments of `ANA.BRIDGE`. -/
def brgBits (a : List Byte) : Nat :=
  u8 a 0 % 8 + 16 * (u8 a 1 % 4) + 256 * field (u8 a 2) 0 1 + 512 * field (u8 a 2) 1 1 + 1024 * field (u8 a 2) 2 1

/-- Put a bridge configuration in force (R316). -/
def Block.brgApply (b : Block) (n v : Nat) : Block :=
  let old := b.rdN (Reg.anaBrgCfg n)
  let b := b.wrN (Reg.anaBrgCfg n) ((old &&& 0x1800) + v)
  let b := b.setFld Reg.anaState (8 + n) 1 (field v 10 1)
  let ranged := (old &&& 0x330) != (v &&& 0x330)
  let b := b.putBrg n { b.brg n with pend := none, ranged := ranged || (b.brg n).ranged }
  b.brgSettle n

/-- R315: a result at the filter output; `code` before it clamps, `excMv` the sensed excitation. -/
def execBridgeOutput (ch : Fin 8) (code : Int) (excMv : Nat) (s : State) : Host.Outcome State Fault Refusal :=
  nextB s fun b =>
    let n := ch.val
    let sid := sidBrg n
    if !b.bit (Reg.anaBrgCfg n) 10 then b else
    let hi := decide (8388607 < code)
    let lo := decide (code < -8388608)
    let v := clampInt (-8388608) 8388607 code
    let set := if b.bit (Reg.anaBrgCfg n) 9 then 2500 else 5000
    let fault := decide (set < 100 * (max excMv set - min excMv set))
    let x := b.brg n
    let tags := b2n hi + 2 * b2n lo + 4 * b2n (b.bit (Reg.anaBrgCfg n) 12) + 32 * b2n x.ranged + 64 * b2n fault
    let b := (b.wrN (Reg.anaBrgExc n) (satNat 65535 excMv)).putBrg n { x with ranged := false, exc := fault }
    let b := if !fault then b else if x.exc then b.setFlag Reg.anaFlags 3 else b.raisePost Reg.anaFlags 3 sid
    let b := if b.absent sid then b
      else b.record sid 0x02 (leBytes 3 (ofSigned 24 v) ++ zeroBytes 1 ++ leBytes 2 tags ++ leBytes 2 (b.calBits sid)) (tagPass tags) (some (v : Rat))
    let b := b.arrive sid (BitVec.ofInt 64 v) tags
    let b := if hi || lo then b.brgSettle n else b
    match (b.brg n).pend with
    | some w => b.brgApply n w
    | none => b

/-- R316: four output periods after its start the settling time ends. -/
def execSettlingEnd (ch : Fin 8) (s : State) : Host.Outcome State Fault Refusal :=
  nextB s fun b =>
    let n := ch.val
    if b.bit (Reg.anaBrgCfg n) 12 && decide (4000000000 ≤ (b.now - (b.brg n).settleAt) * brgRate (b.fld (Reg.anaBrgCfg n) 0 3)) then
      b.setFld (Reg.anaBrgCfg n) 12 1 0
    else b

/-- R321: the load exceeds the short-circuit limit; the DAC keeps limiting. -/
def execDacOverload (dac : Fin 32) (s : State) : Host.Outcome State Fault Refusal :=
  nextB s fun b => if b.dacOn dac.val then (b.setFld (Reg.anaDacState dac.val) 18 1 1).raisePost Reg.anaFlags 5 else b

/-- R321: the load is back within the limit. -/
def execDacOverloadClear (dac : Fin 32) (s : State) : Host.Outcome State Fault Refusal :=
  nextB s fun b => b.setFld (Reg.anaDacState dac.val) 18 1 0

/-! ### Commands (R325, R326) -/

/-- The SIDs that derive from a SID, itself included (04 R88); the first argument bounds the depth. -/
def derivedSids (cfg : Tab (List Byte)) : Nat → Nat → List Nat
  | 0, sid => [sid]
  | k + 1, sid =>
    sid :: ((entsOf cfg tSignal).filter fun p => u24 p.2 4 == sid && u24 p.2 0 != sid).flatMap fun p => derivedSids cfg k (u24 p.2 0)

/-- Does a channel feed a route of an enabled loop (R325)? -/
def Block.feedsLoop (b : Block) (sid : Nat) : Bool :=
  let ds := derivedSids b.cfg deriveDepth sid
  (entsOf b.cfg tRoute).any fun p => ds.contains (u24 p.2 0) && (match b.loopOf (u16 p.2 4) with
    | some l => b.bit (Reg.outLoopState l) 16
    | none => false)

def isAin (sid : Nat) : Bool := decide (0x100000 ≤ sid) && decide (sid < 0x100060)
def isBrg (sid : Nat) : Bool := decide (0x200000 ≤ sid) && decide (sid < 0x200008)

/-- Checks that the ANA commands share. -/
def Block.anaPre (b : Block) (c : Cmd) : List (Option Refuse) := [authCheck c roleOperator, devCheck b devLive, envCheck c]

/-- The configuration of an input that is in force or waiting for the next scan. -/
def Block.ainCfg (b : Block) (n : Nat) : Nat := (tget? (b.conv (n / 16)).pend (n % 16)).getD (b.rdN (Reg.anaChCfg n) % 16)

/-- R309, R319, R325. -/
def execAnaConfig (c : Cmd) (s : State) : Host.Outcome State Fault Refusal :=
  nextB s fun b =>
    let a := cArg c
    let n := cObj c - 0x100000
    let old := b.ainCfg n
    let new := u8 a 0 % 4 + 4 * (u8 a 1 % 4)
    b.runDone 0x0C01 c (b.anaPre c ++ [deny (decide (3 < u8 a 0)) stBadArg, deny (!isAin (cObj c)) stBadRef,
      deny (old % 8 != new % 8 && b.feedsLoop (cObj c)) stConflict 0x01 b.dev,
      deny (old % 4 != new % 4 && isSealed b.cfg (cObj c)) stSealed]) fun b =>
      let k := n / 16
      let b := b.putConv k { b.conv k with pend := tput (b.conv k).pend (n % 16) new }
      if b.convState k = cvStopped then b.scanStart k else b

/-- R312, R313, R325: the command completes when its conversion has ended. -/
def execAnaUrgent (c : Cmd) (s : State) : Host.Outcome State Fault Refusal :=
  nextB s fun b =>
    let n := cObj c - 0x100000
    let k := n / 16
    let full := decide (4 ≤ (b.conv k).urgent.length)
    let pre := b.anaPre c ++ [deny (!isAin (cObj c)) stBadRef]
    let b := if (firstRefusal pre).isNone && full then b.urgentAsk k (n % 16) none else b
    match firstRefusal (pre ++ [deny full stBusy]) with
    | some r => b.complete 0x0C02 c r.status r.reason [] r.code
    | none => b.urgentAsk k (n % 16) (some (opOf c 0x0C02))

/-- R316, R319, R325. A channel that is off has no output boundary: it starts at once. -/
def execAnaBridge (c : Cmd) (s : State) : Host.Outcome State Fault Refusal :=
  nextB s fun b =>
    let a := cArg c
    let n := cObj c - 0x200000
    let old := (b.brg n).pend.getD (b.rdN (Reg.anaBrgCfg n))
    let new := brgBits a
    b.runDone 0x0C03 c (b.anaPre c ++ [deny (decide (7 < u8 a 0) || decide (3 < u8 a 1)) stBadArg, deny (!isBrg (cObj c)) stBadRef,
      deny ((old &&& 0x730) != (new &&& 0x730) && b.feedsLoop (cObj c)) stConflict 0x01 b.dev,
      deny ((old &&& 0x330) != (new &&& 0x330) && isSealed b.cfg (cObj c)) stSealed]) fun b =>
      if b.bit (Reg.anaBrgCfg n) 10 then b.putBrg n { b.brg n with pend := some new } else b.brgApply n new

/-- Put a window's settings in force (R323): its count is 0 and it is not ACTIVE. -/
def Block.winApply (b : Block) (a : List Byte) : Block :=
  let w := u8 a 0
  let f := u8 a 2
  let b := b.wrN (Reg.anaWinCfg w) (u8 a 1 % 128 + 256 * (u8 a 3 % 16) + 4096 * field f 0 1 + 8192 * field f 1 1 + 16384 * field f 2 1)
  let b := b.wrN (Reg.anaWinLimits w) (u16 a 4 + 65536 * u16 a 6)
  { b with winCount := tput b.winCount w 0 }.driveSrc (24 + w) false

/-- R322, R323, R325. -/
def execAnaWindow (c : Cmd) (s : State) : Host.Outcome State Fault Refusal :=
  nextB s fun b =>
    let a := cArg c
    b.runDone 0x0C04 c (b.anaPre c ++ [noObject c, deny (decide (15 < u8 a 0) || decide (95 < u8 a 1) || u8 a 3 == 0 ||
      decide (15 < u8 a 3) || decide (s16 a 6 < s16 a 4)) stBadArg]) fun b => b.winApply a

/-- Is a staged curve malformed (R181, R325)? A 16-byte header and COUNT points of strictly ascending x. -/
def curveBad (d : List Byte) : Bool :=
  let n := u16 d 0
  let xs := (List.range n).map fun i => w32 d (16 + 8 * i)
  let rec asc : List Word → Bool
    | x :: y :: r => f32Lt x y && asc (y :: r)
    | _ => true
  decide (n < 2) || decide (256 < n) || decide (1 < u8 d 2) || decide (1 < u8 d 3) || d.length != 16 + 8 * n || !asc xs ||
    xs.any isNaN32

/-- Has a signal SEALED (R318)? -/
def Block.sealedSignal (b : Block) (sid : Nat) : Bool :=
  match b.sigEntry sid with
  | some e => (u8 e 7).testBit 1
  | none => false

/-- R319, R325. -/
def execAnaCalStage (c : Cmd) (s : State) : Host.Outcome State Fault Refusal :=
  nextB s fun b =>
    let d := cArg c
    b.run 0x0C05 c (b.anaPre c ++ [deny (!cExt c || curveBad d) stBadArg, deny (!b.sealedSignal (cObj c)) stBadRef,
      deny b.cal.pend.isSome stBusy]) fun b =>
      let crc := crc32 d
      let b := { b with cal := { b.cal with pend := some (opOf c 0x0C05 d), crc := crc, confirmed := false } }
      let b := (b.wrN Reg.anaCalPending (cObj c)).wr64 Reg.anaCalDeadline (b.now + 60000000000)
      (b.setFld Reg.anaState 16 1 1, stQueued, 0, leBytes 4 crc)

/-- R319, R325, R326: from the management link alone. -/
def execAnaCalConfirm (c : Cmd) (s : State) : Host.Outcome State Fault Refusal :=
  nextB s fun b =>
    let live := b.cal.pend.isSome && !b.cal.confirmed && decide (b.now ≤ b.rd64 Reg.anaCalDeadline)
    b.runDone 0x0C06 c [authCheck c roleMaintainer true, devCheck b devLive, envCheck c, noObject c,
      deny (live && u32 (cArg c) 0 != b.cal.crc) stBadArg 0x02, deny (!live) stConflict 0x03 b.dev] fun b =>
      { b with cal := { b.cal with confirmed := true } }

/-- No stage is pending any more. -/
def Block.calDone (b : Block) : Block :=
  let b := { b with cal := { b.cal with pend := none, confirmed := false } }
  ((b.wrN Reg.anaCalPending 0).wr64 Reg.anaCalDeadline 0).setFld Reg.anaState 16 1 0

/-- R319: the MI has written curve and count to NVM; both apply on one tick. -/
def execCalApply (s : State) : Host.Outcome State Fault Refusal :=
  nextB s fun b =>
    match b.cal.pend with
    | some op =>
      if !b.cal.confirmed then b else
      let k := match (entsOf b.cfg tSealed).find? fun p => u24 p.2 0 == op.object with
        | some p => p.1
        | none => op.object
      let e := leBytes 3 op.object ++ zeroBytes 1 ++ op.data
      let n := (b.cal.count + 1) % 2 ^ 32
      let b := { b with cfg := tput b.cfg (key tSealed k) e, cal := { b.cal with count := n, curves := tput b.cal.curves k e } }
      let b := (b.wrN Reg.anaCalCount n).raise Reg.anaFlags 6 op.object
      b.calDone.settle op true stDone
    | none => b

/-- R319: no matching confirmation within 60 s. -/
def execCalConfirmTimeout (s : State) : Host.Outcome State Fault Refusal :=
  nextB s fun b =>
    match b.cal.pend with
    | some op =>
      if b.cal.confirmed || decide (b.now ≤ b.rd64 Reg.anaCalDeadline) then b else
      (b.raise Reg.anaFlags 7 op.object).calDone.settle op true stAbandoned 0x09
    | none => b

/-- What the image gives the block at t7 (R320, R321, R327): inputs, bridges, windows, DACs, and the sealed curves with their
count. Table entries are laid out as the commands' arguments (log 8). -/
def Block.anaInit (b : Block) : Block :=
  let b := (entsOf b.cfg tAnaCh).foldl (fun (b : Block) p =>
    let b := b.wrN (Reg.anaChCfg p.1) (u8 p.2 0 % 4 + 4 * (u8 p.2 1 % 4) + 16 * b2n (isSealed b.cfg (sidAin p.1)))
    b.setFld (Reg.anaConvState (p.1 / 16)) (16 + p.1 % 16) 1 (u8 p.2 1 % 2)) b
  let b := (List.range 6).foldl (fun (b : Block) c => b.scanStart c) b
  let b := (entsOf b.cfg tBridge).foldl (fun (b : Block) p =>
    let b := b.setFld (Reg.anaBrgCfg p.1) 11 1 (b2n (isSealed b.cfg (sidBrg p.1)))
    b.brgApply p.1 (brgBits p.2)) b
  let b := (entsOf b.cfg tWindow).foldl (fun (b : Block) p => b.winApply (leBytes 1 p.1 ++ p.2.drop 1)) b
  (List.range 32).foldl (fun (b : Block) n =>
    if b.dacNamed n then (b.setFld (Reg.anaDacState n) 16 1 (u8 (b.fix tDac n) 0 % 2)).setFld (Reg.anaDacState n) 17 1 1 else b) b

/-- R320: at t6 the sealed curves in force are the MI's, or the image's when it brings a set that the MI has not taken. -/
def Block.calLoad (b : Block) : Block :=
  let img := (b.cfg.filter fun p => p.1 / 0x1000000 == tSealed).map fun p => (p.1 % 0x1000000, p.2)
  let b := if img = b.cal.taken then b
    else { b with cal := { b.cal with taken := img, curves := img, count := (b.cal.count + 1) % 2 ^ 32 } }
  let rest := b.cfg.filter fun p => p.1 / 0x1000000 != tSealed
  let cfg := b.cal.curves.foldl (fun t p => tput t (key tSealed p.1) p.2) rest
  { b with cfg := cfg }.wrN Reg.anaCalCount b.cal.count

end Sys2Proof.Machine
end

