-- ==== Sys2Proof/Machine/Motion.lean ====
section
/-! DEFINITION. Machine/Motion.lean: the events and commands of motion axes (16 R377–R396). -/

namespace Sys2Proof.Machine

/-! ### Events -/

/-- An axis comes to rest at the end of a deceleration (R377, R381, R383, R391). -/
def Block.axRest (b : Block) (n : Nat) : Block :=
  let x := b.ax n
  let atLim := x.limit.isSome && x.mode == 2
  let g := x.grp
  let b := b.putAx n { x with s := 0, a := 0, pos := if x.mode ≤ 1 then x.target else x.pos, mode := 3, ending := false,
                              braking := false, decel := none, limit := none, grp := none, restAt := b.now, softOn := false }
  let b := b.setFld (Reg.motAxState n) 10 1 0
  let b := b.setFld (Reg.motAxState n) 5 1 (b2n (x.mode ≤ 1))
  let b := b.setFld (Reg.motAxState n) 6 1 0
  let b := if atLim then b.setFld (Reg.motAxState n) 8 1 1 else b
  let b := if atLim && x.bound then b.setFld (Reg.motAxState n) 11 1 1 else b
  let b := b.setAx n axStandstill (if atLim then 4 else 1)
  let b := if g.isSome then b.groupShow n else b
  if x.softOn then b.driveSrc (u8 (b.axDesc n) 31) false else b

/-- R377. -/
def execAxisAtTarget (axis : Fin 64) (s : State) : Host.Outcome State Fault Refusal :=
  nextB s fun b =>
    let n := axis.val
    let st := b.axState n
    if (st = axMoving ∨ st = axStopping) ∧ (b.ax n).ending ∧ (b.ax n).next = none then b.axRest n else b

/-- R377: an axis under a mode-2 move reaches its commanded velocity. -/
def execAxisAtSpeed (axis : Fin 64) (s : State) : Host.Outcome State Fault Refusal :=
  nextB s fun b =>
    let n := axis.val
    let x := b.ax n
    if b.axState n = axMoving ∧ x.mode = 2 ∧ x.s = x.speed ∧ x.next = none ∧ b.bit (Reg.motAxState n) 6 = false then
      (b.setFld (Reg.motAxState n) 6 1 1).axShow n
    else b

/-- R380: DIR_SETUP ticks after stopping the axis turns round and runs a fresh profile. -/
def execReversal (axis : Fin 64) (s : State) : Host.Outcome State Fault Refusal :=
  nextB s fun b =>
    let n := axis.val
    let x := b.ax n
    match x.next with
    | some (mode, t, set) =>
      if x.ending && decide (x.restAt + 4 * u8 (b.axDesc n) 42 ≤ b.now) then
        let b := (b.putAx n { x with s := 0, a := 0, next := none, ending := false }).axRaise n 5
        b.axBegin n mode set t x.scale x.grp
      else b
    | none => b

/-- R384. -/
def execResolutionSwitch (axis : Fin 64) (s : State) : Host.Outcome State Fault Refusal :=
  nextB s fun b =>
    let n := axis.val
    let x := b.ax n
    let d := b.axDesc n
    if b.axPresent n && x.switching.isNone && x.atSwitch d then
      let w := wantEntry d x.entry x.s
      (b.putAx n { x with switching := some w }).dcpSend n (u8 d (44 + w))
    else b

/-- What DEV_ACTION does (R391). -/
def Block.devAct (b : Block) (n : Nat) : Block :=
  let act := u8 (b.axDesc n) 30
  let soft := u8 (b.axDesc n) 31
  let moving := b.axState n = axMoving ∨ b.axState n = axStopping
  if act = 0 then b
  else
    let b := b.groupStop n 3
    if act = 2 ∧ moving ∧ soft < 64 then (b.putAx n { b.ax n with softOn := true }).driveSrc soft true else b

/-- R391. -/
def execDeviation (axis : Fin 64) (s : State) : Host.Outcome State Fault Refusal :=
  nextB s fun b =>
    let n := axis.val
    match (b.ax n).devSince with
    | some t =>
      if b.bit (Reg.motAxState n) 9 || decide (b.now < t + 1000 * u16 (b.axDesc n) 28) then b else
      let b := (b.setFld (Reg.motAxState n) 9 1 1).axShow n
      let b := (b.raisePost (Reg.motAxFlags n) 2 (sidAxis n)).raise Reg.motFlags 2
      (b.motionRec n 3).devAct n
    | none => b

/-- R392: the first frame of the port's queue ends. -/
def execDcpFrameEnd (port : Fin 8) (miso : Nat) (s : State) : Host.Outcome State Fault Refusal :=
  nextB s fun b =>
    let p := port.val
    match tget [] b.dcp p with
    | [] => b
    | (n, kind) :: rest =>
      let b := { b with dcp := tput b.dcp p rest }
      let b := b.setFld (Reg.motDcpState p) 16 16 (b.fld (Reg.motDcpState p) 16 16 + 1)
      let b := b.setFld (Reg.motDcpState p) 0 1 (b2n (!rest.isEmpty)) |>.setFld (Reg.motDcpState p) 4 4 (satNat 15 (rest.length - 1))
      let rx := miso % 2 ^ 40
      let b := b.wr64 (Reg.motDcpLastRx p) rx
      let fault := rx &&& leNat (slice (b.fix tTemplate (16 * p + tmMask)) 0 5) != 0
      let b := b.setFld (Reg.motDcpState p) (8 + n % 8) 1 (b2n fault)
      let x := b.ax n
      let b := if kind ≤ 8 then
          (match x.switching with
           | some w => ((b.putAx n { x with entry := w, switching := none }).axShow n).motionRec n 2
           | none => b)
        else if kind = tmRun then
          b.putAx n { x with hold := false, startAt := b.now + 1000 * u8 (b.axDesc n) 61 }
        else b
      if fault then (b.axRaise n 3).devAct n else b

/-- R385: the standstill template of the descriptor is sent. -/
def execStandstillDelayExpiry (axis : Fin 64) (s : State) : Host.Outcome State Fault Refusal :=
  nextB s fun b =>
    let n := axis.val
    let x := b.ax n
    let d := b.axDesc n
    if b.axPresent n && b.axState n == axStandstill && !x.templ && decide (x.restAt + 1000000 * u16 d 2 ≤ b.now) then
      (b.putAx n { x with templ := true }).dcpSend n (if u8 d 1 % 4 = 1 then tmOff else if u8 d 1 % 4 = 2 then tmShort else tmHold)
    else b

/-- Position of a pair of quadrature levels in its cycle: A leads B when counting up (log 20). -/
def quadPhase (a b : Bool) : Nat := if a then (if b then 2 else 1) else (if b then 3 else 0)

/-- R390: one A/B edge counts up or down; both at once, or an edge less than 10 ns after the one before, is an error. -/
def execEncoderEdge (axis : Fin 64) (a z : Bool) (s : State) : Host.Outcome State Fault Refusal :=
  nextB s fun b =>
    let n := axis.val
    let x := b.ax n
    if !b.axFlag n 6 || b.axFlag n 5 then b else
    let d := (quadPhase a z + 4 - quadPhase x.encA x.encB) % 4
    let b' := b.putAx n { x with encA := a, encB := z, lastEdge := b.now }
    if d = 0 then b
    else if d = 2 ∨ (x.lastEdge ≠ 0 ∧ b.now < x.lastEdge + 10) then b'.encError n
    else b'.encShow n (toSigned 32 (b.rdN (Reg.motAxEncCount n)) + (if d = 1 then 1 else -1))

/-- R390: a rising edge of Z latches the count. -/
def execEncoderIndex (axis : Fin 64) (s : State) : Host.Outcome State Fault Refusal :=
  nextB s fun b => if b.axFlag axis.val 6 && !b.axFlag axis.val 5 then b.wr (Reg.motAxIndex axis.val) (b.rd (Reg.motAxEncCount axis.val)) else b

/-- Binary of a Gray code of `n` bits. -/
def ungray : Nat → Nat → Nat
  | 0, g => g
  | k + 1, g => ungray k g ^^^ (g >>> (k + 1))

/-- R390: an SSI frame of SSI_BITS bits; a data line that is not high before the first clock is an error. -/
def execSsiFrame (axis : Fin 64) (ready : Bool) (raw : Nat) (s : State) : Host.Outcome State Fault Refusal :=
  nextB s fun b =>
    let n := axis.val
    if !b.axFlag n 6 || !b.axFlag n 5 then b
    else if !ready then b.encError n
    else
      let bits := u8 (b.axDesc n) 36
      let v := raw % 2 ^ bits
      let v := if (u8 (b.axDesc n) 37).testBit 0 then ungray (bits - 1) v else v
      b.encShow n v

/-- R394. -/
def execMotionRecord (axis : Fin 64) (s : State) : Host.Outcome State Fault Refusal :=
  nextB s fun b =>
    let n := axis.val
    let p := u16 (b.axDesc n) 62
    if b.axPresent n && p != 0 && decide ((b.ax n).lastRec + 1000000 * p ≤ b.now) then b.motionRec n 0 else b

/-! ### Moves (R379, R393) -/

def isAxisSid (sid : Nat) : Bool := decide (0x700000 ≤ sid) && decide (sid < 0x700040)
def isGroupSid (sid : Nat) : Bool := decide (0x702000 ≤ sid) && decide (sid < 0x702010)

/-- Does the object of a move exist? -/
def Block.moveObj (b : Block) (sid : Nat) : Bool :=
  (isAxisSid sid && b.axPresent (sid - 0x700000)) || (isGroupSid sid && !(b.groupMembers (sid - 0x702000)).isEmpty)

/-- The refusals of a move after those of the envelope (R379, R393): arguments, object, state, limits. -/
def Block.moveRefusals (b : Block) (sid mode set : Nat) (v : Word) : List (Option Refuse) :=
  let grp := isGroupSid sid
  let n := sid - 0x700000
  let g := sid - 0x702000
  let p := b.axProf (if grp then (b.groupMembers g).headD 0 else n) set
  [moveArgs p mode set v grp, deny (grp && mode ≤ 1 && decide (1024 ≤ v.toNat)) stBadArg, deny (!b.moveObj sid) stBadRef,
    (if grp then b.groupState g mode set v.toNat else b.moveState n mode set v false)]

/-- Carry out a move. -/
def Block.moveRun (b : Block) (sid mode set : Nat) (v : Word) : Block :=
  if isGroupSid sid then b.groupMove (sid - 0x702000) mode set v.toNat else b.axMove (sid - 0x700000) mode set v

/-! ### Commands (R395, R396) -/

/-- The checks that the MOT commands share: refused as a whole before a world is in force. -/
def Block.motPre (b : Block) (c : Cmd) (role : Nat) : List (Option Refuse) := [authCheck c role, devCheck b devWorld, envCheck c]

/-- R379, R395, R396. -/
def execMotMove (c : Cmd) (s : State) : Host.Outcome State Fault Refusal :=
  nextB s fun b =>
    let a := cArg c
    b.runDone 0x0F01 c (b.motPre c roleOperator ++ b.moveRefusals (cObj c) (u8 a 0) (u8 a 1) (w32 a 4)) fun b =>
      b.moveRun (cObj c) (u8 a 0) (u8 a 1) (w32 a 4)

/-- Is the object an axis of the image? -/
def Block.axisRef (b : Block) (c : Cmd) : Option Refuse :=
  deny (!(isAxisSid (cObj c) && b.axPresent (cObj c - 0x700000))) stBadRef

/-- R396. -/
def execMotEnable (c : Cmd) (s : State) : Host.Outcome State Fault Refusal :=
  nextB s fun b =>
    let n := cObj c - 0x700000
    let on := (u8 (cArg c) 0).testBit 0
    let st := b.axState n
    b.runDone 0x0F02 c (b.motPre c roleOperator ++ [b.axisRef c, deny (st == axHalted) stConflict 0x04 st,
      deny (!on && (st == axMoving || st == axStopping)) stConflict 0x07 st]) fun b =>
      if on then
        (if st = axDisabled then (b.putAx n { b.ax n with restAt := b.now }).setAx n axStandstill 1 else b)
      else b.setAx n axDisabled 1

/-- A set in force is rewritten (R382). -/
def Block.setRewritten (b : Block) (n : Nat) (p : List Byte) : Block :=
  let x := b.ax n
  if pfJerk x.prof && pfJerk p then b.putAx n { x with profNext := some p }
  else
    match x.rem with
    | some ahead =>
      if x.mode ≤ 1 && x.braking && decide (ahead < stopDist p x.scale x.s) then
        let need := if ahead ≤ 0 then b.axEmerg n else x.s * x.s / (2 * ahead)
        (b.putAx n { x with prof := p, decel := some (if b.axEmerg n < need then b.axEmerg n else need) }).axRaise n 0
      else b.putAx n { x with prof := p }
    | none => b.putAx n { x with prof := p }

/-- R376, R382, R395. -/
def execMotProfile (c : Cmd) (s : State) : Host.Outcome State Fault Refusal :=
  nextB s fun b =>
    let a := cArg c
    let n := cObj c - 0x700000
    let p := slice a 8 40
    let d := b.axDesc n
    let bad := b.axPresent n && profileBad (b.axMedium n) (f32Rat (w32 d 8)) (f32Rat (w32 d 12)) (padTo 40 p)
    b.runDone 0x0F03 c (b.motPre c roleMaintainer ++ [deny (decide (15 < u8 a 0)) stBadArg,
      deny (isAxisSid (cObj c) && bad) stBadArg, b.axisRef c]) fun b =>
      let b := { b with cfg := tput b.cfg (key tProfile (16 * n + u8 a 0)) (padTo 40 p) }
      if (b.ax n).set = u8 a 0 ∧ (b.axState n = axMoving ∨ b.axState n = axStopping) then b.setRewritten n (padTo 40 p) else b

/-- R395, R396: commanded and measured positions are set together. -/
def execMotSetPosition (c : Cmd) (s : State) : Host.Outcome State Fault Refusal :=
  nextB s fun b =>
    let n := cObj c - 0x700000
    let st := b.axState n
    b.runDone 0x0F04 c (b.motPre c roleOperator ++ [b.axisRef c,
      deny (st == axMoving || st == axStopping) stConflict 0x07 st]) fun b =>
      let v := s32 (cArg c) 4
      let d := b.axDesc n
      let count := toSigned 32 (b.rdN (Reg.motAxEncCount n))
      let b := b.putAx n { b.ax n with cmd := v, pos := (v : Rat), offset := v - divOpen (count * (u16 d 32 : Int)) (u16 d 34) }
      (b.encShow n count).axShow n

/-- R381, R395, R396. -/
def execMotLimits (c : Cmd) (s : State) : Host.Outcome State Fault Refusal :=
  nextB s fun b =>
    let a := cArg c
    let n := cObj c - 0x700000
    let st := b.axState n
    let cmd := toSigned 32 (b.rdN (Reg.motAxCmdPos n))
    b.runDone 0x0F05 c (b.motPre c roleMaintainer ++ [deny (decide (s32 a 8 ≤ s32 a 4)) stBadArg, b.axisRef c,
      deny (st == axMoving || st == axStopping) stConflict 0x07 st,
      deny (decide (cmd < s32 a 4) || decide (s32 a 8 < cmd)) stConflict 0x08 st]) fun b =>
      let b := (b.wr (Reg.motAxLimitLo n) (w32 a 4)).wr (Reg.motAxLimitHi n) (w32 a 8)
      b.setFld (Reg.motAxCfg n) 3 1 (u8 a 12 % 2)

/-- R393, R395. -/
def execMotPoint (c : Cmd) (s : State) : Host.Outcome State Fault Refusal :=
  nextB s fun b =>
    let a := cArg c
    let g := cObj c - 0x702000
    b.runDone 0x0F06 c (b.motPre c roleOperator ++ [deny (decide (1024 ≤ u16 a 0)) stBadArg,
      deny (!(isGroupSid (cObj c) && !(b.groupMembers g).isEmpty)) stBadRef]) fun b =>
      { b with cfg := tput b.cfg (key tGroupPoint (1024 * g + u16 a 0)) (padTo 32 (slice a 4 32)) }

/-! ### Loading and entry to OPERATIONAL -/

/-- The descriptors are loaded at t7 (R397). -/
def Block.axesInit (b : Block) : Block :=
  (entsOf b.cfg tAxis).foldl (fun (b : Block) p =>
    let n := p.1
    let d := p.2
    let bound := (entsOf b.cfg tStage).any fun q => u8 q.2 3 == 2 && u24 q.2 0 == n
    let b := b.wrN (Reg.motAxCfg n) (u8 d 0)
    let b := (b.wr (Reg.motAxLimitLo n) (w32 d 16)).wr (Reg.motAxLimitHi n) (w32 d 20)
    let b := b.putAx n { bound := bound, restAt := b.now }
    let b := b.wrN (Reg.motAxState n) (axDisabled + 4096 * (u8 d 44 % 16))
    b.putSig (sidAxis n) ((b.rd (Reg.motAxState n)).zeroExtend 64) 0) <|
  (entsOf b.cfg tGroup).foldl (fun (b : Block) p => b.wrN (Reg.motGrpMembers p.1) ((u8 p.2 0 - 1) % 8)) b

/-- On entry to OPERATIONAL an axis with ENABLE_AT_START becomes STANDSTILL (R387). -/
def Block.axesStart (b : Block) : Block :=
  (entsOf b.cfg tAxis).foldl (fun (b : Block) p =>
    if (u8 p.2 0).testBit 7 && (u8 p.2 0).testBit 0 && b.axState p.1 == axDisabled then
      (b.putAx p.1 { b.ax p.1 with restAt := b.now }).setAx p.1 axStandstill 1
    else b) b

end Sys2Proof.Machine
end

