-- ==== Sys2Proof/Machine/Pwm.lean ====
section
/-! DEFINITION. Machine/Pwm.lean: update points, overrides, slow PWM and the commands of PWM pairs (15 R348–R358, R369, R370). -/

namespace Sys2Proof.Machine

/-- Length of the period in progress, ns: steps are 500 ps, ticks 4 ns; its halves may differ after a mid-point transfer (R351). -/
def Block.prLength (b : Block) (n : Nat) : Nat :=
  let p := b.rdN (Reg.pwmPairPeriod n)
  if (b.pr n).half && !b.prSlow n then 2 * (b.pr n).oldPeriod + 2 * p else 4 * p

/-- Apply a configuration in the layout of `PWM.CONFIG` (R369) to a pair's registers; SWAP and INVERT stay. -/
def Block.applyPairCfg (b : Block) (n : Nat) (e : List Byte) : Block :=
  let f := u8 e 1
  let ctrl := field f 0 2 + 8 * field f 2 1 + 16 * field f 3 1 + 32 * field f 4 1 + (b.rdN (Reg.pwmPairCtrl n) &&& 0xC0) +
    256 * field (u8 e 2) 1 3 + 4096 * field (u8 e 2) 0 1
  let b := b.wrN (Reg.pwmPairCtrl n) ctrl
  let b := (b.wrN (Reg.pwmPairPeriodSh n) (u32 e 4)).wrN (Reg.pwmPairPeriod n) (u32 e 4)
  let b := (b.wrN (Reg.pwmPairDutySh n) (u32 e 8)).wrN (Reg.pwmPairDuty n) (u32 e 8)
  let b := b.wrN (Reg.pwmPairDead n) (u16 e 12 % 4096)
  let b := b.wrN (Reg.pwmPairRestartDelay n) (u16 e 14)
  let b := b.wrN (Reg.pwmPairSync n) (u16 e 16 + 65536 * u8 e 3)
  (b.setFld (Reg.pwmPairState n) 4 2 0).putPr n { b.pr n with committed := false, moved := 0 }

/-- Is a configuration outside R349, R350, R351, R357 or R358? -/
def pairCfgBad (n : Nat) (e : List Byte) : Bool :=
  let mode := field (u8 e 1) 0 2
  let center := (u8 e 1).testBit 2
  let mid := (u8 e 1).testBit 3
  let period := u32 e 4
  decide (47 < n) || mode == 3 || (mid && !center) || u8 e 3 == n || (decide (47 < u8 e 3) && u8 e 3 != 0xFF) ||
    decide (4095 < u16 e 12) ||
    (if mode = 1 then center || mid || u16 e 12 != 0 || decide (period < 250) || decide (0x10000 ≤ u32 e 16)
     else decide (period < 8) || decide (536870911 < period) || decide (0x10000 ≤ u32 e 16))

/-- Move the shadows that this update point moves (R351–R354): all those written under AUTO, those committed under GROUP. -/
def Block.transfer (b : Block) (n : Nat) : Block :=
  let st := b.pr n
  let go := !b.prGroup n || st.committed
  let mp := go && b.bit (Reg.pwmPairState n) 4
  let md := go && b.bit (Reg.pwmPairState n) 5
  let b := if mp then (b.wr (Reg.pwmPairPeriod n) (b.rd (Reg.pwmPairPeriodSh n))).setFld (Reg.pwmPairState n) 4 1 0 else b
  let b := if md then (b.wr (Reg.pwmPairDuty n) (b.rd (Reg.pwmPairDutySh n))).setFld (Reg.pwmPairState n) 5 1 0 else b
  let now := b2n mp + 2 * b2n md
  let split := !b.prGroup n && ((now == 1 && st.moved == 2) || (now == 2 && st.moved == 1))
  let b := b.putPr n { b.pr n with committed := false, moved := now }
  let b := if split then b.prFlag n 0 else b
  if (mp || md) && decide (b.prUnits n (b.rdN (Reg.pwmPairPeriod n)) < b.rdN (Reg.pwmPairDuty n)) then b.prFlag n 1 else b

/-- The override takes effect (R356). -/
def Block.applyOverride (b : Block) (n : Nat) : Block :=
  match (b.pr n).ovr with
  | some v =>
    let b := b.putPr n { b.pr n with ovr := none }
    (b.setFld (Reg.pwmPairCtrl n) 6 2 v).setFld (Reg.pwmPairState n) 2 1 0
  | none => b

/-- A pair goes to OFF. -/
def Block.pairOff (b : Block) (n : Nat) : Block :=
  let x := b.pr n
  let b := b.putPr n { x with stopAt := 0, restartAt := none, waitOn := none, waitOff := none, slowHigh := false, endedHigh := false }
  let b := (b.setPrState n pwOff).setFld (Reg.pwmPairState n) 3 1 0
  let b := b.applyOverride n
  let b := { b with tripForced := tdel b.tripForced (tripKey tkPair n) }
  (b.targetStages tkPair n).foldl (fun b k => b.unforceStage k frTrip) b

/-- The turn-on of a slow output's period (R357). -/
def Block.slowStart (b : Block) (n : Nat) : Block :=
  if !(b.prSlow n && b.bit (Reg.pwmPairCtrl n) 12) then b else
  let x := b.pr n
  let d := b.rdN (Reg.pwmPairDuty n)
  let on := decide (0 < d)
  let full := decide (b.rdN (Reg.pwmPairPeriod n) ≤ d)
  b.putPr n { x with waitOn := if on && !x.slowHigh then some b.now else none,
                     waitOff := if full || !on then (if !on && x.slowHigh then some b.now else none) else some (b.now + 4 * d) }

/-- A pair resumes (R365, R366): RUNNING with any waiting configuration and the shadows written meanwhile, or OFF. -/
def Block.pairResume (b : Block) (n : Nat) (cycle : Bool) : Block :=
  let x := b.pr n
  let b := match x.cfg with
    | some e => (b.applyPairCfg n e).putPr n { b.pr n with cfg := none }
    | none => b
  let b := if cycle then b.tripRecord x.forcedBy 5 else b
  if x.stopAt != 0 then b.pairOff n
  else
    let b := { b with tripForced := tdel b.tripForced (tripKey tkPair n) }
    let b := (b.putPr n { b.pr n with restartAt := none, endedHigh := false, half := false }).setPrState n pwRunning
    let b := (b.transfer n).applyOverride n
    let b := b.slowStart n
    (b.targetStages tkPair n).foldl (fun b k => b.unforceStage k frTrip) b

/-- A period boundary at `t` ns (R349–R351, R356, R365, R366). -/
def Block.pairBoundary (b : Block) (n t : Nat) : Block :=
  let s := b.prState n
  let x := b.pr n
  let ended := s == pwRunning && decide (b.prUnits n (b.rdN (Reg.pwmPairPeriod n)) ≤ b.rdN (Reg.pwmPairDuty n))
  let b := b.putPr n { x with start := t, half := false, endedHigh := ended }
  if s = pwRunning then
    (if x.stopAt = 1 then b.pairOff n else ((b.transfer n).applyOverride n).slowStart n)
  else if s = pwTripped then
    (if b.sourcesHold tkPair n then b else b.pairResume n true)
  else if s = pwRestarting then
    (if x.stopAt = 1 then b.pairOff n
     else match x.restartAt with
       | some r => if r ≤ t then b.pairResume n false else b
       | none => b.pairResume n false)
  else b

/-- The update point within a period under MIDPERIOD (R351): what was in force governs the first half, what is active now the second. -/
def Block.pairMid (b : Block) (n : Nat) : Block :=
  let b := b.putPr n { b.pr n with half := true, oldPeriod := b.rdN (Reg.pwmPairPeriod n), oldDuty := b.rdN (Reg.pwmPairDuty n) }
  if b.prState n = pwRunning then (b.transfer n).applyOverride n else b

/-- R351: the update point that is due: at counter 2 × PERIOD steps, PERIOD ns after the start, under MIDPERIOD (log 19), and at the
start of each period. -/
def execUpdatePoint (pair : Fin 48) (s : State) : Host.Outcome State Fault Refusal :=
  nextB s fun b =>
    let n := pair.val
    let x := b.pr n
    if b.prState n = pwOff then b
    else if b.prMid n && !x.half && !b.prSlow n then
      (if x.start + b.rdN (Reg.pwmPairPeriod n) ≤ b.now then b.pairMid n else b)
    else
      let t := x.start + b.prLength n
      if t ≤ b.now then b.pairBoundary n t else b

/-- R358: PHASE ticks after each boundary of the master the pair starts its next period. -/
def execSyncRestart (pair : Fin 48) (s : State) : Host.Outcome State Fault Refusal :=
  nextB s fun b =>
    let n := pair.val
    let m := b.fld (Reg.pwmPairSync n) 16 8
    let t := (b.pr m).start + 4 * b.fld (Reg.pwmPairSync n) 0 16
    if b.prState n = pwOff || decide (47 < m) || b.prState m = pwOff || (b.pr n).synced = some (b.pr m).start || b.now < t then b
    else (b.putPr n { b.pr n with synced := some (b.pr m).start }).pairBoundary n b.now

/-- A slow output's waiting edges are placed on a stamped TIN edge (R357). -/
def Block.zcEdge (b : Block) (n : Nat) : Block :=
  if b.prState n != pwRunning || !b.prSlow n || !b.bit (Reg.pwmPairCtrl n) 12 then b else
  let x := b.pr n
  let x := match x.waitOn with
    | some t => if t ≤ b.now then { x with waitOn := none, slowHigh := true } else x
    | none => x
  let x := match x.waitOff with
    | some t => if t ≤ b.now then { x with waitOff := none, slowHigh := false } else x
    | none => x
  b.putPr n x

/-- Every slow pair that waits for a TIN takes its stamped edge (R357). -/
def Block.zcAll (b : Block) (tin : Nat) : Block :=
  (List.range 48).foldl (fun (b : Block) n => if b.fld (Reg.pwmPairCtrl n) 8 3 = tin then b.zcEdge n else b) b

/-- R357: an edge that finds no stamped edge within 20 ms is placed at that limit; a turn-off that would precede its own turn-on
is dropped. -/
def execZcTimeout (pair : Fin 48) (s : State) : Host.Outcome State Fault Refusal :=
  nextB s fun b =>
    let n := pair.val
    let x := b.pr n
    let late (w : Option Nat) := match w with | some t => decide (t + 20000000 ≤ b.now) | none => false
    if b.prState n != pwRunning then b
    else if late x.waitOn then (b.putPr n { x with waitOn := none, slowHigh := true }).prFlag n 3
    else if late x.waitOff then
      (b.putPr n { x with waitOff := none, slowHigh := if x.waitOn.isSome then x.slowHigh else false }).prFlag n 3
    else b

/-! ### Commands (R369, R370) -/

/-- The checks that the pair commands share: the pair stands in ARGS byte 0. -/
def Block.pairPre (b : Block) (c : Cmd) : List (Option Refuse) :=
  [authCheck c roleOperator, devCheck b devLive, envCheck c, noObject c, deny (decide (47 < u8 (cArg c) 0)) stBadArg]

/-- R349, R369, R370. -/
def execPwmConfig (c : Cmd) (s : State) : Host.Outcome State Fault Refusal :=
  nextB s fun b =>
    let e := cArg c
    let n := u8 e 0
    let st := b.prState n
    b.runDone 0x0E01 c (b.pairPre c ++ [deny (pairCfgBad n e) stBadArg,
      deny (st == pwRunning || st == pwRestarting) stConflict 0x01 st]) fun b =>
      let en := (u8 e 1).testBit 5
      if st = pwTripped then
        b.putPr n { b.pr n with cfg := some e, stopAt := if en then 0 else (b.pr n).stopAt } |>.setFld (Reg.pwmPairState n) 3 1
          (if en then 0 else b.fld (Reg.pwmPairState n) 3 1)
      else
        let b := b.applyPairCfg n e
        if en then
          ((b.putPr n { start := b.now + 4 }).setPrState n pwRunning).slowStart n
        else b

/-- R369, R370. -/
def execPwmStop (c : Cmd) (s : State) : Host.Outcome State Fault Refusal :=
  nextB s fun b =>
    let n := u8 (cArg c) 0
    let st := b.prState n
    b.runDone 0x0E02 c (b.pairPre c ++ [deny (st == pwOff) stConflict 0x02 st]) fun b =>
      (b.putPr n { b.pr n with stopAt := if st = pwTripped then 2 else 1 }).setFld (Reg.pwmPairState n) 3 1 1

/-- R356, R369, R370. -/
def execPwmOverride (c : Cmd) (s : State) : Host.Outcome State Fault Refusal :=
  nextB s fun b =>
    let n := u8 (cArg c) 0
    b.runDone 0x0E03 c (b.pairPre c) fun b =>
      let b := (b.putPr n { b.pr n with ovr := some (u8 (cArg c) 1 % 4) }).setFld (Reg.pwmPairState n) 2 1 1
      if b.prState n = pwRunning then b else b.applyOverride n

/-! ### Register writes that act (R352, R355) -/

/-- A write of 1 to `PWM.PAIR[n].COMMIT`. -/
def Block.onPairCommit (b : Block) (n : Nat) (v : Word) : Block := if v.toNat.testBit 0 then b.commitPair n else b
/-- A write of `PWM.COMMIT_MASK`. -/
def Block.onCommitMask (b : Block) (v : Nat) : Block :=
  (List.range 48).foldl (fun (b : Block) n => if v.testBit n then b.commitPair n else b) b
/-- A write of a duty shadow: discarded on a bound pair (R355). -/
def Block.onDutySh (b : Block) (n : Nat) (v : Word) : Block := if b.prBound n then b.prFlag n 2 else b.writeDutySh n v.toNat

end Sys2Proof.Machine
end

