-- ==== Sys2Proof/Machine/Loops.lean ====
section
/-! DEFINITION. Machine/Loops.lean: loops (07 R162–R167), writes of output stages past the interlock matrix (05 R130, 07
R170–R175) and the commands and events of outputs (07 R173–R185). -/

namespace Sys2Proof.Machine

/-! ### Loops -/

def Block.lp (b : Block) (l : Nat) : LoopSt := tget {} b.loops l
def Block.putLp (b : Block) (l : Nat) (x : LoopSt) : Block := { b with loops := tput b.loops l x }
def Block.loopOn (b : Block) (l : Nat) : Bool := b.bit (Reg.outLoopState l) 16
def Block.loopThread (b : Block) (l : Nat) : Nat := u16 (b.fix tLoop l) 0
/-- Is the descriptor used (R162)? -/
def Block.loopUsed (b : Block) (l : Nat) : Bool := hasEnt b.cfg tLoop l && b.loopThread l != 0xFFFF

/-- A ramp generator leaves a target before its end (R183): a stage writes one more OUTPUT record, without FRESH, with the value at
which it left off (R186). -/
def Block.stopRamp (b : Block) (sid : Nat) : Block :=
  if (tget? b.seq.ramps sid).isNone then b else
  let b := { b with seq := { b.seq with ramps := tdel b.seq.ramps sid } }
  if sid / 0x100000 = 5 then b.outputRec (sid - 0x500000) false else b

/-- A stage's plan is restarted at age 0 on this tick (R167). -/
def Block.restartPlan (b : Block) (n : Nat) : Block := b.putSg n { b.sg n with start := b.now }

/-- The stages of a loop stop being direct (R167). -/
def Block.ownStage (b : Block) (n : Nat) : Block :=
  let b := if (tget? b.seq.ramps (sidStage n)).isSome then
      let v := b.rd (Reg.outStageValue n)
      let b := b.stopRamp (sidStage n)
      b.putSg n { b.sg n with plan := b.holdPlan n v, start := b.now }
    else b.restartPlan n
  b.showDirect n

/-- A stage becomes direct and takes its DISABLE value (R167, R168): SAFE, or under HOLD the value it has. -/
def Block.disownStage (b : Block) (n : Nat) : Block :=
  let v := if (u8 (b.sgDesc n) 27).testBit 2 then b.rd (Reg.outStageValue n) else w32 (b.sgDesc n) 16
  let b := b.putSg n { b.sg n with plan := b.holdPlan n v, start := b.now }
  let stale := (b.sgReasons n).testBit frStale
  let b := if stale then (b.unforceStage n frStale).endStaleTrip n else b
  let b := if b.sgState n != osForced && b.sgState n != osLive then ((b.setSg n osLive).applyStage n true).outputRec n false else b.applyStage n
  b.showDirect n

/-- Enable or disable a loop (R167); one that has that state already stays as it is. -/
def Block.loopApply (b : Block) (l : Nat) (on : Bool) : Block :=
  if b.loopOn l == on then b else
  let t := b.loopThread l
  if on then
    let b := { b with routes := b.routes.filter fun p => u16 (b.fix tRoute p.1) 4 != t }
    let b := (b.enableThread t).reload t
    let b := b.setFld (Reg.outLoopState l) 16 1 1
    (b.stagesOf t).foldl (fun b n => if b.sgFresh n = 0 then b.showDirect n else b.ownStage n) b
  else
    let b := (b.setFld (Reg.outLoopState l) 16 1 0).disableThread t
    (b.stagesOf t).foldl (fun b n => b.disownStage n) b

/-- A LOOP action or `OUT.LOOP` (R167): during a continuity restart it waits for dispatch to resume (05 R123). -/
def Block.loopSet (b : Block) (l : Nat) (on : Bool) : Block :=
  if b.dev = dsRestart then b.putLp l { b.lp l with held := some on } else b.loopApply l on

/-- Dispatch resumes: the loop changes that waited take effect (05 R123). -/
def Block.loopsResume (b : Block) : Block :=
  b.loops.foldl (fun (b : Block) p =>
    match p.2.held with
    | some on => (b.putLp p.1 { b.lp p.1 with held := none }).loopApply p.1 on
    | none => b) b

/-- Entry to OPERATIONAL enables the loops with ENABLE_AT_START (R167). -/
def Block.loopsStart (b : Block) : Block :=
  (entsOf b.cfg tLoop).foldl (fun (b : Block) p => if (u8 p.2 2).testBit 0 && b.loopUsed p.1 then b.loopApply p.1 true else b) b

/-- Accounting at a dispatch of a loop thread (R166). -/
def Block.loopDispatch (b : Block) (l : Nat) : Block :=
  let st := b.lp l
  let b := b.count48 (Reg.outLoopActivations l)
  let b := b.putLp l { st with lastDispatch := some b.now }
  match st.lastDispatch with
  | none => b
  | some t0 =>
    let us := satNat 0xFFFFFFFF ((b.now - t0) / 1000)
    let mx := u32 (b.fix tLoop l) 4
    let slow := mx != 0 && decide (mx * 1000 < b.now - t0)
    let b := b.wrN (Reg.outLoopPeriod l) us
    let b := if b.rdN (Reg.outLoopPeriodMax l) < us then b.wrN (Reg.outLoopPeriodMax l) us else b
    let b := b.setFld (Reg.outLoopState l) 17 1 (b2n slow)
    if !slow then b else
    match st.slowPosted with
    | some p => if b.now < p + 100000000 then b.setFlag Reg.outFlags 3
        else (b.putLp l { b.lp l with slowPosted := some b.now }).raisePost Reg.outFlags 3 (sidLoop l) (leBytes 4 us)
    | none => (b.putLp l { b.lp l with slowPosted := some b.now }).raisePost Reg.outFlags 3 (sidLoop l) (leBytes 4 us)

/-! ### Writes of stages past the matrix -/

/-- The value a stage would apply for a source value, not forced (R171). -/
def Block.clampStage (b : Block) (n : Nat) (v0 : Word) : Word :=
  let d := b.sgDesc n
  let lo := w32 d 8
  let hi := w32 d 4
  let v1 := if f32Lt v0 lo then lo else if f32Lt hi v0 then hi else v0
  let c := match b.consOf n with | some _ => b.rd (Reg.outStageCeiling n) | none => hi
  if f32Lt c v1 then c else v1

/-- The level that an applied value of a stage stands for (05 R130): of its hand-off for KIND 3. -/
def Block.sgLevel (b : Block) (n : Nat) (v : Word) : Bool :=
  if b.sgKind n = 3 then
    valueLevel 3 (if (b.sgReasons n).testBit frTrip then v else (b.curve (u16 (b.sgDesc n) 28) v).1)
  else valueLevel (b.sgKind n) v

/-- The REASON with which the matrix refuses a write of a stage, if it does (05 R130): only a change of level is checked, by the
rules of the stage and of the line or field behind it. -/
def Block.stageRefusal (b : Block) (n : Nat) (v : Word) : Option Nat :=
  let l := b.sgLevel n (b.clampStage n v)
  if l == b.sgLevel n (b.rd (Reg.outStageValue n)) then none else
  match b.refusal (sidStage n) l with
  | some r => some r
  | none =>
    if b.sgKind n = 3 then b.refusal (0x600000 + u24 (b.sgDesc n) 0) l
    else if b.sgKind n = 4 then b.refusal (u24 (b.sgDesc n) 0) l else none

/-- Why a direct write is refused: OWNED (R170) or the matrix. A NaN is BAD_ARG. -/
def Block.directRefusals (b : Block) (n : Nat) (v : Word) : List (Option Refuse) :=
  [deny (isNaN32 v) stBadArg, deny (!b.direct n) stConflict 0x01 (b.sgState n),
   match b.stageRefusal n v with
   | some r => some { status := stInterlock, reason := r }
   | none => none]

/-- Marks of a refused direct write (05 R130, 07 R187). -/
def Block.directMarks (b : Block) (n : Nat) (r : Refuse) : Block :=
  if r.status = stInterlock then b.count Reg.seqInterlockRefusals
  else if r.status = stConflict ∧ r.reason = 0x01 then b.raise (Reg.outStageFlags n) 5 (sidStage n) else b

/-- A direct write that is accepted: a plan of pointer 0, and the target's ramp is released (R172, R183). -/
def Block.directRun (b : Block) (n : Nat) (v : Word) : Block :=
  (b.stopRamp (sidStage n)).freshWrite n (b.holdPlan n v)

/-- One write of an activation reaches its stage at the commit (R170, R174, R175): `plan` is the bytes copied when `OUT.SET`
executed, none for pointer 0. -/
def Block.commitWrite (b : Block) (t n : Nat) (v : Word) (plan : Option (List Byte)) : Block :=
  let sid := sidStage n
  if !b.sgUsed n || b.sgOwner n != t then
    ((b.count Reg.outForeignWrites).raise Reg.outFlags 2 sid).raise (Reg.outStageFlags n) 4 sid
  else if !b.ownerOn n then (b.count Reg.outDiscardedCommits).raise Reg.outFlags 5 sid
  else
    let bad := match plan with | some e => planBad v e | none => isNaN32 v
    if bad then ((b.count Reg.outPlanErrors).raise Reg.outFlags 1 sid).raise (Reg.outStageFlags n) 3 sid
    else if (b.stageRefusal n v).isSome then b.count Reg.seqInterlockRefusals
    else b.freshWrite n (match plan with | some e => planOf v e | none => b.holdPlan n v)

/-! ### Events -/

/-- R176: the plan is older than FRESH × 4 µs. -/
def execFreshExpiry (stage : Fin 1024) (s : State) : Host.Outcome State Fault Refusal :=
  nextB s fun b =>
    let n := stage.val
    if b.sgUsed n && !b.direct n && b.sgState n == osLive && decide (b.sgFresh n * 4000 < b.sgAge n) then b.coastStage n else b

/-- A stage whose plan has expired takes its stale policy (R178). -/
def Block.planExpiry (b : Block) (n : Nat) : Block :=
  if b.sgUsed n && !b.direct n && (b.sgState n == osLive || b.sgState n == osCoasting) && (b.sg n).plan.expired (b.sgAge n) then
    (b.expirePlan n).staleTrip n
  else b

/-- R178. -/
def execPlanExpiry (stage : Fin 1024) (s : State) : Host.Outcome State Fault Refusal := nextB s fun b => b.planExpiry stage.val

/-- R173: at the plan's tick and each 4 µs after it the stage evaluates its plan; the first evaluation past the last point is its
expiry. -/
def execPlanEvaluation (stage : Fin 1024) (s : State) : Host.Outcome State Fault Refusal :=
  nextB s fun b =>
    let n := stage.val
    if !b.sgUsed n then b else
    let b := b.planExpiry n
    if b.sgAge n % 4000 < 4 then b.applyStage n else b

/-! ### Commands (R184, R185) -/

def isStageSid (sid : Nat) : Bool := decide (0x500000 ≤ sid) && decide (sid < 0x500400)

def Block.outPre (b : Block) (c : Cmd) (legal : List Nat) : List (Option Refuse) :=
  [authCheck c roleOperator, devCheck b legal, envCheck c]

/-- R184, R185. -/
def execHostOutSet (c : Cmd) (s : State) : Host.Outcome State Fault Refusal :=
  nextB s fun b =>
    let n := cObj c - 0x500000
    let v := w32 (cArg c) 0
    let pre := b.outPre c devWorld ++ [deny (isNaN32 v) stBadArg, deny (!isStageSid (cObj c) || !b.sgUsed n) stBadRef]
    let rs := pre ++ b.directRefusals n v
    let b := match firstRefusal pre, firstRefusal rs with
      | none, some r => b.directMarks n r
      | _, _ => b
    b.runDone 0x0601 c rs fun b => b.directRun n v

/-- The stages that `OUT.FORCE` and `OUT.RELEASE` name (R180, R184). -/
def Block.outNamed (b : Block) (c : Cmd) : List Nat :=
  let n := cObj c - 0x500000
  if (u8 (cArg c) 4).testBit 0 then b.groupStages (u8 (b.sgDesc n) 26) else [n]

def Block.outRef (b : Block) (c : Cmd) : Option Refuse :=
  let n := cObj c - 0x500000
  deny (!isStageSid (cObj c) || !b.sgUsed n || ((u8 (cArg c) 4).testBit 0 && u8 (b.sgDesc n) 26 == 0xFF)) stBadRef

/-- R184: HOST joins the reasons with the value given; a second one replaces the value. -/
def execOutForce (c : Cmd) (s : State) : Host.Outcome State Fault Refusal :=
  nextB s fun b =>
    let v := w32 (cArg c) 0
    b.runDone 0x0602 c (b.outPre c devLive ++ [deny (isNaN32 v) stBadArg, b.outRef c]) fun b =>
      (b.outNamed c).foldl (fun (b : Block) n => (b.putSg n { b.sg n with hostVal := v }).forceStage n frHost) b

/-- R184: with WHOLE_GROUP it is refused only where no stage of the group carries HOST, since the others are left as they are (DEDUCED,
log 36). -/
def execOutRelease (c : Cmd) (s : State) : Host.Outcome State Fault Refusal :=
  nextB s fun b =>
    let n := cObj c - 0x500000
    b.runDone 0x0603 c (b.outPre c devLive ++ [b.outRef c,
      deny (!((b.outNamed c).any fun n => (b.sgReasons n).testBit frHost)) stConflict 0x02 (b.sgState n)]) fun b =>
      (b.outNamed c).foldl (fun (b : Block) n => b.unforceStage n frHost) b

def isLoopSid (sid : Nat) : Bool := decide (0x400000 ≤ sid) && decide (sid < 0x400400)

/-- R167, R184. -/
def execOutLoop (c : Cmd) (s : State) : Host.Outcome State Fault Refusal :=
  nextB s fun b =>
    let l := cObj c - 0x400000
    b.runDone 0x0604 c (b.outPre c devWorld ++ [deny (!isLoopSid (cObj c) || !b.loopUsed l) stBadRef]) fun b =>
      b.loopSet l ((u8 (cArg c) 0).testBit 0)

/-! ### Loading at t7 (R55, R162, R168) -/

/-- The stages take INIT and enter FORCED with reason INIT; the loop registers show their threads. -/
def Block.outputsInit (b : Block) : Block :=
  let b := (entsOf b.cfg tLoop).foldl (fun (b : Block) p => b.wrN (Reg.outLoopState p.1) (u16 p.2 0)) b
  (entsOf b.cfg tStage).foldl (fun (b : Block) p =>
    if u8 p.2 3 = 0xFF then b else
    let n := p.1
    let b := b.putSg n { plan := b.holdPlan n (w32 p.2 12), start := b.now }
    let b := (b.setFld (Reg.outStageState n) 16 8 (u8 p.2 26)).setFld (Reg.outStageState n) 24 5 1
    let b := (b.setFld (Reg.outStageState n) 0 2 osForced).wr (Reg.outStageCeiling n) (match b.consOf n with | some _ => 0#32 | none => w32 p.2 4)
    ((b.showDirect n).applyStage n true).outputRec n false) b

end Sys2Proof.Machine
end

