-- ==== Sys2Proof/Machine/Nodes.lean ====
section
/-! DEFINITION. Machine/Nodes.lean: nodes on the CAN buses (04 R98–R102, 17 R413): heartbeats, death, takeover by a spare,
restoring, and the counted frames of retired and undeclared identifiers. -/

namespace Sys2Proof.Machine

/-- Node states (04 R98). -/
def ndUndefined : Nat := 0
def ndAbsent : Nat := 1
def ndDeclared : Nat := 2
def ndPresent : Nat := 3
def ndSpare : Nat := 4
def ndDead : Nat := 5
def ndRetired : Nat := 6

def isNodeSid (sid : Nat) : Bool := decide (0x810000 ≤ sid) && decide (sid < 0x810800)
/-- Bus and number of a node's SID. -/
def nodeBus (sid : Nat) : Nat := (sid - 0x810000) / 256
def nodeNum (sid : Nat) : Nat := (sid - 0x810000) % 256
/-- Is the node defined by the image (17 R413)? Entry 256 b + n of the node table. -/
def Block.nodeDefined (b : Block) (bus n : Nat) : Bool := (u8 (b.fix tNode (256 * bus + n)) 0).testBit 0
def Block.setNode (b : Block) (bus n s : Nat) : Block := b.setFld (Reg.wldNode bus n) 0 3 s
def Block.setPartner (b : Block) (bus n p : Nat) : Block := b.setFld (Reg.wldNode bus n) 16 8 p
/-- A node's timeout in ns (17 R413). -/
def Block.nodeTimeout (b : Block) (bus n : Nat) : Nat :=
  let t := (b.node bus n).timeoutMs
  1000000 * (if t = 0 then u16 (b.fix tNode (256 * bus + n)) 2 else t)
/-- Does some receive object name the node (17 R413)? -/
def Block.hasHeartbeat (b : Block) (bus n : Nat) : Bool := !(b.rxosOf bus n).isEmpty

/-- A heartbeat of a node (17 R413): a DECLARED node becomes PRESENT, or SPARE where it is declared or restored as one. -/
def Block.heartbeat (b : Block) (bus n : Nat) : Block :=
  let x := b.node bus n
  let b := b.putNode bus n { x with heard := b.now, everHeard := true }
  if b.nodeState bus n = ndDeclared then b.setNode bus n (if x.standsFor = 0 then ndPresent else ndSpare) else b

/-- The rate rule of R100: the first counted frame posts an event with the node, the identifier and the time, later ones at most
one per node and 100 ms, with the count since the last. `flag` is its bit of `WLD.FLAGS`. -/
def Block.strayFrame (b : Block) (bus n id flag : Nat) : Block :=
  let x := b.node bus n
  let sid := sidNode bus n
  match x.lastEvt with
  | none =>
    (b.putNode bus n { x with lastEvt := some b.now, rateCount := 0 }).raisePost Reg.wldFlags flag sid
      (leBytes 3 sid ++ zeroBytes 1 ++ leBytes 4 id ++ leBytes 8 b.now)
  | some t =>
    if b.now < t + 100000000 then (b.putNode bus n { x with rateCount := x.rateCount + 1 }).setFlag Reg.wldFlags flag
    else (b.putNode bus n { x with lastEvt := some b.now, rateCount := 0 }).raisePost Reg.wldFlags flag sid
      (leBytes 3 sid ++ zeroBytes 1 ++ leBytes 4 id ++ leBytes 8 (x.rateCount + 1))

/-- A frame on the identifier of a retired node (R100). -/
def Block.retiredFrame (b : Block) (bus n id : Nat) : Block :=
  let b := (b.count (Reg.wldRetiredFrames bus)).strayFrame bus n id 1
  match (b.node bus n).boundTo with
  | some m =>
    if (b.node bus m).everHeard && decide (b.now ≤ (b.node bus m).heard + b.nodeTimeout bus m) then
      b.raisePost Reg.wldFlags 0 (sidNode bus n) (leBytes 3 (sidNode bus n) ++ zeroBytes 1 ++ leBytes 3 (sidNode bus m))
    else b
  | none => b

/-- A frame for an absent node or a disabled object (R101). -/
def Block.undeclaredFrame (b : Block) (bus n id : Nat) : Block :=
  (b.count (Reg.wldUndeclaredFrames bus)).strayFrame bus n id 2

/-! ### Takeover (R99) and restore (R100) -/

/-- Rewrite the presence and partner of a node's entry in the world in force, for `WLD.READ` (R103). -/
def patchEntry (entries : List (List Byte)) (sid presence partner : Nat) : List (List Byte) :=
  entries.map fun e => if u24 e 0 = sid then e.take 4 ++ leBytes 1 presence ++ slice e 5 1 ++ leBytes 3 partner ++ e.drop 9 else e

def Block.patchNode (b : Block) (bus n presence partner : Nat) : Block :=
  { b with world := { b.world with entries := patchEntry b.world.entries (sidNode bus n) presence partner } }

/-- A change of the world: the generation, its time and the record (R95, R99, 11 R276). -/
def Block.worldChanged (b : Block) (gen cause node : Nat) : Block :=
  let b := (b.wrN Reg.wldGeneration gen).wr64 Reg.wldAppliedAt b.now
  b.record sidDevice 0x38 (leBytes 4 gen ++ leBytes 1 cause ++ leBytes 3 node)

/-- The generation after the present one: it wraps from 0xFFFF_FFFF to 1 (R90). -/
def Block.nextGen (b : Block) : Nat := if b.rdN Reg.wldGeneration = 0xFFFFFFFF then 1 else b.rdN Reg.wldGeneration + 1

/-- Spare `m` takes over from node `n` (R99). Two nodes whose objects are exchanged already exchange them back. -/
def Block.takeOver (b : Block) (bus n m : Nat) : Block :=
  let back := (b.node bus n).boundTo == some m
  let b := b.putNode bus n { b.node bus n with boundTo := if back then none else some m, lastEvt := none, rateCount := 0 }
  let b := b.putNode bus m { b.node bus m with boundTo := if back then none else some n, standsFor := 0 }
  let b := ((b.setNode bus n ndRetired).setPartner bus n m).setNode bus m ndPresent |>.setPartner bus m n
  let b := (b.patchNode bus n 4 0).patchNode bus m 3 (sidNode bus n)
  (b.worldChanged b.nextGen 1 (sidNode bus n)).raise Reg.wldFlags 3 (sidNode bus n)

/-- The spare that stands for a node. -/
def Block.spareOf (b : Block) (bus n : Nat) : Option Nat :=
  (b.world.nodes.find? fun p => p.1 / 256 == bus && p.2.standsFor == sidNode bus n).map (·.1 % 256)

/-- R413: a node whose timeout has passed enters DEAD; R99: its spare takes over, or `NODE_DEAD` is set. -/
def execNodeDead (bus : Fin 8) (node : Fin 256) (s : State) : Host.Outcome State Fault Refusal :=
  nextB s fun b =>
    let c := bus.val
    let n := node.val
    let st := b.nodeState c n
    if !(st == ndDeclared || st == ndPresent || st == ndSpare) || !b.hasHeartbeat c n ||
       decide (b.now < (b.node c n).heard + b.nodeTimeout c n) then b else
    let b := b.setNode c n ndDead
    match b.spareOf c n with
    | some m => if b.nodeState c m = ndSpare ∧ (b.node c m).auto then b.takeOver c n m else b.raise Reg.wldFlags 4 (sidNode c n)
    | none => b.raise Reg.wldFlags 4 (sidNode c n)

/-- The checks that R104 and R105 make of a node command. -/
def Block.nodePre (b : Block) (c : Cmd) : List (Option Refuse) :=
  [authCheck c roleOperator, devCheck b devWorld, envCheck c,
   deny (!isNodeSid (cObj c) || !b.nodeDefined (nodeBus (cObj c)) (nodeNum (cObj c))) stBadRef]

/-- R99, R102, R104, R105. -/
def execWldReplace (c : Cmd) (s : State) : Host.Outcome State Fault Refusal :=
  nextB s fun b =>
    let bus := nodeBus (cObj c)
    let n := nodeNum (cObj c)
    let sp := u24 (cArg c) 0
    let m := nodeNum sp
    let st := b.nodeState bus n
    b.runDone 0x0304 c (b.nodePre c ++ [
      deny (!isNodeSid sp || !b.nodeDefined (nodeBus sp) m) stBadRef,
      deny (st == ndRetired) stConflict 0x01 st,
      deny (!(st == ndDeclared || st == ndPresent || st == ndDead)) stConflict 0 st,
      deny (nodeBus sp != bus || b.nodeState bus m != ndSpare || (b.node bus m).standsFor != cObj c) stConflict 0 st])
      fun b => b.takeOver bus n m

/-- R100, R104: the retired node becomes the spare of the node that acts for it; it is DECLARED until its next heartbeat. -/
def execWldRestore (c : Cmd) (s : State) : Host.Outcome State Fault Refusal :=
  nextB s fun b =>
    let bus := nodeBus (cObj c)
    let n := nodeNum (cObj c)
    let st := b.nodeState bus n
    b.runDone 0x0305 c (b.nodePre c ++ [deny (st != ndRetired) stConflict 0 st]) fun b =>
      let m := b.fld (Reg.wldNode bus n) 16 8
      let b := b.putNode bus n { b.node bus n with standsFor := sidNode bus m, heard := b.now, everHeard := false }
      let b := (b.setNode bus n ndDeclared).setPartner bus n m |>.setPartner bus m n
      let b := (b.patchNode bus n 2 (sidNode bus m)).patchNode bus m 1 0
      b.worldChanged b.nextGen 2 (sidNode bus n)

/-- R96, R104: the report entries, as many as the buffer holds, written into host memory. -/
def execWldReport (c : Cmd) (s : State) : Host.Outcome State Fault Refusal :=
  nextB s fun b =>
    let a := cArg c
    b.run 0x0302 c [authCheck c roleObserver, devCheck b devLive, envCheck c, hostOnly c, noObject c] fun b =>
      let es := b.world.report.take (u32 a 8 / 16)
      ({ b with out := { b.out with mem := mwrite b.out.mem (u64 a 0) es.flatten } }, stDone, 0, leBytes 4 es.length)

/-- The world in force as a declaration document (R90, R103). -/
def Block.worldDoc (b : Block) : List Byte :=
  let n := b.world.entries.length
  let build := ((List.range 8).map fun i => leBytes 4 (b.rdN (Reg.imgBuildId i))).flatten
  let head := leBytes 4 0x57444C31 ++ leBytes 2 1 ++ leBytes 2 64 ++ leBytes 4 n ++ leBytes 4 (b.rdN Reg.wldGeneration) ++ build
  let crc := crc32 (head ++ zeroBytes 16 ++ b.world.entries.flatten)
  head ++ leBytes 4 crc ++ zeroBytes 12 ++ b.world.entries.flatten

/-- R103, R104. -/
def execWldRead (c : Cmd) (s : State) : Host.Outcome State Fault Refusal :=
  nextB s fun b =>
    let a := cArg c
    let doc := b.worldDoc
    b.run 0x0303 c [authCheck c roleObserver, deny (b.refclk && b.dev == dsAwaitWorld) stConflict 0x02 b.dev, devCheck b devWorld, envCheck c,
      hostOnly c, noObject c, deny (decide (u32 a 8 < doc.length)) stNoSpace] fun b =>
      ({ b with out := { b.out with mem := mwrite b.out.mem (u64 a 0) doc } }, stDone, 0,
       leBytes 4 doc.length ++ leBytes 4 (b.rdN Reg.wldGeneration))

/-- At t7 the nodes that the image defines are ABSENT until a declaration is in force (R98). -/
def Block.nodesInit (b : Block) : Block :=
  (entsOf b.cfg tNode).foldl (fun (b : Block) p =>
    if (u8 p.2 0).testBit 0 then b.setNode (p.1 / 256) (p.1 % 256) ndAbsent else b) b

end Sys2Proof.Machine
end

