-- ==== Sys2Proof/Machine/Can.lean ====
section
/-! DEFINITION. Machine/Can.lean: CAN controllers, receive and transmit objects (17 R398–R414, R421–R424). Error counting is that
of ISO 11898-1, which the manual names (log 21). -/

namespace Sys2Proof.Machine

/-- Controller states (R399). -/
def cnOff : Nat := 0
def cnDetect : Nat := 1
def cnListen : Nat := 2
def cnActive : Nat := 3
def cnPassive : Nat := 4
def cnBusOff : Nat := 5

def sidCan (c : Nat) : Nat := 0x800000 + c
def Block.can (b : Block) (c : Nat) : CanSt := tget {} b.cans c
def Block.putCan (b : Block) (c : Nat) (x : CanSt) : Block := { b with cans := tput b.cans c x }
def Block.canMode (b : Block) (c : Nat) : Nat := b.fld (Reg.canState c) 0 3
def Block.canSet (b : Block) (c : Nat) : Nat := b.fld (Reg.canState c) 12 4
def Block.tec (b : Block) (c : Nat) : Nat := b.fld (Reg.canState c) 16 8
def Block.rec' (b : Block) (c : Nat) : Nat := b.fld (Reg.canState c) 24 8
/-- A timing set of a controller (R400). -/
def Block.timingSet (b : Block) (c k : Nat) : List Byte := b.fix tCanSet (16 * c + k)
def Block.setUsed (b : Block) (c k : Nat) : Bool := (u8 (b.timingSet c k) 9).testBit 3

/-! ### Records (R414) -/

/-- Write a BUS_FRAME record; XL data beyond 2,024 bytes continue in a second one with PART2. -/
def Block.busFrame (b : Block) (c idWord format flags obj b11 w12 : Nat) (data : List Byte) : Block :=
  let put (b : Block) (fl : Nat) (d : List Byte) : Block :=
    b.record (sidCan c) 0x08 (leBytes 4 idWord ++ leBytes 1 format ++ leBytes 1 fl ++ leBytes 2 d.length ++ leBytes 3 obj ++
      leBytes 1 b11 ++ leBytes 4 w12 ++ d) (flags % 16 != 0)
  if data.length ≤ 2024 then put b flags data else put (put b flags (data.take 2024)) (flags ||| 64) (data.drop 2024)

/-- Format code of a frame (R414). -/
def frCode (f : CanFrame) : Nat := if f.format = 0 then (if f.rtr then 1 else 0) else if f.format = 1 then (if f.brs then 3 else 2) else 4

/-- Record a received frame. -/
def Block.recFrame (b : Block) (c : Nat) (f : CanFrame) (flags obj : Nat) : Block :=
  let xl := f.format == 2
  b.busFrame c (f.id + 2 ^ 29 * b2n f.ide) (frCode f) (flags ||| 32 * b2n f.esi) obj (if xl then f.sdt.toNat else 0)
    (if xl then f.af.toNat else 0) f.data

/-- A controller changes state: its record (R414) and, on entry to PASSIVE, its flag (R411). -/
def Block.setCan (b : Block) (c s : Nat) : Block :=
  if b.canMode c = s then b else
  let b := b.setFld (Reg.canState c) 0 3 s
  let b := b.busFrame c 0 6 0 0 s (b.tec c + 256 * b.rec' c) []
  if s = cnPassive then b.raise (Reg.canFlags c) 0 (sidCan c) else b

/-- Set the error counters, and the state of a controller in normal mode from them. -/
def Block.setCounters (b : Block) (c tec rec : Nat) : Block :=
  let b := (b.setFld (Reg.canState c) 16 8 (satNat 255 tec)).setFld (Reg.canState c) 24 8 (satNat 255 rec)
  if b.canMode c = cnActive ∨ b.canMode c = cnPassive then
    b.setCan c (if 128 ≤ tec ∨ 128 ≤ rec then cnPassive else cnActive)
  else b

/-- The transmit object of a controller whose frame is in progress. -/
def Block.committed (b : Block) (c : Nat) : Option Nat :=
  ((List.range 512).find? fun o => b.txoState (512 * c + o) == txCommitted).map (512 * c + ·)

/-- Enter the mode asked for (R399): 0 OFF, 1 LISTEN, 2 normal. From OFF or LISTEN the error counters start at 0 (log 21). -/
def Block.enterMode (b : Block) (c mode set : Nat) (hold : Bool) : Block :=
  let was := b.canMode c
  let b := (b.setFld (Reg.canState c) 12 4 set).setFld (Reg.canState c) 8 1 (b2n hold)
  let b := b.putCan c { b.can c with want := none }
  if mode = 0 then (b.setFld (Reg.canState c) 3 1 0).setCan c cnOff
  else if mode = 1 then b.setCan c cnListen
  else if was = cnActive ∨ was = cnPassive then b
  else (b.setCounters c 0 0).setCan c cnActive

/-- The bus is idle: a change of mode that waited takes effect (R399). -/
def Block.canIdle (b : Block) (c : Nat) : Block :=
  match (b.can c).want with
  | some (m, k, h) => b.enterMode c m k h
  | none => b

/-! ### Receiving (R402–R405) -/

/-- The identifier bits that a frame is matched by: 11 for base and XL frames (R402). -/
def frKey (f : CanFrame) : Nat := if f.ide then f.id % 2 ^ 29 else f.id % 2 ^ 11
def descKey (d : List Byte) : Nat := if (u8 d 1).testBit 1 then u32 d 4 % 2 ^ 29 else u32 d 4 % 2 ^ 11

/-- The receive object that a frame falls to (R403): the exact one, else the first MASKED one that matches. -/
def Block.rxMatch (b : Block) (c : Nat) (f : CanFrame) : Option Nat :=
  let mine := (entsOf b.cfg tRxo).filter fun p => (u8 p.2 1).testBit 0 && u8 p.2 0 == c
  let ide (d : List Byte) := (u8 d 1).testBit 1 == f.ide
  match mine.find? fun p => !(u8 p.2 1).testBit 2 && (let d := b.rxoIdDesc p.1; ide d && descKey d == (frKey f)) with
  | some p => some p.1
  | none => (mine.find? fun p => (u8 p.2 1).testBit 2 && (let d := b.rxoIdDesc p.1; ide d &&
      ((frKey f) &&& u32 d 8) == (descKey d &&& u32 d 8))).map (·.1)

/-- The fields mapped from an object (R412). -/
def Block.fieldsOf (b : Block) (obj : Nat) : List (List Byte) := ((entsOf b.bank tFormat).filter fun p => u24 p.2 4 == obj).map (·.2)

/-- The signals that a receive object feeds: its fields and the catalogue signals that derive from them or from it (04 R89). -/
def Block.rxoSignals (b : Block) (k : Nat) : List Nat :=
  let fs := (b.fieldsOf (sidRxo k)).map fun e => u24 e 0
  fs ++ ((entsOf b.cfg tSignal).filter fun p => u24 p.2 4 == sidRxo k || fs.contains (u24 p.2 4)).map fun p => u24 p.2 0

/-- Does the object feed only ABSENT signals (04 R89)? -/
def Block.rxoDisabled (b : Block) (k : Nat) : Bool :=
  let l := b.rxoSignals k
  !l.isEmpty && l.all fun x => b.absent x

/-- Show DISABLED and the descriptor of every receive object. -/
def Block.showRxos (b : Block) : Block :=
  (entsOf b.cfg tRxo).foldl (fun (b : Block) p =>
    if (u8 p.2 1).testBit 0 then
      (b.setFld (Reg.canRxoSnap p.1) 2 1 (b2n (b.rxoDisabled p.1))).wrN (Reg.canRxoCfg p.1)
        (u8 p.2 1 * 256 + u8 p.2 0 % 8 * 65536 + u8 p.2 2 * 2 ^ 24)
    else b) b

def Block.rxo (b : Block) (k : Nat) : RxoSt := tget {} b.rxos k
def Block.putRxo (b : Block) (k : Nat) (x : RxoSt) : Block := { b with rxos := tput b.rxos k x }

/-- Consume an object (R404). -/
def Block.consumeRxo (b : Block) (k : Nat) : Block := b.setFld (Reg.canRxoSnap k) 0 2 0

/-- FORMAT code of `CAN.RXO[k].SNAP`. -/
def frSnap (f : CanFrame) : Nat := if f.format = 0 then (if f.rtr then 1 else 0) else if f.format = 1 then 2 else 3

/-- Store a frame in an object (R404) and update its fields (R412). -/
def Block.storeFrame (b : Block) (c k : Nat) (f : CanFrame) : Block :=
  let snap := Reg.canRxoSnap k
  let lost := b.bit snap 0
  let b := b.putRxo k { data := f.data.take (if (u8 (b.fix tRxo k) 1).testBit 6 then 2048 else 64), af := f.af.toNat,
                        sdt := f.sdt.toNat, vcid := f.vcid.toNat, sec := f.sec }
  let b := if lost then (b.count (Reg.canRxoOverwrites k)).raise (Reg.canFlags c) 4 (sidCan c) else b
  let keep := if lost then 2 else (b.rdN snap) &&& 2
  let b := b.wrN snap (1 + keep + (b.rdN snap &&& 4) + 64 * frSnap f + 256 * f.data.length)
  let b := (b.wrN (Reg.canRxoId k) (frKey f)).wr64 (Reg.canRxoTime k) b.now
  let b := (b.count48 (Reg.canRxFrames c)).blkCount 0x2A
  let b := b.recFrame c f (b2n lost) (sidRxo k)
  let es := b.fieldsOf (sidRxo k)
  let b := if es.any fun e => (u8 e 3).testBit 3 then b.consumeRxo k else b
  let b := b.completion (sidRxo k)
  es.foldl (fun (b : Block) e =>
    match fieldGet e f.data with
    | some raw => b.arrive (u24 e 0) (fieldValue e raw)
    | none => b.raise (Reg.canFlags c) 8 (sidCan c)) b

/-- A frame that no object takes (R403). -/
def Block.noMatch (b : Block) (c : Nat) (f : CanFrame) (obj : Nat) : Block :=
  ((b.count (Reg.canNoMatch c)).raise (Reg.canFlags c) 3 (sidCan c)).recFrame c f 8 obj

/-- A correct frame received in LISTEN or normal mode (R403, R413). -/
def Block.receive (b : Block) (c : Nat) (f : CanFrame) : Block :=
  match b.rxMatch c f with
  | none => b.noMatch c f 0
  | some k =>
    let e := b.fix tRxo k
    let idNode := u8 (b.rxoIdDesc k) 2
    let owner := u8 e 2 != 0xFF
    if !(u8 e 1).testBit (3 + f.format.val) then b.noMatch c f (sidRxo k)
    else if owner && b.nodeState c idNode == ndRetired then (b.retiredFrame c idNode (frKey f)).recFrame c f 2 (sidRxo k)
    else if (owner && (b.nodeState c idNode == ndAbsent || b.nodeState c idNode == ndUndefined)) || b.rxoDisabled k then
      (b.undeclaredFrame c (if owner then idNode else 0xFF) (frKey f)).recFrame c f 4 (sidRxo k)
    else
      let b := if owner then b.heartbeat c idNode else b
      b.storeFrame c k f

/-! ### Rate detection (R401) -/

/-- The next candidate set after `k`, or the first again. -/
def nextCandidate (mask k : Nat) : Nat :=
  (((List.range 16).find? fun i => decide (k < i) && mask.testBit i).orElse fun _ => (List.range 16).find? fun i => mask.testBit i).getD k

/-- Try a candidate from now on. -/
def Block.tryCandidate (b : Block) (c k : Nat) : Block :=
  (b.putCan c { b.can c with trying := k, tryAt := b.now, good := 0, brsSeen := false }).setFld (Reg.canState c) 12 4 k

/-- Detection ends (R401). -/
def Block.detectEnd (b : Block) (c : Nat) (found : Bool) : Block :=
  let x := b.can c
  let data := u8 (b.timingSet c x.trying) 4 != 0 && x.brsSeen
  let w := (if found then x.trying + 256 + 512 * b2n data else 0) + 65536 * satNat 65535 x.heard
  let b := (b.wrN (Reg.canDetect c) w).setFld (Reg.canState c) 12 4 x.backSet
  let b := (b.setCan c x.back).raise (Reg.canFlags c) 2 (sidCan c)
  let b := b.putCan c { x with op := none }
  match x.op with
  | some o => if found then b.settle o true stDone 0 (leBytes 4 w) else b.settle o true stAbandoned 0x0D
  | none => b

/-- A frame without error during detection. -/
def Block.detectFrame (b : Block) (c : Nat) (f : CanFrame) : Block :=
  let x := b.can c
  let brs := x.brsSeen || (f.format != 0 && f.brs)
  let b := b.putCan c { x with good := x.good + 1, heard := x.heard + 1, brsSeen := brs }
  if 2 ≤ x.good + 1 then b.detectEnd c true else b

/-- R403, R404: a frame has been received without error. -/
def execCanFrameReceived (ctl : Fin 8) (fr : CanFrame) (s : State) : Host.Outcome State Fault Refusal :=
  nextB s fun b =>
    let c := ctl.val
    let m := b.canMode c
    if m = cnDetect then b.detectFrame c fr
    else if m = cnListen ∨ m = cnActive ∨ m = cnPassive then
      let b := b.setCounters c (b.tec c) (if 128 ≤ b.rec' c then 127 else b.rec' c - 1)
      b.receive c fr
    else b

/-! ### Sending (R406–R411) -/

/-- Bus priority under ISO 11898-1, lower first: the base identifier, then base before extended format, then the extension. -/
def busPrio (d : List Byte) : Nat :=
  if (u8 d 0).testBit 1 then (u32 d 4 / 2 ^ 18 % 2 ^ 11) * 2 ^ 19 + 2 ^ 18 + u32 d 4 % 2 ^ 18 else (u32 d 4 % 2 ^ 11) * 2 ^ 19

/-- The PENDING object with the highest bus priority (R409). -/
def Block.txBest (b : Block) (c : Nat) : Option Nat :=
  (List.range 512).foldl (fun acc o =>
    let i := 512 * c + o
    if b.txoState i != txPending then acc else
    match acc with
    | some j => if busPrio (b.txoIdDesc i) < busPrio (b.txoIdDesc j) then some i else acc
    | none => some i) none

/-- May the controller send frames of its own: normal mode, from the entry to OPERATIONAL on (R399, 03 R55)? -/
def Block.canSends (b : Block) (c : Nat) : Bool := (b.canMode c == cnActive || b.canMode c == cnPassive) && devWorld.contains b.dev

/-- R409. -/
def execStartOfFrame (ctl : Fin 8) (s : State) : Host.Outcome State Fault Refusal :=
  nextB s fun b =>
    let c := ctl.val
    if !b.canSends c || (b.committed c).isSome then b else
    match b.txBest c with
    | some i => (b.putTxo i { b.txo i with frame := some (padTo (b.txoLen i) (b.txo i).data), cancelled := false }).setTxo i txCommitted
    | none => b

/-- Format code of a transmit object's frame. -/
def txFormat (d : List Byte) : Nat := if (u8 d 0).testBit 4 then 4 else if (u8 d 0).testBit 2 then (if (u8 d 0).testBit 3 then 3 else 2) else 0

/-- R409: the frame in progress completes. -/
def execCanFrameSent (ctl : Fin 8) (s : State) : Host.Outcome State Fault Refusal :=
  nextB s fun b =>
    let c := ctl.val
    match b.committed c with
    | none => b
    | some i =>
      let d := b.txoIdDesc i
      let e := b.fix tTxo i
      let x := b.txo i
      let late := x.cancelled
      let xl := (u8 e 0).testBit 4
      let resend := b.bit (Block.txoReg i) 15
      let b := (b.putTxo i { x with frame := none, cancelled := false }).setTxo i (if resend then txPending else txSent)
      let b := (b.setFld (Block.txoReg i) 15 1 0).setFld (Block.txoReg i) 13 1 (b2n late)
      let b := (b.count (Reg.canTxoSent c (i % 512))).count48 (Reg.canTxFrames c) |>.blkCount 0x2A
      let b := if late then b.raise (Reg.canFlags c) 5 (sidCan c) else b
      let b := b.setCounters c (b.tec c - 1) (b.rec' c)
      let b := b.busFrame c (u32 d 4 % 2 ^ 29 + 2 ^ 29 * b2n ((u8 d 0).testBit 1) + 2 ^ 30) (txFormat e) (16 * b2n late) (sidTxo i)
        (if xl then u8 e 20 else 0) (if xl then u32 e 16 else 0) (x.frame.getD [])
      b.canIdle c

/-- The frame in progress fails: the object returns to PENDING, or ends CANCELLED (R409, R410). -/
def Block.txFail (b : Block) (c i : Nat) : Block :=
  let x := b.txo i
  let resend := b.bit (Block.txoReg i) 15
  let b := b.putTxo i { x with frame := none, cancelled := false }
  if x.cancelled ∧ !resend then b.setTxo i txCancelled
  else
    let b := if x.cancelled then b.setFld (Block.txoReg i) 15 1 0 else b
    (b.setTxo i txPending).count (Reg.canTxoRetries c (i % 512))

/-- Bus-off (R411). -/
def Block.busOff (b : Block) (c : Nat) : Block :=
  let b := (b.setFld (Reg.canState c) 16 8 255).setCan c cnBusOff
  let b := (b.count (Reg.canBusOffs c)).raisePost (Reg.canFlags c) 1 (sidCan c)
  b.setFld (Reg.canState c) 3 1 (b2n (!b.bit (Reg.canState c) 8))

/-- An error detected outside rate detection (R411): counters, record and, beyond 255, bus-off. `tx` is the object whose frame
failed, if the controller was sending. -/
def Block.busError (b : Block) (c cause : Nat) (tx : Option Nat) : Block :=
  let quiet := b.canMode c == cnPassive && cause == 5
  let up := if tx.isSome then (if quiet then 0 else 8) else 0
  let t := b.tec c + up
  let r := if tx.isSome then b.rec' c else b.rec' c + 1
  let obj := match tx with | some i => sidTxo i | none => 0
  let b := (b.count (Reg.canErrors c)).busFrame c 0 5 0 obj cause (satNat 255 t + 256 * satNat 255 r) []
  if decide (256 ≤ t) then b.busOff c else b.setCounters c t r

/-- R411: a lost arbitration, or an error with its cause (R414: 1 bit, 2 stuff, 3 CRC, 4 form, 5 ACK). -/
def execCanError (ctl : Fin 8) (arbitration : Bool) (cause : Fin 6) (s : State) : Host.Outcome State Fault Refusal :=
  nextB s fun b =>
    let c := ctl.val
    let m := b.canMode c
    if m = cnDetect then (if arbitration then b else b.tryCandidate c (nextCandidate (b.can c).mask (b.can c).trying))
    else if !(m == cnListen || m == cnActive || m == cnPassive) then b else
    let tx := b.committed c
    let b := match tx with | some i => b.txFail c i | none => b
    (if arbitration then b else b.busError c cause.val tx).canIdle c

/-- R411: recovery has ended; the controller is error-active with its counters at 0. -/
def execBusOffRecoveryEnd (ctl : Fin 8) (s : State) : Host.Outcome State Fault Refusal :=
  nextB s fun b =>
    let c := ctl.val
    if b.canMode c != cnBusOff || !b.bit (Reg.canState c) 3 then b else
    ((b.setFld (Reg.canState c) 3 1 0).setFld (Reg.canState c) 16 16 0).setCan c cnActive

/-- R407: a cyclic period is reached. -/
def execCyclicPeriod (ctl : Fin 8) (obj : Fin 512) (s : State) : Host.Outcome State Fault Refusal :=
  nextB s fun b =>
    let i := 512 * ctl.val + obj.val
    let e := b.fix tTxo i
    match (b.txo i).due with
    | some t =>
      if b.now < t then b else
      let b := b.putTxo i { b.txo i with due := some (t + 1000 * u32 e 8) }
      if b.txoNoNode i then b else b.txTrigger i true
    | none => b

/-- R401: a candidate has had its DWELL. -/
def execDetectDwellEnd (ctl : Fin 8) (s : State) : Host.Outcome State Fault Refusal :=
  nextB s fun b =>
    let c := ctl.val
    let x := b.can c
    if b.canMode c != cnDetect || decide (b.now < x.tryAt + 1000000 * x.dwell) then b
    else b.tryCandidate c (nextCandidate x.mask x.trying)

/-- R401. -/
def execDetectTimeout (ctl : Fin 8) (s : State) : Host.Outcome State Fault Refusal :=
  nextB s fun b =>
    let c := ctl.val
    if b.canMode c != cnDetect || decide (b.now < (b.can c).timeoutAt) then b else b.detectEnd c false

/-! ### Commands (R421–R423) -/

def isCanSid (sid : Nat) : Bool := decide (0x800000 ≤ sid) && decide (sid < 0x800008)
def isTxoSid (sid : Nat) : Bool := decide (0x830000 ≤ sid) && decide (sid < 0x831000)
def Block.busPre (b : Block) (c : Cmd) : List (Option Refuse) := [authCheck c roleOperator, devCheck b devLive, envCheck c]

/-- R399, R421, R422. -/
def execCanMode (c : Cmd) (s : State) : Host.Outcome State Fault Refusal :=
  nextB s fun b =>
    let a := cArg c
    let k := cObj c - 0x800000
    let m := b.canMode k
    b.runDone 0x1001 c (b.busPre c ++ [deny (decide (2 < u8 a 0) || decide (15 < u8 a 1)) stBadArg,
      deny (!isCanSid (cObj c)) stBadRef, deny (!b.setUsed k (u8 a 1)) stBadRef,
      deny (m == cnDetect) stConflict 0x01 m, deny (m == cnBusOff && u8 a 0 != 0) stConflict 0x02 m]) fun b =>
      let hold := (u8 a 2).testBit 0
      if (b.committed k).isSome then b.putCan k { b.can k with want := some (u8 a 0, u8 a 1, hold) }
      else b.enterMode k (u8 a 0) (u8 a 1) hold

/-- R401, R421, R422. -/
def execCanDetect (c : Cmd) (s : State) : Host.Outcome State Fault Refusal :=
  nextB s fun b =>
    let a := cArg c
    let k := cObj c - 0x800000
    let m := b.canMode k
    let mask := u16 a 0
    b.run 0x1002 c (b.busPre c ++ [deny (mask == 0 || u8 a 2 == 0 || u32 a 4 == 0 || decide (600000 < u32 a 4)) stBadArg,
      deny (!isCanSid (cObj c) || (List.range 16).any fun i => mask.testBit i && !b.setUsed k i) stBadRef,
      deny (m == cnDetect) stConflict 0x01 m, deny (m == cnActive || m == cnPassive) stConflict 0x04 m,
      deny (m == cnBusOff) stConflict 0x02 m]) fun b =>
      let x : CanSt := { mask := mask, dwell := u8 a 2, timeoutAt := b.now + 1000000 * u32 a 4, op := some (opOf c 0x1002),
                         back := m, backSet := b.canSet k }
      (((b.putCan k x).setCan k cnDetect).tryCandidate k (((List.range 16).find? fun i => mask.testBit i).getD 0), stQueued, 0, [])

/-- R411, R422. -/
def execCanRecover (c : Cmd) (s : State) : Host.Outcome State Fault Refusal :=
  nextB s fun b =>
    let k := cObj c - 0x800000
    let m := b.canMode k
    b.runDone 0x1003 c (b.busPre c ++ [deny (!isCanSid (cObj c)) stBadRef, deny (m != cnBusOff) stConflict 0x05 m,
      deny (!b.bit (Reg.canState k) 8) stConflict 0x06 m]) fun b => b.setFld (Reg.canState k) 3 1 1

/-- R407, R408, R421, R422. -/
def execCanTx (c : Cmd) (s : State) : Host.Outcome State Fault Refusal :=
  nextB s fun b =>
    let a := cArg c
    let i := cObj c - 0x830000
    let tx := (u8 a 0).testBit 0
    let dat := (u8 a 0).testBit 1
    let len := u16 a 2
    let m := b.canMode (i / 512)
    b.run 0x1004 c ([authCheck c roleOperator, devCheck b devLive, deny (tx && b.dev == dsAwaitWorld) stConflict 0x03 b.dev,
      envCheck c, deny (decide (40 < len) || (isTxoSid (cObj c) && b.txoUsed i && decide (b.txoLen i < u32 a 4 + len))) stBadArg,
      deny (!isTxoSid (cObj c) || !b.txoUsed i) stBadRef,
      deny (tx && (m == cnOff || m == cnDetect || m == cnListen)) stConflict 0x07 m]) fun b =>
      let b := if dat then b.txData i (u32 a 4) (slice a 8 len) else b
      if tx && b.txoNoNode i then (b, stAbandoned, 0x0C, [])
      else (if tx then b.txTrigger i else b, stDone, 0, [])

/-- R410. -/
def Block.txCancel (b : Block) (i : Nat) : Block :=
  let s := b.txoState i
  if s = txPending then (b.setTxo i txCancelled).setFld (Block.txoReg i) 15 1 0
  else if s = txCommitted then (b.putTxo i { b.txo i with cancelled := true }).setFld (Block.txoReg i) 15 1 0
  else b

/-- R410, R421. -/
def execCanCancel (c : Cmd) (s : State) : Host.Outcome State Fault Refusal :=
  nextB s fun b =>
    let i := cObj c - 0x830000
    b.runDone 0x1005 c (b.busPre c ++ [deny (!isTxoSid (cObj c) || !b.txoUsed i) stBadRef]) fun b => b.txCancel i

/-- A read of `CAN.RXO[k].SNAP` consumes the object; a host read also copies the data (R405). -/
def Block.snapRead (b : Block) (host : Bool) (k : Nat) : Block :=
  let x := b.rxo k
  let b := if host then
      let d := padTo 64 x.data
      let b := (List.range 16).foldl (fun (b : Block) i => b.wrN (Reg.canHostSnap i) (u32 d (4 * i))) b
      b.wr64 Reg.canHostSnapXl (x.af + 2 ^ 32 * x.sdt + 2 ^ 40 * x.vcid + 2 ^ 48 * b2n x.sec)
    else b
  b.consumeRxo k


/-! ### Loading -/

/-- At t7 the controllers enter the mode and set that the image gives them (R399), and transmit fields take INIT (R412). A
controller's entry is MODE, SET and HOLD in bytes 0–2 (log 8). -/
def Block.canInit (b : Block) : Block :=
  let b := (entsOf b.cfg tCanCtl).foldl (fun (b : Block) p => b.enterMode p.1 (u8 p.2 0) (u8 p.2 1) ((u8 p.2 2).testBit 0)) b
  let b := b.showRxos
  ((entsOf b.bank tFormat).filter fun p => (u8 p.2 3).testBit 0).foldl (fun (b : Block) p =>
    let i := txoOf (u24 p.2 4)
    b.putTxo i { b.txo i with data := fieldPut p.2 (padTo (b.txoLen i) (b.txo i).data) (u32 p.2 12) }) b

/-- A bank swap adds fields: those take their INIT (R412). -/
def Block.canSwap (b : Block) (old : Tab (List Byte)) : Block :=
  ((entsOf b.bank tFormat).filter fun p => (u8 p.2 3).testBit 0 && !(entsOf old tFormat).any fun q => u24 q.2 0 == u24 p.2 0).foldl
    (fun (b : Block) p =>
      let i := txoOf (u24 p.2 4)
      b.putTxo i { b.txo i with data := fieldPut p.2 (padTo (b.txoLen i) (b.txo i).data) (u32 p.2 12) }) b

/-- Entry to OPERATIONAL starts the cyclic periods (R406). -/
def Block.canStart (b : Block) : Block :=
  ((entsOf b.cfg tTxo).filter fun p => (u8 p.2 0).testBit 0 && (u8 p.2 0).testBit 5).foldl (fun (b : Block) p =>
    b.putTxo p.1 { b.txo p.1 with due := some (b.now + 1000 * u32 p.2 12) }) b

end Sys2Proof.Machine
end

