-- ==== Sys2Proof/Machine/Serial.lean ====
section
/-! DEFINITION. Machine/Serial.lean: serial ports (17 R415–R418, R421, R423) and the edges of discrete lines (17 R419, R420). -/

namespace Sys2Proof.Machine

/-! ### Messages -/

/-- CRC-16 with polynomial 0x8005 reflected, initial value 0xFFFF (R416). -/
def crc16r (l : List Byte) : Nat :=
  l.foldl (fun c v => (List.range 8).foldl (fun c _ => if c % 2 = 1 then (c / 2) ^^^ 0xA001 else c / 2) (c ^^^ v.toNat)) 0xFFFF

/-- CRC-16 with polynomial 0x1021, initial value 0xFFFF (R416). -/
def crc16n (l : List Byte) : Nat :=
  l.foldl (fun c v => (List.range 8).foldl (fun c _ =>
    if 0x8000 ≤ c then (c * 2 ^^^ 0x1021) % 0x10000 else c * 2) (c ^^^ (v.toNat * 256))) 0xFFFF

/-- The ASCII hexadecimal digit of a number below 16, in either case as a reader of it. -/
def hexVal (v : Byte) : Option Nat :=
  let n := v.toNat
  if 0x30 ≤ n ∧ n ≤ 0x39 then some (n - 0x30)
  else if 0x41 ≤ n ∧ n ≤ 0x46 then some (n - 0x37)
  else if 0x61 ≤ n ∧ n ≤ 0x66 then some (n - 0x57) else none

/-- Bytes that a CHECK occupies. -/
def checkLen (k : Nat) : Nat := if k = 0 then 0 else if k ≤ 2 then 1 else 2

/-- Does a body pass its check bytes (R416)? -/
def checkOk (k : Nat) (body chk : List Byte) : Bool :=
  match k with
  | 0 => true
  | 1 => (body.map (·.toNat)).sum % 256 == u8 chk 0
  | 2 => body.foldl (fun c v => c ^^^ v.toNat) 0 == u8 chk 0
  | 3 => (match hexVal (chk.getD 0 0#8), hexVal (chk.getD 1 0#8) with
      | some h, some l => 16 * h + l == Config.lrc body % 256
      | _, _ => false)
  | 4 => crc16r body == u16 chk 0
  | _ => crc16n body == u8 chk 1 + 256 * u8 chk 0

def isSpace (v : Byte) : Bool := v == 0x20#8
/-- A field's characters without leading and trailing spaces. -/
def trimmed (l : List Byte) : List Byte := ((l.dropWhile isSpace).reverse.dropWhile isSpace).reverse
def isDigit (v : Byte) : Bool := decide (0x30 ≤ v.toNat) && decide (v.toNat ≤ 0x39)
/-- The number that ASCII digits spell; none where there is no digit or another character. -/
def decNat (l : List Byte) : Option Nat :=
  if l.isEmpty || !l.all isDigit then none else some (l.foldl (fun a v => 10 * a + (v.toNat - 0x30)) 0)
/-- Split an optional sign off. -/
def splitSign (l : List Byte) : Bool × List Byte :=
  match l with
  | v :: r => if v == 0x2D#8 then (true, r) else if v == 0x2B#8 then (false, r) else (false, l)
  | [] => (false, [])

/-- ASCII decimal to int32 (R416). -/
def parseDec (l : List Byte) : Option DWord :=
  let p := splitSign (trimmed l)
  match decNat p.2 with
  | some n =>
    let x : Int := if p.1 then -(n : Int) else n
    if decide (-2147483648 ≤ x) && decide (x ≤ 2147483647) then some (BitVec.ofInt 64 x) else none
  | none => none

/-- ASCII hexadecimal to int32 (R416). -/
def parseHex (l : List Byte) : Option DWord :=
  let l := trimmed l
  if l.isEmpty then none else
  match l.foldl (fun a v => match a, hexVal v with | some x, some h => some (16 * x + h) | _, _ => none) (some 0) with
  | some n => if n < 2 ^ 32 then some (BitVec.ofInt 64 (toSigned 32 n)) else none
  | none => none

/-- ASCII float to binary32, rounded to nearest (R416). -/
def parseFloat (l : List Byte) : Option DWord :=
  let p := splitSign (trimmed l)
  let isE (v : Byte) := v == 0x45#8 || v == 0x65#8
  let mant := p.2.takeWhile fun v => !isE v
  let tail := p.2.drop mant.length
  let ip := mant.takeWhile isDigit
  let fp := match mant.drop ip.length with | v :: r => if v == 0x2E#8 then some r else none | [] => some []
  let ex : Option Int := match tail with
    | [] => some 0
    | _ :: r => let q := splitSign r; (decNat q.2).map fun n => if q.1 then -(n : Int) else (n : Int)
  match fp, ex with
  | some f, some e =>
    (match decNat (ip ++ f) with
     | some n =>
       let k : Int := e - (f.length : Int)
       let mag : Rat := if 0 ≤ k then (n : Rat) * ((10 ^ k.toNat : Nat) : Rat) else (n : Rat) / ((10 ^ (-k).toNat : Nat) : Rat)
       some ((roundF32 (if p.1 then -mag else mag) p.1).1.zeroExtend 64)
     | none => none)
  | _, _ => none

/-- A field of a message (R416): none where it does not parse. -/
def parseField (e msg : List Byte) : Option DWord :=
  let bs := slice msg (u8 e 4) (u8 e 5)
  if bs.length < u8 e 5 then none else
  let bin (v n : Nat) : DWord := if (u8 e 6).testBit 0 then BitVec.ofInt 64 (toSigned (8 * n) v) else BitVec.ofNat 64 v
  match u8 e 3 with
  | 0 => parseDec bs
  | 1 => parseFloat bs
  | 2 => parseHex bs
  | 3 => some (bin (leNat bs) bs.length)
  | _ => some (bin (leNat bs.reverse) bs.length)

/-! ### Ports -/

def srOff : Nat := 0
def srIdle : Nat := 1
def srBusy : Nat := 2
def sidSer (p : Nat) : Nat := 0x800010 + p
def Block.ser (b : Block) (p : Nat) : SerSt := tget {} b.sers p
def Block.putSer (b : Block) (p : Nat) (x : SerSt) : Block := { b with sers := tput b.sers p x }
def Block.serMode (b : Block) (p : Nat) : Nat := b.fld (Reg.serState p) 0 2
/-- Message entry `i` of a port (R416). -/
def Block.serEntry (b : Block) (p i : Nat) : List Byte := b.act tSer (64 * p + i)
/-- The byte pool of a port is entry p of the parts, field entry f is entry 16 + f (log 8). -/
def Block.serPool (b : Block) (p : Nat) : List Byte := b.act tSerPart p
def Block.serField (b : Block) (f : Nat) : List Byte := b.act tSerPart (16 + f)
/-- A bit time in 1/32 ns: DIV / 1.28 GHz (R415). -/
def Block.bitTime (b : Block) (p : Nat) : Nat := 25 * b.fld (Reg.serCfg p) 12 20
/-- TURN in ns (R415); a port's entry holds CFG, DE_LEAD, DE_LAG, GAP and TURN in bytes 0–7 and ON in byte 8 (log 8). -/
def Block.turnNs (b : Block) (p : Nat) : Nat := u8 (b.fix tSerPort p) 7 * b.bitTime p / 32

/-- Show the queue's length. -/
def Block.showSer (b : Block) (p : Nat) : Block := b.setFld (Reg.serState p) 4 4 (b.ser p).queue.length

/-- Write a SERIAL_MSG record (R418). -/
def Block.serRecord (b : Block) (p dir status entry attempt : Nat) (bytes : List Byte) : Block :=
  b.record (sidSer p) 0x09 (leBytes 1 dir ++ leBytes 1 status ++ leBytes 2 (if entry < 64 then entry else 0xFFFF) ++
    leBytes 2 bytes.length ++ leBytes 1 attempt ++ zeroBytes 1 ++ bytes) (status != 0)

/-- Start a transaction. -/
def Block.serBegin (b : Block) (p : Nat) (r : SerReq) : Block :=
  let b := b.putSer p { b.ser p with cur := some r, attempt := 0, await := false }
  let b := (b.setFld (Reg.serState p) 0 2 srBusy).setFld (Reg.serState p) 8 6 (r.entry % 64)
  match r.op with
  | some o => b.settle o false stDone
  | none => b

/-- The request bytes of an entry. -/
def Block.template (b : Block) (p i : Nat) : List Byte := let e := b.serEntry p i; slice (b.serPool p) (u16 e 4) (u8 e 6)

/-- Begin the next transaction if the port is IDLE and free (R417): due AUTO entries in entry order, then requests. -/
def Block.serNext (b : Block) (p : Nat) : Block :=
  let x := b.ser p
  if b.serMode p != srIdle || x.turnFrom.isSome || !devWorld.contains b.dev then b else
  match (List.range 64).find? fun i => x.due.contains i with
  | some i => (b.putSer p { x with due := x.due.filter (· != i) }).serBegin p { entry := i, bytes := b.template p i }
  | none =>
    match x.queue with
    | r :: rest => ((b.putSer p { x with queue := rest }).showSer p).serBegin p r
    | [] => b

/-- A port goes OFF: its queued requests complete with ABANDONED (R423). -/
def Block.serOff (b : Block) (p : Nat) : Block :=
  let x := b.ser p
  let b := x.queue.foldl (fun (b : Block) r => match r.op with | some o => b.settle o false stAbandoned 0x0E | none => b) b
  let b := b.putSer p { x with queue := [], due := [], cur := none, await := false, turnFrom := none, again := false, off := false }
  (b.showSer p).setFld (Reg.serState p) 0 2 srOff

/-- A transaction ends; TURN bit times pass before the next transmission after a received message (R415). -/
def Block.serEnd (b : Block) (p : Nat) (turn : Bool) : Block :=
  let x := b.ser p
  let b := b.count48 (Reg.serTransactions p)
  let wait := turn && decide (0 < b.turnNs p)
  let b := b.putSer p { x with cur := none, await := false, again := false, turnFrom := if wait then some b.now else none }
  let b := b.setFld (Reg.serState p) 0 2 srIdle
  if x.off then b.serOff p else b.serNext p

/-- A POLL fails (R417): it is repeated after TURN up to RETRIES times; the last failure is counted and reported. -/
def Block.serFail (b : Block) (p entry cause : Nat) : Block :=
  let x := b.ser p
  if x.attempt < u8 (b.serEntry p entry) 24 then
    let wait := decide (0 < b.turnNs p)
    b.putSer p { x with attempt := x.attempt + 1, await := false, again := wait, turnFrom := if wait then some b.now else none }
  else
    let b := (b.count (Reg.serFails p)).raisePost (Reg.serFlags p) 1 (sidSer p) (leBytes 2 entry ++ leBytes 1 cause)
    b.serEnd p true

/-- Values of the fields of an entry, if every field parses. -/
def Block.serFields (b : Block) (e msg : List Byte) : Option (List (Nat × DWord)) :=
  (List.range (u8 e 25)).foldl (fun acc i =>
    let f := b.serField (u16 e 26 + i)
    match acc, parseField f msg with
    | some l, some v => some (l ++ [(u24 f 0, v)])
    | _, _ => none) (some [])

/-- A received message from its START character on, if the entry asks for one (R416). -/
def fromStart (e msg : List Byte) : List Byte := if (u8 e 1).testBit 0 then msg.dropWhile fun v => v.toNat != u8 e 2 else msg

/-- Examine a received message against an entry (R417): the cause of failure (0 for success) and the values of its fields. The
check stands before the END character where the message ends with it (log 24). -/
def Block.serExamine (b : Block) (p : Nat) (e raw : List Byte) (framing : Bool) : Nat × List (Nat × DWord) :=
  let msg := fromStart e raw
  let ended := (u8 e 1).testBit 1 && (match msg.getLast? with | some v => v.toNat == u8 e 3 | none => false)
  let body := if ended then msg.dropLast else msg
  let k := checkLen (u8 e 11)
  let n := body.length - k
  if framing then (2, [])
  else if msg.isEmpty || slice msg 0 (u8 e 7) != slice (b.serPool p) (u16 e 8) (u8 e 7) then (3, [])
  else if decide (u8 e 10 < msg.length) || decide (body.length < k) then (6, [])
  else if !checkOk (u8 e 11) (body.take n) (body.drop n) then (4, [])
  else match b.serFields e msg with
    | some l => (0, l)
    | none => (5, [])

/-- Update the fields of a message on one tick; each is a completion (R417). -/
def Block.serUpdate (b : Block) (l : List (Nat × DWord)) : Block := l.foldl (fun (b : Block) f => b.arrive f.1 f.2) b

/-- A message outside a transaction, or in full duplex: the first LISTEN entry that matches takes it (R417). -/
def Block.serListen (b : Block) (p : Nat) (msg : List Byte) (framing : Bool) : Block :=
  match (List.range 64).find? fun i => u8 (b.serEntry p i) 0 == 2 && (b.serExamine p (b.serEntry p i) msg framing).1 == 0 with
  | some i =>
    let r := b.serExamine p (b.serEntry p i) msg framing
    (b.serRecord p 1 0 i 0 msg).serUpdate r.2
  | none =>
    let b := (b.count (Reg.serUnsolicited p)).raise (Reg.serFlags p) 3 (sidSer p)
    b.serRecord p 1 (if framing then 2 else 3) 0xFFFF 0 msg

/-- R417: an AUTO entry falls due. -/
def execSerEntryDue (port : Fin 4) (entry : Nat) (s : State) : Host.Outcome State Fault Refusal :=
  nextB s fun b =>
    let p := port.val
    let x := b.ser p
    let e := b.serEntry p entry
    match tget? x.next entry with
    | some t =>
      if b.now < t || u8 e 0 == 0 || !(u8 e 1).testBit 3 then b else
      let x := { x with next := tput x.next entry (t + 1000 * u32 e 12) }
      if b.serMode p = srOff then b.putSer p x
      else if x.due.contains entry then ((b.putSer p x).count (Reg.serSkipped p)).raise (Reg.serFlags p) 2 (sidSer p)
      else if u8 e 0 = 2 then b.putSer p x
      else (b.putSer p { x with due := x.due ++ [entry] }).serNext p
    | none => b

/-- R417: the request has been sent; a POLL awaits its response, a SEND is done. -/
def execSerRequestSent (port : Fin 4) (s : State) : Host.Outcome State Fault Refusal :=
  nextB s fun b =>
    let p := port.val
    let x := b.ser p
    match x.cur with
    | some r =>
      if b.serMode p != srBusy || x.await || x.turnFrom.isSome then b else
      let b := b.serRecord p 0 0 r.entry x.attempt r.bytes
      if r.entry < 64 ∧ u8 (b.serEntry p r.entry) 0 = 1 then b.putSer p { x with await := true, sentAt := b.now } else b.serEnd p false
    | none => b

/-- R417: a message has ended. -/
def execSerMessageEnd (port : Fin 4) (msg : List Byte) (framing : Bool) (s : State) : Host.Outcome State Fault Refusal :=
  nextB s fun b =>
    let p := port.val
    let x := b.ser p
    if b.serMode p = srOff then b else
    let full := b.bit (Reg.serCfg p) 11
    let b := if framing then b.raise (Reg.serFlags p) 0 (sidSer p) else b
    match x.cur with
    | some r =>
      let e := b.serEntry p r.entry
      let v := b.serExamine p e msg framing
      if x.await && !(full && v.1 == 3) then
        let b := b.serRecord p 1 v.1 r.entry x.attempt msg
        if v.1 = 0 then (b.serUpdate v.2).serEnd p true else b.serFail p r.entry v.1
      else if full then b.serListen p msg framing
      else b
    | none => b.serListen p msg framing

/-- R417: no response has ended within RESP_TIMEOUT. -/
def execRespTimeout (port : Fin 4) (s : State) : Host.Outcome State Fault Refusal :=
  nextB s fun b =>
    let p := port.val
    let x := b.ser p
    match x.cur with
    | some r => if !x.await || decide (b.now < x.sentAt + 1000 * u32 (b.serEntry p r.entry) 20) then b else b.serFail p r.entry 1
    | none => b

/-- R415: TURN has passed: a failed request is repeated, or the next transaction begins. -/
def execSerTurnEnd (port : Fin 4) (s : State) : Host.Outcome State Fault Refusal :=
  nextB s fun b =>
    let p := port.val
    let x := b.ser p
    match x.turnFrom with
    | some t =>
      if b.now < t + b.turnNs p then b else
      let b := b.putSer p { x with turnFrom := none, again := false }
      if x.again then b else b.serNext p
    | none => b

/-! ### Commands (R421, R423) -/

def isSerSid (sid : Nat) : Bool := decide (0x800010 ≤ sid) && decide (sid < 0x800014)

/-- R423. -/
def execSerMode (c : Cmd) (s : State) : Host.Outcome State Fault Refusal :=
  nextB s fun b =>
    let p := cObj c - 0x800010
    b.runDone 0x1011 c (b.busPre c ++ [deny (!isSerSid (cObj c)) stBadRef]) fun b =>
      if (u8 (cArg c) 0).testBit 0 then
        (if b.serMode p = srOff then (b.setFld (Reg.serState p) 0 2 srIdle).serNext p else b.putSer p { b.ser p with off := false })
      else if b.serMode p = srBusy then b.putSer p { b.ser p with off := true }
      else if b.serMode p = srIdle then b.serOff p else b

/-- A request joins a port's queue; its command completes when its transaction begins, or with ABANDONED (log 25). -/
def Block.serRequest (b : Block) (opcode : Nat) (c : Cmd) (refusals : List (Option Refuse)) (r : SerReq) : Block :=
  let p := cObj c - 0x800010
  let rs := refusals ++ [deny (b.serMode p == srOff) stConflict 0x01 srOff, deny (decide (8 ≤ (b.ser p).queue.length)) stNoSpace]
  match firstRefusal rs with
  | some x => b.complete opcode c x.status x.reason [] x.code
  | none =>
    let b := b.putSer p { b.ser p with queue := (b.ser p).queue ++ [{ r with op := some (opOf c opcode) }] }
    (b.showSer p).serNext p

/-- R417, R421. -/
def execSerTrigger (c : Cmd) (s : State) : Host.Outcome State Fault Refusal :=
  nextB s fun b =>
    let p := cObj c - 0x800010
    let i := u8 (cArg c) 0
    b.serRequest 0x1012 c (b.busPre c ++ [deny (decide (63 < i)) stBadArg,
      deny (!isSerSid (cObj c) || u8 (b.serEntry p i) 0 == 0) stBadRef]) { entry := i, bytes := b.template p i }

/-- R417, R421. -/
def execSerSend (c : Cmd) (s : State) : Host.Outcome State Fault Refusal :=
  nextB s fun b =>
    let a := cArg c
    b.serRequest 0x1013 c (b.busPre c ++ [deny (u8 a 0 == 0 || decide (40 < u8 a 0)) stBadArg,
      deny (!isSerSid (cObj c)) stBadRef]) { entry := 64, bytes := slice a 8 (u8 a 0) }

/-- At t7 the ports take their settings. -/
def Block.serInit (b : Block) : Block :=
  (entsOf b.cfg tSerPort).foldl (fun (b : Block) p =>
    (b.wrN (Reg.serCfg p.1) (u32 p.2 0)).setFld (Reg.serState p.1) 0 2 (if (u8 p.2 8).testBit 0 then srIdle else srOff)) b

/-- The schedules of AUTO entries that have none yet start now: at the entry to OPERATIONAL, and at a bank swap (log 26). -/
def Block.serStart (b : Block) : Block :=
  ((entsOf b.bank tSer).filter fun q => u8 q.2 0 != 0 && (u8 q.2 1).testBit 3).foldl (fun (b : Block) q =>
    let p := q.1 / 64
    let x := b.ser p
    if (tget? x.next (q.1 % 64)).isSome then b
    else b.putSer p { x with next := tput x.next (q.1 % 64) (b.now + 1000 * u32 q.2 16) }) b

/-! ### Discrete lines (R419, R420) -/

/-- R419, R420: the filtered level of an input line changes. -/
def execDioEdge (line : Fin 192) (level : Bool) (s : State) : Host.Outcome State Fault Refusal :=
  nextB s fun b =>
    let n := line.val
    let r := Reg.dioIn (n / 32)
    if b.dioIsOut n || b.bankBad n || b.bit r (n % 32) == level then b else
    let b := b.setFld r (n % 32) 1 (b2n level)
    (b.arrive (sidDio n) (BitVec.ofNat 64 (b2n level))).dioEdge n level

/-- R420: the 4 µs after a line's previous record end. -/
def execDioEdgeMergeEnd (line : Fin 192) (s : State) : Host.Outcome State Fault Refusal :=
  nextB s fun b =>
    let n := line.val
    let x := b.dioSt n
    match x.lastRec with
    | some t =>
      if b.now < t + 4000 || x.edges == 0 then b else
      let l := if b.dioIsOut n then b.dioOut n else b.bit (Reg.dioIn (n / 32)) (n % 32)
      (b.dioRecord n x.edges l).raise Reg.dioFlags 0 (sidDio n)
    | none => b

/-- R419: a bank's sensed supply differs from its declaration: its lines keep their reset state. -/
def execDioBankMismatch (bank : Fin 12) (s : State) : Host.Outcome State Fault Refusal :=
  nextB s fun b =>
    let k := bank.val
    let b := (b.setFld (Reg.dioBankState k) 2 1 1).setFld (Reg.dioBankState k) 1 1 (1 - b.fld (Reg.dioBankState k) 0 1)
    let b := (b.setFld (Reg.dioOut (k / 2)) (16 * (k % 2)) 16 0).setFld (Reg.dioDir (k / 2)) (16 * (k % 2)) 16 0
    b.raisePost Reg.dioFlags 1 sidDevice (leBytes 1 k)

/-- At t7 the lines take direction, recording, filter and INIT level from the image, and the banks their declared supply (03 R55). A line's
entry holds OUTPUT, RECORD and INIT in bits 2:0 of byte 0 and FILTER in byte 1 (log 8). -/
def Block.dioInit (b : Block) : Block :=
  let b := (entsOf b.cfg tDioBank).foldl (fun (b : Block) p =>
    (b.setFld (Reg.dioBankState p.1) 0 1 (u8 p.2 0 % 2)).setFld (Reg.dioBankState p.1) 1 1
      ((u8 p.2 0 + b.fld (Reg.dioBankState p.1) 2 1) % 2)) b
  (entsOf b.cfg tDioLine).foldl (fun (b : Block) p =>
    let b := b.wrN (Reg.dioLineCfg p.1) (u8 p.2 0 % 4 + 256 * u8 p.2 1)
    if (u8 p.2 0).testBit 0 && !b.bankBad p.1 then
      (b.setFld (Reg.dioDir (p.1 / 32)) (p.1 % 32) 1 1).dioDrive p.1 ((u8 p.2 0).testBit 2)
    else b) b

end Sys2Proof.Machine
end

