-- ==== Sys2Proof/Machine/Recipes.lean ====
section
/-! DEFINITION. Machine/Recipes.lean: recipes as the bank holds them (05 R110–R113), lanes' registers and the pending-action queue
(05 R122–R127). -/

namespace Sys2Proof.Machine

/-! ### Recipes in a bank -/

/-- The header of a recipe in a bank (R110). -/
def recipeOf (t : Tab (List Byte)) (sid : Nat) : Option (List Byte) :=
  ((entsOf t tRecipe).find? fun p => u24 p.2 0 == sid).map (·.2)
def rcCount (h : List Byte) : Nat := u16 h 4
def rcBase (h : List Byte) : Nat := u32 h 8
def rcChamber (h : List Byte) : Nat := u8 h 12
/-- Step `i` of a recipe (R111). -/
def stepOf (t : Tab (List Byte)) (h : List Byte) (i : Nat) : List Byte := ent t tStep (rcBase h + i)
def spDuration (e : List Byte) : Nat := u32 e 0
def spNeedLoops (e : List Byte) : Bool := (u8 e 10).testBit 0
def spFaultOnly (e : List Byte) : Bool := (u8 e 10).testBit 1
def spLast (e : List Byte) : Bool := (u8 e 10).testBit 2
def spTimeoutNext (e : List Byte) : Bool := (u8 e 10).testBit 3
def spEndKind (e : List Byte) : Nat := u8 e 12
def spFault (e : List Byte) : Nat := u16 e 14
def spEndOp (e : List Byte) : Nat := u8 e 23
def spTimeout (e : List Byte) : Nat := u32 e 28
def spTol (e : List Byte) : Nat := u16 e 32
def spWaitSm (e : List Byte) : Nat := u8 e 34
def spWaitState (e : List Byte) : Nat := u8 e 35
/-- The actions of a step with their indices in the action memory. -/
def actionsOf (t : Tab (List Byte)) (base n : Nat) : List (Nat × List Byte) :=
  (List.range n).map fun i => (base + i, ent t tAction (base + i))
def spActions (t : Tab (List Byte)) (e : List Byte) : List (Nat × List Byte) := actionsOf t (u32 e 4) (u16 e 8)
/-- The claims of a step (R113): consumer, claim, minimum. -/
def spClaims (t : Tab (List Byte)) (e : List Byte) : List (Nat × Nat × Nat) :=
  (List.range (u8 e 13)).map fun i => let c := ent t tClaim (u32 e 16 + i); (u24 c 0 - 0xA01000, u32 c 4, u32 c 8)

/-! ### Action entries (R122) -/

def acKind (e : List Byte) : Nat := u8 e 0
def acLate (e : List Byte) : Nat := field (u8 e 1) 0 2
def acCritical (e : List Byte) : Bool := (u8 e 1).testBit 2
def acCarry (e : List Byte) : Bool := (u8 e 1).testBit 3
def acBase (e : List Byte) : Nat := u8 e 2
def acEvent (e : List Byte) : Nat := u8 e 3
def acTime (e : List Byte) : Nat := u64 e 4
def acTarget (e : List Byte) : Nat := u24 e 12
/-- Is a late action dropped (R126)? -/
def acDrop (e : List Byte) : Bool := acLate e == 2 || (acLate e == 0 && acCritical e)

/-! ### Lanes' registers (R107, R139) -/

def lsIdle : Nat := 0
def lsLoaded : Nat := 1
def lsRunning : Nat := 2
def lsHeld : Nat := 3
def lsAborting : Nat := 4
def lsSafe : Nat := 5
def lsFaulted : Nat := 6

def Block.ln (b : Block) (n : Nat) : LaneSt := tget {} b.seq.lanes n
def Block.putLn (b : Block) (n : Nat) (x : LaneSt) : Block := { b with seq := { b.seq with lanes := tput b.seq.lanes n x } }
def Block.lnState (b : Block) (n : Nat) : Nat := b.fld (Reg.seqLaneState n) 0 8
/-- A lane's state, and for 12 R296 the one it had before this tick. -/
def Block.setLn (b : Block) (n s : Nat) : Block :=
  let old := b.lnState n
  let seen := match tget? b.tim.laneWas n with | some x => x.1 == b.now | none => false
  let b := if seen || old == s then b else { b with tim := { b.tim with laneWas := tput b.tim.laneWas n (b.now, old) } }
  b.setFld (Reg.seqLaneState n) 0 8 s
def Block.lnRecipe (b : Block) (n : Nat) : Nat := b.rdN (Reg.seqLaneRecipe n)
def Block.lnStep (b : Block) (n : Nat) : Nat := b.fld (Reg.seqLaneStep n) 0 16
def Block.lnHead (b : Block) (n : Nat) : List Byte := (recipeOf b.bank (b.lnRecipe n)).getD []
def Block.lnFaultPath (b : Block) (n : Nat) : Bool := b.bit (Reg.seqLaneState n) 13
def Block.lnHost (b : Block) (n : Nat) : Bool := b.bit (Reg.seqLaneState n) 8
def Block.lnFlag (b : Block) (n i : Nat) : Block := b.raise (Reg.seqLaneFlags n) i (sidLane n)
/-- The lane-table entry (R109). -/
def Block.lnTab (b : Block) (n : Nat) : List Byte := b.act tLane n

/-! ### State machines' registers -/

def Block.sm (b : Block) (m : Nat) : SmSt := tget {} b.seq.sms m
def Block.putSm (b : Block) (m : Nat) (x : SmSt) : Block := { b with seq := { b.seq with sms := tput b.seq.sms m x } }
def Block.smHead (b : Block) (m : Nat) : List Byte := b.act tMachine m
def Block.smUsed (b : Block) (m : Nat) : Bool := hasEnt b.bank tMachine m
def Block.smState (b : Block) (m : Nat) : Nat := b.fld (Reg.seqSmState m) 0 6
/-- State entry `s` of a machine (R132). -/
def Block.smEntry (b : Block) (m s : Nat) : List Byte := b.act tSmState (u32 (b.smHead m) 4 + s)
def Block.smOwner (b : Block) (m : Nat) : Option Nat := let o := u8 (b.smHead m) 2; if o = 0xFF then none else some o
/-- Is the machine in a state flagged SAFE? -/
def Block.smSafe (b : Block) (m : Nat) : Bool := b.smUsed m && (u8 (b.smEntry m (b.smState m)) 6).testBit 0

/-- An event for a machine (R133): queued, or dropped at a full queue; answers whether it was taken. -/
def Block.smPost (b : Block) (m code : Nat) : Block × Bool :=
  let x := b.sm m
  if 16 ≤ x.queue.length then ((b.count Reg.seqSmDrops).raise Reg.seqFlags 1 (sidMachine m), false)
  else (b.putSm m { x with queue := x.queue ++ [code] }, true)

/-! ### The pending-action queue (R124, R127) -/

def isLane (n : Nat) (s : ActSrc) : Bool := match s with | .lane k => k.val == n | _ => false
def isMachine (m : Nat) (s : ActSrc) : Bool := match s with | .machine k => k.val == m | _ => false
def isAnyMachine (s : ActSrc) : Bool := match s with | .machine _ => true | _ => false
def isPost (s : ActSrc) : Bool := match s with | .thread _ => true | _ => false
/-- The SID in the header of an action's records (11 R272). -/
def srcSid (s : ActSrc) : Nat :=
  match s with | .lane n => sidLane n.val | .machine m => sidMachine m.val | .thread t => sidThread t.val

/-- Replace the queue, with its registers. -/
def Block.setQueue (b : Block) (q : List Pend) : Block :=
  let b := { b with seq := { b.seq with queue := q } }
  let hw := b.fld Reg.seqQueue 16 16
  let b := b.wrN Reg.seqQueue (q.length + 65536 * (if hw < q.length then q.length else hw))
  (List.range 16).foldl (fun (b : Block) n =>
    b.setFld (Reg.seqLaneQuota n) 16 16 ((q.filter fun p => isLane n p.src).length)) b

/-- An ACTION_RESULT record (11 R276). -/
def Block.actionRec (b : Block) (p : Pend) (status reason lateness : Nat) : Block :=
  b.record (srcSid p.src) 0x21 (leBytes 3 (acTarget p.entry) ++ leBytes 1 (acKind p.entry) ++ leBytes 1 status ++ leBytes 1 reason ++
    leBytes 2 p.step ++ leBytes 4 lateness ++ leBytes 4 p.idx)

/-- The lane fault cause that an outcome of a TIME_CRITICAL action has (R128); 0 for none. -/
def outcomeCause (status reason : Nat) : Nat :=
  if status = stDone ∨ status = stDoneLate then 0
  else if status = stAbandoned then (if reason = 1 then 1 else if reason ≤ 4 then 0 else 6)
  else if status = stInterlock then 5 else 6

/-- An action ends (R127, R128): it leaves the queue, is recorded and marks its lane's flags. -/
def Block.endAction (b : Block) (p : Pend) (status reason : Nat) (lateness : Nat := 0) : Block :=
  let b := b.setQueue (b.seq.queue.erase p)
  let b := if status = stDone ∨ status = stDoneLate then (b.count48 Reg.seqActionsApplied).blkCount 0x22 else b
  let b := if status = stInterlock then b.count Reg.seqInterlockRefusals else b
  let b := b.actionRec p status reason (if status = stDoneLate then lateness else 0)
  match p.src with
  | .lane n =>
    if status = stDoneLate then b.lnFlag n.val 1
    else if status = stAbandoned ∧ reason = 1 then b.lnFlag n.val 2
    else if status = stInterlock then b.lnFlag n.val 3 else b
  | _ => b

/-- Abandon the pending actions that satisfy a condition. -/
def Block.abandon (b : Block) (sel : Pend → Bool) (reason : Nat) : Block :=
  (b.seq.queue.filter sel).foldl (fun (b : Block) p => b.endAction p stAbandoned reason) b

/-- Abandon all actions of a lane because it aborts or takes a fault path, and stop its ramps (R127). -/
def Block.abandonLane (b : Block) (n reason : Nat) : Block :=
  let b := b.abandon (fun p => isLane n p.src) reason
  (b.seq.ramps.filter fun r => isLane n r.2.src).foldl (fun (b : Block) r => b.stopRamp r.1) b

/-- The tick from which a late action that runs takes effect: at or after its time and after its placement (R126). -/
def lateRun (now due : Nat) : Nat := if now < due then due else now + 4

/-- An action's time becomes known (R126): one that lies less than 2 µs ahead is late, and is dropped or runs late. Answers
whether it was dropped. -/
def Block.timeAction (b : Block) (p : Pend) (due : Nat) : Block × Bool :=
  if due < b.now + 2000 then
    let b := (b.count Reg.seqLate).blkCount 0x23
    if acDrop p.entry then (b.endAction p stAbandoned 1, true)
    else
      (b.setQueue (b.seq.queue.map fun x => if x = p then { x with due := some due, runAt := lateRun b.now due, late := true } else x),
       false)
  else (b.setQueue (b.seq.queue.map fun x => if x = p then { x with due := some due, runAt := due } else x), false)

/-- Place one action (R122, R124, R126): `t0` is the time that BASE STEP counts from. Answers the outcome: 0 pending, else the
status with which it ended on placement. -/
def Block.placeAction (b : Block) (src : ActSrc) (step idx : Nat) (e : List Byte) (t0 : Nat) : Block × Nat × Nat :=
  let p : Pend := { src := src, step := step, idx := idx, entry := e, due := none, placed := b.now }
  let q := b.seq.queue
  let room := match src with
    | .lane _ => true
    | .machine _ => decide ((q.filter fun x => isAnyMachine x.src).length < b.fld Reg.seqPool 0 16)
    | .thread _ => decide ((q.filter fun x => isPost x.src).length < b.fld Reg.seqPool 16 16)
  if !room then
    let b := if isPost src then b.raise Reg.seqFlags 2 (srcSid src) else b
    (b.endAction p stNoSpace 0, stNoSpace, 0)
  else if isPost src && (acBase e == 1 || acKind e == 9) then (b.endAction p stBadArg 0, stBadArg, 0)
  else
    let b := b.setQueue (q ++ [p])
    if acBase e = 1 then (b, 0, 0)
    else
      let r := b.timeAction p (if acBase e = 2 then acTime e else t0 + acTime e)
      if r.2 then (r.1, stAbandoned, 1) else (r.1, 0, 0)

/-- Place the actions of a step; answers whether a TIME_CRITICAL one was dropped as late. -/
def Block.placeAll (b : Block) (src : ActSrc) (step t0 : Nat) (acts : List (Nat × List Byte)) : Block × Bool :=
  acts.foldl (fun (acc : Block × Bool) a =>
    let r := acc.1.placeAction src step a.1 a.2 t0
    (r.1, acc.2 || (acCritical a.2 && r.2.1 == stAbandoned))) (b, false)

end Sys2Proof.Machine
end

