-- ==== Sys2Proof/Machine/Ledger.lean ====
section
/-! DEFINITION. Machine/Ledger.lean: the ledger's account (06 R140–R151) as shared operations, and its commands (06 R159, R160). -/

namespace Sys2Proof.Machine

def Block.cons (b : Block) (c : Nat) : ConsSt := tget {} b.lgr.cons c
def Block.putCons (b : Block) (c : Nat) (x : ConsSt) : Block := { b with lgr := { b.lgr with cons := tput b.lgr.cons c x } }
def Block.res (b : Block) (r : Nat) : ResSt := tget {} b.lgr.res r
def Block.putRes (b : Block) (r : Nat) (x : ResSt) : Block := { b with lgr := { b.lgr with res := tput b.lgr.res r x } }
def Block.claimSet (b : Block) (n : Nat) : Option ClaimSet := tget? b.lgr.sets n
def Block.putSet (b : Block) (n : Nat) (x : ClaimSet) : Block := { b with lgr := { b.lgr with sets := tput b.lgr.sets n x } }
def Block.delSet (b : Block) (n : Nat) : Block := { b with lgr := { b.lgr with sets := tdel b.lgr.sets n } }

/-- The ledger header and a consumer's entry of the active bank (R140, R141). -/
def Block.lgrHead (b : Block) : List Byte := b.act tLgrHead 0
def Block.consEnt (b : Block) (c : Nat) : List Byte := b.act tCons c
def Block.consAll (b : Block) : List Nat := List.range (u16 b.lgrHead 0)
def Block.consPresent (b : Block) (c : Nat) : Bool := b.bit (Reg.lgrConsStatus c) 0
def Block.consRank (b : Block) (c : Nat) : Nat := u8 (b.consEnt c) 7
/-- Does the image declare the resource (R140)? -/
def Block.resExists (b : Block) (r : Nat) : Bool :=
  if r < 8 then (u8 b.lgrHead 2).testBit r else r < 12 && (u8 b.lgrHead 3).testBit (r - 8)

/-- w(c) of R143: the share of consumer c's power counted on resource r. -/
def Block.weight (b : Block) (c r : Nat) : Rat :=
  let e := b.consEnt c
  if r < 8 then (if u8 e 4 = r then 1 else 0) else if u8 e 5 = r - 8 then (u8 e 6 : Rat) / 100 else 0

/-- The consumers that draw on a resource. -/
def Block.consOn (b : Block) (r : Nat) : List Nat := b.consAll.filter fun c => b.weight c r ≠ 0
/-- A weighted sum over a resource (R143). -/
def Block.resSum (b : Block) (r : Nat) (f : Nat → Rat) : Rat := ((b.consOn r).map fun c => b.weight c r * f c).sum

/-- A claim is counted at no more than the rating in force (R144). -/
def Block.counted (b : Block) (c w : Nat) : Nat := min w (b.cons c).rating
/-- The standing claim of the lane that holds a consumer (R144). -/
def Block.standing (b : Block) (c : Nat) : Nat := b.counted c (max (b.cons c).committed (b.cons c).admitted)
/-- Does the resource's state let it carry load (R142)? -/
def Block.resIn (b : Block) (r : Nat) : Bool := b.fld (Reg.lgrResStatus r) 0 2 != 0
def Block.shedding (b : Block) (r : Nat) : Bool := b.fld (Reg.lgrResStatus r) 0 2 == 2
/-- The capacity in force and the usable budget (R142). -/
def Block.capacity (b : Block) (r : Nat) : Nat :=
  if b.resIn r then min (b.res r).declared (b.rdN (Reg.lgrResLimit r)) else 0
def Block.usable (b : Block) (r : Nat) : Nat := b.capacity r - b.rdN (Reg.lgrResReserve r)

/-- The grant that the claims, ratings and limits of this moment give (R150, R151), with the limits of a resource left out where
`skip` says so. -/
def Block.grantOf (b : Block) (c : Nat) (skipF skipC : Bool := false) : Rat :=
  let x := b.cons c
  if !b.bit Reg.lgrState 0 || !b.consPresent c then 0 else
  let g : Rat := (b.counted c x.committed : Rat)
  let g := match x.limitF with | some l => if skipF then g else min g l | none => g
  match x.limitC with | some l => if skipC then g else min g l | none => g

/-- A power in W as its register shows it; no rounding is stated (log 16). -/
def wattsReg (x : Rat) : Nat := if x < 0 then 0 else satNat 0xFFFFFFFF (divOpen x.num x.den).toNat

/-- Refresh a consumer's registers (R161). -/
def Block.showCons (b : Block) (c : Nat) : Block :=
  let x := b.cons c
  let p := b.consPresent c
  let b := b.wrN (Reg.lgrConsClaim c) (if p then b.standing c else 0)
  let b := b.wrN (Reg.lgrConsGrant c) (if p then wattsReg x.grant else 0)
  let b := b.wrN (Reg.lgrConsMeasured c) (if p then wattsReg x.measured else 0)
  let b := b.setFld (Reg.lgrConsStatus c) 24 8 x.lane
  let b := b.setFld (Reg.lgrConsStatus c) 20 4 (b.consRank c)
  let b := b.setFld (Reg.lgrConsStatus c) 3 1 (b2n (p && decide (x.rating < max x.committed x.admitted)))
  b.setFld (Reg.lgrConsStatus c) 1 1 (b2n (p && (x.limitF.isSome || x.limitC.isSome)))

/-- The highest rank with a limit from a resource, 15 for none (R161). -/
def Block.limitOn (b : Block) (c r : Nat) : Option Rat := if r < 8 then (b.cons c).limitF else (b.cons c).limitC
def Block.limitedRanks (b : Block) (r : Nat) : List Nat :=
  (List.range 15).filter fun k => (b.consOn r).any fun c => b.consRank c == k && (b.limitOn c r).isSome

/-- Refresh a resource's registers. -/
def Block.showRes (b : Block) (r : Nat) : Block :=
  let b := b.wrN (Reg.lgrResCapacity r) (b.capacity r)
  let b := b.wrN (Reg.lgrResStanding r) (wattsReg (b.resSum r fun c => (b.standing c : Rat)))
  let b := b.wrN (Reg.lgrResGranted r) (wattsReg (b.resSum r fun c => (b.cons c).grant))
  let b := b.wrN (Reg.lgrResMeasured r) (wattsReg (b.resSum r fun c => if b.consPresent c then (b.cons c).measured else 0))
  let b := b.setFld (Reg.lgrResStatus r) 12 4 ((b.limitedRanks r).getLast?.getD 15)
  b.setFld Reg.lgrState (if r < 8 then 8 + r else 16 + (r - 8)) 1 (b2n (b.shedding r))

/-- Refresh every resource. -/
def Block.showLedger (b : Block) : Block :=
  ((List.range 12).filter fun r => b.resExists r).foldl (fun (b : Block) r => b.showRes r) b

/-- A grant comes into force (R150, R151): the ceiling of the consumer's output stage follows on the same tick. -/
def Block.setGrant (b : Block) (c : Nat) : Block :=
  let x := b.cons c
  let b := (b.putCons c { x with grant := b.grantOf c }).showCons c
  let n := u16 (b.consEnt c) 10
  if n = 0xFFFF ∨ b.consOf n ≠ some c then b else
  let fs := f32Rat (w32 (b.sgDesc n) 4)
  let v := if x.rating = 0 then 0#32 else ratF32 (fs * (b.grantOf c / (x.rating : Rat)))
  if b.rd (Reg.outStageCeiling n) = v then b
  else
    let b := b.wr (Reg.outStageCeiling n) v
    if b.sgUsed n then b.applyStage n else b

/-- Bring the grants of consumers into force. -/
def Block.setGrants (b : Block) (cs : List Nat) : Block := cs.foldl (fun (b : Block) c => b.setGrant c) b

/-- The effective priority of a lane that has waited since a time (R147). -/
def Block.effPrio (b : Block) (n since : Nat) : Nat :=
  let e := b.lnTab n
  let p := u8 e 1 - (b.now - since) / 100000000
  if p < u8 e 2 then u8 e 2 else p

/-- Refresh a lane's admission registers (R161); `blocked` is the first resource on which its set did not fit. -/
def Block.showWait (b : Block) (n : Nat) (blocked : Nat := 0xFF) : Block :=
  match b.claimSet n with
  | none => (b.wrN (Reg.lgrLaneWait n) 0xFF0000).wr64 (Reg.lgrLaneWaitSince n) 0
  | some s =>
    if s.admitted then (b.wrN (Reg.lgrLaneWait n) 0xFF0002).wr64 (Reg.lgrLaneWaitSince n) 0
    else
      let since := s.waitingSince.getD b.now
      let b := b.wrN (Reg.lgrLaneWait n) (1 + 256 * b.effPrio n since + 65536 * blocked)
      b.wr64 (Reg.lgrLaneWaitSince n) (s.waitingSince.getD 0)

/-- Forget a lane's claim set: standing claims fall back to the committed ones (R149). -/
def Block.clearSet (b : Block) (n : Nat) : Block :=
  match b.claimSet n with
  | none => b
  | some s =>
    let b := s.claims.foldl (fun (b : Block) q =>
      let x := b.cons q.1
      if x.lane = n then
        (b.putCons q.1 { x with admitted := 0, lane := if x.committed = 0 then 255 else n }).showCons q.1
      else b) b
    ((b.delSet n).showWait n).showLedger

/-- Ticks of the ledger (R145, R149): grants published at an update come into force on the tick after it, and withdrawn claim sets
fall on the tick after their withdrawal. -/
def Block.ledgerTick (b : Block) : Block :=
  let b := match b.lgr.pub with
    | some t => if t < b.now then ({ b with lgr := { b.lgr with pub := none } }.setGrants b.consAll).showLedger else b
    | none => b
  b.lgr.sets.foldl (fun (b : Block) p =>
    match p.2.withdrawn with
    | some t => if t < b.now then b.clearSet p.1 else b
    | none => b) b

/-- The claim set stands admitted (R116, R146). -/
def Block.admitted (b : Block) (n : Nat) : Bool :=
  match b.claimSet n with
  | some s => s.admitted && s.withdrawn.isNone
  | none => false

/-- Does the lane hold the consumer? The claim it has committed there. -/
def Block.laneClaim (b : Block) (n c : Nat) : Nat := if (b.cons c).lane = n then (b.cons c).committed else 0

/-- Mark a claim above its rating (R144). -/
def Block.capFlag (b : Block) (n : Nat) (claims : List (Nat × Nat × Nat)) : Block :=
  if claims.any fun q => decide ((b.cons q.1).rating < q.2.1) then b.raise Reg.lgrFlags 3 (sidLane n) else b

/-- A claim set is admitted: standing claims rise at once (R146). -/
def Block.admitSet (b : Block) (n : Nat) (s : ClaimSet) : Block :=
  let b := s.claims.foldl (fun (b : Block) q =>
    if q.2.1 = 0 then b
    else (b.putCons q.1 { b.cons q.1 with lane := n, admitted := q.2.1 }).showCons q.1) b
  ((b.putSet n { s with admitted := true }).showWait n).showLedger

/-- A lane presents its next claim set (R115, R116): one that exceeds its present claim on no consumer is admitted on
presentation. -/
def Block.presentSet (b : Block) (n step : Nat) (claims : List (Nat × Nat × Nat)) : Block :=
  let b := b.clearSet n
  let b := b.capFlag n claims
  let s : ClaimSet := { claims := claims, presentedAt := b.now, step := step }
  if claims.all fun q => decide (q.2.1 ≤ b.laneClaim n q.1) then b.admitSet n s
  else (b.putSet n s).showWait n

/-- A claim set is withdrawn (R149). -/
def Block.withdrawSet (b : Block) (n : Nat) : Block :=
  match b.claimSet n with
  | some s => if s.withdrawn.isSome then b else b.putSet n { s with withdrawn := some b.now }
  | none => b

/-- At T_start the admitted claims become committed and the rest are 0 (R113, R116, R150); answers whether a grant now lies below
the step's minimum (R153). -/
def Block.commitSet (b : Block) (n : Nat) : Block × Bool :=
  let claims := match b.claimSet n with | some s => s.claims | none => []
  let mine := b.consAll.filter fun c => (b.cons c).lane == n
  let b := mine.foldl (fun (b : Block) c => b.putCons c { b.cons c with committed := 0, admitted := 0, lane := 255, min := 0 }) b
  let b := claims.foldl (fun (b : Block) q =>
    if q.2.1 = 0 then b
    else b.putCons q.1 { b.cons q.1 with lane := n, committed := q.2.1, admitted := 0, min := q.2.2 }) b
  let b := (b.delSet n).showWait n
  let b := (b.setGrants (mine ++ claims.map (·.1))).showLedger
  (b, claims.any fun q => (b.cons q.1).grant < (q.2.2 : Rat))

/-- A lane releases all claims (05 R134). -/
def Block.releaseClaims (b : Block) (n : Nat) : Block :=
  let mine := b.consAll.filter fun c => (b.cons c).lane == n
  let b := mine.foldl (fun (b : Block) c => b.putCons c { b.cons c with committed := 0, admitted := 0, lane := 255, min := 0 }) b
  let b := (b.delSet n).showWait n
  (b.setGrants mine).showLedger

/-- A CLAIM action's claim is committed (R148, 05 R123). -/
def Block.commitClaim (b : Block) (n c w m : Nat) : Block :=
  let x := b.cons c
  let x := if w = 0 then { x with committed := 0, min := 0, lane := if x.admitted = 0 then 255 else n }
    else { x with lane := n, committed := w, min := m }
  ((b.putCons c x).setGrant c).showLedger

/-! ### Commands (R159, R160) -/

def isFeedSid (sid : Nat) : Bool := decide (0xA00000 ≤ sid) && decide (sid < 0xA00008)
def isCircSid (sid : Nat) : Bool := decide (0xA00010 ≤ sid) && decide (sid < 0xA00014)
/-- The resource of a SID. -/
def resOf (sid : Nat) : Nat := if isFeedSid sid then sid - 0xA00000 else 8 + (sid - 0xA00010)
def Block.resRef (b : Block) (c : Cmd) : Option Refuse :=
  deny (!((isFeedSid (cObj c) || isCircSid (cObj c)) && b.resExists (resOf (cObj c)))) stBadRef

/-- The checks of `LGR.CAPACITY` after those of the envelope. -/
def Block.capRefusals (b : Block) (sid v : Nat) : List (Option Refuse) :=
  let r := resOf sid
  [deny (!((isFeedSid sid || isCircSid sid) && b.resExists r)) stBadRef, deny (!b.resIn r) stConflict 0 0,
   deny (v != 0xFFFFFFFF && decide ((b.res r).declared < v)) stLimit]

/-- A temporary capacity waits for the next update (R159). -/
def Block.capRun (b : Block) (sid v : Nat) : Block := b.putRes (resOf sid) { b.res (resOf sid) with newCap := some v }

/-- R159, R160: held while no service engine is available. -/
def execLgrCapacity (c : Cmd) (s : State) : Host.Outcome State Fault Refusal :=
  nextB s fun b =>
    let v := u32 (cArg c) 0
    let pre := [authCheck c roleOperator, devCheck b devWorld, envCheck c]
    if b.serviceUp then b.runDone 0x0501 c (pre ++ b.capRefusals (cObj c) v) fun b => b.capRun (cObj c) v
    else b.accept 0x0501 c pre fun b => { b with heldOps := b.heldOps ++ [b.serviceOp c 0x0501 (cArg c)] }

/-- The bytes of the report: 32 per resource, 16 per present consumer, as their registers are laid out. -/
def Block.lgrReport (b : Block) : List Byte :=
  ((List.range 12).map fun r => ((List.range 8).map fun i => leBytes 4 (b.rdN (Reg.lgrResCapacity r + 4 * i))).flatten).flatten ++
  ((b.consAll.filter fun c => b.consPresent c).map fun c =>
    ((List.range 4).map fun i => leBytes 4 (b.rdN (Reg.lgrConsClaim c + 4 * i))).flatten).flatten

def Block.repRefusals (b : Block) (sid len : Nat) : List (Option Refuse) :=
  [deny (!((isFeedSid sid || isCircSid sid) && b.resExists (resOf sid))) stBadRef,
   deny (decide (len < b.lgrReport.length)) stNoSpace]

def Block.repRun (b : Block) (adr : Nat) : Block :=
  { b with out := { b.out with mem := mwrite b.out.mem adr b.lgrReport } }

/-- R159, R160. -/
def execLgrReport (c : Cmd) (s : State) : Host.Outcome State Fault Refusal :=
  nextB s fun b =>
    let a := cArg c
    let pre := [authCheck c roleObserver, devCheck b devWorld, envCheck c, hostOnly c]
    if b.serviceUp then
      b.run 0x0502 c (pre ++ b.repRefusals (cObj c) (u32 a 8)) fun b => (b.repRun (u64 a 0), stDone, 0, leBytes 4 b.lgrReport.length)
    else b.accept 0x0502 c pre fun b => { b with heldOps := b.heldOps ++ [b.serviceOp c 0x0502 a] }

/-- A held LGR command begins (01 R11, 10 R263). -/
def Block.beginHeld (b : Block) (o : ServiceOp) : Block :=
  if o.opcode = 0x0501 then
    match firstRefusal (b.capRefusals o.object (u32 o.data 0)) with
    | some r => b.settle o false r.status r.reason [] r.code
    | none => (b.capRun o.object (u32 o.data 0)).settle o false stDone
  else
    match firstRefusal (b.repRefusals o.object (u32 o.data 8)) with
    | some r => b.settle o false r.status r.reason [] r.code
    | none => (b.repRun (u64 o.data 0)).settle o false stDone 0 (leBytes 4 b.lgrReport.length)

/-- A service engine is available again: held commands begin in the order of their acceptance (01 R11). -/
def Block.resumeHeld (b : Block) : Block :=
  let os := b.heldOps
  os.foldl (fun (b : Block) o => b.beginHeld o) { b with heldOps := [] }

/-- Would all ranks fit once the limits of a resource are gone (R155)? -/
def Block.fitsWithout (b : Block) (r : Nat) (sel : Nat → Bool) : Bool :=
  decide (b.resSum r (fun c => b.grantOf c (r < 8 && sel (b.consRank c)) (8 ≤ r && sel (b.consRank c))) ≤ (b.usable r : Rat))

def execLgrRestore (c : Cmd) (s : State) : Host.Outcome State Fault Refusal :=
  nextB s fun b =>
    let r := resOf (cObj c)
    b.runDone 0x0503 c [authCheck c roleOperator, devCheck b devWorld, envCheck c, b.resRef c,
      deny (!b.shedding r) stConflict 0 (b.fld (Reg.lgrResStatus r) 0 2), deny (!b.fitsWithout r fun _ => true) stLimit] fun b =>
      b.putRes r { b.res r with restoreAll := true }

end Sys2Proof.Machine
end

