-- ==== Sys2Proof/Machine/Lanes.lean ====
section
/-! DEFINITION. Machine/Lanes.lean: step boundaries, holds, faults and aborts of the lanes, and the state machines (05 R107–R138). -/

namespace Sys2Proof.Machine

/-! ### Start conditions and states -/

/-- The unmet start conditions of a step as hold reasons HOST 1, LEDGER 2, LOOPS 4, EVENT 8 (R114, R139); fault-path steps never
hold (R134). A claim set withdrawn under HOST is no reason LEDGER (R149). -/
def Block.unmet (b : Block) (n : Nat) (e : List Byte) : Nat :=
  if b.lnFaultPath n then 0 else
  let host := b.lnHost n
  b2n host + 2 * b2n (!b.admitted n && ((b.ln n).presented || !host)) + 4 * b2n (spNeedLoops e && b.dev == dsRestart) +
    8 * b2n (spWaitSm e != 0xFF && b.smState (spWaitSm e) != spWaitState e)

/-- A lane leaves its step or wait: what belongs to them is forgotten, the claims stay. -/
def Block.lnQuiet (b : Block) (n : Nat) : Block :=
  let x := b.ln n
  let b := b.putLn n { wafer := x.wafer, lastEpoch := x.lastEpoch, check := x.check, checkSid := x.checkSid, checkBank := x.checkBank,
                       faultAt := x.faultAt, faultRun := x.faultRun, cur := x.cur }
  ((b.setFld (Reg.seqLaneState n) 8 6 0).setFld (Reg.seqLaneStep n) 0 16 0xFFFF).wr64 (Reg.seqLaneHoldSince n) 0

/-- Enter IDLE, LOADED, SAFE or FAULTED: all claims are released (R134). -/
def Block.lnEnter (b : Block) (n st : Nat) : Block :=
  let b := ((b.lnQuiet n).releaseClaims n).setLn n st
  if st = lsIdle then (b.wrN (Reg.seqLaneRecipe n) 0).wrN (Reg.seqLaneStep n) 0xFFFF else b

/-- The recipe ends after a LAST step (R127, R134, R137). -/
def Block.lnFinish (b : Block) (n : Nat) : Block :=
  let path := b.lnFaultPath n
  (b.abandon (fun p => isLane n p.src) 2).lnEnter n (if path then lsSafe else lsLoaded)

/-- The next step index lies beyond the recipe of the active bank (R135): the recipe ends, early if a swap shortened it. -/
def Block.lnTruncate (b : Block) (n : Nat) : Block :=
  let cut := decide ((b.ln n).nextIdx < b.fld (Reg.seqLaneStep n) 16 16)
  let b := b.lnFinish n
  if cut then b.lnFlag n 5 else b

/-! ### Faults and aborts (R134) -/

/-- Post SAFE_STOP to the lane's machine and wait in ABORTING for a SAFE state; a lane without one is SAFE at once. -/
def Block.safeStop (b : Block) (n : Nat) : Block :=
  let b := (b.lnQuiet n).setLn n lsAborting
  let m := u8 (b.lnTab n) 0
  if m = 0xFF ∨ !b.smUsed m then b.lnEnter n lsSafe else
  let b := (b.smPost m 0).1
  let b := b.putLn n { b.ln n with safeSince := some b.now, safePosted := true }
  if b.smSafe m then b.lnEnter n lsSafe else b

/-- A fault that no path takes up: FAULTED. -/
def Block.lnFaulted (b : Block) (n : Nat) : Block :=
  let b := b.abandonLane n 4
  let m := u8 (b.lnTab n) 0
  let b := if (b.ln n).safePosted || m == 0xFF || !b.smUsed m then b else (b.smPost m 0).1
  b.lnEnter n lsFaulted

/-- The entry of a step as the lane reads it: as it was at its start, as it was decided, or of the active bank. -/
def Block.lnEntry (b : Block) (n step : Nat) : List Byte :=
  let x := b.ln n
  if x.active && step == b.lnStep n then x.cur
  else if (x.decided || x.tReady.isSome) && step == x.nextIdx then x.next
  else stepOf b.bank (b.lnHead n) step

/-- A step of a fault path, or one after it, is due: its claims are presented and its actions placed for T_start = now + 4 µs. -/
def Block.lnPathStep (b : Block) (n i : Nat) : Block × Bool :=
  let e := stepOf b.bank (b.lnHead n) i
  let b := b.setFld (Reg.seqLaneStep n) 0 16 i
  let b := b.presentSet n i (spClaims b.bank e)
  let b := b.putLn n { b.ln n with nextIdx := i, next := e, tReady := some b.now, active := false, presented := true }
  b.placeAll (.lane (Fin.ofNat 16 n)) i (b.now + 4000) (spActions b.bank e)

/-- A lane takes a fault (R134): of two causes on one tick the lower code is recorded and one path is taken. -/
def Block.lnFault (b : Block) (n cause step : Nat) : Block :=
  let st := b.lnState n
  let x := b.ln n
  if x.faultAt = some b.now then
    (if cause < b.fld (Reg.seqLaneFault n) 16 8 then b.setFld (Reg.seqLaneFault n) 16 8 cause else b)
  else if !(st == lsRunning || st == lsHeld || st == lsAborting) then b else
  let fs := spFault (b.lnEntry n step)
  let b := b.putLn n { x with faultAt := some b.now, faultRun := x.active }
  let b := (b.wrN (Reg.seqLaneFault n) (step + 65536 * cause)).lnFlag n 4
  if st = lsAborting then b.lnFaulted n else
  let b := (b.abandonLane n 4).withdrawSet n
  let tEnd := if x.active then b.now else x.tEnd
  if fs = 0xFFFF then b.safeStop n else
  let b := ((b.lnQuiet n).setLn n lsAborting).setFld (Reg.seqLaneState n) 13 1 1
  let b := b.putLn n { b.ln n with tEnd := tEnd }
  let r := b.lnPathStep n fs
  if r.2 && decide (1 < cause) then r.1.setFld (Reg.seqLaneFault n) 16 8 1 else r.1

/-- `SEQ.ABORT` or a safe-stop of all lanes (R134): recorded with cause ABORT. -/
def Block.lnAbort (b : Block) (n : Nat) : Block :=
  let st := b.lnState n
  if !(st == lsRunning || st == lsHeld) then b else
  let b := b.putLn n { b.ln n with faultAt := some b.now, faultRun := (b.ln n).active }
  let b := b.wrN (Reg.seqLaneFault n) (b.lnStep n + 65536 * 9)
  ((b.abandonLane n 3).withdrawSet n).safeStop n

/-! ### Steps (R115–R120, R136) -/

/-- The SLATE record of a T_start (R136). -/
def Block.slate (b : Block) (n i prev seen : Nat) (held : Bool) : Block :=
  let x := b.ln n
  let epoch := b.fld Reg.imgBank 16 16
  let flags := b2n (b.bit Reg.imgRunning 2) + 2 * b2n (b.lnFaultPath n) + 4 * b2n held + 8 * b2n (seen.testBit 2) +
    16 * b2n (match x.lastEpoch with | some k => k != epoch | none => false)
  b.record (sidLane n) 0x20 (leBytes 3 (b.lnRecipe n) ++ leBytes 1 n ++ leBytes 2 i ++ leBytes 2 flags ++ padTo 16 x.wafer ++
    leBytes 4 (b.rdN (Reg.seqLaneRun n)) ++ leBytes 4 (b.rdN Reg.wldGeneration) ++ leBytes 4 b.cal.count ++ leBytes 2 epoch ++
    leBytes 1 seen ++ zeroBytes 1 ++ leBytes 8 prev ++ leBytes 4 (satNat 0xFFFFFFFF ((b.now - prev) / 1000)) ++ zeroBytes 12)

/-- Step `i` starts on this tick (R115, R116, R136, 06 R153). -/
def Block.lnStart (b : Block) (n i : Nat) (e : List Byte) : Block :=
  let x := b.ln n
  let prev := if x.first then b.now else x.tEnd
  let b := b.slate n i prev x.reasonsSeen x.held
  let b := b.wrN (Reg.seqLaneStep n) (i + 65536 * rcCount (b.lnHead n))
  let b := ((b.wr64 (Reg.seqLaneStepStart n) b.now).wr64 (Reg.seqLaneHoldSince n) 0).setFld (Reg.seqLaneState n) 8 4 0
  let b := b.setLn n (if b.lnFaultPath n then lsAborting else lsRunning)
  let b := b.putLn n { x with
    cur := e, active := true, nextIdx := i + 1, decided := false, presented := false, tReady := none, reasonsSeen := 0, tolNs := 0,
    tolFrom := none, first := false, held := false, lastEpoch := some (b.fld Reg.imgBank 16 16),
    endAt := if spEndKind e = 0 then some (b.now + 1000 * spDuration e) else none }
  let r := b.commitSet n
  if r.2 then (r.1.raise Reg.lgrFlags 4 (sidLane n)).lnFault n 4 i else r.1

/-- HOST comes into force (R120): a claim set that still waits is withdrawn (R149). -/
def Block.hostOn (b : Block) (n : Nat) : Block :=
  let b := (b.setFld (Reg.seqLaneState n) 8 1 1).setFld (Reg.seqLaneState n) 12 1 0
  if (b.ln n).presented && !b.admitted n then (b.withdrawSet n).putLn n { b.ln n with presented := false } else b

/-- Re-evaluate the hold reasons of a HELD lane (R108, R114, R118); on the tick on which the last one clears, T_ready, the waiting
step's actions are placed (R115). -/
def Block.refreshHold (b : Block) (n : Nat) : Block :=
  let x := b.ln n
  if b.lnState n != lsHeld || x.tReady.isSome then b else
  let h := b.lnHead n
  let i := x.nextIdx
  if rcCount h ≤ i then b.lnTruncate n else
  let e := stepOf b.bank h i
  let u := b.unmet n e
  let b := b.setFld (Reg.seqLaneState n) 8 4 u
  let run := u / 2 != 0
  let x := { x with reasonsSeen := x.reasonsSeen ||| u,
                    tolNs := (match x.tolFrom with | some t => if run then x.tolNs else x.tolNs + (b.now - t) | none => x.tolNs),
                    tolFrom := (if run then (match x.tolFrom with | some t => some t | none => some b.now) else none) }
  if u != 0 then b.putLn n x else
  let b := b.putLn n { x with tReady := some b.now, next := e }
  let r := b.placeAll (.lane (Fin.ofNat 16 n)) i (b.now + 4000) (spActions b.bank e)
  if r.2 then r.1.lnFault n 1 i else r.1

/-- Every HELD lane looks at its reasons again. -/
def Block.refreshAll (b : Block) : Block := (List.range 16).foldl (fun (b : Block) n => b.refreshHold n) b

/-- The lane is HELD from this tick, waiting for step `i` (R115). -/
def Block.lnHold (b : Block) (n i : Nat) : Block :=
  let b := (b.setLn n lsHeld).setFld (Reg.seqLaneStep n) 0 16 i
  let b := (b.wr64 (Reg.seqLaneHoldSince n) b.now).lnFlag n 0
  let b := b.putLn n { b.ln n with active := false, held := true, nextIdx := i, tEnd := b.now, tReady := none }
  let b := if (b.ln n).presented || b.lnHost n then b else
    (b.presentSet n i (spClaims b.bank (stepOf b.bank (b.lnHead n) i))).putLn n { b.ln n with presented := true }
  b.refreshHold n

/-- The step in progress ends on this tick (R115, R117, R127, R137). -/
def Block.lnEnd (b : Block) (n : Nat) : Block :=
  let x := b.ln n
  let i := b.lnStep n
  let e := x.cur
  let b := b.abandon (fun p => isLane n p.src && p.step == i && !acCarry p.entry) 2
  let b := b.putLn n { b.ln n with tEnd := b.now, endAt := none }
  if spLast e then b.lnFinish n
  else if x.decided then b.lnStart n x.nextIdx x.next
  else if rcCount (b.lnHead n) ≤ i + 1 then (b.putLn n { b.ln n with nextIdx := i + 1 }).lnTruncate n
  else if b.lnFaultPath n then
    let r := b.lnPathStep n (i + 1)
    if r.2 then r.1.lnFault n 1 (i + 1) else r.1
  else
    let b := if spEndKind e ≠ 0 ∧ b.bit (Reg.seqLaneState n) 12 then b.hostOn n else b
    b.lnHold n (i + 1)

/-- Is the condition or event of the step such that it ends on this tick (R117)? -/
def Block.lnEndsNow (b : Block) (n : Nat) : Bool :=
  let e := (b.ln n).cur
  let early := decide (b.rd64 (Reg.seqLaneStepStart n) + 250000 ≤ b.now)
  if spEndKind e = 1 then early && b.compare (u24 e 20) (spEndOp e) (w32 e 24)
  else match (b.ln n).endAt with | some t => decide (t ≤ b.now) | none => false

/-- Is the action's step the one present, waiting or decided (R126, R128)? -/
def Block.stepLive (b : Block) (n step : Nat) : Bool :=
  let st := b.lnState n
  let x := b.ln n
  (st == lsRunning || st == lsHeld || st == lsAborting) && (step == b.lnStep n || ((x.decided || x.tReady.isSome) && step == x.nextIdx))

/-- The lane consequence of an action's outcome (R128). -/
def Block.outcome (b : Block) (p : Pend) (status reason : Nat) : Block :=
  match p.src with
  | .lane n =>
    let c := outcomeCause status reason
    if c != 0 && acCritical p.entry && b.stepLive n.val p.step then b.lnFault n.val c p.step else b
  | _ => b

/-- A lane event (R117, R122): actions that count from it get their times, and an EVENT step that waits for it ends, not before
T_start + 250 µs. -/
def Block.laneEvent (b : Block) (n code : Nat) : Block :=
  let waits (p : Pend) : Bool := p.due.isNone && acBase p.entry == 1 && acEvent p.entry == code &&
    (match p.src with | .lane k => k.val == n | .machine m => b.smOwner m.val == some n | .thread _ => false)
  let b := (b.seq.queue.filter waits).foldl (fun (b : Block) p =>
    let r := b.timeAction p (b.now + acTime p.entry)
    if r.2 then r.1.outcome p stAbandoned 1 else r.1) b
  let x := b.ln n
  let t := b.rd64 (Reg.seqLaneStepStart n) + 250000
  if !x.active || spEndKind x.cur != 2 || spEndOp x.cur != code then b
  else if t ≤ b.now then b.lnEnd n
  else if x.endAt.isSome then b else b.putLn n { x with endAt := some t }

/-! ### State machines (R132, R133) -/

/-- Lanes that wait for the machine (R114, R134). -/
def Block.smSeen (b : Block) (m : Nat) : Block :=
  (List.range 16).foldl (fun (b : Block) n =>
    if b.lnState n = lsAborting ∧ (b.ln n).safeSince.isSome ∧ u8 (b.lnTab n) 0 = m ∧ b.smSafe m then b.lnEnter n lsSafe
    else b.refreshHold n) b

/-- A machine enters a state (R133): the previous state's pending entry actions are abandoned, the new state's placed, and its
LANE_EVENT posted. -/
def Block.smEnter (b : Block) (m dst : Nat) (ev : Option Nat) : Block :=
  let b := b.abandon (fun p => isMachine m p.src) 2
  let b := b.setFld (Reg.seqSmState m) 0 6 dst
  let b := match ev with | some k => b.setFld (Reg.seqSmState m) 8 8 k | none => b
  let b := b.putSm m { b.sm m with entered := b.now }
  let e := b.smEntry m dst
  let b := (b.placeAll (.machine (Fin.ofNat 256 m)) 0xFFFF b.now (actionsOf b.bank (u32 e 0) (u16 e 4))).1
  let b := match b.smOwner m with
    | some o => if u8 e 7 = 0xFF then b else b.laneEvent o (u8 e 7)
    | none => b
  let b := b.smSeen m
  match b.smOwner m with
  | some o => if (u8 e 6).testBit 1 then b.lnFault o 7 (b.lnStep o) else b
  | none => b

/-- The first transition of a machine that matches an event code (0xFF: guard only) in its present state. -/
def Block.smFind (b : Block) (m code : Nat) : Option (List Byte) :=
  let h := b.smHead m
  ((List.range (u16 h 12)).map fun i => b.act tTrans (u32 h 8 + i)).find? fun t =>
    u8 t 0 == b.smState m && u8 t 1 == code && (u24 t 4 == 0 || b.compare (u24 t 4) (u8 t 7) (w32 t 8))

/-- Has the state's timeout expired (R132)? -/
def Block.smExpired (b : Block) (m : Nat) : Bool :=
  let t := u32 (b.smEntry m (b.smState m)) 8
  t != 0 && decide ((b.sm m).entered + 1000 * t ≤ b.now)

/-- One 4 µs cycle of a machine: at most one transition (R133). -/
def Block.smCycle (b : Block) (m : Nat) : Block :=
  let x := b.sm m
  if !b.smUsed m || x.cycle == some (b.now / 4000) then b else
  let b := b.putSm m { x with cycle := some (b.now / 4000) }
  match x.queue with
  | code :: rest =>
    let b := b.putSm m { b.sm m with queue := rest }
    (match b.smFind m code with
     | some t => b.smEnter m (u8 t 2) (some code)
     | none => b.count Reg.seqSmDrops)
  | [] =>
    match b.smFind m 0xFF with
    | some t => b.smEnter m (u8 t 2) none
    | none => if b.smExpired m then b.smEnter m (u8 (b.smEntry m (b.smState m)) 12) none else b

/-- R133. -/
def execSmCycle (machine : Fin 256) (s : State) : Host.Outcome State Fault Refusal := nextB s fun b => b.smCycle machine.val

/-- R133: the timeout counts where no queued event comes first. -/
def execSmStateTimeout (machine : Fin 256) (s : State) : Host.Outcome State Fault Refusal :=
  nextB s fun b => if b.smExpired machine.val then b.smCycle machine.val else b

/-- At t7 the lanes show their quotas, the pools are loaded and every machine takes INITIAL (R109, R132). -/
def Block.seqInit (b : Block) : Block :=
  let b := b.wrN Reg.seqPool (u16 (b.act tLaneTrailer 0) 0 + 65536 * u16 (b.act tLaneTrailer 0) 2)
  let b := (List.range 16).foldl (fun (b : Block) n => b.setFld (Reg.seqLaneQuota n) 0 16 (u16 (b.lnTab n) 4)) b
  (entsOf b.bank tMachine).foldl (fun (b : Block) p => b.smEnter p.1 (u8 p.2 1) none) b

/-! ### Events of lanes -/

/-- R115, R116: 200 µs before T_end, or at T_start + 250 µs if that is later, the next step's claims are presented. -/
def execClaimPresentation (lane : Fin 16) (s : State) : Host.Outcome State Fault Refusal :=
  nextB s fun b =>
    let n := lane.val
    let x := b.ln n
    match x.endAt with
    | some t =>
      let due := max (t - 200000) (b.rd64 (Reg.seqLaneStepStart n) + 250000)
      if x.active && spEndKind x.cur == 0 && !spLast x.cur && !x.presented && !b.lnHost n && decide (due ≤ b.now) &&
         decide (x.nextIdx < rcCount (b.lnHead n)) then
        (b.presentSet n x.nextIdx (spClaims b.bank (stepOf b.bank (b.lnHead n) x.nextIdx))).putLn n { x with presented := true }
      else b
    | none => b

/-- R115, R120: the decision tick T_end − 4 µs. -/
def execDecisionTick (lane : Fin 16) (s : State) : Host.Outcome State Fault Refusal :=
  nextB s fun b =>
    let n := lane.val
    let x := b.ln n
    match x.endAt with
    | some t =>
      if !(x.active && spEndKind x.cur == 0 && !spLast x.cur && !x.decided && decide (t - 4000 ≤ b.now) &&
         decide (x.nextIdx < rcCount (b.lnHead n))) then b else
      let b := if b.bit (Reg.seqLaneState n) 12 then b.hostOn n else b
      let e := stepOf b.bank (b.lnHead n) x.nextIdx
      let u := b.unmet n e
      let x := b.ln n
      let b := b.putLn n { x with reasonsSeen := x.reasonsSeen ||| u }
      if u != 0 then b else
      let b := b.putLn n { b.ln n with decided := true, next := e }
      let r := b.placeAll (.lane lane) x.nextIdx t (spActions b.bank e)
      if r.2 then r.1.lnFault n 1 x.nextIdx else r.1
    | none => b

/-- R115, R117: T_end of a DURATION step, or of an EVENT step whose event came early. -/
def execStepEnd (lane : Fin 16) (s : State) : Host.Outcome State Fault Refusal :=
  nextB s fun b =>
    let x := b.ln lane.val
    match x.endAt with
    | some t => if x.active && decide (t ≤ b.now) then b.lnEnd lane.val else b
    | none => b

/-- R117: a 4 µs evaluation of a CONDITION step. -/
def execConditionEvaluation (lane : Fin 16) (s : State) : Host.Outcome State Fault Refusal :=
  nextB s fun b =>
    let x := b.ln lane.val
    if x.active && spEndKind x.cur == 1 && b.lnEndsNow lane.val then b.lnEnd lane.val else b

/-- R117, R122. -/
def execLaneEvent (lane : Fin 16) (code : Byte) (s : State) : Host.Outcome State Fault Refusal :=
  nextB s fun b => b.laneEvent lane.val code.toNat

/-- R117: the condition or event wins over a timeout of the same tick. A step that this tick has sent to its fault path already was running
all the same: its timeout is one more cause of that tick (R134). -/
def execStepTimeout (lane : Fin 16) (s : State) : Host.Outcome State Fault Refusal :=
  nextB s fun b =>
    let n := lane.val
    let x := b.ln n
    let gone := x.faultAt = some b.now && x.faultRun
    if !(x.active || gone) || spEndKind x.cur == 0 || decide (b.now < b.rd64 (Reg.seqLaneStepStart n) + 1000 * spTimeout x.cur) then b
    else if b.lnEndsNow n || spTimeoutNext x.cur then (if gone then b else b.lnEnd n)
    else b.lnFault n 3 (b.lnStep n)

/-- R118. -/
def execHoldToleranceExpiry (lane : Fin 16) (s : State) : Host.Outcome State Fault Refusal :=
  nextB s fun b =>
    let n := lane.val
    let b := b.refreshHold n
    let x := b.ln n
    let tol := spTol (stepOf b.bank (b.lnHead n) x.nextIdx)
    match x.tolFrom with
    | some t =>
      if b.lnState n == lsHeld && x.tReady.isNone && tol != 0xFFFF && decide (1000000 * tol ≤ x.tolNs + (b.now - t)) then
        b.lnFault n 2 x.nextIdx
      else b
    | none => b

/-- R115, R136: T_start = T_ready + 4 µs. -/
def execStepStart (lane : Fin 16) (s : State) : Host.Outcome State Fault Refusal :=
  nextB s fun b =>
    let n := lane.val
    let x := b.ln n
    match x.tReady with
    | some t =>
      if !x.active && (b.lnState n == lsHeld || b.lnState n == lsAborting || b.lnState n == lsLoaded) && decide (t + 4000 ≤ b.now) then
        b.lnStart n x.nextIdx x.next
      else b
    | none => b

/-- R134. -/
def execSafeTimeoutExpiry (lane : Fin 16) (s : State) : Host.Outcome State Fault Refusal :=
  nextB s fun b =>
    let n := lane.val
    match (b.ln n).safeSince with
    | some t =>
      if b.lnState n == lsAborting && decide (t + 1000000 * u32 (b.lnTab n) 8 ≤ b.now) then b.lnFault n 8 (b.lnStep n) else b
    | none => b

/-- The first step is presented at its start time (R137): it is ready at once, the lane staying LOADED until T_start, or the lane is HELD. -/
def Block.lnGo (b : Block) (n i : Nat) : Block :=
  let e := stepOf b.bank (b.lnHead n) i
  let b := b.presentSet n i (spClaims b.bank e)
  let b := b.putLn n { b.ln n with
    startAt := none, first := true, safePosted := false, presented := true, active := false, nextIdx := i, tEnd := b.now, tReady := none }
  if b.unmet n e != 0 then b.lnHold n i else
  let b := b.putLn n { b.ln n with tReady := some b.now, next := e }
  let r := b.placeAll (.lane (Fin.ofNat 16 n)) i (b.now + 4000) (spActions b.bank e)
  if r.2 then (r.1.setLn n lsHeld).lnFault n 1 i else r.1

/-- R137: a start time is reached; step 0 is presented as if it ended a HELD wait at that time. -/
def execStartTimeReached (lane : Fin 16) (s : State) : Host.Outcome State Fault Refusal :=
  nextB s fun b =>
    let n := lane.val
    let x := b.ln n
    match x.startAt with
    | some t =>
      if b.lnState n == lsLoaded && decide (t ≤ b.now) then
        b.lnGo n x.startStep
      else b
    | none => b

/-! ### Commands (R137, R138) -/

def isLaneSid (sid : Nat) : Bool := decide (0x900000 ≤ sid) && decide (sid < 0x900010)
def laneOf (sid : Nat) : Nat := sid - sidLane 0

/-- The checks that the SEQ commands of a lane share, with the lane states in which the command is legal. -/
def Block.seqPre (b : Block) (c : Cmd) (role : Nat) (dev legal : List Nat) : List (Option Refuse) :=
  let st := b.lnState (laneOf (cObj c))
  [authCheck c role, devCheck b dev, envCheck c, deny (!isLaneSid (cObj c)) stBadRef, deny (!legal.contains st) stConflict 0 st]

/-- R135, R137, R138: the check runs on a service engine; VALIDATION_DONE ends it. -/
def execSeqLoad (c : Cmd) (s : State) : Host.Outcome State Fault Refusal :=
  nextB s fun b =>
    let n := laneOf (cObj c)
    let a := cArg c
    b.accept 0x0401 c (b.seqPre c roleOperator [dsOperational, dsRestart] [lsIdle] ++ [deny (b.ln n).check.isSome stBusy]) fun b =>
      b.putLn n { b.ln n with check := some (b.serviceOp c 0x0401 a), checkSid := u24 a 0, checkBank := false }

/-- R135, R137, R138. -/
def execSeqValidate (c : Cmd) (s : State) : Host.Outcome State Fault Refusal :=
  nextB s fun b =>
    let n := laneOf (cObj c)
    let a := cArg c
    b.accept 0x0409 c ([authCheck c roleObserver, devCheck b devWorld, envCheck c, deny (decide (1 < u8 a 3)) stBadArg,
      deny (!isLaneSid (cObj c)) stBadRef, deny (b.ln n).check.isSome stBusy]) fun b =>
      b.putLn n { b.ln n with check := some (b.serviceOp c 0x0409 a), checkSid := u24 a 0, checkBank := u8 a 3 == 1 }

/-- R137, R138. -/
def execSeqUnload (c : Cmd) (s : State) : Host.Outcome State Fault Refusal :=
  nextB s fun b => b.runDone 0x0402 c (b.seqPre c roleOperator devWorld [lsLoaded]) fun b =>
    (b.abandonLane (laneOf (cObj c)) 3).lnEnter (laneOf (cObj c)) lsIdle

/-- R137, R138: a start time that lies less than 2 µs ahead is late. -/
def execSeqStart (c : Cmd) (s : State) : Host.Outcome State Fault Refusal :=
  nextB s fun b =>
    let a := cArg c
    let n := laneOf (cObj c)
    let st := b.lnState n
    let first := u16 a 24
    let t := u64 a 0
    let h := b.lnHead n
    b.run 0x0403 c [authCheck c roleOperator, devCheck b [dsOperational, dsRestart], envCheck c, deny (!isLaneSid (cObj c)) stBadRef,
      deny (st == lsLoaded && (decide (rcCount h ≤ first) || spFaultOnly (stepOf b.bank h first))) stBadArg,
      deny (st != lsLoaded) stConflict 0 st] fun b =>
      let late := t != 0 && decide (t < b.now + 2000)
      let at_ := if t = 0 then b.now else if late then lateRun b.now t else t
      let b := if (b.ln n).tReady.isSome then b.abandonLane n 3 else b
      let b := (b.count (Reg.seqLaneRun n)).putLn n { b.ln n with tReady := none, wafer := slice a 8 16, startAt := some at_, startStep := first }
      if late then (b, stDoneLate, 0, leBytes 4 (at_ - t)) else (b, stDone, 0, [])

/-- R120, R137, R138. -/
def execSeqHold (c : Cmd) (s : State) : Host.Outcome State Fault Refusal :=
  nextB s fun b =>
    let n := laneOf (cObj c)
    b.runDone 0x0404 c (b.seqPre c roleOperator devWorld [lsRunning, lsHeld]) fun b =>
      if b.lnState n = lsHeld ∧ (b.ln n).tReady.isNone then (b.hostOn n).refreshHold n
      else b.setFld (Reg.seqLaneState n) 12 1 1

/-- R120, R137, R138: clears HOST and a pending request; a withdrawn claim set is presented again. -/
def execSeqRelease (c : Cmd) (s : State) : Host.Outcome State Fault Refusal :=
  nextB s fun b =>
    let n := laneOf (cObj c)
    b.runDone 0x0405 c (b.seqPre c roleOperator devWorld [lsRunning, lsHeld]) fun b =>
      let b := (b.setFld (Reg.seqLaneState n) 8 1 0).setFld (Reg.seqLaneState n) 12 1 0
      let x := b.ln n
      if b.lnState n != lsHeld || x.tReady.isSome then b else
      let b := if x.presented then b else
        (b.presentSet n x.nextIdx (spClaims b.bank (stepOf b.bank (b.lnHead n) x.nextIdx))).putLn n { x with presented := true }
      b.refreshHold n

/-- R134, R137, R138. -/
def execSeqAbort (c : Cmd) (s : State) : Host.Outcome State Fault Refusal :=
  nextB s fun b => b.runDone 0x0406 c (b.seqPre c roleOperator devWorld [lsRunning, lsHeld]) fun b => b.lnAbort (laneOf (cObj c))

/-- R137, R138. -/
def execSeqClear (c : Cmd) (s : State) : Host.Outcome State Fault Refusal :=
  nextB s fun b =>
    b.runDone 0x0407 c (b.seqPre c roleOperator devWorld [lsSafe, lsFaulted]) fun b => b.lnEnter (laneOf (cObj c)) lsIdle

/-- R133, R137, R138. -/
def execSeqSmPost (c : Cmd) (s : State) : Host.Outcome State Fault Refusal :=
  nextB s fun b =>
    let m := cObj c - 0x920000
    let code := u8 (cArg c) 0
    b.run 0x0408 c [authCheck c roleOperator, devCheck b devWorld, envCheck c, deny (code == 0xFF) stBadArg,
      deny (!(decide (0x920000 ≤ cObj c) && decide (cObj c < 0x920100) && b.smUsed m)) stBadRef] fun b =>
      let r := b.smPost m code
      (r.1, if r.2 then stDone else stNoSpace, 0, [])

end Sys2Proof.Machine
end

