-- ==== Sys2Proof/Machine/Actions.lean ====
section
/-! DEFINITION. Machine/Actions.lean: the executor's action kinds (05 R122–R128), ramps (07 R183), pulses and the enforcing rules
of the matrix (05 R131). -/

namespace Sys2Proof.Machine

/-- The first pending action of a source with an index and kind whose time has come. -/
def Block.dueAction (b : Block) (src : ActSrc) (idx kind : Nat) : Option Pend :=
  b.seq.queue.find? fun p => p.src == src && p.idx == idx && acKind p.entry == kind && p.due.isSome && p.claimAt.isNone &&
    decide (p.runAt ≤ b.now)

/-- An action ends with an outcome (R127, R128): DONE of a late one is DONE_LATE with its lateness. -/
def Block.finishAction (b : Block) (p : Pend) (late : Bool) (status reason : Nat) : Block :=
  let status := if status = stDone ∧ late then stDoneLate else status
  (b.endAction p status reason (b.now - p.due.getD b.now)).outcome p status reason

/-- Carry out the due action of a source (R125, R126): beyond 250 actions in one 2 µs window it is late. `f` gives the effect and
the outcome. -/
def Block.runAction (b : Block) (src : ActSrc) (idx kind : Nat) (f : Block → Pend → Block × Nat × Nat) : Block :=
  match b.dueAction src idx kind with
  | none => b
  | some p =>
    let due := p.due.getD b.now
    let near := b.seq.recent.filter fun t => decide (due < t + 2000)
    let many := decide (250 ≤ near.length) && !p.late
    let b := { b with seq := { b.seq with recent := near ++ [due] } }
    let b := if many then (b.raise Reg.seqFlags 0 (srcSid src)).count Reg.seqLate |>.blkCount 0x23 else b
    if many && acDrop p.entry then b.finishAction p false stAbandoned 1
    else
      let (b, st, rs) := f b p
      b.finishAction p (p.late || many) st rs

/-- The outcome of the first refusal, or of the effect. -/
def Block.orRefuse (b : Block) (rs : List (Option Refuse)) (f : Block → Block) : Block × Nat × Nat :=
  match firstRefusal rs with
  | some r => (b, r.status, r.reason)
  | none => (f b, stDone, 0)

/-! ### Values -/

/-- Is a SID a loop variable of the catalogue (04 R87)? -/
def Block.isVar (b : Block) (sid : Nat) : Bool := decide (0x401000 ≤ sid) && decide (sid < 0x500000) && (b.sigEntry sid).isSome
/-- Is it a field of a transmit object? -/
def Block.isField (b : Block) (sid : Nat) : Bool := decide (0x840000 ≤ sid) && decide (sid < 0x900000) && (b.txField sid).isSome

/-- A 32-bit payload value in a TYPE (R123). -/
def payVal (ty : Nat) (w : Word) : DWord :=
  if ty = 4 then w.zeroExtend 64 else if ty = 5 then BitVec.ofNat 64 (b2n (w.toNat.testBit 0)) else BitVec.ofInt 64 w.toInt

/-- A number in a TYPE, rounded to nearest and saturating. -/
def ratType (ty : Nat) (v : Rat) : DWord :=
  if ty = 4 then (ratF32 v).zeroExtend 64
  else if ty = 1 then BitVec.ofInt 64 (clampInt (-32768) 32767 (rneInt v))
  else if ty = 2 then BitVec.ofInt 64 (clampInt (-8388608) 8388607 (rneInt v))
  else if ty = 3 then BitVec.ofInt 64 (clampInt (-2147483648) 2147483647 (rneInt v))
  else if ty = 5 then (if v < 1/2 then 0 else 1)
  else BitVec.ofInt 64 (rneInt v)

/-- Store a loop variable and what is derived from it; no completion (07 R164). -/
def Block.varSet (b : Block) (sid : Nat) (v : DWord) : Block := (b.cacheAll deriveDepth sid v 0).1

/-! ### SET and RAMP -/

/-- SET (R123, 07 R170, R183). -/
def Block.setRun (b : Block) (sid : Nat) (w : Word) : Block × Nat × Nat :=
  if b.isVar sid then ((b.stopRamp sid).varSet sid (payVal (b.sigType sid) w), stDone, 0)
  else if isStageSid sid ∧ b.sgUsed (sid - 0x500000) then
    let n := sid - 0x500000
    (match firstRefusal (b.directRefusals n w) with
     | some r => ((if r.status = stConflict then b.directMarks n r else b), r.status, r.reason)
     | none => (b.directRun n w, stDone, 0))
  else if b.isField sid then (b.fieldWrite sid (payVal (b.sigType sid) w), stDone, 0)
  else (b, stBadRef, 0)

/-- R123. -/
def execActSet (src : ActSrc) (idx : Nat) (s : State) : Host.Outcome State Fault Refusal :=
  nextB s fun b => b.runAction src idx 1 fun b p => b.setRun (acTarget p.entry) (w32 p.entry 16)

/-- The value of a ramp at a time (07 R183), on its 4 µs grid. -/
def Block.rampAt (b : Block) (r : RampSt) (ty : Nat) : Rat :=
  let el := (b.now - r.begun) / 4000 * 4000
  let x : Rat := (el : Rat) / ((1000 * r.durationUs : Nat) : Rat)
  let y : Rat := if r.curve = 0xFFFF then x else f32Rat (b.curve r.curve (ratF32 x)).1
  r.start + ((opRat ty r.stop).getD 0 - r.start) * y

/-- The present value of a target of a ramp. -/
def Block.rampFrom (b : Block) (sid : Nat) : Rat :=
  if isStageSid sid then f32Rat (b.rd (Reg.outStageValue (sid - 0x500000))) else (valRat (b.sigType sid) (b.sig sid).value).getD 0

/-- RAMP (R123): a generator starts, or that of the target is taken over; its first update is made now. -/
def Block.rampRun (b : Block) (src : ActSrc) (sid : Nat) (e : List Byte) : Block × Nat × Nat :=
  let n := sid - 0x500000
  let stage := isStageSid sid && b.sgUsed n
  let d := u32 e 20
  let k := u16 e 24
  let rs := [deny (decide (d < 4) || (stage && isNaN32 (w32 e 16))) stBadArg, deny (!stage && !b.isVar sid) stBadRef,
    deny (k != 0xFFFF && (decide (1023 < k) || (curveOf b.bank k).pts.isEmpty)) stBadRef,
    deny (stage && !b.direct n) stConflict 0x01,
    deny ((tget? b.seq.ramps sid).isNone && decide (512 ≤ b.seq.ramps.length)) stNoSpace]
  let b := match firstRefusal rs with
    | some r => if r.status = stConflict then b.directMarks n r else b
    | none => b
  b.orRefuse rs fun b =>
    let r : RampSt := { start := b.rampFrom sid, stop := w32 e 16, durationUs := d, curve := k, begun := b.now, src := src }
    let b := { b with seq := { b.seq with ramps := tput b.seq.ramps sid r } }
    let v := b.rampAt r (b.sigType sid)
    if stage then b.freshWrite n (b.holdPlan n (ratF32 v)) else b.varSet sid (ratType (b.sigType sid) v)

/-- R123. -/
def execActRamp (src : ActSrc) (idx : Nat) (s : State) : Host.Outcome State Fault Refusal :=
  nextB s fun b => b.runAction src idx 2 fun b p => b.rampRun src (acTarget p.entry) p.entry

/-- Has a ramp's time run out? -/
def RampSt.ended (r : RampSt) (now : Nat) : Bool := decide (r.begun + 1000 * r.durationUs ≤ now)

/-- R123, R183: an update between the ends. -/
def execRampUpdate (target : Nat) (s : State) : Host.Outcome State Fault Refusal :=
  nextB s fun b =>
    match tget? b.seq.ramps target with
    | none => b
    | some r =>
      if r.ended b.now then b else
      let v := b.rampAt r (b.sigType target)
      if isStageSid target then b.rampWrite (target - 0x500000) (ratF32 v) else b.varSet target (ratType (b.sigType target) v)

/-- R123, R183: the update that reaches the end value is a fresh write. -/
def execRampEnd (target : Nat) (s : State) : Host.Outcome State Fault Refusal :=
  nextB s fun b =>
    match tget? b.seq.ramps target with
    | none => b
    | some r =>
      if !r.ended b.now then b else
      let b := { b with seq := { b.seq with ramps := tdel b.seq.ramps target } }
      if isStageSid target then b.freshWrite (target - 0x500000) (b.holdPlan (target - 0x500000) r.stop)
      else b.varSet target (payVal (b.sigType target) r.stop)

/-! ### DISCRETE -/

def isDioSid (sid : Nat) : Bool := decide (0x600000 ≤ sid) && decide (sid < 0x6000C0)
/-- Is a field one bit long? -/
def Block.isBitField (b : Block) (sid : Nat) : Bool := match b.txField sid with | some e => u8 e 11 == 1 | none => false
/-- A discrete target: an output line or a bit field of a transmit object (R123). -/
def Block.isDiscrete (b : Block) (sid : Nat) : Bool := (isDioSid sid && b.dioIsOut (sid - 0x600000)) || (b.isField sid && b.isBitField sid)
def Block.discLevel (b : Block) (sid : Nat) : Bool := if isDioSid sid then b.dioOut (sid - 0x600000) else b.fieldBit sid
/-- An accepted change: the target leaves FORCED (R131). -/
def Block.discPut (b : Block) (sid : Nat) (l : Bool) : Block :=
  if isDioSid sid then b.dioDrive (sid - 0x600000) l
  else { b with seq := { b.seq with fieldForced := tdel b.seq.fieldForced sid } }.fieldWrite sid (BitVec.ofNat 64 (b2n l))

/-- DISCRETE (R123, R130). -/
def Block.discRun (b : Block) (p : Pend) : Block × Nat × Nat :=
  let sid := acTarget p.entry
  let l := (u8 p.entry 16).testBit 0
  let w := u32 p.entry 20
  if !b.isDiscrete sid then (b, stBadRef, 0) else
  let back := b.discLevel sid
  match (if back == l then none else b.refusal sid l) with
  | some r => (b, stInterlock, r)
  | none =>
    let b := b.discPut sid l
    let b := if w = 0 then b else
      { b with seq := { b.seq with pulses := b.seq.pulses ++ [(sid, { back := back, endAt := b.now + 1000 * w, action := p })] } }
    (b, stDone, 0)

/-- R123, R130. -/
def execActDiscrete (src : ActSrc) (idx : Nat) (s : State) : Host.Outcome State Fault Refusal :=
  nextB s fun b => b.runAction src idx 3 fun b p => b.discRun p

/-- R123: at the end of a pulse the line returns, checked against ENFORCE rules only. -/
def execPulseEnd (target : Nat) (s : State) : Host.Outcome State Fault Refusal :=
  nextB s fun b =>
    match b.seq.pulses.find? fun q => q.1 == target && decide (q.2.endAt ≤ b.now) with
    | none => b
    | some q =>
      let b := { b with seq := { b.seq with pulses := b.seq.pulses.erase q } }
      if b.discLevel target == q.2.back then b else
      match b.refusal target q.2.back true with
      | some r => (b.count Reg.seqInterlockRefusals).actionRec q.2.action stInterlock r 0
      | none => b.discPut target q.2.back

/-! ### The other kinds -/

/-- R123, 16. -/
def execActMove (src : ActSrc) (idx : Nat) (s : State) : Host.Outcome State Fault Refusal :=
  nextB s fun b => b.runAction src idx 4 fun b p =>
    let sid := acTarget p.entry
    let mode := u8 p.entry 20
    let set := u8 p.entry 21
    let v := w32 p.entry 16
    b.orRefuse (b.moveRefusals sid mode set v) fun b => b.moveRun sid mode set v

/-- A transmit trigger (17 R407, R422): refused while the controller cannot send, abandoned without a node. -/
def Block.txAsk (b : Block) (i : Nat) : Block × Nat × Nat :=
  let m := b.canMode (i / 512)
  if m == cnOff || m == cnDetect || m == cnListen then (b, stConflict, 0x07)
  else if b.txoNoNode i then (b, stAbandoned, 0x0C)
  else (b.txTrigger i, stDone, 0)

/-- The value that OBJ_WRITE's data bytes stand for in a field's TYPE. -/
def dataVal (ty : Nat) (bs : List Byte) : DWord :=
  if ty = 4 ∨ ty = 5 then BitVec.ofNat 64 (leNat bs) else BitVec.ofInt 64 (toSigned (8 * bs.length) (leNat bs))

/-- OBJ_WRITE (R123, R130, 17 R407, R408). -/
def Block.objRun (b : Block) (e : List Byte) : Block × Nat × Nat :=
  let sid := acTarget e
  let len := u8 e 24
  let bs := slice e 16 len
  let tx := (u8 e 25).testBit 0
  if len = 0 ∨ 8 < len then (b, stBadArg, 0)
  else if isTxoSid sid && b.txoUsed (txoOf sid) then
    (if b.txoLen (txoOf sid) < len then (b, stBadArg, 0) else
     let b := b.txData (txoOf sid) 0 bs
     if tx then b.txAsk (txoOf sid) else (b, stDone, 0))
  else if b.isField sid then
    let i := txoOf (u24 ((b.txField sid).getD []) 4)
    let l := (leNat bs).testBit 0
    (match (if b.isBitField sid && b.fieldBit sid != l then b.refusal sid l else none) with
     | some r => (b, stInterlock, r)
     | none =>
       let b := if b.isBitField sid then b.discPut sid l else b.fieldWrite sid (dataVal (b.sigType sid) bs)
       if tx then b.txAsk i else (b, stDone, 0))
  else (b, stBadRef, 0)

/-- R123. -/
def execActObjWrite (src : ActSrc) (idx : Nat) (s : State) : Host.Outcome State Fault Refusal :=
  nextB s fun b => b.runAction src idx 5 fun b p => b.objRun p.entry

/-- R123, 07 R167. -/
def execActLoop (src : ActSrc) (idx : Nat) (s : State) : Host.Outcome State Fault Refusal :=
  nextB s fun b => b.runAction src idx 6 fun b p =>
    let l := acTarget p.entry - 0x400000
    b.orRefuse [deny (!isLoopSid (acTarget p.entry) || !b.loopUsed l) stBadRef] fun b => b.loopSet l ((u8 p.entry 16).testBit 0)

/-- R123, 14 R345. -/
def execActArm (src : ActSrc) (idx : Nat) (s : State) : Host.Outcome State Fault Refusal :=
  nextB s fun b => b.runAction src idx 7 fun b p =>
    let on := (u8 p.entry 16).testBit 0
    b.orRefuse (b.armRefusals (acTarget p.entry) on) fun b => b.armRun (acTarget p.entry) on

/-- An event for a machine by SID (R133). -/
def Block.smAsk (b : Block) (sid code : Nat) : Block × Nat × Nat :=
  let m := sid - 0x920000
  if !(decide (0x920000 ≤ sid) && decide (sid < 0x920100) && b.smUsed m) then (b, stBadRef, 0)
  else if code = 0xFF then (b, stBadArg, 0)
  else let r := b.smPost m code; (r.1, if r.2 then stDone else stNoSpace, 0)

/-- R123, R133. -/
def execActSmPost (src : ActSrc) (idx : Nat) (s : State) : Host.Outcome State Fault Refusal :=
  nextB s fun b => b.runAction src idx 8 fun b p => b.smAsk (acTarget p.entry) (u8 p.entry 16)

/-- The lane for which a CLAIM action claims (R123). -/
def Block.claimLane (b : Block) (src : ActSrc) : Option Nat :=
  match src with
  | .lane n => some n.val
  | .machine m => b.smOwner m.val
  | .thread _ => none

/-- R123, 06 R148: a decrease applies at once; an increase stays pending until the next ledger update considers it. -/
def execActClaim (src : ActSrc) (idx : Nat) (s : State) : Host.Outcome State Fault Refusal :=
  nextB s fun b =>
    match b.dueAction src idx 9 with
    | none => b
    | some p =>
      let c := acTarget p.entry - 0xA01000
      let w := u32 p.entry 16
      let m := u32 p.entry 20
      match b.claimLane src with
      | none => b.finishAction p p.late stBadArg 0
      | some n =>
        if acTarget p.entry < 0xA01000 ∨ u16 b.lgrHead 0 ≤ c then b.finishAction p p.late stBadRef 0
        else
          let b := b.capFlag n [(c, w, m)]
          if w ≤ b.laneClaim n c then ((if w = 0 ∧ b.laneClaim n c = 0 then b else b.commitClaim n c w m)).finishAction p p.late stDone 0
          else b.setQueue (b.seq.queue.map fun x => if x = p then { x with claimAt := some b.now } else x)

/-! ### ENFORCE rules (R131) -/

/-- The level of a guarded target, where it has one. -/
def Block.lockLevel (b : Block) (sid : Nat) : Option Bool :=
  if isStageSid sid then (if b.sgUsed (sid - 0x500000) then some (b.sgLevel (sid - 0x500000) (b.rd (Reg.outStageValue (sid - 0x500000)))) else none)
  else if b.isDiscrete sid then some (b.discLevel sid) else none

/-- Is the target forced by the matrix already? -/
def Block.lockForced (b : Block) (sid : Nat) : Bool :=
  if isStageSid sid then (b.sgReasons (sid - 0x500000)).testBit frLock
  else if isDioSid sid then (b.dioSt (sid - 0x600000)).lockForced
  else (tget? b.seq.fieldForced sid).isSome

/-- Force a target to SAFE_LEVEL (R131). -/
def Block.lockForce (b : Block) (sid : Nat) (l : Bool) : Block :=
  if isStageSid sid then
    let n := sid - 0x500000
    let v := if !l then 0#32 else if b.sgKind n = 3 then 0x3F800000#32 else w32 (b.sgDesc n) 4
    (b.putSg n { b.sg n with lockVal := v }).forceStage n frLock
  else if isDioSid sid then b.dioLock (sid - 0x600000) l
  else { b with seq := { b.seq with fieldForced := tput b.seq.fieldForced sid l } }.fieldWrite sid (BitVec.ofNat 64 (b2n l))

/-- R131: every 4 µs. -/
def execEnforceEvaluation (s : State) : Host.Outcome State Fault Refusal :=
  nextB s fun b =>
    (entsOf b.bank tLock).foldl (fun (b : Block) p =>
      let sid := u24 p.2 0
      match b.lockLevel sid with
      | some l =>
        if ruleEnforce p.2 && ruleGuards p.2 l && !b.lockForced sid && !b.ruleOkNow p.2 then
          (b.lockForce sid ((u8 p.2 4).testBit 0)).raise Reg.seqFlags 3 sid
        else b
      | none => b) b

end Sys2Proof.Machine
end

