-- ==== Sys2Proof/Machine/Shedding.lean ====
section
/-! DEFINITION. Machine/Shedding.lean: the ledger's update every 100 µs: measure, shed, restore, admit, publish (06 R143–R156). -/

namespace Sys2Proof.Machine

/-! ### Measuring (R143) -/

/-- The mean applied value of a stage since the last update, as a fraction of full scale. -/
def Block.stageMean (b : Block) (n : Nat) : Rat :=
  let st := b.sg n
  let fs := f32Rat (w32 (b.sgDesc n) 4)
  (st.accRat + f32Rat (b.rd (Reg.outStageValue n)) * ((b.now - st.accAt : Nat) : Rat)) / 100000 / fs

/-- What a consumer draws. -/
def Block.measureOf (b : Block) (c : Nat) : Rat :=
  let e := b.consEnt c
  let full : Rat := ((b.cons c).rating : Rat)
  if u8 e 8 = 0 then (if u16 e 10 = 0xFFFF then full else b.stageMean (u16 e 10) * full)
  else
    let sid := u24 e 12
    if b.absent sid then full else
    match valRat (b.sigType sid) (b.sig sid).value with
    | some v => if v < 0 then full else v
    | none => full

/-- Measure every present consumer; the stages' means start afresh. -/
def Block.measureAll (b : Block) : Block :=
  let ms := (b.consAll.filter fun c => b.consPresent c).map fun c => (c, b.measureOf c)
  let b := ms.foldl (fun (b : Block) q => (b.putCons q.1 { b.cons q.1 with measured := q.2 }).setFld (Reg.lgrConsStatus q.1) 2 1 0) b
  ms.foldl (fun (b : Block) q =>
    let n := u16 (b.consEnt q.1) 10
    if n = 0xFFFF then b else b.putSg n { b.sg n with accRat := 0, accAt := b.now }) b

def Block.measuredSum (b : Block) (r : Nat) : Rat := b.resSum r fun c => if b.consPresent c then (b.cons c).measured else 0
def Block.overCount (b : Block) (r : Nat) : Nat := b.fld (Reg.lgrResStatus r) 16 16

/-- Count the updates in a row with the measured power above the capacity in force. -/
def Block.countOver (b : Block) (r : Nat) : Block :=
  b.setFld (Reg.lgrResStatus r) 16 16 (if (b.capacity r : Rat) < b.measuredSum r then satNat 65535 (b.overCount r + 1) else 0)

/-! ### Shedding (R152, R153, R156) -/

/-- A cut that was made: the resource, rank, trigger flags, consumers, deficit before it and the cut. -/
structure Cut where
  res : Nat
  rank : Nat
  flags : Nat
  cons : List Nat
  deficit : Rat
  cut : Rat
  deriving DecidableEq, Repr

/-- Put a limit of a resource on a consumer. -/
def Block.setLimit (b : Block) (r c : Nat) (l : Option Rat) : Block :=
  b.putCons c (if r < 8 then { b.cons c with limitF := l } else { b.cons c with limitC := l })

/-- Cut rank `k` on a resource by as much of a deficit as it holds. -/
def Block.cutRank (b : Block) (r k flags : Nat) (deficit : Rat) : Block × List Cut × Rat :=
  let cs := (b.consOn r).filter fun c => b.consRank c == k && decide (0 < b.grantOf c)
  let g := (cs.map fun c => b.weight c r * b.grantOf c).sum
  if deficit ≤ 0 ∨ g ≤ 0 then (b, [], deficit) else
  let cut := min deficit g
  let ls := cs.map fun c => (c, b.grantOf c * (g - cut) / g)
  let b := ls.foldl (fun (b : Block) q => b.setLimit r q.1 (some q.2)) b
  ((b.count Reg.lgrSheds).raise Reg.lgrFlags 0 (sidRes r), [{ res := r, rank := k, flags := flags, cons := cs, deficit := deficit, cut := cut }],
   deficit - cut)

/-- Mark the last cut with NEVER_SHED_EXCESS. -/
def markExcess (l : List Cut) : List Cut :=
  match l.reverse with
  | [] => []
  | c :: rest => (({ c with flags := c.flags + 4 } : Cut) :: rest).reverse

/-- Shed on a resource where a trigger holds; answers the cuts made, none where no trigger held. -/
def Block.shedRes (b : Block) (r : Nat) : Block × Option (List Cut) :=
  let granted := b.resSum r fun c => b.grantOf c
  let us : Rat := (b.usable r : Rat)
  let capT := decide (us < granted)
  let meaT := decide (502 ≤ b.overCount r)
  if !capT && !meaT then (b, none) else
  let d0 := if capT then granted - us else 0
  let d := if meaT then max d0 (b.measuredSum r - us) else d0
  let fl := b2n capT + 2 * b2n meaT
  let b := if b.resIn r then b.setFld (Reg.lgrResStatus r) 0 2 2 else b
  let b := b.setFld (Reg.lgrResStatus r) 16 16 0
  let out := (List.range 15).foldl (fun (acc : Block × List Cut × Rat) k =>
    let q := acc.1.cutRank r k fl acc.2.2
    (q.1, acc.2.1 ++ q.2.1, q.2.2)) (b, [], d)
  if 0 < out.2.2 then (out.1.raise Reg.lgrFlags 2 (sidRes r), some (markExcess out.2.1)) else (out.1, some out.2.1)

/-- Lanes as a bit mask. -/
def laneMask (l : List Nat) : Nat := l.foldl (fun m n => m ||| 2 ^ n) 0
/-- Lanes that hold a committed claim on one of some consumers. -/
def Block.lanesOn (b : Block) (cs : List Nat) : List Nat :=
  (List.range 16).filter fun n => cs.any fun c => (b.cons c).lane == n && decide (0 < (b.cons c).committed)

/-- After the cuts of an update: the records, and the fault paths of lanes whose grants fell below their minimums. -/
def Block.shedFaults (b : Block) (cuts : List Cut) : Block :=
  if cuts.isEmpty then b else
  let bad := (List.range 16).filter fun n => b.consAll.any fun c =>
    (b.cons c).lane == n && decide (0 < (b.cons c).committed) && decide (b.grantOf c < ((b.cons c).min : Rat))
  let b := cuts.foldl (fun (b : Block) q =>
    let ls := b.lanesOn q.cons
    b.record (sidRes q.res) 0x29 (leBytes 1 q.rank ++ leBytes 1 q.flags ++ leBytes 2 (laneMask ls) ++ leBytes 4 (wattsReg q.deficit) ++
      leBytes 4 (wattsReg q.cut) ++ leBytes 4 (laneMask (ls.filter fun n => bad.contains n)))) b
  bad.foldl (fun (b : Block) n => (b.raise Reg.lgrFlags 4 (sidLane n)).lnFault n 4 (b.lnStep n)) b

/-! ### Restoring (R155, R156) -/

/-- Remove the limits of a rank on a resource. -/
def Block.restoreRank (b : Block) (r k : Nat) : Block :=
  let cs := (b.consOn r).filter fun c => b.consRank c == k
  let before := (cs.map fun c => b.weight c r * b.grantOf c).sum
  let b := cs.foldl (fun (b : Block) c => b.setLimit r c none) b
  let after := (cs.map fun c => b.weight c r * b.grantOf c).sum
  let b := b.raise Reg.lgrFlags 1 (sidRes r)
  b.record (sidRes r) 0x2A (leBytes 1 k ++ zeroBytes 1 ++ leBytes 2 (laneMask (b.lanesOn cs)) ++ zeroBytes 4 ++
    leBytes 4 (wattsReg (after - before)) ++ zeroBytes 4)

/-- Do both conditions for restoring the highest rank hold at this update? -/
def Block.restoreOk (b : Block) (r k : Nat) : Bool :=
  decide (b.measuredSum r ≤ (b.usable r : Rat)) && b.fitsWithout r (· == k)

/-- The highest rank is restored when its conditions have held for RESTORE_MS. -/
def Block.restoreDue (b : Block) (r : Nat) : Block :=
  match (b.limitedRanks r).getLast? with
  | some k =>
    if 10 * u16 b.lgrHead 4 < (b.res r).held then (b.restoreRank r k).putRes r { b.res r with held := 0 } else b
  | none => b

/-- One update's restoring on a resource. -/
def Block.restoreRes (b : Block) (r : Nat) : Block :=
  let x := b.res r
  let ranks := b.limitedRanks r
  let b := if x.restoreAll && b.fitsWithout r (fun _ => true) then ranks.reverse.foldl (fun (b : Block) k => b.restoreRank r k) b else b
  let b := b.putRes r { b.res r with restoreAll := false }
  let b := match (b.limitedRanks r).getLast? with
    | some k => (b.putRes r { b.res r with held := if b.restoreOk r k then (b.res r).held + 1 else 0 }).restoreDue r
    | none => b
  if (b.limitedRanks r).isEmpty then
    (if b.resIn r then b.setFld (Reg.lgrResStatus r) 0 2 1 else b).putRes r { b.res r with held := 0 }
  else b

/-! ### Admission (R146–R148) -/

/-- What an update considers: a waiting claim set or a CLAIM action. -/
structure Bid where
  prio : Nat
  since : Nat
  action : Option Pend
  lane : Nat
  claims : List (Nat × Nat × Nat)
  deriving DecidableEq, Repr

/-- The order of R146 and R148. -/
def Bid.before (x y : Bid) : Bool :=
  if x.prio ≠ y.prio then x.prio < y.prio else if x.since ≠ y.since then x.since < y.since
  else if x.action.isSome ≠ y.action.isSome then !x.action.isSome else x.lane < y.lane

/-- Insert in order. -/
def insertBid (x : Bid) : List Bid → List Bid
  | [] => [x]
  | y :: r => if x.before y then x :: y :: r else y :: insertBid x r

/-- The bids that this update considers, in order. -/
def Block.bids (b : Block) : List Bid :=
  let sets := b.lgr.sets.filterMap fun p =>
    if p.2.admitted || p.2.withdrawn.isSome || decide (b.now ≤ p.2.presentedAt) then none
    else let t := p.2.waitingSince.getD b.now; some { prio := b.effPrio p.1 t, since := t, action := none, lane := p.1, claims := p.2.claims }
  let acts := b.seq.queue.filterMap fun p =>
    match p.claimAt, b.claimLane p.src with
    | some t, some n =>
      if t < b.now then
        some { prio := b.effPrio n t, since := t, action := some p, lane := n,
               claims := [(acTarget p.entry - 0xA01000, u32 p.entry 16, u32 p.entry 20)] }
      else none
    | _, _ => none
  (sets ++ acts).foldl (fun l x => insertBid x l) []

/-- The increase that a bid brings to a resource. -/
def Block.bidInc (b : Block) (x : Bid) (r : Nat) : Rat :=
  (x.claims.map fun q =>
    let held := if (b.cons q.1).lane = x.lane then b.standing q.1 else 0
    b.weight q.1 r * ((b.counted q.1 q.2.1 - held : Nat) : Rat)).sum

/-- Consider one bid; the state carries the resources held back for earlier waiters and what is to follow the update. -/
def Block.considerBid (b : Block) (blocked : List Nat) (x : Bid) : Block × List Nat :=
  let incs := (List.range 12).filter fun r => 0 < b.bidInc x r
  let other := x.claims.any fun q => let k := (b.cons q.1).lane; k != x.lane && k != 255 && decide (0 < b.standing q.1)
  let bad := incs.filter fun r => blocked.contains r || b.shedding r ||
    decide ((b.usable r : Rat) < b.resSum r (fun c => (b.standing c : Rat)) + b.bidInc x r)
  if !other && bad.isEmpty then
    let b := match x.action with
      | none => (match b.claimSet x.lane with | some s => b.admitSet x.lane s | none => b)
      | some _ => x.claims.foldl (fun (b : Block) q =>
          (b.putCons q.1 { b.cons q.1 with lane := x.lane, committed := q.2.1, min := q.2.2 }).showCons q.1) b
    let step := match x.action with | some _ => 0xFFFF | none => ((b.claimSet x.lane).map (·.step)).getD 0xFFFF
    let b := incs.foldl (fun (b : Block) r =>
      b.record (sidRes r) 0x28 (leBytes 1 x.lane ++ leBytes 1 x.prio ++ leBytes 2 step ++
        leBytes 4 (wattsReg (b.resSum r fun c => (b.standing c : Rat))) ++ leBytes 4 (satNat 0xFFFFFFFF ((b.now - x.since) / 1000)) ++
        zeroBytes 4)) b
    ((match x.action with | some p => b.finishAction p p.late stDone 0 | none => b), blocked)
  else
    match x.action with
    | some p => (b.finishAction p p.late stLedger 0, blocked)
    | none =>
      let b := match b.claimSet x.lane with
        | some s => (b.putSet x.lane { s with waitingSince := some x.since }).showWait x.lane (bad.headD 0xFF)
        | none => b
      (b, blocked ++ incs)

/-! ### The update (R145) -/

/-- A temporary capacity comes into force at the first update after its command (R159). -/
def Block.newCaps (b : Block) : Block :=
  b.lgr.res.foldl (fun (b : Block) p =>
    match p.2.newCap with
    | some v => (b.wrN (Reg.lgrResLimit p.1) v).putRes p.1 { b.res p.1 with newCap := none }
    | none => b) b

/-- The resources that the image declares. -/
def Block.resAll (b : Block) : List Nat := (List.range 12).filter fun r => b.resExists r

/-- Shed and restore on every resource, in the order 0 to 11. -/
def Block.shedAll (b : Block) : Block :=
  let out := b.resAll.foldl (fun (acc : Block × List Cut × List Nat) r =>
    let q := acc.1.shedRes r
    match q.2 with
    | some cs => (q.1, acc.2.1 ++ cs, acc.2.2 ++ [r])
    | none => (q.1, acc.2)) (b, [], [])
  let b := out.1.shedFaults out.2.1
  b.resAll.foldl (fun (b : Block) r =>
    if out.2.2.contains r then b.putRes r { b.res r with held := 0 } else b.restoreRes r) b

/-- One update. -/
def Block.ledgerUpdate (b : Block) : Block :=
  let b := ((b.ledgerTick.count48 Reg.lgrUpdates).blkCount 0x24).newCaps.measureAll
  let b := b.resAll.foldl (fun (b : Block) r => b.countOver r) b
  let b := b.shedAll
  let b := (b.bids.foldl (fun (acc : Block × List Nat) x => acc.1.considerBid acc.2 x) (b, [])).1
  let b := b.consAll.foldl (fun (b : Block) c => b.showCons c) b
  ({ b with lgr := { b.lgr with pub := some b.now, updAt := some b.now } }.showLedger).refreshAll

/-- R145: from t7, on each tick whose timebase time is a multiple of 100,000 ns, once a tick. -/
def execLedgerUpdate (s : State) : Host.Outcome State Fault Refusal :=
  nextB s fun b => if 7 ≤ b.boot.milestone ∧ b.now % 100000 < 4 ∧ b.lgr.updAt ≠ some b.now then b.ledgerUpdate else b

/-- R152: measured power has exceeded the capacity in force at 502 updates in a row. -/
def execMeasuredTrigger (res : Fin 12) (s : State) : Host.Outcome State Fault Refusal :=
  nextB s fun b =>
    let r := res.val
    if !b.resExists r || decide (b.overCount r < 502) then b else
    let q := b.shedRes r
    let b := q.1.shedFaults (q.2.getD [])
    ({ b with lgr := { b.lgr with pub := some b.now } }).showLedger

/-- R155: the conditions have held for RESTORE_MS. -/
def execRankRestore (res : Fin 12) (s : State) : Host.Outcome State Fault Refusal :=
  nextB s fun b =>
    let r := res.val
    if !b.resExists r || decide ((b.res r).held ≤ 10 * u16 b.lgrHead 4) then b else
    let b := b.restoreDue r
    let b := if (b.limitedRanks r).isEmpty && b.resIn r then b.setFld (Reg.lgrResStatus r) 0 2 1 else b
    ({ b with lgr := { b.lgr with pub := some b.now } }).showLedger

/-- At t7 the thermal floor and the consumers' ranks are loaded (R140, R161). -/
def Block.ledgerInit (b : Block) : Block :=
  let b := b.setFld Reg.lgrThermal 0 5 (u8 b.lgrHead 6)
  b.consAll.foldl (fun (b : Block) c => b.showCons c) b

end Sys2Proof.Machine
end

