-- ==== Sys2Proof/Machine/Tables.lean ====
section
/-! DEFINITION. Machine/Tables.lean: the banked tables' field checks and the rules between their entries (03 R528, with the field
tables of 05 R109–R113, R122, R123, R129, R132, 06 R140, R141, 07 R181 and 17 R412, R416). -/

namespace Sys2Proof.Machine

/-- Entry length and number of entries of each banked table; none for a number that names no banked table (log 8). -/
def tableSize (k : Nat) : Option (Nat × Nat) :=
  if k = tLane then some (16, 16) else if k = tLaneTrailer then some (8, 1) else if k = tRecipe then some (32, 1024)
  else if k = tStep then some (64, 16384) else if k = tClaim then some (16, 16384) else if k = tAction then some (32, 262144)
  else if k = tMachine then some (16, 256) else if k = tSmState then some (16, 16384) else if k = tTrans then some (16, 16384)
  else if k = tLock then some (32, 4096) else if k = tLgrHead then some (16, 1) else if k = tCons then some (16, 512)
  else if k = tCurve then some (16, 1024) else if k = tPoint then some (8, 262144) else if k = tFormat then some (16, 16384)
  else if k = tSer then some (32, 256) else if k = tSerPart then some (16, 528) else none

/-- Is x in lo..hi? -/
def inRange (lo hi x : Nat) : Bool := decide (lo ≤ x) && decide (x ≤ hi)

/-- R109. -/
def laneOk (e : List Byte) : Bool :=
  inRange 0 31 (u8 e 1) && inRange 0 (u8 e 1) (u8 e 2) && zeros e 3 1 && inRange 0 16384 (u16 e 4) && zeros e 6 2 &&
    inRange 1 600000 (u32 e 8) && zeros e 12 4

/-- R110. -/
def recipeOk (e : List Byte) : Bool :=
  inRange 0x910000 0x91FFFF (u24 e 0) && zeros e 3 1 && inRange 1 1024 (u16 e 4) && zeros e 6 2 && inRange 0 15 (u8 e 12) && zeros e 13 3

/-- R111: the fields whose ranges follow from END_KIND. -/
def stepEndOk (e : List Byte) : Bool :=
  match spEndKind e with
  | 0 => inRange 250 0xFFFFFFFF (spDuration e) && spTimeout e == 0
  | 1 => spDuration e == 0 && inRange 0 7 (spEndOp e) && inRange 1 0xFFFFFFFF (spTimeout e)
  | 2 => spDuration e == 0 && inRange 1 0xFE (spEndOp e) && inRange 1 0xFFFFFFFF (spTimeout e)
  | _ => false

/-- R111. -/
def stepOk (e : List Byte) : Bool :=
  stepEndOk e && inRange 0 4096 (u16 e 8) && inRange 0 15 (u16 e 10) && inRange 0 16 (u8 e 13) && spTol e != 0 &&
    inRange 0 63 (spWaitState e) && zeros e 52 12

/-- R113. -/
def claimOk (e : List Byte) : Bool :=
  inRange 0xA01000 0xA011FF (u24 e 0) && zeros e 3 1 && decide (u32 e 8 ≤ u32 e 4) && zeros e 12 4

/-- A loop variable or an output stage (R123). -/
def isVarOrStage (sid : Nat) : Bool := inRange 0x401000 0x4FFFFF sid || inRange 0x500000 0x5003FF sid
/-- A bus field (R123). -/
def isBusField (sid : Nat) : Bool := inRange 0x840000 0x8FFFFF sid

/-- R123: the target's class and the payload of each kind. -/
def actionKindOk (e : List Byte) : Bool :=
  let t := acTarget e
  match acKind e with
  | 1 => (isVarOrStage t || isBusField t) && zeros e 20 12
  | 2 => isVarOrStage t && decide (4 ≤ u32 e 20) && (u16 e 24 == 0xFFFF || inRange 0 1023 (u16 e 24)) && zeros e 26 6
  | 3 => (inRange 0x600000 0x6000BF t || isBusField t) && inRange 0 1 (u8 e 16) && zeros e 17 3 && zeros e 24 8
  | 4 => (inRange 0x700000 0x70003F t || inRange 0x702000 0x70200F t) && inRange 0 4 (u8 e 20) && inRange 0 15 (u8 e 21) && zeros e 22 10
  | 5 => (inRange 0x830000 0x830FFF t || isBusField t) && inRange 1 8 (u8 e 24) && inRange 0 1 (u8 e 25) && zeros e 26 6
  | 6 => inRange 0x400000 0x4003FF t && inRange 0 1 (u8 e 16) && zeros e 17 15
  | 7 => inRange 0x301000 0x301FFF t && inRange 0 1 (u8 e 16) && zeros e 17 15
  | 8 => inRange 0x920000 0x9200FF t && inRange 0 0xFE (u8 e 16) && zeros e 17 15
  | 9 => inRange 0xA01000 0xA011FF t && zeros e 24 8
  | _ => false

/-- R122. -/
def actionOk (e : List Byte) : Bool :=
  acLate e != 3 && inRange 0 15 (u8 e 1) && inRange 0 2 (acBase e) &&
    (if acBase e = 1 then inRange 1 0xFE (acEvent e) else acEvent e == 0) && acTime e % 4 == 0 && zeros e 15 1 && actionKindOk e

/-- R132: a machine's header. -/
def machineOk (e : List Byte) : Bool :=
  inRange 1 64 (u8 e 0) && (u8 e 2 == 0xFF || inRange 0 15 (u8 e 2)) && zeros e 3 1 && inRange 0 256 (u16 e 12) && zeros e 14 2

/-- R132: a state. -/
def smStateOk (e : List Byte) : Bool := inRange 0 64 (u16 e 4) && inRange 0 3 (u8 e 6) && zeros e 13 3

/-- R132: a transition. -/
def transOk (e : List Byte) : Bool := zeros e 3 1 && inRange 0 7 (u8 e 7) && zeros e 12 4

/-- R129: an interlock rule. -/
def lockOk (e : List Byte) : Bool :=
  let t := u24 e 0
  let term (i : Nat) : Bool := u24 e i == 0 || inRange 0 7 (u8 e (i + 3))
  (inRange 0x600000 0x6000BF t || isBusField t || inRange 0x500000 0x5003FF t) && inRange 0 7 (u8 e 3) && field (u8 e 3) 1 2 != 0 &&
    inRange 0 1 (u8 e 4) && zeros e 6 2 && term 8 && term 16 && term 24

/-- R140. -/
def lgrHeadOk (e : List Byte) : Bool :=
  inRange 0 512 (u16 e 0) && inRange 0 15 (u8 e 3) && inRange 100 60000 (u16 e 4) && inRange 0 31 (u8 e 6) && zeros e 7 9

/-- R141. -/
def consOk (e : List Byte) : Bool :=
  decide (1 ≤ u32 e 0) && inRange 0 7 (u8 e 4) && (u8 e 5 == 0xFF || inRange 0 3 (u8 e 5)) && inRange 0 100 (u8 e 6) &&
    inRange 0 15 (u8 e 7) && inRange 0 1 (u8 e 8) && zeros e 9 1 && (u16 e 10 == 0xFFFF || inRange 0 1023 (u16 e 10)) &&
    (u8 e 8 == 1 || u24 e 12 == 0) && zeros e 15 1

/-- R181. -/
def curveOk (e : List Byte) : Bool :=
  (u16 e 0 == 0 || inRange 2 256 (u16 e 0)) && inRange 0 1 (u8 e 2) && inRange 0 1 (u8 e 3) && zeros e 8 8

/-- R412. -/
def formatOk (e : List Byte) : Bool :=
  isBusField (u24 e 0) && inRange 0 31 (u8 e 3) && (inRange 0x820000 0x820FFF (u24 e 4) || inRange 0x830000 0x830FFF (u24 e 4)) &&
    (!(u8 e 3).testBit 4 || u8 e 11 == 32) && zeros e 7 1 && inRange 0 2047 (u16 e 8) && inRange 0 7 (u8 e 10) &&
    inRange 1 32 (u8 e 11) && ((u8 e 3).testBit 0 || u32 e 12 == 0) && !((u8 e 3).testBit 0 && (u8 e 3).testBit 3)

/-- R416: a message entry. -/
def serOk (e : List Byte) : Bool :=
  u8 e 0 == 0 ||
    (inRange 1 3 (u8 e 0) && inRange 0 15 (u8 e 1) && inRange 0 64 (u8 e 6) && inRange 0 16 (u8 e 7) && inRange 1 255 (u8 e 10) &&
      inRange 0 5 (u8 e 11) && (!(u8 e 1).testBit 3 || decide (u32 e 16 < u32 e 12)) && inRange 0 7 (u8 e 24) &&
      inRange 0 8 (u8 e 25) && zeros e 28 4)

/-- R416: a serial field entry; the pools are bytes without fields. -/
def serPartOk (i : Nat) (e : List Byte) : Bool :=
  if i < 16 then decide (i < 4) && decide (e.length ≤ 4096)
  else e.length == 16 && inRange 0x840000 0x8FFFFF (u24 e 0) && inRange 0 4 (u8 e 3) && inRange 0 1 (u8 e 6) && zeros e 7 9

/-- An entry of a banked table has its length and every field within its table (R528). -/
def entryOk (k i : Nat) (e : List Byte) : Bool :=
  match tableSize k with
  | none => false
  | some (len, n) =>
    decide (i < n) && (if k = tSerPart then serPartOk i e else e.length == len) &&
      (if k = tLane then laneOk e else if k = tRecipe then recipeOk e else if k = tStep then stepOk e else if k = tClaim then claimOk e
       else if k = tAction then actionOk e else if k = tMachine then machineOk e else if k = tSmState then smStateOk e
       else if k = tTrans then transOk e else if k = tLock then lockOk e else if k = tLgrHead then lgrHeadOk e
       else if k = tCons then consOk e else if k = tCurve then curveOk e else if k = tFormat then formatOk e
       else if k = tSer then serOk e else true)

/-! ### Rules between entries (R528) -/

/-- The sum of R109. -/
def quotaOk (t : Tab (List Byte)) : Bool :=
  let tr := ent t tLaneTrailer 0
  decide (((entsOf t tLane).map fun p => u16 p.2 4).sum + u16 tr 0 + u16 tr 2 ≤ 16384)

/-- A machine's states and transitions lie in the bank and name states that it has, and one without an OWNER places nothing that
needs one. -/
def machineRelOk (t : Tab (List Byte)) (h : List Byte) : Bool :=
  let n := u8 h 0
  let sts := (List.range n).map fun i => ent t tSmState (u32 h 4 + i)
  let trs := (List.range (u16 h 12)).map fun i => ent t tTrans (u32 h 8 + i)
  let acts := (sts.map fun s => (actionsOf t (u32 s 0) (u16 s 4)).map (·.2)).flatten
  decide (u32 h 4 + n ≤ 16384) && decide (u32 h 8 + u16 h 12 ≤ 16384) && decide (u8 h 1 < n) &&
    (sts.all fun s => decide (u8 s 12 < n)) && (trs.all fun r => decide (u8 r 0 < n) && decide (u8 r 2 < n)) &&
    (u8 h 2 != 0xFF || acts.all fun a => acBase a != 1 && acKind a != 9)

/-- Every machine that a lane names as SAFE_SM has a transition for event 0x00 from every state that is not SAFE (R133). -/
def safeSmOk (t : Tab (List Byte)) : Bool :=
  (entsOf t tLane).all fun p =>
    u8 p.2 0 == 0xFF || !hasEnt t tMachine (u8 p.2 0) ||
      (let h := ent t tMachine (u8 p.2 0)
       (List.range (u8 h 0)).all fun s =>
         (u8 (ent t tSmState (u32 h 4 + s)) 6).testBit 0 ||
           (List.range (u16 h 12)).any fun i => let r := ent t tTrans (u32 h 8 + i); u8 r 0 == s && u8 r 1 == 0)

/-- x values that strictly ascend as binary32 numbers. -/
def xAscending : List Word → Bool
  | x :: y :: r => f32Lt x y && xAscending (y :: r)
  | _ => true

/-- A curve's points lie in the bank and ascend (R181). -/
def curveRelOk (t : Tab (List Byte)) (h : List Byte) : Bool :=
  u16 h 0 == 0 || (decide (u32 h 4 + u16 h 0 ≤ 262144) &&
    xAscending ((List.range (u16 h 0)).map fun i => w32 (ent t tPoint (u32 h 4 + i)) 0))

/-- The rules between entries (R528). -/
def tablesRelOk (t : Tab (List Byte)) : Bool :=
  quotaOk t && ((entsOf t tMachine).all fun p => machineRelOk t p.2) && safeSmOk t && (entsOf t tCurve).all fun p => curveRelOk t p.2

/-- A consumer names a feed and a circuit that exist (R141). -/
def consRelOk (t : Tab (List Byte)) : Bool :=
  let h := ent t tLgrHead 0
  (entsOf t tCons).all fun p =>
    decide (u16 h 0 ≤ p.1) || ((u8 h 2).testBit (u8 p.2 4) && (u8 p.2 5 == 0xFF || (u8 h 3).testBit (u8 p.2 5)))

/-- Every listed entry of a bank keeps its field table. -/
def bankFieldsOk (t : Tab (List Byte)) : Bool := t.all fun p => entryOk (p.1 / 0x1000000) (p.1 % 0x1000000) p.2

/-- Keys of the tables as an image lists them rise strictly. -/
def keysAscend : List (Nat × List Byte) → Bool
  | (i, _) :: (j, x) :: r => decide (i < j) && keysAscend ((j, x) :: r)
  | _ => true

/-- Does a SID lie in one of the ranges of 04 R87 in which the catalogue may list signals? -/
def sidOk (s : Nat) : Bool :=
  s == 1 || inRange 0x100 0x10F s || inRange 0x200 0x201 s || inRange 0x100000 0x10005F s || inRange 0x101000 0x1FFFFF s ||
    inRange 0x200000 0x200007 s || inRange 0x201000 0x2FFFFF s || inRange 0x300000 0x300007 s || inRange 0x301000 0x3FFFFF s ||
    inRange 0x400000 0x4003FF s || inRange 0x401000 0x4FFFFF s || inRange 0x500000 0x5003FF s || inRange 0x600000 0x6000BF s ||
    inRange 0x601000 0x60103F s || inRange 0x700000 0x70003F s || inRange 0x701000 0x70103F s || inRange 0x702000 0x70200F s ||
    inRange 0x800000 0x800007 s || inRange 0x800010 0x800013 s || inRange 0x810000 0x8107FF s || inRange 0x820000 0x820FFF s ||
    inRange 0x830000 0x830FFF s || isBusField s || inRange 0x900000 0x90000F s || inRange 0x910000 0x91FFFF s ||
    inRange 0x920000 0x9200FF s || inRange 0x930000 0x930FFF s || inRange 0xA00000 0xA00007 s || inRange 0xA00010 0xA00013 s ||
    inRange 0xA01000 0xA011FF s || inRange 0xB00000 0xB00FFF s || inRange 0xB01000 0xB01027 s || inRange 0xC00000 0xCFFFFF s ||
    s == 0xD00000 || inRange 0xD00010 0xD00011 s || inRange 0xD00100 0xD00107 s || inRange 0xD00200 0xD00207 s ||
    inRange 0xE00000 0xFFFFFF s

/-- 04 R88: a catalogue entry. -/
def signalOk (e : List Byte) : Bool :=
  e.length == 16 && sidOk (u24 e 0) && inRange 1 7 (u8 e 3) && inRange 0 7 (u8 e 7) && (u16 e 8 == 0xFFFF || inRange 0 1023 (u16 e 8)) &&
    (if u8 e 3 = 7 then inRange 1 64 (u8 e 10) else u8 e 10 == 0) && (u8 e 11 == 0xFF || inRange 0 15 (u8 e 11)) && zeros e 15 1

/-- SIDs that rise strictly. -/
def sidsAscend : List Nat → Bool
  | a :: c :: r => decide (a < c) && sidsAscend (c :: r)
  | _ => true

/-- 04 R88: the catalogue. -/
def catalogueOk (t : Tab (List Byte)) : Bool :=
  let es := (entsOf t tSignal).map (·.2)
  inRange 1 65536 es.length && es.all signalOk && sidsAscend (es.map fun e => u24 e 0)

end Sys2Proof.Machine
end

