-- ==== Sys2Proof/Machine/Validate.lean ====
section
/-! DEFINITION. Machine/Validate.lean: the checks of `SEQ.LOAD` and `SEQ.VALIDATE` (05 R135), and their end. -/

namespace Sys2Proof.Machine

/-- Where a check failed: step index and action index within the step, 0xFFFF where it concerns neither (R135). -/
abbrev Spot := Nat × Nat

/-- A recipe as a bank spells it: its header, its steps, and whether each step is defined. -/
structure RecipeView where
  tab : Tab (List Byte)
  head : List Byte
  steps : List (Nat × List Byte)

def recipeView (t : Tab (List Byte)) (h : List Byte) : RecipeView :=
  { tab := t, head := h, steps := (List.range (rcCount h)).map fun i => (i, stepOf t h i) }

/-- A step's actions with their place in the step. -/
def RecipeView.acts (v : RecipeView) (e : List Byte) : List (Nat × List Byte) :=
  (List.range (u16 e 8)).map fun j => (j, ent v.tab tAction (u32 e 4 + j))
/-- The claim entries of a step. -/
def RecipeView.claims (v : RecipeView) (e : List Byte) : List (List Byte) :=
  (List.range (u8 e 13)).map fun j => ent v.tab tClaim (u32 e 16 + j)
def RecipeView.step (v : RecipeView) (i : Nat) : List Byte := stepOf v.tab v.head i
def RecipeView.count (v : RecipeView) : Nat := rcCount v.head
/-- Is the entry listed? One that is not fails check 4, not check 1. -/
def RecipeView.defined (v : RecipeView) (i : Nat) : Bool := hasEnt v.tab tStep (rcBase v.head + i)

/-- The first spot of a step at which a condition on the step, or on one of its actions, holds. -/
def RecipeView.find (v : RecipeView) (onStep : Nat → List Byte → Bool) (onAct : Nat → List Byte → List Byte → Bool) : Option Spot :=
  v.steps.findSome? fun p =>
    if onStep p.1 p.2 then some (p.1, 0xFFFF)
    else ((v.acts p.2).find? fun a => onAct p.1 p.2 a.2).map fun a => (p.1, a.1)

/-- Check 1, the fields of the recipe's own entries. -/
def RecipeView.badField (v : RecipeView) : Option Spot :=
  if !recipeOk v.head then some (0xFFFF, 0xFFFF) else
  v.find (fun i e => v.defined i && (!stepOk e || (v.claims e).any fun c => !c.isEmpty && !claimOk c))
    (fun _ _ a => !a.isEmpty && !actionOk a)

/-- The minimum that a step's claims keep for a consumer. -/
def RecipeView.minOf (v : RecipeView) (e : List Byte) (sid : Nat) : Nat :=
  match (v.claims e).find? fun c => u24 c 0 == sid with
  | some c => u32 c 8
  | none => 0

/-- Check 1, the relations: FAULT_STEP names FAULT_ONLY steps, which wait for nothing and claim no more than the minimums of the
steps that name them. -/
def RecipeView.badRelation (v : RecipeView) : Option Spot :=
  let named (i : Nat) (e : List Byte) : Bool := (v.steps.any fun p =>
    p.2 != [] && spFault p.2 == i && (v.claims e).any fun c => decide (v.minOf p.2 (u24 c 0) < u32 c 4))
  v.find (fun i e =>
    (v.defined i && decide (spFault e < v.count) && v.defined (spFault e) && !spFaultOnly (v.step (spFault e))) ||
    (spFaultOnly e && (spNeedLoops e || spWaitSm e != 0xFF)) || (spFaultOnly e && named i e)) (fun _ _ _ => false)

/-- Check 2: a TIME_CRITICAL action that is certain to be late. -/
def RecipeView.badTiming (v : RecipeView) : Option Spot :=
  v.find (fun _ _ => false) fun _ e a =>
    acCritical a && ((acBase a == 1 && decide (acTime a < 2000)) ||
      (acBase a == 0 && spEndKind e == 0 && !acCarry a && decide (1000 * spDuration e ≤ acTime a)))

/-- Follow a fault path from a step: the step at which it fails to end, if any. The first argument bounds the walk. -/
def RecipeView.pathFails (v : RecipeView) : Nat → Nat → Option Nat
  | 0, _ => none
  | fuel + 1, i =>
    if v.count ≤ i then some (v.count - 1)
    else if !v.defined i then none
    else if !spFaultOnly (v.step i) then some i
    else if spLast (v.step i) then none
    else v.pathFails fuel (i + 1)

/-- The loop threads that the recipe enables (05 R123, 07 R162). -/
def RecipeView.enables (v : RecipeView) (b : Block) : List Nat :=
  (v.steps.map fun p => (v.acts p.2).filterMap fun a =>
    if acKind a.2 = 6 ∧ (u8 a.2 16).testBit 0 then some (u16 (b.fix tLoop (acTarget a.2 - 0x400000)) 0) else none).flatten

/-- Can the threads that the recipe enables form a dependence cycle? Only a thread with a route from a loop variable can lie on one;
which thread stores a variable no table of the image tells, so where such a thread is enabled the answer is free (log 27). -/
def RecipeView.mayCycle (v : RecipeView) (b : Block) : Bool :=
  (v.enables b).any fun t => (entsOf b.cfg tRoute).any fun r => u16 r.2 4 == t && inRange 0x401000 0x4FFFFF (u24 r.2 0)

/-- Check 3. -/
def RecipeView.badCycle (v : RecipeView) : Option Spot :=
  (v.steps.filter fun p => !spFaultOnly p.2 && decide (spFault p.2 < v.count)).findSome? fun p =>
    (v.pathFails (v.count + 1) (spFault p.2)).map fun i => (i, 0xFFFF)

/-- Does the image define the signal that a step compares? -/
def Block.sigDefined (b : Block) (sid : Nat) : Bool :=
  (b.sigEntry sid).isSome || (isStageSid sid && b.sgUsed (sid - 0x500000)) ||
    (isDioSid sid && hasEnt b.cfg tDioLine (sid - 0x600000)) || inRange 0x601000 0x60103F sid || inRange 0xC00000 0xCFFFFF sid ||
    inRange 0xE00000 0xEFFFFF sid

/-- Does the bank list a bus or serial field? -/
def fieldDefined (t : Tab (List Byte)) (sid : Nat) : Bool :=
  ((entsOf t tFormat).any fun p => u24 p.2 0 == sid) || (entsOf t tSerPart).any fun p => decide (16 ≤ p.1) && u24 p.2 0 == sid

/-- Does the bank define the consumer? -/
def consDefined (t : Tab (List Byte)) (sid : Nat) : Bool :=
  inRange 0xA01000 0xA011FF sid && decide (sid - 0xA01000 < u16 (ent t tLgrHead 0) 0)

/-- Is an action's target, and the curve it names, defined by the bank or the image? -/
def Block.targetDefined (b : Block) (t : Tab (List Byte)) (a : List Byte) : Bool :=
  let sid := acTarget a
  match acKind a with
  | 1 => if isBusField sid then fieldDefined t sid else b.sigDefined sid
  | 2 => b.sigDefined sid && (u16 a 24 == 0xFFFF || u16 (ent t tCurve (u16 a 24)) 0 != 0)
  | 3 => if isBusField sid then fieldDefined t sid else hasEnt b.cfg tDioLine (sid - 0x600000)
  | 4 => if isAxisSid sid then hasEnt b.cfg tAxis (sid - 0x700000) else hasEnt b.cfg tGroup (sid - 0x702000)
  | 5 => if isBusField sid then fieldDefined t sid else hasEnt b.cfg tTxo (sid - 0x830000)
  | 6 => hasEnt b.cfg tLoop (sid - 0x400000)
  | 7 => hasEnt b.cfg tTake (sid - 0x301000)
  | 8 => hasEnt t tMachine (sid - 0x920000)
  | 9 => consDefined t sid
  | _ => false

/-- Check 4. -/
def RecipeView.badRef (v : RecipeView) (b : Block) : Option Spot :=
  v.find (fun i e =>
    !v.defined i || (spFault e != 0xFFFF && decide (v.count ≤ spFault e)) || (spWaitSm e != 0xFF && !hasEnt v.tab tMachine (spWaitSm e)) ||
    (spEndKind e == 1 && !b.sigDefined (u24 e 20)) || (v.claims e).any fun c => c.isEmpty || !consDefined v.tab (u24 c 0))
    (fun _ _ a => a.isEmpty || !b.targetDefined v.tab a)

/-- Check 5. -/
def RecipeView.badChamber (v : RecipeView) (b : Block) (lane : Nat) : Option Spot :=
  let r := Reg.wldChamber (rcChamber v.head)
  if b.bit r 0 && b.fld r 8 8 == lane then none else some (0xFFFF, 0xFFFF)

/-- Check 6. -/
def RecipeView.badAbsent (v : RecipeView) (b : Block) : Option Spot :=
  v.find (fun _ e => spEndKind e == 1 && b.absent (u24 e 20)) (fun _ _ a => b.absent (acTarget a))

/-- Does a single claim on a consumer exceed the declared capacity minus reserve of its feed or circuit (check 7, 06 R142–R144)? A
claim is counted at no more than the rating in force, weighted as R143 says. -/
def Block.claimTooBig (b : Block) (t : Tab (List Byte)) (sid w : Nat) : Bool :=
  let c := sid - 0xA01000
  let e := ent t tCons c
  let w := b.counted c w
  let room (r : Nat) : Nat := if b.resIn r then (b.res r).declared - b.rdN (Reg.lgrResReserve r) else 0
  decide (room (u8 e 4) < w) || (u8 e 5 != 0xFF && decide (100 * room (8 + u8 e 5) < w * u8 e 6))

/-- Check 7. -/
def RecipeView.badClaim (v : RecipeView) (b : Block) : Option Spot :=
  v.find (fun _ e => (v.claims e).any fun c => b.claimTooBig v.tab (u24 c 0) (u32 c 4))
    (fun _ _ a => acKind a == 9 && b.claimTooBig v.tab (acTarget a) (u32 a 16))

/-! #### Check 8: what the recipe itself has set -/

/-- What an action leaves known of its target: a SET or a level change leaves its value, a ramp or a pulse leaves nothing. -/
def learn (k : Tab Word) (a : List Byte) : Tab Word :=
  let t := acTarget a
  match acKind a with
  | 1 => if acBase a = 0 then tput k t (w32 a 16) else tdel k t
  | 2 => tdel k t
  | 3 => if acBase a = 0 ∧ u32 a 20 = 0 then tput k t (BitVec.ofNat 32 (u8 a 16 % 2)) else tdel k t
  | 5 => tdel k t
  | _ => k

/-- The level that an action would give a guarded target, with the SIDs whose rules guard it (R130). -/
def Block.guardedLevel (b : Block) (a : List Byte) : Option (Bool × List Nat) :=
  let t := acTarget a
  if acKind a = 3 then some ((u8 a 16).testBit 0, [t])
  else if acKind a = 1 ∧ isStageSid t then
    let n := t - 0x500000
    let kind := b.sgKind n
    let target := u24 (b.fix tStage n) 0
    some (valueLevel kind (w32 a 16), if kind = 3 ∨ kind = 4 then [t, target] else [t])
  else none

/-- Is the action certain to be refused by a term that the recipe has set? -/
def Block.certainRefusal (b : Block) (t : Tab (List Byte)) (k : Tab Word) (a : List Byte) : Bool :=
  match b.guardedLevel a with
  | none => false
  | some (l, ts) =>
    let same := match tget? k (acTarget a) with
      | some w => if acKind a = 3 then w.toNat.testBit 0 == l else valueLevel (b.sgKind (acTarget a - 0x500000)) w == l
      | none => false
    !same && (entsOf t tLock).any fun p => ts.contains (u24 p.2 0) && ruleGuards p.2 l && [8, 16, 24].any fun o =>
      u24 p.2 o != 0 && (match tget? k (u24 p.2 o) with
        | some w => !compareAs (b.sigType (u24 p.2 o)) (u8 p.2 (o + 3)) (payVal (b.sigType (u24 p.2 o)) w) (w32 p.2 (o + 4))
        | none => false)

/-- Insert a number into a rising list without repeats. -/
def insertTime (t : Nat) : List Nat → List Nat
  | [] => [t]
  | x :: r => if t = x then x :: r else if t < x then t :: x :: r else x :: insertTime t r

/-- Actions of a step grouped by offset, in time order: the changes of one tick do not see one another (R130). -/
def byOffset (acts : List (Nat × List Byte)) : List (List (Nat × List Byte)) :=
  let times := (acts.map fun a => acTime a.2).foldl (fun l t => insertTime t l) []
  times.map fun t => acts.filter fun a => acTime a.2 == t

/-- Walk one step: the first action that is certain to be refused, and what the step leaves known. -/
def RecipeView.lockStep (v : RecipeView) (b : Block) (e : List Byte) (k : Tab Word) : Option Nat × Tab Word :=
  let acts := v.acts e
  let k := (acts.filter fun a => acBase a.2 != 0).foldl (fun k a => learn k a.2) k
  (byOffset (acts.filter fun a => acBase a.2 == 0)).foldl (fun (acc : Option Nat × Tab Word) g =>
    match acc.1 with
    | some j => (some j, acc.2)
    | none => ((g.find? fun a => b.certainRefusal v.tab acc.2 a.2).map (·.1), g.foldl (fun k a => learn k a.2) acc.2)) (none, k)

/-- Check 8 over the steps outside fault paths. -/
def RecipeView.badLock (v : RecipeView) (b : Block) : Option Spot :=
  ((v.steps.filter fun p => !spFaultOnly p.2).foldl (fun (acc : Option Spot × Tab Word) p =>
    match acc.1 with
    | some s => (some s, acc.2)
    | none => let r := v.lockStep b p.2 acc.2; (r.1.map fun j => (p.1, j), r.2)) (none, [])).1

/-! #### Check 9 -/

/-- The least time a step takes, in ns (R117). -/
def leastNs (e : List Byte) : Nat := if spEndKind e = 0 then 1000 * spDuration e else 250000

/-- Walk the steps with the CARRY actions that can still be pending: for each the offset left, none where its time is not known. -/
def RecipeView.quotaWalk (v : RecipeView) (quota : Nat) : List (Nat × List Byte) → Bool → List (Option Nat) → Option Spot
  | [], _, _ => none
  | p :: rest, prevPath, pend =>
    let e := p.2
    let pend := if spFaultOnly e == prevPath then pend else []
    if quota < u16 e 8 + pend.length then some (p.1, 0xFFFF) else
    let mine := (v.acts e).filterMap fun a => if acCarry a.2 then some (if acBase a.2 = 0 then some (acTime a.2) else none) else none
    let left := (pend ++ mine).filterMap fun o => match o with
      | none => some none
      | some t => if leastNs e ≤ t then some (some (t - leastNs e)) else none
    v.quotaWalk quota rest (spFaultOnly e) (if spLast e then [] else left)

/-- Check 9. -/
def RecipeView.badQuota (v : RecipeView) (lane : Nat) : Option Spot := v.quotaWalk (u16 (ent v.tab tLane lane) 4) v.steps false []

/-- The checks in order with their status and reason: the first failure. `cyc` is the free answer of check 3. -/
def RecipeView.check (v : RecipeView) (b : Block) (lane : Nat) (cyc : Bool) : Option (Nat × Nat × Spot) :=
  [(stBadArg, 1, v.badField), (stBadArg, 1, v.badRelation), (stBadArg, 2, v.badTiming), (stBadArg, 3, v.badCycle),
   (stBadArg, 3, if cyc then some (0xFFFF, 0xFFFF) else none), (stBadRef, 4, v.badRef b), (stConflict, 5, v.badChamber b lane),
   (stLimit, 6, v.badAbsent b), (stLimit, 7, v.badClaim b), (stInterlock, 8, v.badLock b), (stNoSpace, 9, v.badQuota lane)].findSome?
    fun p => p.2.2.map fun s => (p.1, p.2.1, s)

/-- Does the recipe lead to the free answer of check 3? -/
def RecipeView.asksCycle (v : RecipeView) (b : Block) : Bool :=
  v.badField.isNone && v.badRelation.isNone && v.badTiming.isNone && v.badCycle.isNone && v.mayCycle b

/-- The check of a lane's command ends (R135, R137): the first failure with its step and action, or DONE; a `SEQ.LOAD` that passes
leaves the lane LOADED. -/
def Block.validationEnd (b : Block) (n : Nat) (o : ServiceOp) : Block :=
  let x := b.ln n
  let t := if x.checkBank then b.idleBank else b.bank
  let b := b.putLn n { x with check := none }
  match recipeOf t x.checkSid with
  | none => b.settle o false stBadRef 4 (leBytes 4 0xFFFFFFFF)
  | some h =>
    let v := recipeView t h
    let d := b.drawBool
    let cyc := v.asksCycle b && d.1
    let b := if v.asksCycle b then d.2 else b
    match v.check b n cyc with
    | some (st, rs, s) => b.settle o false st rs (leBytes 2 s.1 ++ leBytes 2 s.2) (if st = stConflict then b.lnState n else 0)
    | none =>
      let b := if o.opcode = 0x0401 then
          ((b.wrN (Reg.seqLaneRecipe n) x.checkSid).wrN (Reg.seqLaneStep n) (0xFFFF + 65536 * rcCount h)).setLn n lsLoaded
        else b
      b.settle o false stDone 0 (leBytes 4 0xFFFFFFFF)

/-- R135, R137: the check of a lane ends on a service engine; it does not while none is available (01 R11). -/
def execValidationDone (lane : Fin 16) (s : State) : Host.Outcome State Fault Refusal :=
  nextB s fun b =>
    match (b.ln lane.val).check with
    | some o => if b.serviceUp then b.validationEnd lane.val o else b
    | none => b

end Sys2Proof.Machine
end

