-- ==== Sys2Proof/Machine/Recorder.lean ====
section
/-! DEFINITION. Machine/Recorder.lean: egress of the reel, record ports, filters, bindings and replays (11 R279–R290). -/

namespace Sys2Proof.Machine

/-- Port states (R290). -/
def ptUnused : Nat := 0
def ptSpare : Nat := 1
def ptActive : Nat := 2
def ptDown : Nat := 3

def Block.port (b : Block) (p : Nat) : Nat := b.fld (Reg.recPortState p) 0 2
def Block.portLink (b : Block) (p : Nat) : Bool := b.bit (Reg.recPortState p) 8
def Block.portDest (b : Block) (p : Nat) : Bool := b.bit (Reg.recPortState p) 9
def Block.rcd (b : Block) : Recorder := b.out.rcd
def Block.setRcd (b : Block) (r : Recorder) : Block := { b with out := { b.out with rcd := r } }

/-- `REC.STATE`: EGRESS and SPLIT follow the ports (R290). -/
def Block.showRec (b : Block) : Block :=
  let n := ((List.range 2).filter fun p => b.port p == ptActive).length
  (b.setFld Reg.recState 1 1 (b2n (1 ≤ n))).setFld Reg.recState 2 1 (b2n (n == 2))

def Block.setPort (b : Block) (p st : Nat) : Block := (b.setFld (Reg.recPortState p) 0 2 st).showRec

/-- A primary that has never failed is ACTIVE while its link is up and its destination given, and DOWN otherwise (R285). -/
def Block.portPrimary (b : Block) (p : Nat) : Block :=
  b.setPort p (if b.portLink p && b.portDest p then ptActive else ptDown)

/-- A declaration gives the ports their roles: 0 unused, 1 primary, 2 spare (R285, 04 R91). -/
def Block.portRoles (b : Block) (roles : List Nat) : Block :=
  (List.range 2).foldl (fun (b : Block) p =>
    let r := roles.getD p 0
    let b := b.setRcd { b.rcd with roles := tput b.rcd.roles p r, downSince := tdel b.rcd.downSince p,
                                   handled := b.rcd.handled.filter (· != p) }
    if r == 1 then b.portPrimary p else b.setPort p (if r == 2 then ptSpare else ptUnused)) b

/-- R282: FLUSH_US after its first record the open segment closes. -/
def execSegmentClose (s : State) : Host.Outcome State Fault Refusal :=
  nextB s fun b =>
    if b.rcd.openSeg.isEmpty || decide (b.now < b.rcd.openedAt + 1000 * b.rdN Reg.recFlushUs) then b
    else { b with out := b.out.closeSeg }

/-- Datagrams that carry a segment (R284). -/
def Block.datagrams (b : Block) (p : Nat) (s : Segment) : Nat :=
  let c := if (u8 (tget [] b.rcd.dests p) 1).testBit 2 then 8192 else 1024
  (segBytes s.recs + c - 1) / c

/-- Is a segment assigned to port `p`: to the one ACTIVE port, or by its parity to one of two (R285)? -/
def Block.segDue (b : Block) (p : Nat) (s : Segment) : Bool :=
  if b.port 0 == ptActive && b.port 1 == ptActive then s.seqNo % 2 == p else true

/-- The oldest closed segment that port `p` has still to send. -/
def Block.nextSeg (b : Block) (p : Nat) : Option Segment :=
  b.rcd.segs.find? fun s => s.sent.isEmpty && b.segDue p s

/-- Closed segments assigned to port `p` and not yet sent (`REC.PORT[p].BACKLOG`). -/
def Block.backlog (b : Block) (p : Nat) : Nat :=
  if b.port p != ptActive then 0 else (b.rcd.segs.filter fun s => s.sent.isEmpty && b.segDue p s).length

/-- The replay that runs on a port. -/
def Block.replayOn (b : Block) (p : Nat) : Option Replay := b.rcd.replays.find? fun r => r.port == p
def Block.putReplay (b : Block) (r : Replay) : Block :=
  b.setRcd { b.rcd with replays := b.rcd.replays.map fun x => if x.port == r.port then r else x }

/-- R284, R288: the port sends its oldest live segment; with none waiting, the next segment of its replay. -/
def execSegmentSend (port : Fin 2) (s : State) : Host.Outcome State Fault Refusal :=
  nextB s fun b =>
    let p := port.val
    match (if b.port p == ptActive then b.nextSeg p else none) with
    | some g =>
      let segs := b.rcd.segs.map fun x => if x.seqNo == g.seqNo then { x with sent := x.sent ++ [(p, b.now)] } else x
      let n := b.datagrams p g
      ((b.setRcd { b.rcd with segs := segs }).wr64 (Reg.recPortSentSeg p) g.seqNo).count48 (Reg.recPortDatagrams p) n
    | none =>
      match b.replayOn p with
      | some r =>
        if !(b.port p == ptActive || b.port p == ptSpare) || !b.portLink p || r.left == 0 then b else
        (match b.rcd.segs.find? fun x => x.seqNo == r.next with
         | some g => (b.putReplay { r with next := r.next + 1, left := r.left - 1 }).count48 (Reg.recPortDatagrams p) (b.datagrams p g)
         | none => b)
      | none => b

/-- R285: the link of a port is lost; an ACTIVE port becomes DOWN. -/
def Block.portDown (b : Block) (p : Nat) : Block :=
  let was := b.port p
  let b := b.setFld (Reg.recPortState p) 8 1 0
  if was != ptActive then b else
  (b.setPort p ptDown).setRcd { b.rcd with downSince := tput b.rcd.downSince p b.now, handled := b.rcd.handled.filter (· != p) }

def execPortDown (port : Fin 2) (s : State) : Host.Outcome State Fault Refusal := nextB s fun b => b.portDown port.val

/-- R285: a SPARE port with its link up and a destination takes over from the oldest segment that the failed port began to send at or
after REWIND_US before it became DOWN; a second primary takes every segment; with neither, NO_PATH. -/
def execPathFailover (port : Fin 2) (s : State) : Host.Outcome State Fault Refusal :=
  nextB s fun b =>
    let p := port.val
    let q := 1 - p
    match tget? b.rcd.downSince p with
    | none => b
    | some down =>
      if b.rcd.handled.contains p || b.port p != ptDown then b else
      let b := b.setRcd { b.rcd with handled := b.rcd.handled ++ [p] }
      let both (b : Block) := ((b.count (Reg.recPortFailovers p)).count (Reg.recPortFailovers q)).raisePost Reg.recFlags 3
      if b.port q == ptSpare && b.portLink q && b.portDest q then
        let from_ := down - 1000 * b.rdN Reg.recRewindUs
        let again (x : Segment) := x.sent.any fun y => y.1 == p && decide (from_ ≤ y.2)
        let cut := (b.rcd.segs.find? again).map (·.seqNo)
        let segs := b.rcd.segs.map fun x => match cut with
          | some n => if n ≤ x.seqNo then { x with sent := [] } else x
          | none => x
        both ((b.setRcd { b.rcd with segs := segs }).setPort q ptActive)
      else if b.port q == ptActive then both b
      else b.raise Reg.recFlags 4

/-- R285: a link comes up. A failed port becomes SPARE; a primary that has not failed becomes ACTIVE with a destination. -/
def execPortLinkUp (port : Fin 2) (s : State) : Host.Outcome State Fault Refusal :=
  nextB s fun b =>
    let p := port.val
    let b := b.setFld (Reg.recPortState p) 8 1 1
    if b.port p != ptDown then b
    else if (tget? b.rcd.downSince p).isSome then
      (b.setPort p ptSpare).setRcd { b.rcd with roles := tput b.rcd.roles p 2, downSince := tdel b.rcd.downSince p }
    else b.portPrimary p

/-- R288: `REC.DEST`. -/
def execRecDest (c : Cmd) (s : State) : Host.Outcome State Fault Refusal :=
  nextB s fun b =>
    let a := cArg c
    let p := u8 a 0
    b.runDone 0x0A01 c [authCheck c roleOperator, devCheck b devLive, envCheck c, noObject c,
      deny (1 < p || 8 ≤ u8 a 1 || 63 < u8 a 14) stBadArg] fun b =>
        let b := (b.setRcd { b.rcd with dests := tput b.rcd.dests p (padTo 48 a) }).setFld (Reg.recPortState p) 9 1 1
        if b.port p == ptDown && (tget? b.rcd.downSince p).isNone && tget 0 b.rcd.roles p == 1 then b.portPrimary p else b

/-- May a source have a filter of a kind with the arguments given (R279)? -/
def filterArgsOk (sid kind n gap : Nat) : Bool :=
  filtered sid &&
    (match kind with
     | 0 => true
     | 1 => true
     | 2 => decide (2 ≤ n) && decide (n ≤ if 0x300000 ≤ sid && sid ≤ 0x300007 then 64 else 65535)
     | 3 => [1, 2, 4, 0xF].contains (sid / 0x100000) && decide (1 ≤ gap) && decide (gap ≤ 1000000)
     | _ => false)

/-- Does a filtered source exist (04 R87): what the image defines, and the raw channels and ports that the controller has? -/
def Block.sourceExists (b : Block) (sid : Nat) : Bool :=
  b.sigDefined sid || isRaw sid || fieldDefined b.bank sid ||
    (0x301000 ≤ sid && sid < 0x302000 && hasEnt b.cfg tTake (sid - 0x301000)) ||
    (0x400000 ≤ sid && sid < 0x400400 && hasEnt b.cfg tLoop (sid - 0x400000)) ||
    (0x700000 ≤ sid && sid < 0x700040 && hasEnt b.cfg tAxis (sid - 0x700000)) ||
    (0x701000 ≤ sid && sid < 0x701040 && hasEnt b.cfg tAxis (sid - 0x701000)) ||
    (0x702000 ≤ sid && sid < 0x702010 && hasEnt b.cfg tGroup (sid - 0x702000)) ||
    (0x800000 ≤ sid && sid < 0x800008) || (0x800010 ≤ sid && sid < 0x800014) ||
    (0x810000 ≤ sid && sid < 0x810800 && b.nodeDefined ((sid - 0x810000) / 256) ((sid - 0x810000) % 256)) ||
    (0x820000 ≤ sid && sid < 0x821000 && hasEnt b.cfg tRxo (sid - 0x820000)) ||
    (0x830000 ≤ sid && sid < 0x831000 && hasEnt b.cfg tTxo (sid - 0x830000))

/-- The filter a command asks for. A threshold that is no number never passes by difference beyond `Config.nanDiffers` (log 28). -/
def Block.askedFilter (b : Block) (sid : Nat) (a : List Byte) : Filter :=
  { kind := u8 a 0, n := u32 a 4, thr := (opRat (b.sigType sid) (w32 a 4)).getD 0, maxGap := u32 a 8 }

/-- Filters that differ from the cold-start default (`REC.FILTERS`). -/
def filterCount (cfg : Tab (List Byte)) (fs : Tab Filter) (ns : Tab (Nat × Filter)) : Nat :=
  let eff := ns.foldl (fun t p => tput t p.1 p.2.2) fs
  (eff.filter fun p => p.2.kind != (startFilter cfg p.1).kind).length

/-- R279, R288: `REC.FILTER`; the change is recorded on the device SID with the time of the tick it takes effect on. -/
def execRecFilter (c : Cmd) (s : State) : Host.Outcome State Fault Refusal :=
  nextB s fun b =>
    let a := cArg c
    let sid := cObj c
    let f := b.askedFilter sid a
    let old := b.out.filterOf b.ctx sid
    let ns := tput b.rcd.newFilters sid (b.now, f)
    b.runDone 0x0A02 c [authCheck c roleOperator, devCheck b devLive, envCheck c, deny (!filterArgsOk sid (u8 a 0) (u32 a 4) (u32 a 8)) stBadArg,
      deny (!b.sourceExists sid) stBadRef,
      deny (16384 < filterCount b.cfg b.rcd.filters ns) stNoSpace] fun b =>
        let keep := tput b.rcd.filters sid old
        let b := b.setRcd { b.rcd with filters := keep, newFilters := ns }
        let b := b.wrN Reg.recFilters (filterCount b.cfg keep ns)
        b.recordAt (b.now + 4) sidDevice 0x73
          (leBytes 3 sid ++ leBytes 1 old.kind ++ leBytes 1 f.kind ++ zeroBytes 3 ++ slice (padTo 12 a) 4 4 ++ leBytes 4 f.maxGap)

/-- R286, R288: `REC.QUEUE_BIND`. -/
def execRecQueueBind (c : Cmd) (s : State) : Host.Outcome State Fault Refusal :=
  nextB s fun b =>
    let a := cArg c
    let q := u8 a 0
    let i := u8 a 1
    b.runDone 0x0A03 c [authCheck c roleOperator, devCheck b devLive, envCheck c, noObject c,
      deny (q < 48 || 63 < q || 7 < i || 1 < u8 a 13) stBadArg] fun b =>
        b.setRcd { b.rcd with binds := if (u8 a 13).testBit 0 then tdel b.rcd.binds (q * 8 + i)
                                       else tput b.rcd.binds (q * 8 + i) { sid := u24 a 4, mask := u24 a 8, typ := u8 a 12 } }

/-- R288, R289: `REC.REPLAY`. -/
def execRecReplay (c : Cmd) (s : State) : Host.Outcome State Fault Refusal :=
  nextB s fun b =>
    let a := cArg c
    let p := u8 a 0
    let first := u64 a 8
    let n := u32 a 16
    let st := b.port p
    b.accept 0x0A04 c [authCheck c roleOperator, devCheck b devLive, envCheck c, noObject c,
      deny (1 < p || n == 0 || 65535 < n) stBadArg,
      deny (!(st == ptActive || (st == ptSpare && b.portLink p && b.portDest p))) stConflict 0x01 st,
      deny (b.replayOn p).isSome stBusy,
      deny (!(b.rcd.segs.any fun g => g.seqNo == first)) stLimit 0x01] fun b =>
        let b := b.complete 0x0A04 c stQueued
        b.setRcd { b.rcd with replays := b.rcd.replays ++ [{ port := p, next := first, left := n, src := issuerSrc c.issuer, tag := c.tag.toNat, notify := cNotify c }] }

/-- R288: a replay ends: all sent, a segment overwritten before it was sent, or its port out of ACTIVE and SPARE. -/
def execReplayEnd (port : Fin 2) (s : State) : Host.Outcome State Fault Refusal :=
  nextB s fun b =>
    let p := port.val
    match b.replayOn p with
    | none => b
    | some r =>
      let op : ServiceOp := { src := r.src, tag := r.tag, opcode := 0x0A04, notify := r.notify }
      let fin (st rs : Nat) : Block :=
        (b.setRcd { b.rcd with replays := b.rcd.replays.filter fun x => x.port != p }).settle op true st rs
      if r.left == 0 then fin stDone 0
      else if r.next < b.rd64 Reg.recOldestSeg then fin stAbandoned 0x07
      else if !(b.port p == ptActive || b.port p == ptSpare) || !b.portLink p then fin stAbandoned 0x08
      else b

/-- R288: `REC.CONFIG`. -/
def execRecConfig (c : Cmd) (s : State) : Host.Outcome State Fault Refusal :=
  nextB s fun b =>
    let a := cArg c
    let f := u32 a 0
    let r := u32 a 4
    b.runDone 0x0A05 c [authCheck c roleOperator, devCheck b devLive, envCheck c, noObject c,
      deny (f < 10 || 100000 < f || 100000 < r) stBadArg] fun b => (b.wrN Reg.recFlushUs f).wrN Reg.recRewindUs r

end Sys2Proof.Machine
end

