-- ==== Sys2Proof/Machine/Shift.lean ====
section
/-! DEFINITION. Machine/Shift.lean: a step of the timebase moves every stored instant that a relative interval counts from or runs to,
so that no interval sees the step (12 R292); absolute times and time stamps stay as they are. A step is taken only while every lane
is IDLE or LOADED (12 R296), so no lane's own timer runs. -/

namespace Sys2Proof.Machine

/-- An instant moved by δ ns. -/
def shN (d : Int) (t : Nat) : Nat := ((t : Int) + d).toNat
def shO (d : Int) (t : Option Nat) : Option Nat := t.map (shN d)
/-- Apply a change to every entry of a table. -/
def tmap {α : Type} (f : α → α) (t : Tab α) : Tab α := t.map fun p => (p.1, f p.2)

def Pend.shift (d : Int) (p : Pend) : Pend :=
  let abs := u8 p.entry 2 == 2
  { p with due := if abs then p.due else shO d p.due, runAt := if abs then p.runAt else shN d p.runAt, placed := shN d p.placed,
           claimAt := shO d p.claimAt }

def Recorder.shift (d : Int) (r : Recorder) : Recorder :=
  { r with openedAt := shN d r.openedAt,
           segs := r.segs.map fun s => { s with openedAt := shN d s.openedAt, sent := s.sent.map fun x => (x.1, shN d x.2) },
           filters := tmap (fun f => { f with lastTime := shN d f.lastTime }) r.filters,
           newFilters := tmap (fun x => (shN d x.1, x.2)) r.newFilters,
           lossAt := tmap (shN d) r.lossAt, downSince := tmap (shN d) r.downSince }

def OutSt.shift (d : Int) (o : OutSt) : OutSt :=
  { o with rcd := o.rcd.shift d, q := tmap (fun q => { q with since := shN d q.since }) o.q }

def Seq.shift (d : Int) (s : Seq) : Seq :=
  { s with queue := s.queue.map (Pend.shift d),
           sms := tmap (fun x => { x with entered := shN d x.entered, cycle := shO d x.cycle }) s.sms,
           ramps := tmap (fun x => { x with begun := shN d x.begun }) s.ramps,
           pulses := s.pulses.map fun x => (x.1, { x.2 with endAt := shN d x.2.endAt, action := x.2.action.shift d }),
           recent := s.recent.map (shN d) }

def Ledger.shift (d : Int) (l : Ledger) : Ledger :=
  { l with sets := tmap (fun x => { x with presentedAt := shN d x.presentedAt, waitingSince := shO d x.waitingSince,
                                           withdrawn := shO d x.withdrawn }) l.sets, pub := shO d l.pub, updAt := shO d l.updAt }

def StageSt.shift (d : Int) (x : StageSt) : StageSt :=
  { x with start := shN d x.start, coastSince := shO d x.coastSince, accAt := shN d x.accAt, lastDac := shO d x.lastDac,
           changedAt := shN d x.changedAt }

def PairSt.shift (d : Int) (x : PairSt) : PairSt :=
  { x with start := shN d x.start, restartAt := shO d x.restartAt, waitOn := shO d x.waitOn, waitOff := shO d x.waitOff,
           synced := shO d x.synced }

def AxisSt.shift (d : Int) (x : AxisSt) : AxisSt :=
  { x with restAt := shN d x.restAt, startAt := shN d x.startAt, dirAt := shN d x.dirAt, lastStep := shN d x.lastStep,
           devSince := shO d x.devSince, lastEdge := shN d x.lastEdge, lastRec := shN d x.lastRec }

/-- Move every such instant of the block by δ ns. -/
def Block.shift (b : Block) (d : Int) : Block :=
  let b := { b with out := b.out.shift d, seq := b.seq.shift d, lgr := b.lgr.shift d, stages := tmap (StageSt.shift d) b.stages,
                    pairs := tmap (PairSt.shift d) b.pairs, axes := tmap (AxisSt.shift d) b.axes }
  let b := { b with
    world := { b.world with nodes := tmap (fun x => { x with heard := shN d x.heard, lastEvt := shO d x.lastEvt }) b.world.nodes },
    loops := tmap (fun x => { x with lastDispatch := shO d x.lastDispatch, slowPosted := shO d x.slowPosted }) b.loops,
    threads := tmap (fun x => { x with readyAt := shN d x.readyAt, lastDispatch := shO d x.lastDispatch }) b.threads,
    trips := tmap (fun x => { x with since := shN d x.since, assertAt := shN d x.assertAt, lastEvt := shO d x.lastEvt }) b.trips,
    dio := tmap (fun x => { x with lastRec := shO d x.lastRec }) b.dio,
    txos := tmap (fun x => { x with due := shO d x.due }) b.txos,
    cans := tmap (fun x => { x with tryAt := shN d x.tryAt, timeoutAt := shN d x.timeoutAt }) b.cans }
  let item (i : TakeItem) : TakeItem := { i with at_ := shN d i.at_ }
  let taking := b.cont.taking.map fun (x : TakeItem × Nat) => (item x.1, x.2)
  let b := { b with
    engs := tmap (fun x => { x with silentTo := shO d x.silentTo, fencedAt := shN d x.fencedAt }) b.engs,
    cont := { b.cont with t0 := shN d b.cont.t0, waiting := b.cont.waiting.map item, taking := taking } }
  { b with
    sers := tmap (fun x => { x with sentAt := shN d x.sentAt, turnFrom := shO d x.turnFrom, next := tmap (shN d) x.next }) b.sers,
    convs := tmap (fun x => { x with settleTo := shO d x.settleTo, scanAt := shN d x.scanAt }) b.convs,
    brgs := tmap (fun x => { x with settleAt := shN d x.settleAt }) b.brgs,
    dacs := tmap (fun x => { x with loadAt := shO d x.loadAt }) b.dacs,
    fchs := tmap (fun x => { x with holdTo := shO d x.holdTo }) b.fchs,
    tim := { b.tim with last := shN d b.tim.last, slewEnd := shO d b.tim.slewEnd, tinAt := tmap (shN d) b.tim.tinAt } }

end Sys2Proof.Machine
end

