-- ==== Sys2Proof/Machine/Time.lean ====
section
/-! DEFINITION. Machine/Time.lean: the servo of the timebase, steps, PTP stamps and time pins (12). -/

namespace Sys2Proof.Machine

def sidTime : Nat := 0xD00000
def sidTout (n : Nat) : Nat := 0xD00100 + n
def sidTin (n : Nat) : Nat := 0xD00200 + n

/-- Timebase states (R293). -/
def tbFree : Nat := 0
def tbAcquiring : Nat := 1
def tbLocked : Nat := 2
def tbHoldover : Nat := 3

def Block.tbSt (b : Block) : Nat := b.fld Reg.tbState 0 2
def Block.tbSource (b : Block) : Nat := b.fld Reg.tbState 8 2
def Block.setTim (b : Block) (t : TimeSt) : Block := { b with tim := t }

/-- The state a lane had before this tick (R296). -/
def Block.laneBefore (b : Block) (n : Nat) : Nat :=
  match tget? b.tim.laneWas n with
  | some x => if x.1 = b.now then x.2 else b.lnState n
  | none => b.lnState n

/-- A step is allowed while every lane is IDLE or LOADED (R296). -/
def Block.stepAllowed (b : Block) : Bool :=
  (List.range 16).all fun n => let s := b.laneBefore n; s == lsIdle || s == lsLoaded

/-- A TIME_STATUS record of kind 1 or 2 (R303). -/
def Block.timeStatus (b : Block) (kind bits : Nat) (o : Int) : Block :=
  b.record sidTime 0x48 (leBytes 1 kind ++ leBytes 1 b.tbSt ++ leBytes 1 b.tbSource ++ leBytes 1 bits ++
    leBytes 4 (ofSigned 32 (clampInt (-2147483648) 2147483647 o)) ++ leBytes 4 (b.rdN Reg.tbFreq) ++ leBytes 4 (b.rdN Reg.tbSlew))

/-- Enter a timebase state: leaving LOCKED and entering HOLDOVER set their flags, and a change is recorded (R293, R303, R306). -/
def Block.setTb (b : Block) (st : Nat) : Block :=
  let old := b.tbSt
  if old = st then b else
  let b := b.setFld Reg.tbState 0 2 st
  let b := if old = tbLocked then b.raise Reg.tbFlags 2 sidTime else b
  let b := if st = tbHoldover then b.raise Reg.tbFlags 3 sidTime else b
  b.timeStatus 2 0 (toSigned 32 (b.rdN Reg.tbOffset))

/-! ### Time outputs -/

def Block.tout (b : Block) (n : Nat) : ToutSt := tget {} b.tim.touts n
def Block.putTout (b : Block) (n : Nat) (x : ToutSt) : Block := b.setTim { b.tim with touts := tput b.tim.touts n x }
def Block.toutMode (b : Block) (n : Nat) : Nat := b.fld (Reg.tbToutCtrl n) 0 2

/-- The first START + k × PERIOD at or after a time (R301). -/
def nextPeriod (start period t : Nat) : Nat :=
  if t ≤ start ∨ period = 0 then start else start + (t - start + period - 1) / period * period

/-- A late start sets TOUT_LATE and is recorded (R301, R303). -/
def Block.toutLate (b : Block) (n start : Nat) : Block :=
  let b := b.raise Reg.tbFlags 6 (sidTout n)
  b.record (sidTout n) 0x48 (leBytes 1 4 ++ leBytes 1 b.tbSt ++ leBytes 1 b.tbSource ++ zeroBytes 5 ++ leBytes 8 start)

/-- After a step a PERIODIC output continues at the first period after the stepped time, and a PULSE whose start was skipped is late
under its command's policy (R297, R301). -/
def Block.toutStep (b : Block) (n old : Nat) : Block :=
  let x := b.tout n
  let start := b.rd64 (Reg.tbToutStart n)
  let m := b.toutMode n
  if m = 2 then
    b.putTout n { x with next := some (nextPeriod start (b.rdN (Reg.tbToutPeriod n)) b.now), level := false }
  else if m = 1 ∧ !x.level ∧ x.next = some start ∧ old < start ∧ start < b.now then
    let b := b.toutLate n start
    if x.late = 2 then b.putTout n { x with next := none } else b.putTout n { x with next := some (b.now + 4) }
  else if m = 1 ∧ x.level then
    -- a pulse in progress keeps its width: its fall is a relative interval (R292)
    let fall := shN ((b.now : Int) - (old : Int)) x.fall
    b.putTout n { x with fall := fall, next := some fall }
  else b

/-- R301: at its time a TOUT pin rises or falls. -/
def execToutEdge (pin : Fin 8) (s : State) : Host.Outcome State Fault Refusal :=
  nextB s fun b =>
    let n := pin.val
    let x := b.tout n
    match x.next with
    | none => b
    | some t =>
      if b.now < t then b else
      let w := b.rdN (Reg.tbToutWidth n)
      if x.level then
        let again := if b.toutMode n = 2 then
            some (nextPeriod (b.rd64 (Reg.tbToutStart n)) (b.rdN (Reg.tbToutPeriod n)) (t + 1)) else none
        b.putTout n { x with level := false, next := again }
      else
        b.putTout n { x with level := true, fall := t + w, next := some (t + w) }

/-! ### Steps -/

/-- Pending actions with an absolute time that a step skipped become late (R297, 05 R126). -/
def Block.skipActions (b : Block) (old : Nat) : Block :=
  let hit (p : Pend) : Bool := acBase p.entry == 2 && !p.late &&
    match p.due with | some t => decide (old ≤ t) && decide (t < b.now) | none => false
  (b.seq.queue.filter hit).foldl (fun (b : Block) p => (b.timeAction p (p.due.getD 0)).1) b

/-- The timebase steps to a time on one tick (R281, R297). -/
def Block.stepTo (b : Block) (t : Nat) : Block :=
  let old := b.now
  let b := { b with out := b.out.closeSeg, now := t }.shift ((t : Int) - (old : Int))
  let b := (b.count Reg.tbSteps).raise Reg.tbFlags 0 sidTime
  let b := (b.record sidTime 0x74 (leBytes 8 old ++ leBytes 8 t)).raise Reg.recFlags 5
  let b := b.skipActions old
  (List.range 8).foldl (fun (b : Block) n => b.toutStep n old) b

/-! ### The servo -/

/-- Slew at `s` ppt for `ns` (R295). -/
def Block.slewFor (b : Block) (s : Int) (ns : Nat) : Block :=
  (b.wrN Reg.tbSlew (ofSigned 32 s)).setTim { b.tim with slewEnd := some (b.now + ns) }

/-- The state after a sample (R293): LOCK_COUNT samples in a row within LOCK lock it, one beyond UNLOCK takes it back. -/
def Block.sampleState (b : Block) (o : Nat) : Block :=
  let b := if b.tbSt = tbFree ∨ b.tbSt = tbHoldover then b.setTb tbAcquiring else b
  let lock := b.fld Reg.tbLockCfg 0 12
  let good := if o ≤ lock then b.tim.good + 1 else 0
  let b := b.setTim { b.tim with good := good }
  if 10 * b.fld Reg.tbLockCfg 12 12 < o then b.setTb tbAcquiring
  else if b.fld Reg.tbLockCfg 24 8 ≤ good then b.setTb tbLocked
  else b

/-- The servo treats a sample of offset o (ns) and interval T (µs) (R295). The manual's quotients are taken exactly and then to a whole
ppt, as `divOpen` leaves open (log 16). -/
def Block.servo (b : Block) (o : Int) (t : Nat) : Block :=
  let b := b.wrN Reg.tbOffset (ofSigned 32 (clampInt (-2147483648) 2147483647 o))
  let b := b.setTim { b.tim with last := b.now }
  let a := o.natAbs
  let far := decide (1000 * b.rdN Reg.tbStepUs < a)
  if far && b.stepAllowed then
    let b := b.setTim { b.tim with slewEnd := none }
    (b.wrN Reg.tbSlew 0).stepTo ((b.now : Int) - 4 * divOpen o 4).toNat
  else
    let b := if far then b.raise Reg.tbFlags 1 sidTime else b
    let mx : Int := b.fld Reg.tbLimits 0 16 * 1000000
    let fm : Int := b.fld Reg.tbLimits 16 16 * 1000000
    let den := 65536 * t
    let s := divOpen (-(b.fld Reg.tbServo 16 16 : Int) * o * 1000000000) den
    let c := clampInt (-mx) mx s
    let b := if a ≤ 10 * b.fld Reg.tbLockCfg 12 12 then
        let f := toSigned 32 (b.rdN Reg.tbFreq) + divOpen (-(b.fld Reg.tbServo 0 16 : Int) * o * 1000000000) den
        b.wrN Reg.tbFreq (ofSigned 32 (clampInt (-fm) fm f))
      else b
    let b := (b.slewFor c (1000 * t)).sampleState a
    b.timeStatus 1 (b2n far + 2 * b2n (c != s)) o

/-- A write of `TB.SAMPLE` (R294): used while the source is PTP, ignored otherwise. An interval outside 1..16,000,000 µs is no sample. -/
def Block.onSample (b : Block) (lo hi : Word) : Block :=
  if b.tbSource != 1 then b.raise Reg.tbFlags 4 sidTime
  else if hi.toNat = 0 ∨ 16000000 < hi.toNat then b
  else b.servo lo.toInt hi.toNat

/-- R294: an edge of PPS_IN: o is the distance from the nearest whole second; half way between two the choice is free. -/
def execPpsEdge (s : State) : Host.Outcome State Fault Refusal :=
  nextB s fun b =>
    if b.tbSource != 2 then b else
    let r := b.now % 1000000000
    if r < 500000000 then b.servo (r : Int) 1000000
    else if 500000000 < r then b.servo ((r : Int) - 1000000000) 1000000
    else let d := b.drawBool; d.2.servo (if d.1 then 500000000 else -500000000) 1000000

/-- R295: the slew of a sample or of `TB.ADJUST` ends. -/
def execSlewEnd (s : State) : Host.Outcome State Fault Refusal :=
  nextB s fun b =>
    match b.tim.slewEnd with
    | some t => if b.now < t then b else (b.wrN Reg.tbSlew 0).setTim { b.tim with slewEnd := none }
    | none => b

/-- R293: no sample for HOLDOVER_MS in ACQUIRING or LOCKED. -/
def execHoldoverTimeout (s : State) : Host.Outcome State Fault Refusal :=
  nextB s fun b =>
    if !(b.tbSt == tbAcquiring || b.tbSt == tbLocked) || decide (b.now < b.tim.last + 1000000 * b.rdN Reg.tbHoldoverMs) then b else
    ((b.wrN Reg.tbSlew 0).setTim { b.tim with slewEnd := none, good := 0 }).setTb tbHoldover

/-! ### PTP messages and time inputs -/

/-- R299: an ingress stamp, corrected by the PHY's latency, travels with the message to the service engines. -/
def execPtpMessageRx (port : Fin 2) (msg : List Byte) (s : State) : Host.Outcome State Fault Refusal :=
  nextB s fun b =>
    let p := port.val
    b.setTim { b.tim with rx := tput b.tim.rx p (b.now - b.fld (Reg.tbPortLatency p) 16 16, msg) }

/-- The registers of a port's transmit time-stamp queue show its head (R306). -/
def Block.showTxts (b : Block) (p : Nat) : Block :=
  let q := tget [] b.tim.txts p
  match q with
  | x :: _ => (b.wr64 (Reg.tbPortTxtsTime p) x.time).wrN (Reg.tbPortTxtsInfo p)
      (x.seqId % 65536 + 65536 * (x.kind % 16) + 2 ^ 23 * b2n x.lost + 2 ^ 24 * q.length)
  | [] => (b.wr64 (Reg.tbPortTxtsTime p) 0).wrN (Reg.tbPortTxtsInfo p) 0

/-- R299: egress stamps of Delay_Req, Pdelay_Req and two-step Pdelay_Resp enter the queue of 64. -/
def execPtpMessageTx (port : Fin 2) (kind seqId : Nat) (s : State) : Host.Outcome State Fault Refusal :=
  nextB s fun b =>
    let p := port.val
    let q := tget [] b.tim.txts p
    if !(kind == 1 || kind == 2 || (kind == 3 && !b.bit (Reg.tbPortCtrl p) 2)) then b
    else if 64 ≤ q.length then
      ((b.count (Reg.tbPortTxtsDrops p)).raise Reg.tbFlags 5 (0xD00010 + p)).setTim { b.tim with txtsLost := tput b.tim.txtsLost p true }
    else
      let x : TxStamp := { time := b.now + b.fld (Reg.tbPortLatency p) 0 16, kind := kind, seqId := seqId, lost := tget false b.tim.txtsLost p }
      (b.setTim { b.tim with txts := tput b.tim.txts p (q ++ [x]), txtsLost := tput b.tim.txtsLost p false }).showTxts p

/-- A write of `TB.PORT[p].TXTS_POP` with bit 0 removes the head entry. -/
def Block.onTxtsPop (b : Block) (p : Nat) (v : Word) : Block :=
  if v.toNat.testBit 0 then (b.setTim { b.tim with txts := tput b.tim.txts p ((tget [] b.tim.txts p).drop 1) }).showTxts p else b

/-- R302: a selected edge of a TIN pin is stamped, becomes its signal's value, completes and is recorded; one less than 16 ns after the
last stamped edge is dropped. -/
def execTinEdge (pin : Fin 8) (rising : Bool) (s : State) : Host.Outcome State Fault Refusal :=
  nextB s fun b =>
    let n := pin.val
    let e := b.fld (Reg.tbTinCtrl n) 0 2
    if !e.testBit (if rising then 0 else 1) then b else
    let early := match tget? b.tim.tinAt n with | some t => decide (b.now < t + 16) | none => false
    if early then (b.count (Reg.tbTinDrops n)).raise Reg.tbFlags 7 (sidTin n) else
    let b := (b.wr64 (Reg.tbTinLast n) b.now).setTim { b.tim with tinAt := tput b.tim.tinAt n b.now }
    let b := b.record (sidTin n) 0x48 (leBytes 1 3 ++ leBytes 1 b.tbSt ++ leBytes 1 b.tbSource ++ zeroBytes 5 ++ leBytes 8 b.now)
    (b.arrive (sidTin n) (BitVec.ofNat 64 b.now)).zcAll n

/-! ### Commands (R304, R305) -/

def Block.tbPre (b : Block) (c : Cmd) (role : Nat) : List (Option Refuse) := [authCheck c role, devCheck b devLive, envCheck c]

/-- R304. -/
def execTbSource (c : Cmd) (s : State) : Host.Outcome State Fault Refusal :=
  nextB s fun b =>
    let a := u8 (cArg c) 0
    b.runDone 0x0B01 c (b.tbPre c roleMaintainer ++ [noObject c, deny (2 < a) stBadArg]) fun b =>
      ((b.setTb tbFree).setFld Reg.tbState 8 2 a).setTim { b.tim with good := 0 }

/-- Refusals that `TB.SET` and `TB.ADJUST` share. -/
def Block.tbSourceOff (b : Block) : Option Refuse := deny (b.tbSource != 0) stConflict 0x02 b.tbSt

/-- R304: a step at once. -/
def execTbSet (c : Cmd) (s : State) : Host.Outcome State Fault Refusal :=
  nextB s fun b =>
    let t := u64 (cArg c) 0
    b.runDone 0x0B02 c (b.tbPre c roleMaintainer ++ [noObject c, deny (t % 4 != 0) stBadArg, b.tbSourceOff,
      deny (!b.stepAllowed) stConflict 0x01 b.tbSt]) fun b => b.stepTo t

/-- R304: a slew of x at SLEW_MAX. -/
def execTbAdjust (c : Cmd) (s : State) : Host.Outcome State Fault Refusal :=
  nextB s fun b =>
    let x := toSigned 64 (u64 (cArg c) 0)
    b.runDone 0x0B03 c (b.tbPre c roleOperator ++ [noObject c, deny (1000000000 < x.natAbs) stBadArg, b.tbSourceOff]) fun b =>
      let ppm := b.fld Reg.tbLimits 0 16
      if x = 0 ∨ ppm = 0 then (b.wrN Reg.tbSlew 0).setTim { b.tim with slewEnd := none }
      else b.slewFor (if x < 0 then -(ppm * 1000000 : Int) else ppm * 1000000) ((x.natAbs * 1000000 + ppm - 1) / ppm)

/-- The state of a TOUT pin that a command starts: the level at once, or the time of its first edge. -/
def toutStart (now mode start period run late : Nat) : ToutSt :=
  match mode with
  | 0 => { late := late }
  | 1 => { next := some run, late := late }
  | 2 => { next := some (nextPeriod start period now), late := late }
  | _ => { level := true, late := late }

/-- R301, R304: a PULSE whose START has passed or lies less than 2 µs ahead is late (05 R126). -/
def execTbTout (c : Cmd) (s : State) : Host.Outcome State Fault Refusal :=
  nextB s fun b =>
    let a := cArg c
    let n := cObj c - 0xD00100
    let mode := u8 a 0
    let pol := u8 a 1 % 4
    let start := u64 a 8
    let per := u32 a 16
    let w := u32 a 20
    b.run 0x0B04 c (b.tbPre c roleOperator ++ [
      deny (3 < mode || 3 ≤ u8 a 1 || per % 4 != 0 || per < 8 || per ≤ w) stBadArg,
      deny (!(0xD00100 ≤ cObj c && cObj c ≤ 0xD00107)) stBadRef]) fun b =>
        let late := mode == 1 && decide (start < b.now + 2000)
        let b := if late then b.toutLate n start else b
        if late && pol == 2 then (b, stAbandoned, 0x01, []) else
        let t := if late then lateRun b.now start else start
        let b := (b.setFld (Reg.tbToutCtrl n) 0 2 mode).wr64 (Reg.tbToutStart n) start
        let b := (b.wrN (Reg.tbToutPeriod n) per).wrN (Reg.tbToutWidth n) w
        let b := b.putTout n (toutStart b.now mode start per t pol)
        (b, if late then stDoneLate else stDone, 0, if late then leBytes 4 (t - start) else [])

/-- R304. -/
def execTbTin (c : Cmd) (s : State) : Host.Outcome State Fault Refusal :=
  nextB s fun b =>
    let a := u8 (cArg c) 0
    b.runDone 0x0B05 c (b.tbPre c roleOperator ++ [deny (3 < a) stBadArg, deny (!(0xD00200 ≤ cObj c && cObj c ≤ 0xD00207)) stBadRef])
      fun b => b.setFld (Reg.tbTinCtrl (cObj c - 0xD00200)) 0 2 a

end Sys2Proof.Machine
end

