-- ==== Sys2Proof/Machine/Regs.lean ====
section
/-! DEFINITION. Machine/Regs.lean: reads and writes of the register map by its initiators (02 R27–R37, R48; 03 R51; 19 R459, R460). -/

namespace Sys2Proof.Machine

/-- The number of an initiator: host, management core, engines, island (02 R35). -/
def iniIdx : Ini → Nat
  | .host => 0
  | .mgmt => 1
  | .engine e => 2 + e.val
  | .island => 42

/-- Is the initiator one whose refused accesses are counted (02 R28, R31)? -/
def iniCounts : Ini → Bool
  | .host => true
  | .mgmt => true
  | _ => false

def iniIsEngine : Ini → Bool
  | .engine _ => true
  | _ => false

/-- The memory windows of BAR0 (01 R19, 02 R47): the byte there, where `off` lies in one. -/
def Block.memWindow (b : Block) (off : Nat) : Option Mem :=
  if 0x02000000 ≤ off ∧ off < 0x03000000 then some b.sram
  else if 0x03000000 ≤ off ∧ off < 0x03400000 then some b.cairn
  else if 0x03400000 ≤ off ∧ off < 0x03C00000 then some b.acqMem
  else none

/-- The first offset of the window that holds `off`. -/
def windowBase (off : Nat) : Nat :=
  if off < 0x03000000 then 0x02000000 else if off < 0x03400000 then 0x03000000 else 0x03400000

/-- Until AWAIT_WORLD, in IMAGE_CHECK and in FAILED only the SYS, CLK, IMG and MGT blocks of BAR0 respond (03 R51). -/
def Block.silent (b : Block) (off : Nat) : Bool :=
  (b.dev == dsBoot || b.dev == dsImageCheck || b.dev == dsFailed) && decide (off < 0x03C00000) &&
    !(off / 0x100000 == 0 || off / 0x100000 == 1 || off / 0x100000 == 2 || off / 0x100000 == 0x14)

/-- ENG and DSP registers read 0 between t2 and t4 of a continuity restart (10 R268). -/
def Block.partReset (b : Block) (off : Nat) : Bool :=
  let p := b.fld Reg.cntState 12 4
  (p == 3 || p == 4) && (off / 0x100000 == 7 || off / 0x100000 == 8)

/-! ### Shared SRAM through the store buffers (08 R206) -/

def Block.eng (b : Block) (e : Nat) : EngSt := tget {} b.engs e
def Block.putEng (b : Block) (e : Nat) (x : EngSt) : Block := { b with engs := tput b.engs e x }

/-- The start of the work region in shared SRAM (R189). -/
def Block.sramSplit (b : Block) : Nat := b.fld Reg.engSramSplit 0 24

/-- Write bytes into shared SRAM. -/
def Block.sramPut (b : Block) (o : Nat) (bs : List Byte) : Block := { b with sram := mwrite b.sram o bs }

/-- The oldest `n` stores of an engine's buffer become visible (R206). -/
def Block.drain (b : Block) (e : Nat) : Nat → Block
  | 0 => b
  | n + 1 =>
    match (b.eng e).stores with
    | [] => b
    | s :: rest => Block.drain ((b.putEng e { b.eng e with stores := rest }).sramPut s.1 s.2) e n

/-- Any number of the other engines' waiting stores, in each one's order, may have become visible by now (R206; log 4). -/
def Block.drainOthers (b : Block) (e : Nat) : Block :=
  (b.engs.filter fun p => p.1 != e && !p.2.stores.isEmpty).foldl (fun (b : Block) p =>
    let d := b.drawNat
    d.2.drain p.1 (d.1 % (p.2.stores.length + 1))) b

/-- All of an engine's stores become visible (R207). -/
def Block.drainAll (b : Block) (e : Nat) : Block := b.drain e (b.eng e).stores.length

/-- `n` bytes nobody can foretell (log 4). -/
def Block.drawBytes (b : Block) : Nat → List Byte × Block
  | 0 => ([], b)
  | n + 1 => let d := b.drawNat
             let r := Block.drawBytes d.2 n
             (BitVec.ofNat 8 d.1 :: r.1, r.2)

/-- Bytes of the image region of shared SRAM (01 R14, 03 R60, R189): those the image states for it (entry 1 of the image's own table,
log 8); past what it states, and after the region has changed in a layout that the manual does not give, they are free. -/
def Block.imageBytes (b : Block) (o n : Nat) : List Byte × Block :=
  let r := ent b.cfg tImage 1
  if o + n ≤ r.length then (slice r o n, b) else b.drawBytes n

/-- Number of stages of the image in a state (07 R187). -/
def Block.stagesIn (b : Block) (st : Nat) : Nat :=
  ((entsOf b.cfg tStage).filter fun p => b.sgUsed p.1 && b.sgState p.1 == st).length

/-- Number of threads for which a condition holds. -/
def Block.threadsWith (b : Block) (f : Nat → Bool) : Nat :=
  ((entsOf b.cfg tThread).filter fun p => f p.1).length

/-- A word as it reads now: the words that show something computed, then what the register file holds; a write-only register reads 0
(02 R27). -/
def Block.regNow (b : Block) (off : Nat) : Word :=
  if off = Reg.tbTime then BitVec.ofNat 32 b.now
  else if off = Reg.tbTime + 4 then BitVec.ofNat 32 (b.now >>> 32)
  else if off = Reg.tbState then BitVec.ofNat 32 (setField (b.rdN off) 11 1 (b2n b.stepAllowed))
  else if off = Reg.sysPanel then
    BitVec.ofNat 32 (setField (b.rdN off) 16 16 (if b.bit off 0 then satNat 65535 ((b.elapsed - b.boot.panelLow) / 1000000) else 0))
  else if off = Reg.outCountA then BitVec.ofNat 32 (b.stagesIn osLive + 65536 * b.stagesIn osCoasting)
  else if off = Reg.outCountB then BitVec.ofNat 32 (b.stagesIn osStale + 65536 * b.stagesIn osForced)
  else if off = Reg.dspCounts then
    BitVec.ofNat 32 (b.threadsWith (fun t => b.thState t == thReady) + 65536 * b.threadsWith (fun t => b.thState t == thPreempted))
  else if off = Reg.dspFloorHeld then BitVec.ofNat 32 (b.threadsWith fun t => b.thState t == thReady && b.floorHeld t)
  else if off / 0x8000 = 0x601000 / 0x8000 ∧ 0x601000 ≤ off ∧ off % 0x20 = 0x0C then
    let x := b.sg ((off - 0x601000) / 0x20)
    if x.written then BitVec.ofNat 32 (satNat 0xFFFFFFFF ((b.now - x.start) / 1000)) else 0#32
  else if off = Reg.recPortBacklog 0 then BitVec.ofNat 32 (b.backlog 0)
  else if off = Reg.recPortBacklog 1 then BitVec.ofNat 32 (b.backlog 1)
  else
    match (List.range 8).find? fun c => off = Reg.canLoad c with
    | some c => BitVec.ofNat 32 (satNat 100 (Config.canLoad c b.now))
    | none =>
      match regAt off with
      | some (r, _) => if r.acc = .wo then 0#32 else b.rd off
      | none => 0#32

/-- The word of a 64-bit pair that a read of its high half returns: the initiator's latch, or the live word before any low read
(02 R35). -/
def Block.highRead (b : Block) (ini : Ini) (off : Nat) : Word := (tget? b.latch (iniIdx ini)).getD (b.regNow off)

/-- Which half of a 64-bit register an offset is: `some true` the high word (02 R34). -/
def wideHalf (off : Nat) : Option Bool :=
  match regAt off with
  | some (r, hi) => if r.wide then some hi else none
  | none => none

/-- Does an engine's read of an offset trap (02 R31)? -/
def Block.readTraps (b : Block) (off : Nat) : Bool := (b.memWindow off).isNone && (regAt off).isNone

/-- Read a word of the map (02 R27, R31, R35; 03 R51): the value, and the block with the latch filled, an RC register cleared, a receive
object consumed or the access counted. -/
def Block.regRead (b : Block) (ini : Ini) (off : Nat) : Word × Block :=
  if iniCounts ini && b.silent off then (0#32, b)
  else
    match b.memWindow off with
    | some m =>
      if 0x03000000 ≤ off then (BitVec.ofNat 32 (leNat (mread m (off - windowBase off) 4)), b)
      else if off - 0x02000000 < b.sramSplit then let d := b.imageBytes (off - 0x02000000) 4; (BitVec.ofNat 32 (leNat d.1), d.2)
      else let b := b.drainOthers 40; (BitVec.ofNat 32 (leNat (mread b.sram (off - 0x02000000) 4)), b)
    | none =>
      match regAt off with
      | none => (0#32, if iniCounts ini then b.count Reg.sysUnmapped else b)
      | some (r, hi) =>
        if b.partReset off then (0#32, b)
        else if r.wide then
          (if hi then (b.highRead ini off, b)
           else (b.regNow off, { b with latch := tput b.latch (iniIdx ini) (b.regNow (off + 4)) }))
        else if r.acc = .rc then
          (b.regNow off,
            if 0x1010000 ≤ off ∧ off < 0x1030000 then b.snapRead (ini == .host) ((off - 0x1010000) / 32) else b.wrN off 0)
        else (b.regNow off, b)

/-! ### Writes -/

/-- The bits of a register that a write can change; all of them where its field table leaves none out. -/
def regMask (off : Nat) : Nat :=
  if off % 0x100000 = 0xFFFF0 then 1
  else if off = Reg.lgrThermal then 0x1F
  else if off = Reg.tbPortCtrl 0 ∨ off = Reg.tbPortCtrl 1 then 0xFF3D
  else if off / 0x100000 = 0x15 ∧ off % 0x20 = 0x10 ∧ 0x01510000 ≤ off then (if off < 0x01520000 then 0x3EFFF0FF else 0xFF)
  else if off / 0x100000 = 0x15 ∧ off < 0x01510000 then 0xFF
  else if off = Reg.clkTempCfg then 0xFFFF0F
  else if off = Reg.adminSize then 0x1FFF1FFF
  else 0xFFFFFFFF

/-- Does a block's lock refuse a write of an RWL register (02 R28, R29)? -/
def Block.lockedAt (b : Block) (off : Nat) : Bool := b.bit (off / 0x100000 * 0x100000 + 0xFFFF0) 0

/-- Is the initiator in a row's writer set (02 R28)? -/
def RegRow.allows (r : RegRow) : Ini → Bool
  | .host => r.h
  | .mgmt => r.m
  | .engine _ => r.e
  | .island => false

/-- A write from outside the writer set, or of a locked RWL register: counted for the host and the management core (02 R28). -/
def Block.refuseWrite (b : Block) (ini : Ini) : Block := if iniCounts ini then b.count Reg.sysWriteRefused else b

/-- Does an engine's write of an offset trap (02 R28, R31)? -/
def Block.writeTraps (b : Block) (ini : Ini) (off : Nat) : Bool :=
  match regAt off with
  | some (r, _) => !r.allows ini || (r.acc == .rwl && b.lockedAt off)
  | none => true

/-- A write of `CLK.TEMP_CFG` (22 R509): WARN 85..115, LIMIT WARN + 5..130, HYST 1..15; another is discarded and counted. -/
def Block.onTempCfg (b : Block) (ini : Ini) (v : Nat) : Block :=
  let l := field v 16 8
  let w := field v 8 8
  let h := field v 0 4
  if 85 ≤ w ∧ w ≤ 115 ∧ w + 5 ≤ l ∧ l ≤ 130 ∧ 1 ≤ h then b.wrN Reg.clkTempCfg (field v 0 4 + 256 * w + 65536 * l)
  else b.refuseWrite ini

/-- Registers whose write names an operation or moves what stands behind them. -/
def Block.writeOp (b : Block) (ini : Ini) (off : Nat) (v : Word) : Option Block :=
  if off = Reg.clkTempCfg then some (b.onTempCfg ini v.toNat)
  else if off = Reg.lgrThermal then
    let b := b.wrN off (setField (b.rdN off) 0 5 v.toNat)
    some ((entsOf b.cfg tThread).foldl (fun (b : Block) p => if b.thState p.1 = thReady then b.holdFields p.1 else b) b)
  else if off / 0x100000 = 0x0E ∧ 0xE01000 ≤ off ∧ off < 0xE01000 + 48 * 64 then
    let n := (off - 0xE01000) / 64
    if off % 64 = 8 then some (b.writePeriodSh n v.toNat)
    else if off % 64 = 0xC then some (b.onDutySh n v)
    else if off % 64 = 0x20 then some (b.onPairCommit n v)
    else none
  else if off = Reg.tbPortTxtsPop 0 then some (b.onTxtsPop 0 v)
  else if off = Reg.tbPortTxtsPop 1 then some (b.onTxtsPop 1 v)
  else if off / 0x100000 = 0x0C ∧ off < 0xC10000 then
    match (List.range 6).find? fun c => off = Reg.anaConvUrgent c ∨ off = Reg.anaConvQPop c with
    | some c => some (if off = Reg.anaConvUrgent c then b.onConvUrgent c v else b.onQPop c v)
    | none => none
  else if off / 0x100000 = 0x80 then
    if off < Reg.adminCmdBase then some (b.onDoorbell ((off - 0x08000000) / 4) v)
    else if off = Reg.adminCtrl then some (b.onAdminCtrl v)
    else if off = Reg.adminSize ∧ b.bit Reg.adminCtrl 0 then some (b.refuseWrite ini)
    else if 0x08002000 ≤ off ∧ off < 0x08002400 then some (b.onMsix off v)
    else none
  else none

/-- A write that reaches a 32-bit register (02 R27). -/
def Block.write32 (b : Block) (ini : Ini) (r : RegRow) (off : Nat) (v : Word) : Block :=
  match b.writeOp ini off v with
  | some b' => b'
  | none =>
    let old := b.rdN off
    let m := regMask off
    match r.acc with
    | .w1c => b.wrN off (old - (old &&& v.toNat))
    | .w1s => b.wrN off (old ||| (v.toNat &&& m))
    | .rw => b.wrN off ((old - (old &&& m)) ||| (v.toNat &&& m))
    | .rwl => b.wrN off ((old - (old &&& m)) ||| (v.toNat &&& m))
    | _ => b

/-- A 64-bit register takes both words in one cycle (02 R37; 12 R294, 15 R352, 19 R460, 21 R492, R498). -/
def Block.write64 (b : Block) (ini : Ini) (off : Nat) (lo hi : Word) : Block :=
  if off = Reg.tbSample then b.onSample lo hi
  else if off = Reg.pwmCommitMask then b.onCommitMask (lo.toNat + 2 ^ 32 * hi.toNat)
  else if off = Reg.adminCmdBase ∨ off = Reg.adminCplBase then
    if b.bit Reg.adminCtrl 0 then b.refuseWrite ini else (b.wr off lo).wr (off + 4) hi
  else if off / 0x100000 = 0x15 then
    let b' := (b.wr off lo).wrN (off + 4) (hi.toNat % 65536)
    if off % 0x20 = 0 then b'.setFld (off + 0x10) 31 1 0
    else if off < 0x01520000 then b' else b
  else (b.wr off lo).wr (off + 4) hi

/-- The key of an initiator's staging register for a 64-bit register (02 R37). -/
def stageKey (ini : Ini) (off : Nat) : Nat := iniIdx ini * 2 ^ 32 + off

/-- A write of one word by an initiator in the writer set: a high word is staged, a low word commits both (02 R37). -/
def Block.writeIn (b : Block) (ini : Ini) (r : RegRow) (hi : Bool) (off : Nat) (v : Word) : Block :=
  if r.wide then
    if hi then { b with staging := tput b.staging (stageKey ini (off - 4)) v }
    else
      let h := (tget? b.staging (stageKey ini off)).getD (b.regNow (off + 4))
      { b with staging := tdel b.staging (stageKey ini off) }.write64 ini off v h
  else b.write32 ini r off v

/-- Write a word of the map (02 R27–R29, R31, R37; 03 R51; 19 R459). -/
def Block.regWrite (b : Block) (ini : Ini) (off : Nat) (v : Word) : Block :=
  if iniCounts ini && b.silent off then b.refuseWrite ini
  else if (b.memWindow off).isSome then b.refuseWrite ini
  else
    match regAt off with
    | none => if iniCounts ini then b.count Reg.sysUnmapped else b
    | some (r, hi) =>
      if !r.allows ini || (r.acc == .rwl && b.lockedAt off) then b.refuseWrite ini else b.writeIn ini r hi off v

end Sys2Proof.Machine
end

