-- ==== Sys2Proof/Machine/Engines.lean ====
section
/-! DEFINITION. Machine/Engines.lean: engines as state (08 R188–R193, R215), their performance counters and samples (21 R489–R497), their
store buffers (08 R206), traps (08 R209, R210) and the issue of one instruction. -/

namespace Sys2Proof.Machine

/-- Engine states (R215). -/
def egOffline : Nat := 0
def egIdle : Nat := 1
def egRunning : Nat := 2
def egStandin : Nat := 3
def egFenced : Nat := 4
def egQuarantined : Nat := 5

def Block.egState (b : Block) (e : Nat) : Nat := b.fld (Reg.engState e) 0 3
def Block.egSet (b : Block) (e : Nat) : Nat := b.fld (Reg.engRole e) 8 8
def Block.egRole (b : Block) (e : Nat) : Nat := b.fld (Reg.engRole e) 0 2
def Block.egEpoch (b : Block) (e : Nat) : Nat := b.fld (Reg.engEpoch e) 0 16

/-- Enter an engine state; `ENG[n].STATE` shows the activation (R221), `CNT.STATE` the stand-ins (10 R271). -/
def Block.setEg (b : Block) (e st : Nat) : Block :=
  let x := b.eng e
  let b := match x.act with
    | some a => b.wrN (Reg.engState e) (st + 8 * (b.thPrio a.thread % 32) + 256 * b2n x.ctx.kernel + 65536 * a.thread)
    | none => b.wrN (Reg.engState e) st
  b.setFld Reg.cntState 0 6 ((List.range 40).filter fun k => b.egState k == egStandin).length

/-- Does an engine's write count as stale (R191, 10 R245)? -/
def Block.stale (b : Block) (e : Nat) : Bool :=
  (b.eng e).epoch != b.egEpoch e || b.egState e == egFenced || b.egState e == egQuarantined

/-- Count writes discarded as stale (R191). -/
def Block.fencedWrites (b : Block) (e n : Nat) : Block :=
  if n = 0 then b else (b.count (Reg.engFencedWrites e) n).raise (Reg.engFlags e) 3 (sidEngine e)

/-! ### Registers of an activation -/

/-- A general register; v0 reads 0 (R192). -/
def EngCtx.get (c : EngCtx) (i : Nat) : Word := if i = 0 then 0#32 else tget 0#32 c.v i
/-- Write a general register; v0 discards (R192). -/
def EngCtx.set (c : EngCtx) (i : Nat) (w : Word) : EngCtx := if i = 0 then c else { c with v := tput c.v i w }
/-- An instruction word of I-RAM. -/
def EngSt.word (x : EngSt) (a : Nat) : Nat := u32 x.iram a

/-! ### Performance counters -/

/-- The instruction or activation that a count belongs to (R497). -/
structure PrfAt where
  pc : Nat := 0xFFFFFFFF
  act : Nat := 0
  thread : Nat := 0xFFFF
  kernel : Bool := false
  lat : Nat := 0
  addr : Nat := 0

/-- A PERF_SAMPLE record (R497). -/
def Block.prfSample (b : Block) (e i : Nat) (p : PrfAt) (skid : Bool) (dist : Nat) : Block :=
  let ev := b.fld (Reg.prfEngCfg e i) 0 8
  let b := b.count48 Reg.prfSamples
  let b := if skid then (b.count48 Reg.prfSkidSamples).raise Reg.prfFlags 1 else b
  b.record (0xE00000 + 8 * e + i) 0x50 (leBytes 4 p.pc ++ leBytes 4 p.act ++ leBytes 2 p.thread ++ leBytes 1 e ++ leBytes 1 ev ++
    leBytes 1 (b2n (!skid) + 2 * b2n skid + 4 * b2n p.kernel) ++ leBytes 1 dist ++ leBytes 2 (satNat 65535 p.lat) ++ leBytes 4 p.addr ++
    zeroBytes 4)

/-- The events marked P in R490. -/
def prfPrecise (ev : Nat) : Bool := [0x01, 0x04, 0x07, 0x08, 0x09, 0x0A, 0x0C, 0x0E, 0x0F].contains ev

/-- Does counter i of an engine count an event of an activation (R490, R498)? -/
def Block.prfTakes (b : Block) (e i ev : Nat) (p : PrfAt) : Bool :=
  let c := b.rdN (Reg.prfEngCfg e i)
  let m := field c 26 2
  field c 0 8 == ev && (m == 0 || (m == 1 && !p.kernel) || (m == 2 && p.kernel)) && (!c.testBit 25 || field c 12 12 == p.thread)

/-- Count `n` on one counter (R493): the block, and the counts past the wrap where it wrapped with SAMPLE set. -/
def Block.prfOne (b : Block) (e i n : Nat) : Block × Option Nat :=
  let cfg := Reg.prfEngCfg e i
  let v := b.rd64 (Reg.prfEngCtr e i)
  let r := prfAdd v n (if b.bit cfg 28 then b.rd64 (Reg.prfEngReload e i) else 0)
  let b := b.wr64 (Reg.prfEngCtr e i) r.1
  if r.2 = 0 then (b, none) else
  let b := b.prfWrap Block.emit cfg (Reg.prfEngWraps e i) (0xE00000 + 8 * e + i) r.2
  (b, if b.bit cfg 29 then some (v + n - 2 ^ 48) else none)

/-- A sample that has fallen back to skid, `past` cycles after its wrap (R496): past 32 cycles it names no instruction, else it waits. -/
def Block.prfSkid (b : Block) (e i past : Nat) (p : PrfAt) : Block :=
  if 32 < past then b.prfSample e i { p with pc := 0xFFFFFFFF, lat := 0, addr := 0 } true 32
  else b.putEng e { b.eng e with skids := tput (b.eng e).skids i past }

/-- Count an event of an engine that no retirement makes (R490). -/
def Block.prfCount (b : Block) (e ev n : Nat) (p : PrfAt) : Block :=
  (List.range 8).foldl (fun (b : Block) i =>
    if !b.prfTakes e i ev p then b else
    let r := b.prfOne e i n
    match r.2 with
    | some o => r.1.prfSkid e i (if ev = 0x00 ∨ ev = 0x0B then o else 0) p
    | none => r.1) b

/-- Samples that wait for their skid name the instruction that now retires, `cyc` cycles on (R496). -/
def Block.prfSettle (b : Block) (e cyc : Nat) (p : PrfAt) : Block :=
  let x := b.eng e
  x.skids.foldl (fun (b : Block) s =>
    if 32 < s.2 + cyc then b.prfSample e s.1 { p with pc := 0xFFFFFFFF, lat := 0, addr := 0 } true 32
    else b.prfSample e s.1 p true (s.2 + cyc)) (b.putEng e { x with skids := [] })

/-- Count one event of a retirement; `taken` says that a sample of this engine is still on its way to the recorder (R496). -/
def Block.prfEvent (b : Block) (taken : Bool) (e ev n : Nat) (p : PrfAt) : Block × Bool :=
  (List.range 8).foldl (fun (acc : Block × Bool) i =>
    if !acc.1.prfTakes e i ev p then acc else
    let r := acc.1.prfOne e i n
    match r.2 with
    | none => (r.1, acc.2)
    | some o =>
      if prfPrecise ev && !acc.2 then (r.1.prfSample e i p false 0, true)
      else if ev = 0 then (if 32 < o then r.1.prfSkid e i o p else r.1.prfSample e i p true o, true)
      else (r.1.prfSkid e i 0 p, true)) (b, taken)

/-- An instruction retires after `cyc` cycles: they and its events are counted (R490). -/
def Block.prfRetire (b : Block) (e cyc : Nat) (evs : List Nat) (p : PrfAt) : Block :=
  let waiting := !(b.eng e).skids.isEmpty
  let b := b.prfSettle e cyc p
  let r := b.prfEvent waiting e 0x00 cyc p
  ((evs.foldl (fun (acc : Block × Bool) ev => acc.1.prfEvent acc.2 e ev 1 p) r)).1

/-! ### Memory (R189, R206) -/

/-- Where an engine address lies (R189); an offset within it. -/
inductive Zone where
  | iram (o : Nat)
  | dram (o : Nat)
  | sram (o : Nat)
  | cairn (o : Nat)
  | bar (o : Nat)
  | none

/-- The map of R189. -/
def zoneOf (a : Nat) : Zone :=
  if a < 0x10000 then .iram a
  else if a < 0x20000 then .dram (a - 0x10000)
  else if a < 0x10000000 then .none
  else if a < 0x11000000 then .sram (a - 0x10000000)
  else if a < 0x20000000 then .none
  else if a < 0x20001000 then .cairn (a - 0x20000000)
  else if a < 0x40000000 then .none
  else if a < 0x43C00000 then .bar (a - 0x40000000)
  else .none

/-- Bytes of shared SRAM as an engine sees them: its own waiting stores over what is visible (R206). The image region
reads as the image states it (log 8). -/
def Block.sramRead (b : Block) (e o n : Nat) : List Byte × Block :=
  if o < b.sramSplit then b.imageBytes o n else
  let b := b.drainOthers e
  let m := (b.eng e).stores.foldl (fun (m : Mem) s => mwrite m s.1 s.2) b.sram
  (mread m o n, b)

/-- A store to shared SRAM goes through the 8-entry buffer (R206): a stale one is discarded and counted (R191), a full buffer lets its
oldest store go. -/
def Block.sramStore (b : Block) (e o : Nat) (bs : List Byte) : Block :=
  if b.stale e then b.fencedWrites e 1 else
  let b := if 8 ≤ (b.eng e).stores.length then b.drain e 1 else b
  b.putEng e { b.eng e with stores := (b.eng e).stores ++ [(o, bs)] }

/-! ### Traps -/

/-- Trap causes (R209). -/
def tcIllegal : Nat := 1
def tcPrivilege : Nat := 2
def tcAccess : Nat := 3
def tcMisaligned : Nat := 4
def tcSigRef : Nat := 5
def tcSigWrite : Nat := 6
def tcObjRef : Nat := 7
def tcStageFull : Nat := 8
def tcCairnRange : Nat := 9
def tcPlanAddr : Nat := 10
def tcCurveRef : Nat := 11
def tcKcall : Nat := 12

/-- The trap record of D-RAM (R210). -/
def trapRecord (c : EngCtx) (cause arg : Nat) : List Byte :=
  leBytes 4 c.pc ++ leBytes 4 (cause + 256 * b2n c.kernel) ++ leBytes 4 arg ++ zeroBytes 4 ++ leBytes 4 (c.get 29).toNat ++
    leBytes 4 (c.get 30).toNat ++ leBytes 4 (c.get 31).toNat ++ zeroBytes 4

/-- Charge cycles to an activation's budget (R212) and the engine's busy time. -/
def Block.charge (b : Block) (e cyc : Nat) : Block :=
  let x := b.eng e
  match x.act with
  | none => b
  | some a =>
    let b := b.putEng e { x with act := some { a with budget := a.budget - cyc, used := a.used + cyc } }
    if b.egState e = egRunning then b.count48 (Reg.engBusyCycles e) cyc else b

/-- What an activation's counts belong to. -/
def prfOf (c : EngCtx) (a : ActSt) (lat addr : Nat) : PrfAt :=
  { pc := c.pc, act := a.act, thread := a.thread, kernel := c.kernel, lat := lat, addr := addr }

/-- The handler for a cause (R210): its own entry, else the default one; 0 where the code set has neither. -/
def EngSt.handlerFor (x : EngSt) (cause : Nat) : Nat :=
  if x.ctx.htable = 0 then 0 else
  let w := x.word (x.ctx.htable + 4 * cause)
  if w = 0 then x.word x.ctx.htable else w

/-- A trap (R209–R211): counters and registers, the trap record, and the handler in kernel mode. The answer's second part is the abort
code where none can run: 2 in a handler, 3 without a handler. -/
def Block.takeTrap (b : Block) (e cause arg : Nat) : Block × Nat :=
  let x := b.eng e
  let c := x.ctx
  match x.act with
  | none => (b, 0)
  | some a =>
    let b := b.count (Reg.engTraps e)
    let b := b.wrN (Reg.engLastTrap e) (cause + 256 * a.thread)
    let b := (b.wrN (Reg.engLastTrapPc e) c.pc).wrN (Reg.engLastTrapArg e) arg
    let b := b.raise (Reg.engFlags e) 0 (sidEngine e)
    let h := x.handlerFor cause
    let c' := { c with kernel := true, handler := true, pc := h }
    let b := b.putEng e { b.eng e with dram := mwrite x.dram 0xDFE0 (trapRecord c cause arg) }
    let b := if b.egState e = egRunning then b.prfRetire e 8 [0x0C] (prfOf c a 8 0) else b
    let b := b.charge e 8
    if c.handler then (b, 2)
    else if h = 0 then (b, 3)
    else ((b.putEng e { b.eng e with ctx := c' }).setEg e (b.egState e), 0)

end Sys2Proof.Machine
end

