-- ==== Sys2Proof/Machine/Dispatcher.lean ====
section
/-! DEFINITION. Machine/Dispatcher.lean: the dispatch unit (09): placing threads on engines, preemption, the commit that ends an
activation (08 R204, 10 R255), aborts, and the thread commands. -/

namespace Sys2Proof.Machine

/-- The slot of a thread in a code set's bytes (08 R216): entry in words and length in words. -/
def slotOf (set : List Byte) (t : Nat) : Option (Nat × Nat) :=
  ((List.range (u16 set 8)).find? fun i => u16 set (64 + 8 * i) == t).map fun i => (u16 set (68 + 8 * i), u16 set (70 + 8 * i))

/-- Is an engine eligible for a thread (R229)? -/
def Block.eligible (b : Block) (t e : Nat) : Bool :=
  (b.egState e == egIdle || b.egState e == egRunning) && b.egSet e == b.thSet t

/-- Priority of the activation on an engine and whether it is committing. -/
def Block.running (b : Block) (e : Nat) : Option (Nat × Bool) := (b.eng e).act.map fun a => (b.thPrio a.thread, a.committing)

/-- The idle engine that R229 chooses. -/
def Block.idleFor (b : Block) (t : Nat) : Option Nat :=
  (List.range 40).find? fun e => b.eligible t e && b.egState e == egIdle && (b.eng e).act.isNone

/-- The engine whose activation R229 would preempt: the least urgent that is not committing, the lowest number among equals. -/
def Block.victimFor (b : Block) (t : Nat) : Option Nat :=
  let c := (List.range 40).filterMap fun e =>
    if !b.eligible t e then none else match b.running e with | some (p, false) => some (e, p) | _ => none
  match c.foldl (fun (m : Option (Nat × Nat)) x => match m with | some y => if y.2 < x.2 then some x else m | none => some x) none with
  | some (e, p) => if b.thPrio t < p then some e else none
  | none => none

/-- The engine on which a READY thread is placed now (R229). -/
def Block.placeFor (b : Block) (t : Nat) : Option Nat :=
  match b.idleFor t with
  | some e => some e
  | none => b.victimFor t

/-- May the dispatch unit work: not while the MP stands still (10 R257, 22 R501)? -/
def Block.mayDispatch (b : Block) : Bool := b.dev != dsRestart && b.refclk

/-- READY threads that are not held (R228). -/
def Block.offered (b : Block) : List Nat :=
  ((entsOf b.cfg tThread).map (·.1)).filter fun t => b.thState t == thReady && !b.held t

/-- Does thread `u` come before `t` in dispatch order (R229)? Threads ready on the same cycle are in no order (R231). -/
def Block.before (b : Block) (u t : Nat) : Bool :=
  decide (b.thPrio u < b.thPrio t) || (b.thPrio u == b.thPrio t && decide ((b.th u).readyAt < (b.th t).readyAt))

/-- cw.START of the activation that begins (08 R204). -/
def Block.startBits (b : Block) (t : Nat) : Nat :=
  let x := b.th t
  b2n (!x.cairned) + 2 * b2n x.resumed + 4 * b2n x.replay + 8 * b2n x.swapped

/-- Dispatch a thread on an engine (R229). -/
def Block.dispatchOn (b : Block) (t e : Nat) : Block :=
  let d := b.thDesc t
  let x := b.eng e
  let start := b.startBits t
  let act := (b.rdN (Reg.dspThreadAct t) + 1) % 2 ^ 32
  let slot := (slotOf x.iram t).getD (0, 0)
  let a : ActSt := { thread := t, act := act, start := start, disp := b.now, budget := u32 d 8 }
  let kern := (u8 d 1).testBit 2
  let th := b.th t
  let wait := satNat 0xFFFFFFFF (b.now - th.readyAt)
  let b := b.putEng e { x with ctx := { x.ctx with pc := 4 * slot.1, kernel := kern, handler := false }, act := some a }
  let b := b.putTh t { th with lastDispatch := some b.now, replay := false, resumed := false, swapped := false }
  let b := ((b.setThState t thRunning).setFld (Reg.dspThreadState t) 22 6 e).holdFields t
  let b := b.setEg e egRunning
  let b := (b.count48 (Reg.engActivations e)).wr64 (Reg.engLastDispatch e) b.now
  let b := (b.count48 Reg.dspDispatches).blkCount 0x21
  let b := if b.rdN Reg.dspMaxWait < wait then b.wrN Reg.dspMaxWait wait else b
  let b := b.prfCount e 0x02 1 { act := act, thread := t, kernel := kern }
  let b := b.trace t 2 e start 0 0xFFFF
  match b.loopOf t with
  | some l => b.loopDispatch l
  | none => b

/-- Keep a list of saved activations in order of priority. -/
def insSaved (p : Nat) (c : EngCtx) (a : ActSt) : List (Nat × EngCtx × ActSt) → List (Nat × EngCtx × ActSt)
  | [] => [(p, c, a)]
  | x :: r => if p < x.1 then (p, c, a) :: x :: r else x :: insSaved p c a r

/-- Preempt the activation on an engine for a thread (R230): its context goes to the frame of its priority, with its trap record when it
runs a handler; what it staged stays at the continuity partition. -/
def Block.preempt (b : Block) (e by_ : Nat) : Block :=
  let x := b.eng e
  match x.act with
  | none => b
  | some a =>
    let c := { x.ctx with trapRec := if x.ctx.handler then mread x.dram 0xDFE0 32 else [], latch := (tget? b.latch (2 + e)).getD 0#32 }
    let b := b.putEng e { x with saved := insSaved (b.thPrio a.thread) c a x.saved, act := none }
    let b := (b.setThState a.thread thPreempted).count48 Reg.dspPreemptions
    let b := b.prfCount e 0x03 1 { act := a.act, thread := a.thread, kernel := c.kernel }
    b.trace a.thread 3 e 0 a.used by_

/-- Resume the most urgent PREEMPTED activation of an engine (R229, R230). -/
def Block.resumeOn (b : Block) (e : Nat) : Block :=
  let x := b.eng e
  match x.saved with
  | [] => b
  | (_, c, a) :: rest =>
    let dram := if c.handler then mwrite x.dram 0xDFE0 (padTo 32 c.trapRec) else x.dram
    let b := b.putEng e { x with ctx := { c with trapRec := [] }, act := some a, saved := rest, dram := dram }
    let b := if (tget? b.latch (2 + e)).isSome then { b with latch := tput b.latch (2 + e) c.latch } else b
    let b := (b.setThState a.thread thRunning).setEg e egRunning
    let b := b.prfCount e 0x02 1 { act := a.act, thread := a.thread, kernel := c.kernel }
    b.trace a.thread 4 e 0 a.used 0xFFFF

/-- An engine has become free (R229): the first READY thread eligible there runs if it is more urgent than the engine's PREEMPTED
activations, else the most urgent of those resumes, else the engine is IDLE. Among threads in no order (R231) the choice is free. -/
def Block.engineFree (b : Block) (e : Nat) : Block :=
  let x := b.eng e
  let q := match x.saved with | s :: _ => s.1 | [] => 32
  let c := if b.mayDispatch then b.offered.filter fun t => b.eligible t e else []
  let firsts := c.filter fun t => !(c.any fun u => b.before u t)
  let d := b.drawNat
  let pick := if firsts.length ≤ 1 then (firsts.head?, b) else (firsts[d.1 % firsts.length]?, d.2)
  match pick.1 with
  | some t => if b.thPrio t < q then pick.2.dispatchOn t e else if q < 32 then b.resumeOn e else b.setEg e egIdle
  | none => if q < 32 then b.resumeOn e else b.setEg e egIdle

/-- The activation boundary that a code swap of the thread waits for (08 R217): the copying of its slot begins. -/
def Block.swapBoundary (b : Block) (t : Nat) : Block :=
  if b.cont.swapOp.isSome && b.cont.swapThread == t then
    (b.putTh t { b.th t with copying := true }).setFld Reg.engSwap 30 2 2
  else b

/-- The thread whose activation has ended continues (R224, R234–R236; 10 R258). -/
def Block.threadEnds (b : Block) (t : Nat) : Block :=
  let b := b.swapBoundary t
  let p := (b.th t).pendReq
  let b := (b.putTh t { b.th t with pendReq := 0 }).setFld (Reg.dspThreadState t) 3 1 0
  let b := b.setFld (Reg.dspThreadState t) 22 6 0x3F
  if p = 1 then (b.setThState t thDormant).reload t
  else if p = 2 ∨ p = 3 then
    let cause := if p = 2 then 1 else 3
    ((b.setFld (Reg.dspThreadState t) 20 2 cause).setThState t thSuspended).trace t 8 0xFF cause 0 0xFFFF
  else b.setThState t thWaiting

/-- Does the dispatch unit still know the activation on an engine: not once the engine is fenced (10 R244)? -/
def Block.known (b : Block) (e : Nat) : Bool := b.egState e == egRunning

/-- The engine leaves its activation. -/
def Block.leave (b : Block) (e : Nat) : Block := b.putEng e { b.eng e with act := none }

/-- Continue a thread after an aborted activation (R234). -/
def Block.threadAborted (b : Block) (t code used : Nat) : Block :=
  let r := Reg.dspThreadAborts t
  let n := b.fld r 16 4 + 1
  let b := b.wrN r (satNat 65535 (b.fld r 0 16 + 1) + 65536 * (n % 16))
  let b := (b.count Reg.dspAborts).raise Reg.dspFlags 0 (sidThread t)
  let b := b.trace t 6 (b.thEngine t) code used 0xFFFF
  let b := b.reload t
  let lim := u8 (b.thDesc t) 3
  if lim != 0 && decide (lim ≤ n) && (b.th t).pendReq != 1 then
    let b := b.raisePost Reg.dspFlags 1 (sidThread t)
    let b := (b.putTh t { b.th t with pendReq := 0 }).setFld (Reg.dspThreadState t) 3 1 0
    let b := (b.setFld (Reg.dspThreadState t) 22 6 0x3F).setFld (Reg.dspThreadState t) 20 2 2
    (b.setThState t thSuspended).trace t 8 0xFF 2 0 0xFFFF
  else b.threadEnds t

/-- Abort the activation on an engine (08 R211, R212; R234): what it staged is discarded. `cause` is 0 for an abort without a trap. -/
def Block.abortAct (b : Block) (e code : Nat) (cause : Nat := 0) : Block :=
  let x := b.eng e
  match x.act with
  | none => b
  | some a =>
    let b := b.wrN (Reg.engLastTrap e) (cause + 256 * a.thread + 2 ^ 24 * code)
    let b := if code = 1 then
        ((b.count (Reg.engBudgetAborts e)).raise (Reg.engFlags e) 1 (sidEngine e)).prfCount e 0x0D 1 (prfOf x.ctx a 0 0)
      else if code = 2 ∨ code = 3 then b.raise (Reg.engFlags e) 2 (sidEngine e) else b
    let b := b.putEng e { b.eng e with act := none, ctx := { (b.eng e).ctx with handler := false } }
    if b.known e then (b.threadAborted a.thread code a.used).engineFree e else b

/-- A trap, and the abort that follows where no handler can run (08 R210, R211). -/
def Block.trapOn (b : Block) (e cause arg : Nat) : Block :=
  let r := b.takeTrap e cause arg
  if r.2 = 0 then r.1 else r.1.abortAct e r.2 cause

/-! ### The commit (08 R204, 10 R255) -/

/-- Items that an activation has staged. -/
def ActSt.staged (a : ActSt) : Nat := a.outs.length + a.sigs.length + a.posts.length + a.cairn.length

/-- Cycles that a commit holds the engine (08 R214). -/
def ActSt.commitCycles (a : ActSt) : Nat := 80 + (4 * a.cairn.length - 1024 + 63) / 64

/-- The result of one post at its target (08 R202). An event code outside its range and a posted action entry with a field outside 05 R122
and R123 complete with BAD_ARG in the post result (DEDUCED, log 38). -/
def Block.postOne (b : Block) (t : Nat) (p : PostSt) : Block × Nat × Nat :=
  if (p.kind = 0 ∧ 0xFE < p.code) ∨ (p.kind = 1 ∧ (p.code = 0 ∨ 0xFE < p.code)) then (b, stBadArg, 0) else
  match p.kind with
  | 0 => b.smAsk p.sid p.code
  | 1 => if 0x900000 ≤ p.sid ∧ p.sid < 0x900010 then (b.laneEvent (p.sid - 0x900000) p.code, stDone, 0) else (b, stBadRef, 0)
  | 2 => if h : t < 4096 then
      if !actionOk p.entry then
        (b.endAction { src := .thread ⟨t, h⟩, step := 0xFFFF, idx := 0xFFFFFFFF, entry := p.entry, due := none, placed := b.now } stBadArg 0,
          stBadArg, 0)
      else
      let r := b.placeAction (.thread ⟨t, h⟩) 0xFFFF 0xFFFFFFFF p.entry b.now
      (r.1, r.2.1, r.2.2)
    else (b, stBadRef, 0)
  | 3 => if b.txoUsed (txoOf p.sid) then b.txAsk (txoOf p.sid) else (b, stBadRef, 0)
  | _ =>
    let u := p.sid - 0xB00000
    if !b.thUsed u then (b, stBadRef, 0)
    else if b.thState u == thWaiting then (b.decrement u, stDone, 0)
    else (b.discard u none, stAbandoned, 5)

/-- Pass the posts on in order; the word that the next activation reads as cw.POSTRES (08 R202). -/
def Block.postAll (b : Block) (t : Nat) (ps : List PostSt) : Block × Nat :=
  let r := ps.foldl (fun (acc : Block × Nat × Nat × Nat) p =>
    let q := acc.1.postOne t p
    let bad := q.2.1 != stDone
    (q.1, acc.2.1 + 1, if bad && acc.2.2.2 == 0 then q.2.1 + 256 * q.2.2 + 65536 * acc.2.1 else acc.2.2.1,
      acc.2.2.2 + b2n bad)) (b, 0, 0, 0)
  (r.1, r.2.2.1 + 2 ^ 24 * satNat 255 r.2.2.2)

/-- A value that `SIG.ST` staged reaches its signal at the commit: recorded, cached and completed (07 R164, 11 R276). -/
def Block.storeSig (b : Block) (sid : Nat) (v : DWord) : Block :=
  let ty := b.sigType sid
  let w := if ty = 4 then v.toNat % 2 ^ 32 else if ty = 5 then v.toNat % 2 else v.toNat
  let b := b.record sid 0x05 (leBytes 8 w) false (valRat ty v)
  -- it releases a ramp on a loop variable (07 R183), and a field goes into its object's data (17 R412)
  let b := b.stopRamp sid
  let b := if b.isField sid then b.fieldWrite sid v else b
  b.arrive sid v

/-- Of two writes that one activation stages for a stage, the later one wins (07 R175). -/
def lastWrites : List (Nat × Word × List Byte) → List (Nat × Word × List Byte)
  | [] => []
  | o :: r => if r.any fun p => p.1 == o.1 then lastWrites r else o :: lastWrites r

/-- The effect of an accepted commit (08 R204, R236). -/
def Block.accepted (b : Block) (e : Nat) (a : ActSt) : Block :=
  let t := a.thread
  let base := u32 (b.thDesc t) 16
  let b := { b with cairn := a.cairn.foldl (fun (m : Mem) (w : Nat × Word) => mwrite m (base + w.1) (leBytes 4 w.2.toNat)) b.cairn }
  let b := b.wrN (Reg.dspThreadAct t) a.act
  let b := b.setFld (Reg.dspThreadAborts t) 16 4 0
  let drop := (b.th t).pendReq == 1
  let b := (lastWrites a.outs).foldl (fun (b : Block) o =>
    if drop then (b.count Reg.outDiscardedCommits).raise Reg.outFlags 5 (sidStage o.1)
    else b.commitWrite t o.1 o.2.1 (if o.2.2.isEmpty then none else some o.2.2)) b
  let b := a.sigs.foldl (fun (b : Block) s => b.storeSig s.1 s.2) b
  let r := b.postAll t a.posts
  let b := r.1.putTh t { r.1.th t with cairned := true, postRes := r.2 }
  b.trace t 5 e (satNat 255 a.posts.length) a.used 0xFFFF

/-- R204, R205, 10 R255: the commit of the activation on an engine is decided, whole or not at all, and the engine is free. -/
def Block.commitOn (b : Block) (e : Nat) : Block :=
  let x := b.eng e
  match x.act with
  | none => b
  | some a =>
    if !a.committing then b else
    let known := b.known e
    let b := b.drainAll e
    let b := if b.stale e then b.fencedWrites e a.staged
      else if a.act = (b.rdN (Reg.dspThreadAct a.thread) + 1) % 2 ^ 32 then b.accepted e a
      else (b.count Reg.cntDuplicates).raise Reg.cntFlags 5 (sidThread a.thread)
    let b := b.leave e
    if !known then b else
    let n := a.commitCycles
    let p := prfOf x.ctx a 0 0
    let b := ((b.count48 (Reg.engBusyCycles e) n).prfCount e 0x0B n p).prfCount e 0x00 n p
    (b.threadEnds a.thread).engineFree e

/-- R255. -/
def execCommitComplete (e : Fin 40) (s : State) : Host.Outcome State Fault Refusal := nextB s fun b => b.commitOn e.val

/-- R212: cw.BUDGET reaches 0; a commit in progress is never aborted for budget (R213). -/
def execBudgetExpiry (e : Fin 40) (s : State) : Host.Outcome State Fault Refusal :=
  nextB s fun b =>
    match (b.eng e.val).act with
    | some a => if a.committing then b else b.abortAct e.val 1
    | none => b

/-! ### Dispatch -/

/-- R229: a READY thread that is not held is placed on the engine that the rule chooses, before every other READY thread that comes
first in dispatch order and could be placed as well. -/
def execDispatch (thread : Fin 4096) (e : Fin 40) (s : State) : Host.Outcome State Fault Refusal :=
  nextB s fun b =>
    let t := thread.val
    if !b.mayDispatch || !b.offered.contains t then b
    else if b.placeFor t != some e.val then b
    else if b.offered.any fun u => b.before u t && (b.placeFor u).isSome then b
    else (if (b.eng e.val).act.isSome then b.preempt e.val t else b).dispatchOn t e.val

/-- R228: MIN_INTERVAL since the previous dispatch has passed; the thread is offered. -/
def execMinIntervalEnd (thread : Fin 4096) (s : State) : Host.Outcome State Fault Refusal :=
  nextB s fun b => if b.thState thread.val == thReady then b.holdFields thread.val else b

/-! ### Commands (R239, R240) -/

def isThreadSid (sid : Nat) : Bool := decide (0xB00000 ≤ sid) && decide (sid < 0xB01000)

/-- Checks that the thread commands share; `states` are the thread states in which the command is legal. -/
def Block.dspPre (b : Block) (c : Cmd) (loops : Bool) (states : List Nat) : List (Option Refuse) :=
  let t := cObj c - 0xB00000
  let st := b.thState t
  [authCheck c roleOperator, deny (b.refclk && (b.dev == dsAwaitWorld || b.dev == dsRestart)) stConflict 0x02 b.dev,
   devCheck b [dsOperational, dsSafeStop], envCheck c,
   deny (isThreadSid (cObj c) && b.thUsed t && b.isService t) stBadArg 0x01,
   deny (!(isThreadSid (cObj c) && b.thUsed t)) stBadRef,
   deny (loops && (b.loopOf t).isSome) stConflict 0x01 st,
   deny (!states.contains st) stConflict 0 st]

/-- A thread that continuity suspended is its to release (R240). -/
def Block.dspCont (b : Block) (c : Cmd) : Option Refuse :=
  let t := cObj c - 0xB00000
  deny (b.thState t == thSuspended && b.thCause t == 3) stConflict 0x03 thSuspended

/-- R239. -/
def execDspEnable (c : Cmd) (s : State) : Host.Outcome State Fault Refusal :=
  nextB s fun b => b.runDone 0x0701 c (b.dspPre c true [thDormant]) fun b => b.enableThread (cObj c - 0xB00000)

/-- R239. -/
def execDspDisable (c : Cmd) (s : State) : Host.Outcome State Fault Refusal :=
  nextB s fun b =>
    b.runDone 0x0702 c (b.dspPre c true [thWaiting, thReady, thRunning, thPreempted, thSuspended] ++ [b.dspCont c])
      fun b => b.disableThread (cObj c - 0xB00000)

/-- R239. -/
def execDspSuspend (c : Cmd) (s : State) : Host.Outcome State Fault Refusal :=
  nextB s fun b =>
    b.runDone 0x0703 c (b.dspPre c false [thWaiting, thReady, thRunning, thPreempted]) fun b => b.suspendThread (cObj c - 0xB00000) 1

/-- R239. -/
def execDspResume (c : Cmd) (s : State) : Host.Outcome State Fault Refusal :=
  nextB s fun b =>
    b.runDone 0x0704 c (b.dspPre c false [thSuspended] ++ [b.dspCont c]) fun b => b.resumeThread (cObj c - 0xB00000)

/-- R239, R226: a kick takes one from a WAITING thread's counter and is abandoned otherwise. -/
def execDspKick (c : Cmd) (s : State) : Host.Outcome State Fault Refusal :=
  nextB s fun b =>
    let t := cObj c - 0xB00000
    b.run 0x0705 c (b.dspPre c false [thDormant, thWaiting, thReady, thRunning, thPreempted, thSuspended]) fun b =>
      if b.thState t == thWaiting then (b.decrement t, stDone, 0, []) else (b.discard t none, stAbandoned, 5, [])

end Sys2Proof.Machine
end

