-- ==== Sys2Proof/Machine/Clock.lean ====
section
/-! DEFINITION. Machine/Clock.lean: the timebase's tick (12 R291). -/

namespace Sys2Proof.Machine

/-- One 4 ns tick of the TIME domain: the timebase advances by 4 ns × (1 + (FREQ + SLEW) × 10⁻¹²), FREQ and SLEW in ppt, kept
to 2⁻³² ns (12 R291). The elapsed time counts nominal ticks and no steps or corrections (12 R292). -/
def Block.timeTick (b : Block) : Block :=
  let ppt : Int := toSigned 32 (b.rdN Reg.tbFreq) + toSigned 32 (b.rdN Reg.tbSlew)
  let inc : Int := 4 * (2 : Int) ^ 32 + (4 * ppt * (2 : Int) ^ 32) / 1000000000000
  let total : Nat := (inc + (b.frac : Int)).toNat
  -- no CP clock runs without REFCLK or before t0 (12 R291, 22 R501, 03 R50)
  if !b.started then { b with elapsed := b.elapsed + 4 } else
  { b with now := b.now + total / 2 ^ 32, frac := total % 2 ^ 32, elapsed := b.elapsed + 4 }

/-- Cycles of 1.25 ns in a tick of 4 ns, by elapsed time. -/
def Block.coreCycles (b : Block) : Nat := (b.elapsed + 4) * 4 / 5 - b.elapsed * 4 / 5

/-- Cycles in which an unheld READY thread waits are counted (21 R491). -/
def Block.readyWait (b : Block) : Block := if b.offered.isEmpty then b else b.blkCount 0x20 b.coreCycles

/-- What a tick of the TIME domain does with no command (log 1): the timebase advances, the axis generators run (16 R376), DACs
whose microsecond has ended load (07 R169), grants published for this tick come into force (06 R145), and the wait of READY threads is
counted. -/
def Block.tick (b : Block) : Block :=
  if b.started then b.timeTick.axesTick.dacsTick.ledgerTick.readyWait else b.timeTick

end Sys2Proof.Machine
end

