-- ==== Sys2Proof/Machine/FloatOps.lean ====
section
/-! DEFINITION. Machine/FloatOps.lean: the integer and binary32 operations of the engines (08 R195, R196), each a result and its
sticky flags. -/

namespace Sys2Proof.Machine

/-! ### Integers -/

/-- Flags of cw.ARITH (08 R193). -/
def afDivZero : Nat := 1
def afDivOvf : Nat := 2

/-- Signed quotient and remainder (08 R196). -/
def divSigned (x y : Word) : Word × Word × Nat :=
  if y = 0#32 then ((if 0 ≤ x.toInt then 0x7FFFFFFF#32 else 0x80000000#32), 0#32, afDivZero)
  else if x = 0x80000000#32 ∧ y = 0xFFFFFFFF#32 then (0x7FFFFFFF#32, 0#32, afDivOvf)
  else
    let t := Int.tdiv x.toInt y.toInt
    let q := if t * y.toInt ≠ x.toInt ∧ (decide (x.toInt < 0) != decide (y.toInt < 0)) ∧ Config.divDown x y then t - 1 else t
    (BitVec.ofInt 32 q, BitVec.ofInt 32 (x.toInt - q * y.toInt), 0)

/-- Unsigned quotient and remainder (08 R196). -/
def divUnsigned (x y : Word) : Word × Word × Nat :=
  if y = 0#32 then (0xFFFFFFFF#32, 0#32, afDivZero) else (x / y, x % y, 0)

/-- Shifts by bits 4:0 of the count (08 R195). -/
def shlW (x y : Word) : Word := x <<< (y.toNat % 32)
def shrU (x y : Word) : Word := x >>> (y.toNat % 32)
def shrS (x y : Word) : Word := x.sshiftRight (y.toNat % 32)

/-- The high word of the signed and the unsigned 64-bit product (08 R195). -/
def mulHigh (x y : Word) : Word := BitVec.ofInt 32 (Int.fdiv (x.toInt * y.toInt) (2 ^ 32))
def mulHighU (x y : Word) : Word := BitVec.ofNat 32 (x.toNat * y.toNat / 2 ^ 32)

/-! ### binary32 -/

/-- Round an exact nonzero result; whether a result that rounds up to the least normal number counts as tiny is open (log 30). -/
def fpRound (v : Rat) (negZero : Bool) : Word × FFlags :=
  let r := roundF32 v negZero
  let m : Rat := if v < 0 then -v else v
  if r.2.nx && !r.2.uf && decide (m < pow2 (-126)) then (r.1, { r.2 with uf := Config.ieee 0 r.1 0#32 0#32 }) else r

/-- The result of an invalid operation (08 R196). -/
def fpInvalid : Word × FFlags := (qnan, { nv := true })

/-- A NaN operand: a signalling one makes the operation invalid, a quiet one leaves the result open (log 5). -/
def fpNan (op : Nat) (x y z : Word) : Word × FFlags :=
  let sig (w : Word) : Bool := match F32.decode w with | .nan q => !q | _ => false
  if sig x || sig y || sig z then fpInvalid else (Config.nanResult op x y z, {})

def fpInf (neg : Bool) : Word × FFlags := (packF32 neg 0x7F800000, {})

/-- The other sign. -/
def fpFlip (x : Word) : Word := x ^^^ 0x80000000#32

/-- The sign bit. -/
def fpSign (x : Word) : Bool := x.toNat.testBit 31

/-- FADD; FSUB adds the negated operand (08 R195). -/
def fpAdd (op : Nat) (x y : Word) : Word × FFlags :=
  match F32.decode x, F32.decode y with
  | .nan _, _ => fpNan op x y 0#32
  | _, .nan _ => fpNan op x y 0#32
  | .inf a, .inf c => if a = c then fpInf a else fpInvalid
  | .inf a, .fin _ _ => fpInf a
  | .fin _ _, .inf c => fpInf c
  | .fin a v, .fin c w => fpRound (v + w) (a && c)

/-- FMUL. -/
def fpMul (x y : Word) : Word × FFlags :=
  let s := fpSign x != fpSign y
  match F32.decode x, F32.decode y with
  | .nan _, _ => fpNan 2 x y 0#32
  | _, .nan _ => fpNan 2 x y 0#32
  | .inf _, .inf _ => fpInf s
  | .inf _, .fin _ w => if w = 0 then fpInvalid else fpInf s
  | .fin _ v, .inf _ => if v = 0 then fpInvalid else fpInf s
  | .fin _ v, .fin _ w => fpRound (v * w) s

/-- FDIV. -/
def fpDiv (x y : Word) : Word × FFlags :=
  let s := fpSign x != fpSign y
  match F32.decode x, F32.decode y with
  | .nan _, _ => fpNan 3 x y 0#32
  | _, .nan _ => fpNan 3 x y 0#32
  | .inf _, .inf _ => fpInvalid
  | .inf _, .fin _ _ => fpInf s
  | .fin _ _, .inf _ => (packF32 s 0, {})
  | .fin _ v, .fin _ w =>
    if w = 0 then (if v = 0 then fpInvalid else (packF32 s 0x7F800000, { dz := true })) else fpRound (v / w) s

/-- The square root of a positive rational to 110 binary places, made odd in the next place when it is not exact, so that it rounds as the
exact root does. -/
def sqrtNear (v : Rat) : Rat :=
  let n := v.num.natAbs * 4 ^ 110
  let s := Nat.sqrt (n / v.den)
  mkRat (2 * s + (if s * s * v.den = n then 0 else 1)) (2 ^ 111)

/-- FSQRT. -/
def fpSqrt (x : Word) : Word × FFlags :=
  match F32.decode x with
  | .nan _ => fpNan 4 x 0#32 0#32
  | .inf a => if a then fpInvalid else fpInf false
  | .fin a v => if v = 0 then (packF32 a 0, {}) else if v < 0 then fpInvalid else fpRound (sqrtNear v) false

/-- FMAC: z + x × y, rounded once (08 R195). With an infinity times 0 and a quiet NaN added, the invalid flag is open (log 30). -/
def fpMac (z x y : Word) : Word × FFlags :=
  let s := fpSign x != fpSign y
  let bad : Bool := match F32.decode x, F32.decode y with
    | .inf _, .fin _ w => w = 0
    | .fin _ v, .inf _ => v = 0
    | _, _ => false
  let prodInf : Bool := match F32.decode x, F32.decode y with | .inf _, _ => true | _, .inf _ => true | _, _ => false
  if isNaN32 x || isNaN32 y then fpNan 7 z x y
  else
    match F32.decode z with
    | .nan q => if bad && q then (Config.nanResult 7 z x y, { nv := Config.ieee 1 z x y }) else fpNan 7 z x y
    | .inf c => if bad then fpInvalid else if prodInf && s != c then fpInvalid else fpInf c
    | .fin c w => if bad then fpInvalid else if prodInf then fpInf s else fpRound (w + f32Rat x * f32Rat y) (c && s)

/-- FMIN, FMAX: a NaN operand yields the other operand (08 R195); which zero of two with different signs is open (log 30). -/
def fpMinMax (max : Bool) (x y : Word) : Word :=
  if isNaN32 x then y else if isNaN32 y then x
  else if f32Lt x y then (if max then y else x)
  else if f32Lt y x then (if max then x else y)
  else if x = y then x else if Config.ieee (if max then 3 else 2) x y 0#32 then x else y

/-- Comparisons: false with a NaN (08 R195); whether a quiet NaN sets NV there is open (log 30). -/
def fpCmp (op : Nat) (f : Word → Word → Bool) (x y : Word) : Word × FFlags :=
  if isNaN32 x || isNaN32 y then (0#32, { nv := (fpNan 0 x y 0#32).2.nv || Config.ieee op x y 0#32 })
  else (BitVec.ofNat 32 (b2n (f x y)), {})

/-- ITOF. -/
def fpOfInt (x : Word) : Word × FFlags := fpRound (x.toInt : Rat) false

/-- FTOI: to nearest even, saturating; NaN gives 0 and NV (08 R195). Whether NX is set for a fraction and NV for a value outside the range is
open (log 30). -/
def fpToInt (x : Word) : Word × FFlags :=
  match F32.decode x with
  | .nan _ => (0#32, { nv := true })
  | .inf a => ((if a then 0x80000000#32 else 0x7FFFFFFF#32), { nv := Config.ieee 10 x 0#32 0#32 })
  | .fin _ v =>
    let i := rneInt v
    if i < -2147483648 then (0x80000000#32, { nv := Config.ieee 10 x 0#32 0#32 })
    else if 2147483647 < i then (0x7FFFFFFF#32, { nv := Config.ieee 10 x 0#32 0#32 })
    else (BitVec.ofInt 32 i, { nx := decide ((i : Rat) ≠ v) && Config.ieee 11 x 0#32 0#32 })

end Sys2Proof.Machine
end

