-- ==== Sys2Proof/Machine/EngAlu.lean ====
section
/-! DEFINITION. Machine/EngAlu.lean: the issue of one engine instruction (08 R188–R194, R209–R214), and the integer, binary32, branch and
control instructions of 08 R195, R196. -/

namespace Sys2Proof.Machine

/-- What an instruction that completes leaves: the block, its registers and activation, cycles (R214), the next instruction where it is not the
following one, what it counts as (21 R490), the address it accessed, and whether it ends the activation by ABORT. -/
structure EngStep where
  b : Block
  c : EngCtx
  a : ActSt
  cyc : Nat := 1
  npc : Option Nat := none
  evs : List Nat := []
  addr : Nat := 0
  quit : Bool := false

/-- An instruction completes, or traps with a cause and its ARG (R209). -/
inductive EngRes where
  | ok (r : EngStep)
  | trap (cause arg : Nat)

/-- The meaning of an instruction on an engine with its registers and activation. -/
abbrev EngOp := Block → Nat → EngCtx → ActSt → EngRes

/-- The activation that may issue an instruction on an engine: one that has not issued DONE and has budget left, on an engine that runs. -/
def Block.issuer (b : Block) (e : Nat) : Option ActSt :=
  let x := b.eng e
  match x.act with
  | some a =>
    if !a.committing && decide (0 < a.budget) && !x.inReset && x.silentTo.isNone && b.refclk &&
      (b.egState e == egRunning || b.egState e == egFenced) then some a else none
  | none => none

/-- One instruction of an engine: its cycles are charged (R212), its retirement counted (21 R490), or it traps (R209, R210). Nothing happens
where the engine runs no activation. -/
def Block.issue (b : Block) (e : Nat) (op : EngOp) : Block :=
  match b.issuer e with
  | none => b
  | some a =>
    let c := (b.eng e).ctx
    if c.pc % 4 ≠ 0 then b.trapOn e tcMisaligned c.pc
    else if 0x10000 ≤ c.pc then b.trapOn e tcAccess c.pc
    else
      match op b e c a with
      | .trap cause arg => b.trapOn e cause arg
      | .ok r =>
        let next := (r.npc.getD (c.pc + 4)) % 2 ^ 32
        let b := r.b.putEng e { r.b.eng e with ctx := { r.c with pc := next }, act := some r.a }
        let b := if b.known e then b.prfRetire e r.cyc (0x01 :: r.evs) (prfOf c a r.cyc r.addr) else b
        let b := (b.charge e r.cyc).setEg e (b.egState e)
        if r.quit then b.abortAct e 4 else b

/-! ### Instruction words (R194) -/

def wordA (op : Nat) (f : FormA) : Nat :=
  op * 2 ^ 26 + f.d.val * 2 ^ 21 + f.a.val * 2 ^ 16 + f.b.val * 2 ^ 11 + f.fn.toNat
def wordI (op : Nat) (f : FormI) : Nat := op * 2 ^ 26 + f.d.val * 2 ^ 21 + f.a.val * 2 ^ 16 + f.imm.toNat
def wordJ (op : Nat) (f : FormJ) : Nat := op * 2 ^ 26 + f.imm.toNat

/-- A 16-bit immediate sign-extended and zero-extended (R195). -/
def sxImm (i : Half) : Word := i.signExtend 32
def zxImm (i : Half) : Word := i.zeroExtend 32

/-- Raise ILLEGAL for a word unless it is legal. -/
def legal (ok : Bool) (w : Nat) (r : EngRes) : EngRes := if ok then r else .trap tcIllegal w

/-! ### Integer and binary32 operations -/

/-- A register operation of format A: its result and sticky integer flags. An fn other than the instruction's own is one that no
instruction has (R197). -/
def aluA (op fn cyc : Nat) (f : FormA) (g : Word → Word → Word × Nat) : EngOp := fun b _ c a =>
  let r := g (c.get f.a.val) (c.get f.b.val)
  legal (f.fn.toNat == fn) (wordA op f) (.ok { b := b, c := { c.set f.d.val r.1 with arith := c.arith ||| r.2 }, a := a, cyc := cyc })

/-- A shift by the b field. -/
def shiftK (fn : Nat) (f : FormA) (g : Word → Word → Word) : EngOp := fun b _ c a =>
  legal (f.fn.toNat == fn) (wordA 0 f)
    (.ok { b := b, c := c.set f.d.val (g (c.get f.a.val) (BitVec.ofNat 32 f.b.val)), a := a })

/-- A register operation of format I. -/
def aluI (f : FormI) (g : Word → Word) : EngOp := fun b _ c a =>
  .ok { b := b, c := c.set f.d.val (g (c.get f.a.val)), a := a }

/-- A binary32 operation: its result and sticky flags; `one` marks those whose b field is reserved. -/
def fpA (fn cyc : Nat) (one : Bool) (f : FormA) (g : Word → Word → Word → Word × FFlags) : EngOp := fun b _ c a =>
  let r := g (c.get f.d.val) (c.get f.a.val) (c.get f.b.val)
  legal (f.fn.toNat == fn && (!one || f.b.val == 0)) (wordA 8 f)
    (.ok { b := b, c := { c.set f.d.val r.1 with fflags := c.fflags ||| r.2.toNat }, a := a, cyc := cyc, evs := [0x0F] })

/-- A conditional branch (R195): 1 cycle, 2 when taken (R214). -/
def branch (f : FormB) (p : Word → Word → Bool) : EngOp := fun b _ c a =>
  if p (c.get f.a.val) (c.get f.b.val) then
    .ok { b := b, c := c, a := a, cyc := 2, npc := some (c.pc + 4 + 4 * (sxImm f.imm).toNat), evs := [0x0E] }
  else .ok { b := b, c := c, a := a }

/-- `one` as a word, for comparisons. -/
def flagW (p : Bool) : Word := if p then 1#32 else 0#32

/-! ### The integer instructions -/

def execInsAdd (e : Fin 40) (f : FormA) (s : State) : Host.Outcome State Fault Refusal :=
  nextB s fun b => b.issue e.val (aluA 0 0x000 1 f fun x y => (x + y, 0))
def execInsSub (e : Fin 40) (f : FormA) (s : State) : Host.Outcome State Fault Refusal :=
  nextB s fun b => b.issue e.val (aluA 0 0x001 1 f fun x y => (x - y, 0))
def execInsAnd (e : Fin 40) (f : FormA) (s : State) : Host.Outcome State Fault Refusal :=
  nextB s fun b => b.issue e.val (aluA 0 0x002 1 f fun x y => (x &&& y, 0))
def execInsOr (e : Fin 40) (f : FormA) (s : State) : Host.Outcome State Fault Refusal :=
  nextB s fun b => b.issue e.val (aluA 0 0x003 1 f fun x y => (x ||| y, 0))
def execInsXor (e : Fin 40) (f : FormA) (s : State) : Host.Outcome State Fault Refusal :=
  nextB s fun b => b.issue e.val (aluA 0 0x004 1 f fun x y => (x ^^^ y, 0))
def execInsShl (e : Fin 40) (f : FormA) (s : State) : Host.Outcome State Fault Refusal :=
  nextB s fun b => b.issue e.val (aluA 0 0x005 1 f fun x y => (shlW x y, 0))
def execInsShru (e : Fin 40) (f : FormA) (s : State) : Host.Outcome State Fault Refusal :=
  nextB s fun b => b.issue e.val (aluA 0 0x006 1 f fun x y => (shrU x y, 0))
def execInsShrs (e : Fin 40) (f : FormA) (s : State) : Host.Outcome State Fault Refusal :=
  nextB s fun b => b.issue e.val (aluA 0 0x007 1 f fun x y => (shrS x y, 0))
def execInsCmplt (e : Fin 40) (f : FormA) (s : State) : Host.Outcome State Fault Refusal :=
  nextB s fun b => b.issue e.val (aluA 0 0x008 1 f fun x y => (flagW (x.slt y), 0))
def execInsCmpltu (e : Fin 40) (f : FormA) (s : State) : Host.Outcome State Fault Refusal :=
  nextB s fun b => b.issue e.val (aluA 0 0x009 1 f fun x y => (flagW (x.ult y), 0))
def execInsMin (e : Fin 40) (f : FormA) (s : State) : Host.Outcome State Fault Refusal :=
  nextB s fun b => b.issue e.val (aluA 0 0x00A 1 f fun x y => (if x.slt y then x else y, 0))
def execInsMax (e : Fin 40) (f : FormA) (s : State) : Host.Outcome State Fault Refusal :=
  nextB s fun b => b.issue e.val (aluA 0 0x00B 1 f fun x y => (if x.slt y then y else x, 0))
def execInsMul (e : Fin 40) (f : FormA) (s : State) : Host.Outcome State Fault Refusal :=
  nextB s fun b => b.issue e.val (aluA 0 0x010 3 f fun x y => (x * y, 0))
def execInsMulhi (e : Fin 40) (f : FormA) (s : State) : Host.Outcome State Fault Refusal :=
  nextB s fun b => b.issue e.val (aluA 0 0x011 3 f fun x y => (mulHigh x y, 0))
def execInsMulhiu (e : Fin 40) (f : FormA) (s : State) : Host.Outcome State Fault Refusal :=
  nextB s fun b => b.issue e.val (aluA 0 0x012 3 f fun x y => (mulHighU x y, 0))
def execInsDivs (e : Fin 40) (f : FormA) (s : State) : Host.Outcome State Fault Refusal :=
  nextB s fun b => b.issue e.val (aluA 0 0x018 34 f fun x y => let r := divSigned x y; (r.1, r.2.2))
def execInsDivu (e : Fin 40) (f : FormA) (s : State) : Host.Outcome State Fault Refusal :=
  nextB s fun b => b.issue e.val (aluA 0 0x019 34 f fun x y => let r := divUnsigned x y; (r.1, r.2.2))
def execInsMods (e : Fin 40) (f : FormA) (s : State) : Host.Outcome State Fault Refusal :=
  nextB s fun b => b.issue e.val (aluA 0 0x01A 34 f fun x y => let r := divSigned x y; (r.2.1, r.2.2))
def execInsModu (e : Fin 40) (f : FormA) (s : State) : Host.Outcome State Fault Refusal :=
  nextB s fun b => b.issue e.val (aluA 0 0x01B 34 f fun x y => let r := divUnsigned x y; (r.2.1, r.2.2))
def execInsShlk (e : Fin 40) (f : FormA) (s : State) : Host.Outcome State Fault Refusal :=
  nextB s fun b => b.issue e.val (shiftK 0x020 f shlW)
def execInsShruk (e : Fin 40) (f : FormA) (s : State) : Host.Outcome State Fault Refusal :=
  nextB s fun b => b.issue e.val (shiftK 0x021 f shrU)
def execInsShrsk (e : Fin 40) (f : FormA) (s : State) : Host.Outcome State Fault Refusal :=
  nextB s fun b => b.issue e.val (shiftK 0x022 f shrS)
def execInsAddk (e : Fin 40) (f : FormI) (s : State) : Host.Outcome State Fault Refusal :=
  nextB s fun b => b.issue e.val (aluI f fun x => x + sxImm f.imm)
def execInsCmpltk (e : Fin 40) (f : FormI) (s : State) : Host.Outcome State Fault Refusal :=
  nextB s fun b => b.issue e.val (aluI f fun x => flagW (x.slt (sxImm f.imm)))
def execInsAndk (e : Fin 40) (f : FormI) (s : State) : Host.Outcome State Fault Refusal :=
  nextB s fun b => b.issue e.val (aluI f fun x => x &&& zxImm f.imm)
def execInsOrk (e : Fin 40) (f : FormI) (s : State) : Host.Outcome State Fault Refusal :=
  nextB s fun b => b.issue e.val (aluI f fun x => x ||| zxImm f.imm)
def execInsXork (e : Fin 40) (f : FormI) (s : State) : Host.Outcome State Fault Refusal :=
  nextB s fun b => b.issue e.val (aluI f fun x => x ^^^ zxImm f.imm)
/-- HIK; its a field is reserved. -/
def execInsHik (e : Fin 40) (f : FormI) (s : State) : Host.Outcome State Fault Refusal :=
  nextB s fun b => b.issue e.val fun b e c a =>
    legal (f.a.val == 0) (wordI 0x06 f) (aluI f (fun _ => zxImm f.imm <<< 16) b e c a)

/-! ### The binary32 instructions -/

def execInsFadd (e : Fin 40) (f : FormA) (s : State) : Host.Outcome State Fault Refusal :=
  nextB s fun b => b.issue e.val (fpA 0x000 4 false f fun _ x y => fpAdd 0 x y)
def execInsFsub (e : Fin 40) (f : FormA) (s : State) : Host.Outcome State Fault Refusal :=
  nextB s fun b => b.issue e.val (fpA 0x001 4 false f fun _ x y => fpAdd 1 x (fpFlip y))
def execInsFmul (e : Fin 40) (f : FormA) (s : State) : Host.Outcome State Fault Refusal :=
  nextB s fun b => b.issue e.val (fpA 0x002 4 false f fun _ x y => fpMul x y)
def execInsFdiv (e : Fin 40) (f : FormA) (s : State) : Host.Outcome State Fault Refusal :=
  nextB s fun b => b.issue e.val (fpA 0x003 16 false f fun _ x y => fpDiv x y)
def execInsFsqrt (e : Fin 40) (f : FormA) (s : State) : Host.Outcome State Fault Refusal :=
  nextB s fun b => b.issue e.val (fpA 0x004 18 true f fun _ x _ => fpSqrt x)
def execInsFmin (e : Fin 40) (f : FormA) (s : State) : Host.Outcome State Fault Refusal :=
  nextB s fun b => b.issue e.val (fpA 0x005 4 false f fun _ x y => (fpMinMax false x y, {}))
def execInsFmax (e : Fin 40) (f : FormA) (s : State) : Host.Outcome State Fault Refusal :=
  nextB s fun b => b.issue e.val (fpA 0x006 4 false f fun _ x y => (fpMinMax true x y, {}))
def execInsFmac (e : Fin 40) (f : FormA) (s : State) : Host.Outcome State Fault Refusal :=
  nextB s fun b => b.issue e.val (fpA 0x007 4 false f fun z x y => fpMac z x y)
def execInsFabs (e : Fin 40) (f : FormA) (s : State) : Host.Outcome State Fault Refusal :=
  nextB s fun b => b.issue e.val (fpA 0x008 4 true f fun _ x _ => (x &&& 0x7FFFFFFF#32, {}))
def execInsFneg (e : Fin 40) (f : FormA) (s : State) : Host.Outcome State Fault Refusal :=
  nextB s fun b => b.issue e.val (fpA 0x009 4 true f fun _ x _ => (fpFlip x, {}))
def execInsFcmpeq (e : Fin 40) (f : FormA) (s : State) : Host.Outcome State Fault Refusal :=
  nextB s fun b => b.issue e.val (fpA 0x00A 4 false f fun _ x y => fpCmp 4 f32Eq x y)
def execInsFcmplt (e : Fin 40) (f : FormA) (s : State) : Host.Outcome State Fault Refusal :=
  nextB s fun b => b.issue e.val (fpA 0x00B 4 false f fun _ x y => fpCmp 5 f32Lt x y)
def execInsFcmple (e : Fin 40) (f : FormA) (s : State) : Host.Outcome State Fault Refusal :=
  nextB s fun b => b.issue e.val (fpA 0x00C 4 false f fun _ x y => fpCmp 6 (fun x y => f32Lt x y || f32Eq x y) x y)
def execInsItof (e : Fin 40) (f : FormA) (s : State) : Host.Outcome State Fault Refusal :=
  nextB s fun b => b.issue e.val (fpA 0x010 4 true f fun _ x _ => fpOfInt x)
def execInsFtoi (e : Fin 40) (f : FormA) (s : State) : Host.Outcome State Fault Refusal :=
  nextB s fun b => b.issue e.val (fpA 0x011 4 true f fun _ x _ => fpToInt x)

/-! ### Branches and jumps -/

def execInsBreq (e : Fin 40) (f : FormB) (s : State) : Host.Outcome State Fault Refusal :=
  nextB s fun b => b.issue e.val (branch f fun x y => x == y)
def execInsBrne (e : Fin 40) (f : FormB) (s : State) : Host.Outcome State Fault Refusal :=
  nextB s fun b => b.issue e.val (branch f fun x y => x != y)
def execInsBrlt (e : Fin 40) (f : FormB) (s : State) : Host.Outcome State Fault Refusal :=
  nextB s fun b => b.issue e.val (branch f fun x y => x.slt y)
def execInsBrge (e : Fin 40) (f : FormB) (s : State) : Host.Outcome State Fault Refusal :=
  nextB s fun b => b.issue e.val (branch f fun x y => !x.slt y)
def execInsBrltu (e : Fin 40) (f : FormB) (s : State) : Host.Outcome State Fault Refusal :=
  nextB s fun b => b.issue e.val (branch f fun x y => x.ult y)
def execInsBrgeu (e : Fin 40) (f : FormB) (s : State) : Host.Outcome State Fault Refusal :=
  nextB s fun b => b.issue e.val (branch f fun x y => !x.ult y)
/-- CALL: v31 := pc + 4, and the jump (R192, R195). -/
def execInsCall (e : Fin 40) (f : FormJ) (s : State) : Host.Outcome State Fault Refusal :=
  nextB s fun b => b.issue e.val fun b _ c a =>
    .ok { b := b, c := c.set 31 (BitVec.ofNat 32 (c.pc + 4)), a := a, cyc := 2,
          npc := some (c.pc + 4 + 4 * (f.imm.signExtend 32).toNat), evs := [0x0E] }
/-- JMPR: the target is formed from the old v[a] (R195). -/
def execInsJmpr (e : Fin 40) (f : FormI) (s : State) : Host.Outcome State Fault Refusal :=
  nextB s fun b => b.issue e.val fun b _ c a =>
    let t := (c.get f.a.val + sxImm f.imm).toNat
    .ok { b := b, c := c.set f.d.val (BitVec.ofNat 32 (c.pc + 4)), a := a, cyc := 2, npc := some (t - t % 4), evs := [0x0E] }

/-! ### Control words (R193) -/

/-- Cairn size of the running thread, in bytes. -/
def Block.cairnSize (b : Block) (t : Nat) : Nat := u16 (b.thDesc t) 6

/-- A 64-bit control word: its low number and value. -/
def Block.cw64 (b : Block) (c : EngCtx) (a : ActSt) (n : Nat) : Option Nat :=
  if n = 0x03 then some b.now else if n = 0x07 then some a.disp else if n = 0x0A then some c.stime else none

/-- A control word of 32 bits that the present mode may read. -/
def Block.cwRead (b : Block) (e : Nat) (c : EngCtx) (a : ActSt) (n : Nat) : Option Nat :=
  match n with
  | 0x00 => some (b.eng e).epoch
  | 0x01 => some a.thread
  | 0x02 => some a.act
  | 0x05 => some a.budget
  | 0x06 => some a.start
  | 0x09 => some c.sflags
  | 0x0C => some c.oflags
  | 0x0D => some c.cflags
  | 0x0E => some c.fflags
  | 0x0F => some c.arith
  | 0x10 => some (b.th a.thread).postRes
  | 0x11 => some (a.outs.length + 256 * a.sigs.length + 65536 * a.posts.length)
  | 0x12 => some (e + 256 * b2n c.kernel)
  | 0x13 => some (b.cairnSize a.thread)
  | 0x20 => some (b2n c.handler)
  | 0x21 => some c.htable
  | _ => none

/-- Kernel control words. -/
def cwKernel (n : Nat) : Bool := n == 0x20 || n == 0x21

/-- CWR; its a field is reserved. -/
def execInsCwr (e : Fin 40) (f : FormI) (s : State) : Host.Outcome State Fault Refusal :=
  nextB s fun b => b.issue e.val fun b e c a =>
    let w := wordI 0x28 f
    let n := f.imm.toNat % 256
    let give (b : Block) (v : Nat) : EngRes := .ok { b := b, c := c.set f.d.val (BitVec.ofNat 32 v), a := a }
    if f.a.val ≠ 0 then .trap tcIllegal w
    else if cwKernel n && !c.kernel then .trap tcPrivilege w
    else
      match b.cw64 c a n with
      | some v => give { b with latch := tput b.latch (2 + e) (BitVec.ofNat 32 (v >>> 32)) } v
      | none =>
        match (if n = 0 then none else b.cw64 c a (n - 1)) with
        | some v => give b ((tget? b.latch (2 + e)).getD (BitVec.ofNat 32 (v >>> 32))).toNat
        | none =>
          match b.cwRead e c a n with
          | some v => give b v
          | none => .trap tcIllegal w

/-- CWW; its d field is reserved. -/
def execInsCww (e : Fin 40) (f : FormI) (s : State) : Host.Outcome State Fault Refusal :=
  nextB s fun b => b.issue e.val fun b _ c a =>
    let w := wordI 0x29 f
    let n := f.imm.toNat % 256
    let v := (c.get f.a.val).toNat
    if f.d.val ≠ 0 then .trap tcIllegal w
    else if cwKernel n && !c.kernel then .trap tcPrivilege w
    else if n = 0x0E then .ok { b := b, c := { c with fflags := v % 32 }, a := a }
    else if n = 0x0F then .ok { b := b, c := { c with arith := v % 4 }, a := a }
    else if n = 0x21 then .ok { b := b, c := { c with htable := v }, a := a }
    else .trap tcIllegal w

/-! ### Traps and their return -/

/-- KCALL; its d and a fields are reserved. -/
def execInsKcall (e : Fin 40) (f : FormI) (s : State) : Host.Outcome State Fault Refusal :=
  nextB s fun b => b.issue e.val fun _ _ _ _ =>
    legal (f.d.val == 0 && f.a.val == 0) (wordI 0x39 f) (.trap tcKcall f.imm.toNat)

/-- TRET (R210): v29 to v31, the mode and the pc from the trap record. -/
def execInsTret (e : Fin 40) (f : FormJ) (s : State) : Host.Outcome State Fault Refusal :=
  nextB s fun b => b.issue e.val fun b e c a =>
    let w := wordJ 0x3A f
    let r := mread (b.eng e).dram 0xDFE0 32
    if f.imm ≠ 0 then .trap tcIllegal w
    else if !c.kernel then .trap tcPrivilege w
    else if u32 r 0 % 4 ≠ 0 then .trap tcMisaligned (u32 r 0)
    else
      let c' := ((c.set 29 (w32 r 16)).set 30 (w32 r 20)).set 31 (w32 r 24)
      .ok { b := b, c := { c' with kernel := (u32 r 4).testBit 8, handler := false }, a := a, cyc := 8, npc := some (u32 r 0) }

/-- ABORT (R211). -/
def execInsAbort (e : Fin 40) (f : FormJ) (s : State) : Host.Outcome State Fault Refusal :=
  nextB s fun b => b.issue e.val fun b _ c a =>
    let w := wordJ 0x3B f
    if f.imm ≠ 0 then .trap tcIllegal w
    else if !c.kernel then .trap tcPrivilege w
    else .ok { b := b, c := c, a := a, quit := true }

/-- DONE (R204): the activation commits at `COMMIT_COMPLETE`; its budget stops counting (R212). -/
def execInsDone (e : Fin 40) (f : FormJ) (s : State) : Host.Outcome State Fault Refusal :=
  nextB s fun b => b.issue e.val fun b _ c a =>
    legal (f.imm == 0) (wordJ 0x38 f) (.ok { b := b, c := c, a := { a with committing := true } })

end Sys2Proof.Machine
end

