-- ==== Sys2Proof/Machine/EngMem.lean ====
section
/-! DEFINITION. Machine/EngMem.lean: loads, stores, atomics and the fence (08 R189, R191, R195, R206–R208). -/

namespace Sys2Proof.Machine

/-- What a load gives: its bytes, cycles and events, or a trap. -/
inductive LoadRes where
  | val (b : Block) (bs : List Byte) (cyc : Nat) (evs : List Nat)
  | trap (cause arg : Nat)

/-- Cycles of an access that R214 does not list (log 4). -/
def Block.drawCycles (b : Block) : Nat × Block := (1 + b.drawNat.1 % 1600, b.drawNat.2)

/-- May user code read this word: a counter of its own engine that `PRF.USER` grants (21 R495)? -/
def Block.userCtr (b : Block) (e o n : Nat) : Bool :=
  let base := Reg.prfEngCtr e 0
  let i := (o - base) / 0x20
  decide (base ≤ o) && decide (i < 8) && decide ((o - base) % 0x20 + n ≤ 8) && b.bit (Reg.prfUser e) i

/-- Engine e as an initiator. -/
def iniEng (e : Nat) : Ini := .engine (Fin.ofNat 40 e)

/-- Read `k` words of the BAR0 map in turn. -/
def Block.barWords (b : Block) (ini : Ini) (o : Nat) : Nat → List Byte × Block
  | 0 => ([], b)
  | k + 1 =>
    let r := b.regRead ini o
    let q := r.2.barWords ini (o + 4) k
    (leBytes 4 r.1.toNat ++ q.1, q.2)

/-- A load of the BAR0 map, by words and double words (R189; 02 R31, R36, R48; 21 R495). -/
def Block.barLoad (b : Block) (e : Nat) (c : EngCtx) (ad o n : Nat) : LoadRes :=
  if n < 4 ∨ b.readTraps o ∨ (n = 8 ∧ b.readTraps (o + 4)) then .trap tcAccess ad
  else if !c.kernel && !b.userCtr e o n then .trap tcAccess ad
  else
    let r := b.barWords (iniEng e) o (n / 4)
    let d := r.2.drawCycles
    .val d.2 r.1 d.1 []

/-- A load of `n` bytes at an engine address (R189, R196, R214). -/
def Block.engLoad (b : Block) (e : Nat) (c : EngCtx) (a : ActSt) (ad n : Nat) : LoadRes :=
  let no := LoadRes.trap tcAccess ad
  if ad % n ≠ 0 then .trap tcMisaligned ad
  else
    match zoneOf ad with
    | .iram o => if c.kernel then .val b (padTo n (slice (b.eng e).iram o n)) 2 [] else no
    | .dram o =>
      if o < 0xDFE0 then .val b (mread (b.eng e).dram o n) 2 []
      else if !c.kernel then no
      else if o < 0xE000 then .val b (mread (b.eng e).dram o n) 2 []
      else let r := b.drawBytes n; .val r.2 r.1 2 []
    | .sram o => let r := b.sramRead e o n; .val r.2 r.1 20 [0x04]
    | .cairn o =>
      if b.cairnSize a.thread < o + n then no
      else .val b (if (b.th a.thread).cairned then mread b.cairn (u32 (b.thDesc a.thread) 16 + o) n else zeroBytes n) 12 [0x08]
    | .bar o => b.barLoad e c ad o n
    | .none => no

/-- The address of a load or store. -/
def effAddr (c : EngCtx) (f : FormI) : Nat := (c.get f.a.val + sxImm f.imm).toNat

/-- A load into v[d], its bytes extended by `g` (R195). -/
def loadI (f : FormI) (n : Nat) (g : Nat → Word) : EngOp := fun b e c a =>
  match b.engLoad e c a (effAddr c f) n with
  | .trap k v => .trap k v
  | .val b bs cyc evs => .ok { b := b, c := c.set f.d.val (g (leNat bs)), a := a, cyc := cyc, evs := evs, addr := effAddr c f }

/-- A store completes, or traps. -/
inductive StoreRes where
  | done (b : Block) (cyc : Nat)
  | trap (cause arg : Nat)

/-- Does an engine's write of every word of the access trap (02 R28, R31)? -/
def Block.barStoreTraps (b : Block) (ini : Ini) (o n : Nat) : Bool :=
  decide (n < 4) || b.writeTraps ini o || (n == 8 && b.writeTraps ini (o + 4))

/-- A store to the BAR0 map (R189, R191; 02 R28, R31, R37): a double word commits its high word first. -/
def Block.barStore (b : Block) (e : Nat) (c : EngCtx) (ad o : Nat) (bs : List Byte) : StoreRes :=
  let ini := iniEng e
  let lo := w32 bs 0
  if !c.kernel || b.barStoreTraps ini o bs.length then .trap tcAccess ad
  else if b.stale e then .done (b.fencedWrites e 1) 1
  else
    let d := b.drawCycles
    let b := d.2
    if bs.length = 8 then
      (if wideHalf o == some false then .done ((b.regWrite ini (o + 4) (w32 bs 4)).regWrite ini o lo) d.1
       else .done ((b.regWrite ini o lo).regWrite ini (o + 4) (w32 bs 4)) d.1)
    else .done (b.regWrite ini o lo) d.1

/-- A store of bytes at an engine address (R189, R191, R196, R214). -/
def Block.engStore (b : Block) (e : Nat) (c : EngCtx) (ad : Nat) (bs : List Byte) : StoreRes :=
  let no := StoreRes.trap tcAccess ad
  if ad % bs.length ≠ 0 then .trap tcMisaligned ad
  else
    match zoneOf ad with
    | .dram o =>
      if o < 0xDFE0 ∨ (c.kernel ∧ o < 0xE000) then .done (b.putEng e { b.eng e with dram := mwrite (b.eng e).dram o bs }) 2 else no
    | .sram o => if o < b.sramSplit then no else .done (b.sramStore e o bs) 1
    | .bar o => b.barStore e c ad o bs
    | .iram _ => no
    | .cairn _ => no
    | .none => no

/-- A store of the low `n` bytes of v[d] (R195). -/
def storeI (f : FormI) (n : Nat) : EngOp := fun b e c a =>
  match b.engStore e c (effAddr c f) (leBytes n (c.get f.d.val).toNat) with
  | .trap k v => .trap k v
  | .done b cyc => .ok { b := b, c := c, a := a, cyc := cyc, addr := effAddr c f }

/-- Sign extension of an `n`-bit number to a word. -/
def sxN (n : Nat) (v : Nat) : Word := BitVec.ofInt 32 (toSigned n v)

def execInsLdw (e : Fin 40) (f : FormI) (s : State) : Host.Outcome State Fault Refusal :=
  nextB s fun b => b.issue e.val (loadI f 4 (BitVec.ofNat 32))
def execInsLdh (e : Fin 40) (f : FormI) (s : State) : Host.Outcome State Fault Refusal :=
  nextB s fun b => b.issue e.val (loadI f 2 (sxN 16))
def execInsLdhu (e : Fin 40) (f : FormI) (s : State) : Host.Outcome State Fault Refusal :=
  nextB s fun b => b.issue e.val (loadI f 2 (BitVec.ofNat 32))
def execInsLdb (e : Fin 40) (f : FormI) (s : State) : Host.Outcome State Fault Refusal :=
  nextB s fun b => b.issue e.val (loadI f 1 (sxN 8))
def execInsLdbu (e : Fin 40) (f : FormI) (s : State) : Host.Outcome State Fault Refusal :=
  nextB s fun b => b.issue e.val (loadI f 1 (BitVec.ofNat 32))
/-- LDP; d must be even (R192). -/
def execInsLdp (e : Fin 40) (f : FormI) (s : State) : Host.Outcome State Fault Refusal :=
  nextB s fun b => b.issue e.val fun b e c a =>
    if f.d.val % 2 ≠ 0 then .trap tcIllegal (wordI 0x15 f)
    else
      match b.engLoad e c a (effAddr c f) 8 with
      | .trap k v => .trap k v
      | .val b bs cyc evs =>
        .ok { b := b, c := (c.set f.d.val (w32 bs 0)).set (f.d.val + 1) (w32 bs 4), a := a, cyc := cyc, evs := evs, addr := effAddr c f }
def execInsStw (e : Fin 40) (f : FormI) (s : State) : Host.Outcome State Fault Refusal :=
  nextB s fun b => b.issue e.val (storeI f 4)
def execInsSth (e : Fin 40) (f : FormI) (s : State) : Host.Outcome State Fault Refusal :=
  nextB s fun b => b.issue e.val (storeI f 2)
def execInsStb (e : Fin 40) (f : FormI) (s : State) : Host.Outcome State Fault Refusal :=
  nextB s fun b => b.issue e.val (storeI f 1)
/-- STP; d must be even (R192). -/
def execInsStp (e : Fin 40) (f : FormI) (s : State) : Host.Outcome State Fault Refusal :=
  nextB s fun b => b.issue e.val fun b e c a =>
    if f.d.val % 2 ≠ 0 then .trap tcIllegal (wordI 0x1B f)
    else
      let bs := leBytes 4 (c.get f.d.val).toNat ++ leBytes 4 (c.get (f.d.val + 1)).toNat
      match b.engStore e c (effAddr c f) bs with
      | .trap k v => .trap k v
      | .done b cyc => .ok { b := b, c := c, a := a, cyc := cyc, addr := effAddr c f }

/-! ### Atomics and the fence -/

/-- An atomic (R207, R208): fenced before and after, on a word of the work region; `g` gives the word to write from the old one, v[d] and
v[b], or none. A stale one writes nothing (R191). -/
def atomic (fn : Nat) (f : FormA) (g : Word → Word → Word → Option Word) : EngOp := fun b e c a =>
  let ad := (c.get f.a.val).toNat
  if f.fn.toNat ≠ fn then .trap tcIllegal (wordA 0x1C f)
  else
    match zoneOf ad with
    | .sram o =>
      if ad % 4 ≠ 0 ∨ o < b.sramSplit then .trap tcAccess ad
      else
        let b := (b.drainAll e).drainOthers e
        let t := w32 (mread b.sram o 4) 0
        let b := match g t (c.get f.d.val) (c.get f.b.val) with
          | some w => if b.stale e then b.fencedWrites e 1 else b.sramPut o (leBytes 4 w.toNat)
          | none => b
        .ok { b := b, c := c.set f.d.val t, a := a, cyc := 40, evs := [0x07], addr := ad }
    | _ => .trap tcAccess ad

def execInsAmoAdd (e : Fin 40) (f : FormA) (s : State) : Host.Outcome State Fault Refusal :=
  nextB s fun b => b.issue e.val (atomic 0x000 f fun t _ x => some (t + x))
def execInsAmoSwp (e : Fin 40) (f : FormA) (s : State) : Host.Outcome State Fault Refusal :=
  nextB s fun b => b.issue e.val (atomic 0x001 f fun _ _ x => some x)
def execInsAmoCas (e : Fin 40) (f : FormA) (s : State) : Host.Outcome State Fault Refusal :=
  nextB s fun b => b.issue e.val (atomic 0x002 f fun t d x => if t = d then some x else none)
/-- FENCE (R207); d, a and b are reserved. -/
def execInsFence (e : Fin 40) (f : FormA) (s : State) : Host.Outcome State Fault Refusal :=
  nextB s fun b => b.issue e.val fun b e c a =>
    let d := b.drawCycles
    legal (f.fn == 0 && f.d.val == 0 && f.a.val == 0 && f.b.val == 0) (wordA 0x1D f)
      (.ok { b := d.2.drainAll e, c := c, a := a, cyc := d.1 })

end Sys2Proof.Machine
end

