-- ==== Sys2Proof/Machine/EngCp.lean ====
section
/-! DEFINITION. Machine/EngCp.lean: the continuity-partition instructions (08 R197–R203). -/

namespace Sys2Proof.Machine

/-- The SID in a register: bits 23:0 (R197). -/
def regSid (w : Word) : Nat := w.toNat % 0x1000000

/-! ### SIG.LD (R198) -/

def isPrfSid (sid : Nat) : Bool := (decide (0xE00000 ≤ sid) && decide (sid < 0xE00140)) || (decide (0xE01000 ≤ sid) && decide (sid < 0xE01020))

/-- The register that a performance-counter SID names (21 R489). -/
def prfSidReg (sid : Nat) : Nat :=
  if sid < 0xE01000 then Reg.prfEngCtr ((sid - 0xE00000) / 8) (sid % 8) else Reg.prfBlkCtr (sid - 0xE01000)

/-- Is there a signal of this SID: a catalogue entry, an output stage (07) or a performance counter (21 R489)? -/
def Block.isSignal (b : Block) (sid : Nat) : Bool := (b.sigEntry sid).isSome || isStageSid sid || isPrfSid sid

/-- The TYPE in which SIG.LD returns a signal. -/
def Block.ldType (b : Block) (sid : Nat) : Nat := if isPrfSid sid then 6 else b.sigType sid

/-- A signal's value with its time and flags, all of one moment. -/
def Block.ldVal (b : Block) (sid : Nat) : DWord × Nat × Nat :=
  let sealed := match b.sigEntry sid with | some e => b2n ((u8 e 7).testBit 1) | none => 0
  let abs := b2n (b.absent sid)
  if isPrfSid sid then (BitVec.ofNat 64 (b.rd64 (prfSidReg sid)), b.now, 0)
  else if isStageSid sid then
    let n := sid - 0x500000
    let st := b.sgState n
    ((b.rd (Reg.outStageValue n)).zeroExtend 64, b.now,
      abs + 2 ^ 7 * sealed + 2 ^ 8 * b2n ((b.sg n).ceilOn || (b.sg n).rangeOn) + 2 ^ 9 * b2n (st == osCoasting) +
        2 ^ 10 * b2n (st == osStale) + 2 ^ 11 * b2n (st == osForced))
  else
    match tget? b.sigs sid with
    | some v => (v.value, v.time, abs + 2 * (v.flags % 16) + 2 ^ 5 * (v.flags / 256 % 4) + 2 ^ 7 * sealed)
    | none => (0, 0, abs + 2 ^ 7 * sealed + 2 ^ 12)

/-- The words that a load returns: the value, or word WORD of a byte string and the word after it. -/
def Block.ldWords (b : Block) (sid word : Nat) (v : DWord) : Word × Word :=
  if b.ldType sid = 7 then
    let len := match b.sigEntry sid with | some e => u8 e 10 | none => 0
    let bs := padTo 68 ((leBytes 8 v.toNat).take len)
    (w32 bs (4 * word), w32 bs (4 * word + 4))
  else (v.truncate 32, BitVec.ofNat 32 (v.toNat >>> 32))

def execInsSigLd (e : Fin 40) (f : FormI) (s : State) : Host.Outcome State Fault Refusal :=
  nextB s fun b => b.issue e.val fun b _ c a =>
    let sid := regSid (c.get f.a.val)
    let pair := f.imm.toNat.testBit 4
    if pair && f.d.val % 2 == 1 then .trap tcIllegal (wordI 0x30 f)
    else if !b.isSignal sid || (b.ldType sid == 6 && !pair) then .trap tcSigRef sid
    else
      let v := b.ldVal sid
      let w := b.ldWords sid (f.imm.toNat % 16) v.1
      let c1 := { c.set f.d.val w.1 with sflags := v.2.2, stime := v.2.1 }
      .ok { b := b, c := if pair then c1.set (f.d.val + 1) w.2 else c1, a := a, cyc := 12, evs := [0x08] }

/-! ### SIG.ST (R201, R203) -/

def execInsSigSt (e : Fin 40) (f : FormI) (s : State) : Host.Outcome State Fault Refusal :=
  nextB s fun b => b.issue e.val fun b _ c a =>
    let w := wordI 0x31 f
    let sid := regSid (c.get f.a.val)
    let pair := f.imm.toNat.testBit 4
    let ok := match b.sigEntry sid with | some x => (u8 x 7).testBit 2 | none => false
    let lo := (c.get f.d.val).toNat
    let hi := (c.get (f.d.val + 1)).toNat
    let ty := b.sigType sid
    let v : DWord := if pair then BitVec.ofNat 64 (lo + 2 ^ 32 * hi)
      else if ty = 1 ∨ ty = 2 ∨ ty = 3 ∨ ty = 6 then (c.get f.d.val).signExtend 64 else BitVec.ofNat 64 lo
    if pair && f.d.val % 2 == 1 then .trap tcIllegal w
    else if !ok then .trap tcSigWrite sid
    else if 64 ≤ a.sigs.length then .trap tcStageFull w
    else .ok { b := b, c := c, a := { a with sigs := a.sigs ++ [(sid, v)] }, cyc := 2 }

/-! ### OBJ.LD (R199) -/

/-- The words of the object's register that a snapshot shows: NEW, LOST, DISABLED and the length. -/
def Block.objFlags (b : Block) (k : Nat) : Nat :=
  let r := Reg.canRxoSnap k
  b.fld r 0 1 + 2 * b.fld r 1 1 + 4 * b.fld r 2 1 + 256 * (b.fld r 8 12 % 256)

def execInsObjLd (e : Fin 40) (f : FormI) (s : State) : Host.Outcome State Fault Refusal :=
  nextB s fun b => b.issue e.val fun b _ c a =>
    let sid := regSid (c.get f.a.val)
    let word := f.imm.toNat % 16
    if !(decide (0x820000 ≤ sid) && decide (sid < 0x821000)) then .trap tcObjRef sid
    else if f.imm.toNat.testBit 15 then
      let k := sid - 0x820000
      let snap := padTo 64 (b.rxo k).data
      .ok { b := b.consumeRxo k,
            c := { c.set f.d.val (w32 snap (4 * word)) with snap := snap, oflags := b.objFlags k }, a := a, cyc := 16 }
    else .ok { b := b, c := c.set f.d.val (w32 (padTo 64 c.snap) (4 * word)), a := a, cyc := 2 }

/-! ### OUT.SET (R200), and pointers (R172, R202) -/

/-- Bytes that a pointer names, copied now: 8-aligned and wholly in D-RAM or in shared SRAM; whether they lie in SRAM. -/
def Block.copyFrom (b : Block) (e : Nat) (c : EngCtx) (p n : Nat) : Option (List Byte × Block × Bool) :=
  if p % 8 ≠ 0 then none
  else
    match zoneOf p with
    | .dram o =>
      let top := if c.kernel then 0xE000 else 0xDFE0
      if o + n ≤ top then some (mread (b.eng e).dram o n, b, false)
      else if c.kernel ∧ o + n ≤ 0x10000 then some ((b.drawBytes n).1, (b.drawBytes n).2, false)
      else none
    | .sram o => if o + n ≤ 0x1000000 then let r := b.sramRead e o n; some (r.1, r.2, true) else none
    | _ => none

/-- The plan at a pointer: none where the pointer is 0. -/
def Block.copyPlan (b : Block) (e : Nat) (c : EngCtx) (p : Nat) : Option (List Byte × Block × Bool) :=
  if p = 0 then some ([], b, false)
  else
    match b.copyFrom e c p 8 with
    | none => none
    | some (h, b, sram) =>
      match b.copyFrom e c p (8 + 8 * u8 h 0) with
      | none => none
      | some (bs, b, _) => some (h ++ bs.drop 8, b, sram)

def execInsOutSet (e : Fin 40) (f : FormA) (s : State) : Host.Outcome State Fault Refusal :=
  nextB s fun b => b.issue e.val fun b e c a =>
    let w := wordA 0x33 f
    let sid := regSid (c.get f.a.val)
    let p := (c.get f.b.val).toNat
    if f.fn ≠ 0 then .trap tcIllegal w
    else if !isStageSid sid then .trap tcSigRef sid
    else
      match b.copyPlan e c p with
      | none => .trap tcPlanAddr p
      | some (bs, b, sram) =>
        if 64 ≤ a.outs.length then .trap tcStageFull w
        else
          .ok { b := b, c := c, a := { a with outs := a.outs ++ [(sid - 0x500000, c.get f.d.val, bs)] },
                cyc := 4 + (if p = 0 then 0 else u8 bs 0) + (if sram then 20 else 0), evs := [0x09] }

/-! ### CURVE, CAIRN.W, POST -/

/-- CURVE (R201, 07 R182). -/
def execInsCurve (e : Fin 40) (f : FormA) (s : State) : Host.Outcome State Fault Refusal :=
  nextB s fun b => b.issue e.val fun b _ c a =>
    let k := (c.get f.b.val).toNat
    if f.fn ≠ 0 then .trap tcIllegal (wordA 0x34 f)
    else if 1023 < k ∨ u16 (ent b.bank tCurve k) 0 = 0 then .trap tcCurveRef k
    else
      let r := (curveOf b.bank k).eval (c.get f.a.val)
      .ok { b := b, c := { c.set f.d.val r.1 with cflags := r.2 }, a := a, cyc := 40 }

/-- CAIRN.W (R201, R203). -/
def execInsCairnW (e : Fin 40) (f : FormI) (s : State) : Host.Outcome State Fault Refusal :=
  nextB s fun b => b.issue e.val fun b _ c a =>
    let o := effAddr c f
    if o % 4 ≠ 0 ∨ b.cairnSize a.thread ≤ o then .trap tcCairnRange o
    else .ok { b := b, c := c, a := { a with cairn := tput a.cairn o (c.get f.d.val) }, cyc := 2 }

/-- Stage a post unless 32 are staged (R203). -/
def stagePost (b : Block) (c : EngCtx) (a : ActSt) (w : Nat) (p : PostSt) : EngRes :=
  if 32 ≤ a.posts.length then .trap tcStageFull w
  else .ok { b := b, c := c, a := { a with posts := a.posts ++ [p] }, cyc := 2, evs := [0x0A] }

/-- POST (R202). `imm` is the b field over the function field. -/
def execInsPost (e : Fin 40) (f : FormI) (s : State) : Host.Outcome State Fault Refusal :=
  nextB s fun b => b.issue e.val fun b e c a =>
    let w := wordI 0x35 f
    let kind := f.imm.toNat % 2048
    let bf := f.imm.toNat / 2048
    let x := (c.get f.a.val).toNat
    let sid := x % 0x1000000
    let code := (c.get bf).toNat
    if f.d.val ≠ 0 ∨ 4 < kind ∨ (2 ≤ kind ∧ bf ≠ 0) then .trap tcIllegal w
    else if kind = 2 then
      match b.copyFrom e c x 32 with
      | none => .trap tcPlanAddr x
      | some (bs, b, _) => stagePost b c a w { kind := 2, sid := 0, code := 0, entry := bs }
    else if (kind = 0 ∧ sid / 0x10000 = 0x92) ∨ (kind = 1 ∧ sid / 0x10000 = 0x90) ∨ (kind = 3 ∧ sid / 0x10000 = 0x83) ∨
        (kind = 4 ∧ 0xB00000 ≤ sid ∧ sid < 0xB01000) then
      stagePost b c a w { kind := kind, sid := sid, code := code, entry := [] }
    else .trap tcSigRef sid

end Sys2Proof.Machine
end

