-- ==== Sys2Proof/Machine/RegCmds.lean ====
section
/-! DEFINITION. Machine/RegCmds.lean: the accesses of the register map that the command table lists, by each initiator (02 R27–R37, R48;
19 R460, R468). -/

namespace Sys2Proof.Machine

/-- The engine address of an offset of the BAR0 map (02 R47). -/
def engBar (off : Nat) : Nat := 0x40000000 + off

/-- A write by an initiator: an engine must run an activation in kernel mode, traps where the rules say so, and writes nothing once its epoch
is stale (02 R28, R31, R48; 08 R191). -/
def Block.writeBy (b : Block) (ini : Ini) (off : Nat) (v : Word) : Block :=
  match ini with
  | .engine e =>
    if (b.issuer e.val).isNone then b
    else if !(b.eng e.val).ctx.kernel || b.writeTraps ini off then b.trapOn e.val tcAccess (engBar off)
    else if b.stale e.val then b.fencedWrites e.val 1
    else b.regWrite ini off v
  | _ => b.regWrite ini off v

/-- A read by an initiator (02 R31, R35, R48; 21 R495). -/
def Block.readBy (b : Block) (ini : Ini) (off : Nat) : Block :=
  match ini with
  | .engine e =>
    if (b.issuer e.val).isNone then b
    else if b.readTraps off || (!(b.eng e.val).ctx.kernel && !b.userCtr e.val off 4) then b.trapOn e.val tcAccess (engBar off)
    else (b.regRead ini off).2
  | _ => (b.regRead ini off).2

/-- 02 R28: stored, cleared, set or refused by its access code and writer set. -/
def execRegisterWrite (ini : Ini) (off : Nat) (v : Word) (s : State) : Host.Outcome State Fault Refusal :=
  nextB s fun b => if (regAt off).isSome then b.writeBy ini off v else b

/-- 02 R37. -/
def execHighWordWrite (ini : Ini) (off : Nat) (v : Word) (s : State) : Host.Outcome State Fault Refusal :=
  nextB s fun b => if wideHalf off == some true then b.writeBy ini off v else b

/-- 02 R35. -/
def execLowWordRead (ini : Ini) (off : Nat) (s : State) : Host.Outcome State Fault Refusal :=
  nextB s fun b => if wideHalf off == some false then b.readBy ini off else b

/-- Is a register RC (02 R30)? -/
def isRc (off : Nat) : Bool := match regAt off with | some (r, _) => r.acc == .rc | none => false

/-- 02 R30. -/
def execRcRead (ini : Ini) (off : Nat) (s : State) : Host.Outcome State Fault Refusal :=
  nextB s fun b => if isRc off then b.readBy ini off else b

/-- 02 R31. -/
def execUnmappedAccess (ini : Ini) (off : Nat) (isWrite : Bool) (s : State) : Host.Outcome State Fault Refusal :=
  nextB s fun b =>
    if (regAt off).isSome || (b.memWindow off).isSome then b else if isWrite then b.writeBy ini off 0#32 else b.readBy ini off

/-- 12 R295. -/
def execTbSampleWrite (ini : Ini) (lo : Word) (s : State) : Host.Outcome State Fault Refusal :=
  nextB s fun b => b.writeBy ini Reg.tbSample lo

/-- 12 R299. -/
def execTxtsPop (ini : Ini) (port : Fin 2) (v : Word) (s : State) : Host.Outcome State Fault Refusal :=
  nextB s fun b => b.writeBy ini (Reg.tbPortTxtsPop port.val) v

/-- 13 R312. -/
def execAnaConvUrgent (ini : Ini) (conv : Fin 6) (v : Word) (s : State) : Host.Outcome State Fault Refusal :=
  nextB s fun b => b.writeBy ini (Reg.anaConvUrgent conv.val) v

/-- 13 R311. -/
def execQPop (ini : Ini) (conv : Fin 6) (v : Word) (s : State) : Host.Outcome State Fault Refusal :=
  nextB s fun b => b.writeBy ini (Reg.anaConvQPop conv.val) v

/-- 15 R352. -/
def execPwmCommit (ini : Ini) (pair : Fin 48) (v : Word) (s : State) : Host.Outcome State Fault Refusal :=
  nextB s fun b => b.writeBy ini (Reg.pwmPairCommit pair.val) v

/-- 15 R352. -/
def execCommitMaskWrite (ini : Ini) (lo : Word) (s : State) : Host.Outcome State Fault Refusal :=
  nextB s fun b => b.writeBy ini Reg.pwmCommitMask lo

/-- 15 R355. -/
def execDutyShWrite (ini : Ini) (pair : Fin 48) (v : Word) (s : State) : Host.Outcome State Fault Refusal :=
  nextB s fun b => b.writeBy ini (Reg.pwmPairDutySh pair.val) v

/-- 17 R405. -/
def execCanRxoSnapRead (ini : Ini) (k : Fin 4096) (s : State) : Host.Outcome State Fault Refusal :=
  nextB s fun b => b.readBy ini (Reg.canRxoSnap k.val)

/-- 21 R492: a counter of an engine, or with `blk` a block counter. -/
def execPrfCounterWrite (ini : Ini) (blk : Bool) (e : Nat) (i : Nat) (lo : Word) (s : State) : Host.Outcome State Fault Refusal :=
  nextB s fun b =>
    if blk then (if i < 32 then b.writeBy ini (Reg.prfBlkCtr i) lo else b)
    else if e < 40 ∧ i < 8 then b.writeBy ini (Reg.prfEngCtr e i) lo else b

/-- 22 R509. -/
def execTempCfgWrite (ini : Ini) (v : Word) (s : State) : Host.Outcome State Fault Refusal :=
  nextB s fun b => b.writeBy ini Reg.clkTempCfg v

/-- 19 R468. -/
def execDoorbellWrite (q : Fin 64) (v : Word) (s : State) : Host.Outcome State Fault Refusal :=
  nextB s fun b => b.writeBy .host (0x08000000 + 4 * q.val) v

/-- 19 R460. -/
def execAdminCtrlWrite (v : Word) (s : State) : Host.Outcome State Fault Refusal :=
  nextB s fun b => b.writeBy .host Reg.adminCtrl v

end Sys2Proof.Machine
end

