-- ==== Sys2Proof/Machine/CodeSwap.lean ====
section
/-! DEFINITION. Machine/CodeSwap.lean: the swap of one thread's code (08 R216–R220). -/

namespace Sys2Proof.Machine

/-- A listed table as a canonical one. -/
def tabOf (l : List (Nat × List Byte)) : Tab (List Byte) := l.foldl (fun (t : Tab (List Byte)) p => tput t p.1 p.2) []

/-- The bytes of a code set of the running image. -/
def Block.codeSet (b : Block) (n : Nat) : List Byte := b.fix tCodeSet n

/-- State of the staging region (03 R85): 2 ready. -/
def Block.stageReady (b : Block) : Bool := b.fld Reg.imgStage 0 2 == 2

/-- The staged image's slot of a thread: its set's bytes, entry and length in words. -/
def Block.stagedSlot (b : Block) (t : Nat) : Option (List Byte × Nat × Nat) :=
  match b.boot.staged with
  | none => none
  | some im =>
    ((entsOf (tabOf im.fixed) tCodeSet).findSome? fun p => (slotOf p.2 t).map fun s => (p.2, s.1, s.2))

/-- Replace bytes of a list from an offset. -/
def patch (l : List Byte) (o : Nat) (bs : List Byte) : List Byte := l.take o ++ bs ++ l.drop (o + bs.length)

/-- The swap is over (R217): the thread's next activation runs the new code, from an empty cairn where CAIRN_RESET was given. -/
def Block.swapDone (b : Block) : Block :=
  match b.cont.swapOp with
  | none => b
  | some o =>
    let t := b.cont.swapThread
    let reset := b.cont.swapReset
    let b := if reset then { b with cairn := mwrite b.cairn (u32 (b.thDesc t) 16) (zeroBytes (b.cairnSize t)) } else b
    let x := b.th t
    let b := b.putTh t { x with swapped := true, copying := false, cairned := x.cairned && !reset }
    let b := { b with cont := { b.cont with swapOp := none, swapEngines := [], swapCode := [] } }
    let b := (b.setFld Reg.engSwap 30 2 0).setFld Reg.engSwap 0 16 (b.fld Reg.engSwap 0 16 + 1)
    b.settle o true stDone

/-- The swap ends once no engine is left to copy to. -/
def Block.swapCheck (b : Block) : Block := if b.cont.swapOp.isSome && b.cont.swapEngines.isEmpty then b.swapDone else b

/-- An engine that is fenced no longer holds the set (R217, R218). -/
def Block.swapDrop (b : Block) (e : Nat) : Block :=
  { b with cont := { b.cont with swapEngines := b.cont.swapEngines.filter (· != e) } }.swapCheck

/-- The slot is written into the set's copy in the image region, and the engines that hold the set are to follow. -/
def Block.swapBegin (b : Block) (o : ServiceOp) (t : Nat) (reset : Bool) : Block :=
  match b.stagedSlot t with
  | none => b
  | some (set, off, len) =>
    let n := b.thSet t
    let code := slice set (4 * off) (4 * len)
    let es := (List.range 40).filter fun e => b.egSet e == n && (b.egState e == egIdle || b.egState e == egRunning)
    let b := { b with cfg := tput (tput b.cfg (key tCodeSet n) (patch (b.codeSet n) (4 * off) code)) (key tImage 1) [] }
    let b := { b with cont := { b.cont with swapThread := t, swapReset := reset, swapEngines := es, swapCode := code, swapOp := some o } }
    let b := (b.setFld Reg.engSwap 16 12 t).setFld Reg.engSwap 30 2 1
    let b := if b.thState t == thRunning || b.thState t == thPreempted then b else b.swapBoundary t
    b.swapCheck

/-- R219, R220. -/
def execEngCodeSwap (c : Cmd) (s : State) : Host.Outcome State Fault Refusal :=
  nextB s fun b =>
    let t := cObj c - 0xB00000
    let a := cArg c
    let st := b.thState t
    let old := slotOf (b.codeSet (b.thSet t)) t
    let new := b.stagedSlot t
    let fits := match old, new with
      | some o, some n => n.2.1 == o.1 && decide (n.2.2 ≤ o.2)
      | _, _ => true
    b.accept 0x0801 c
      [authCheck c roleMaintainer, devCheck b [dsAwaitWorld, dsOperational, dsSafeStop], envCheck c, deny (2 ≤ u8 a 0) stBadArg,
       deny (!(isThreadSid (cObj c) && b.thUsed t) || old.isNone) stBadRef, deny (!b.stageReady) stConflict 0x01 st,
       deny new.isNone stConflict 0x02 st, deny (!fits) stLimit 0x01, deny b.cont.swapOp.isSome stBusy] fun b =>
      (b.complete 0x0801 c stQueued).swapBegin (opOf c 0x0801) t ((u8 a 0).testBit 0)

/-- R217, R218: the copy of the slot into an engine's I-RAM is in place; it waits until the thread is neither RUNNING nor PREEMPTED
there. -/
def execCodeSwapCopy (e : Fin 40) (s : State) : Host.Outcome State Fault Refusal :=
  nextB s fun b =>
    let t := b.cont.swapThread
    let st := b.thState t
    if b.cont.swapOp.isNone || !b.cont.swapEngines.contains e.val then b
    else if (st == thRunning || st == thPreempted) && b.thEngine t == e.val then b
    else
      match slotOf (b.codeSet (b.thSet t)) t with
      | none => b
      | some (off, _) =>
        let x := b.eng e.val
        let b := b.putEng e.val { x with iram := patch x.iram (4 * off) b.cont.swapCode }
        let b := b.raise (Reg.engFlags e.val) 5 (sidEngine e.val)
        b.swapDrop e.val

end Sys2Proof.Machine
end

