-- ==== Sys2Proof/Machine/Continuity.lean ====
section
/-! DEFINITION. Machine/Continuity.lean: engine faults, stand-ins and continuity restarts (10 R242–R271). -/

namespace Sys2Proof.Machine

/-- Engines in STANDIN. -/
def Block.standins (b : Block) : List Nat := (List.range 40).filter fun e => b.egState e == egStandin

/-- Is a state one whose heartbeat is watched and that may fault (R243, R270)? -/
def egWatched (st : Nat) : Bool := st == egIdle || st == egRunning || st == egStandin

/-- Are engines in IDLE or RUNNING other than `e` holding a code set (R244)? -/
def Block.setElsewhere (b : Block) (e n : Nat) : Bool :=
  (List.range 40).any fun k => k != e && b.egSet k == n && (b.egState k == egIdle || b.egState k == egRunning)

/-- Used threads of a code set. -/
def Block.threadsOf (b : Block) (n : Nat) : List Nat :=
  ((entsOf b.cfg tThread).map (·.1)).filter fun t => b.thUsed t && b.thSet t == n

/-- A thread loses its place to a fence or a restart (R244, R246, R257): one with a pending disable or suspension takes that instead, and a
suspended one keeps its cause. `replay` marks an activation that is to run again. -/
def Block.contSuspend (b : Block) (t : Nat) (replay : Bool) : Block :=
  let st := b.thState t
  let p := (b.th t).pendReq
  if st == thDormant || st == thSuspended then b
  else
    let r := Reg.dspThreadState t
    let ended := st == thRunning || st == thPreempted
    let b := if ended then (((b.putTh t { b.th t with pendReq := 0, replay := replay }).setFld r 3 1 0).setFld r 22 6 0x3F).swapBoundary t else b
    if ended && p == 1 then (b.setThState t thDormant).reload t
    else
      let cause := if ended && p == 2 then 1 else 3
      let b := (b.setFld r 20 2 cause).setFld r 6 1 (b2n (st == thReady || (cause == 1 && replay)))
      ((b.setThState t thSuspended).holdFields t).trace t 8 0xFF cause 0 0xFFFF

/-- A thread returns from SUSPENDED with cause CONTINUITY (R247): replayed or pending ones become READY with their ready time, the others
WAITING afresh. -/
def Block.contRestore (b : Block) (t : Nat) : Block :=
  if !(b.thState t == thSuspended && b.thCause t == 3) then b
  else
    let r := Reg.dspThreadState t
    let ready := (b.th t).replay || b.bit r 6
    let b := ((b.putTh t { b.th t with resumed := true }).setFld r 20 2 0).setFld r 6 1 0
    let clr := b.routes.map fun p => if u16 (b.fix tRoute p.1) 4 == t then (p.1, { p.2 with latched := false }) else p
    let b := if ready then ((b.setThState t thReady).holdFields t).readyTrace t
      else { (b.setThState t thWaiting).reload t with routes := clr }
    b.trace t 9 0xFF (if ready then thReady else thWaiting) 0 0xFFFF

/-- An engine in service again finds held commands waiting (01 R11). -/
def Block.serviceBack (b : Block) : Block :=
  if !b.serviceUp then b else
  let free (o : ServiceOp) : ServiceOp := { o with held := false }
  let lanes := b.seq.lanes.map fun (p : Nat × LaneSt) => (p.1, { p.2 with check := p.2.check.map free })
  { b with world := { b.world with checking := b.world.checking.map free }, seq := { b.seq with lanes := lanes } }.resumeHeld

/-! ### Takeover (R247–R252) -/

/-- The next waiting code set gets the lowest stand-in, other than the engine that lost it; one set is loaded at a time (R247, R251, R252). -/
def Block.nextTakeover (b : Block) : Block :=
  if b.cont.taking.isSome || b.dev == dsRestart then b
  else
    match b.cont.waiting with
    | [] => b
    | i :: rest =>
      match b.standins.find? fun e => e != i.eng with
      | some k => { b with cont := { b.cont with waiting := rest, taking := some (i, k) } }
      | none => b

/-- Load a code set of the running image into an engine (08 R216). -/
def Block.loadSet (b : Block) (e n : Nat) : Block :=
  let set := b.codeSet n
  let x := b.eng e
  b.putEng e { x with iram := set, ctx := { x.ctx with htable := u32 set 4 }, epoch := b.egEpoch e, inReset := false }

/-- A stand-in takes the place of a fenced engine (R247 step 2). -/
def Block.takeOverSet (b : Block) (i : TakeItem) (k : Nat) : Block :=
  let b := b.loadSet k i.set
  let b := b.wrN (Reg.engRole k) (256 * i.set)
  let b := if b.egSet i.eng = i.set then b.wrN (Reg.engRole i.eng) (3 + 256 * 0xFF) else b
  let b := b.setEg k egIdle
  let ns := satNat 0xFFFFFFFF (b.now - i.at_)
  let b := b.wrN Reg.cntTakeoverNs ns
  let b := if b.rdN Reg.cntMaxTakeover < ns then b.wrN Reg.cntMaxTakeover ns else b
  let b := if b.fld Reg.cntLastFault 0 6 = i.eng then b.setFld Reg.cntLastFault 16 6 k else b
  b.record (sidEngine i.eng) 0x32 (leBytes 1 i.eng ++ leBytes 1 k ++ leBytes 2 i.set ++ leBytes 4 ns)

/-! ### Fencing (R244–R246) -/

/-- The writes that wait in a fenced engine's store buffer carry a stale epoch (08 R191). -/
def Block.dropStores (b : Block) (e : Nat) : Block :=
  let n := (b.eng e).stores.length
  (b.putEng e { b.eng e with stores := [] }).fencedWrites e n

/-- Threads with an activation on an engine: RUNNING and PREEMPTED. -/
def Block.onEngine (b : Block) (e : Nat) : List Nat :=
  let x := b.eng e
  (match x.act with | some a => [a.thread] | none => []) ++ x.saved.map fun p => p.2.2.thread

/-- Where a code set goes after its engine is fenced (R247, R250, R251). -/
def Block.fenceQueue (b : Block) (e n : Nat) : Block :=
  let b := match b.cont.taking with
    | some (i, k) => if k = e then { b with cont := { b.cont with taking := none, waiting := i :: b.cont.waiting } } else b
    | none => b
  if n = 0xFF ∨ 36 ≤ e then b.nextTakeover
  else
    let b := if b.standins.isEmpty && b.dev != dsRestart then b.raisePost Reg.cntFlags 1 (sidEngine e) else b
    let i : TakeItem := { eng := e, set := n, at_ := b.now }
    { b with cont := { b.cont with waiting := b.cont.waiting ++ [i] } }.nextTakeover

/-- Fence an engine for a cause whose fault time is `at_` (R244); `hold` keeps it in reset from now on (R245). -/
def Block.fence (b : Block) (e cause at_ : Nat) (hold : Bool) : Block :=
  let n := b.egSet e
  let on := b.onEngine e
  let elsewhere := b.setElsewhere e n
  let ts := if n = 0xFF then [] else if elsewhere then on else b.threadsOf n
  let b := b.wrN (Reg.engEpoch e) ((b.egEpoch e + 1) % 65536)
  let b := b.dropStores e
  let x := b.eng e
  let b := b.putEng e { x with saved := [], act := if hold then none else x.act, inReset := hold, cause := cause, fencedAt := b.now }
  let b := b.setEg e egFenced
  let b := if elsewhere then b else ts.foldl (fun (b : Block) t => (b.stagesOf t).foldl (fun (b : Block) k => b.coastStage k) b) b
  let b := ts.foldl (fun (b : Block) t => b.contSuspend t (on.contains t)) b
  let b := (b.count Reg.cntFailovers).wrN Reg.cntLastFault (2 ^ 24 * cause + 0x3F0000 + e)
  let b := b.wr64 Reg.cntLastFaultAt at_
  let b := b.record (sidEngine e) 0x31 (leBytes 1 cause ++ zeroBytes 1 ++ leBytes 2 (b.egEpoch e) ++ leBytes 2 n ++
    leBytes 1 b.standins.length ++ zeroBytes 1)
  let b := b.raisePost Reg.cntFlags 0 (sidEngine e)
  let b := b.log 4 0x06 (leBytes 1 e ++ leBytes 1 cause)
  (b.swapDrop e).fenceQueue e n

/-- R242 cause 0x01. -/
def execLockstepMismatch (e : Fin 40) (s : State) : Host.Outcome State Fault Refusal :=
  nextB s fun b => if egWatched (b.egState e.val) then b.fence e.val 1 b.now true else b

/-- R242 cause 0x02. -/
def execEccUncorrectable (e : Fin 40) (s : State) : Host.Outcome State Fault Refusal :=
  nextB s fun b => if egWatched (b.egState e.val) then b.fence e.val 2 b.now true else b

/-- R242 cause 0x03, R243: ten heartbeats missed in a row; for an injected silence the cause is INJECTED and the fault time that of the
command's acceptance. -/
def execHeartbeatTimeout (e : Fin 40) (s : State) : Host.Outcome State Fault Refusal :=
  nextB s fun b =>
    if !egWatched (b.egState e.val) then b else
    match (b.eng e.val).silentTo with
    | some t => if (b.eng e.val).injected then b.fence e.val 5 (t - 12000) false else b.fence e.val 3 (b.now - 10000) false
    | none => b.fence e.val 3 (b.now - 10000) false

/-- R247 step 2 and 3: the copy into the stand-in has ended; for a service engine, R250. -/
def execStandinLoadDone (e : Fin 40) (s : State) : Host.Outcome State Fault Refusal :=
  nextB s fun b =>
    if b.dev == dsRestart then b
    else if 36 ≤ e.val then
      (if b.setElsewhere e.val (b.egSet e.val) then
        ((b.threadsOf (b.egSet e.val)).foldl (fun (b : Block) t => b.contRestore t) b).serviceBack
       else b)
    else
      match b.cont.taking with
      | some (i, k) =>
        if k ≠ e.val then b else
        let b := { b with cont := { b.cont with taking := none } }.takeOverSet i k
        ((b.threadsOf i.set).foldl (fun (b : Block) t => b.contRestore t) b).nextTakeover
      | none => b

/-- R253: an engine fenced without reset is heard again. -/
def execAliveAfterDeath (e : Fin 40) (s : State) : Host.Outcome State Fault Refusal :=
  nextB s fun b =>
    let x := b.eng e.val
    if b.egState e.val != egFenced || x.inReset then b else
    let b := b.putEng e.val { x with act := none, saved := [], inReset := true, silentTo := none, injected := false }
    let b := b.setEg e.val egQuarantined
    b.raisePost Reg.cntFlags 2 (sidEngine e.val) (leBytes 1 e.val ++ zeroBytes 7 ++ leBytes 8 (b.now - (x.fencedAt - 10000)))

/-- R269: the injected silence ends. -/
def execInjectSilenceEnd (e : Fin 40) (s : State) : Host.Outcome State Fault Refusal :=
  nextB s fun b =>
    let x := b.eng e.val
    if x.injected then b.putEng e.val { x with silentTo := none, injected := false } else b

/-! ### Release and injection (R254, R269, R270) -/

def devCnt : List Nat := [dsAwaitWorld, dsOperational, dsSafeStop]

def isEngineSid (sid : Nat) : Bool := decide (0xB01000 ≤ sid) && decide (sid < 0xB01028)

/-- R254. -/
def execCntRelease (c : Cmd) (s : State) : Host.Outcome State Fault Refusal :=
  nextB s fun b =>
    let e := cObj c - 0xB01000
    let st := b.egState e
    b.accept 0x0902 c
      [authCheck c roleMaintainer, devCheck b devCnt, envCheck c, deny (!isEngineSid (cObj c)) stBadRef,
       deny (!(st == egFenced || st == egQuarantined) || (b.eng e).release.isSome) stConflict 0 st] fun b =>
      let b := b.complete 0x0902 c stQueued
      let x := b.eng e
      b.putEng e { x with release := some (opOf c 0x0902), act := none, saved := [], inReset := true, silentTo := none, injected := false }

/-- R254: the self-test of a release ends. A service engine is never a stand-in (08 R188) and joins the others again. -/
def execReleaseSelftestDone (e : Fin 40) (passed : Bool) (s : State) : Host.Outcome State Fault Refusal :=
  nextB s fun b =>
    let x := b.eng e.val
    match x.release with
    | none => b
    | some o =>
      let b := b.putEng e.val { x with release := none, cause := if passed then 0 else 4 }
      if !passed then (b.setEg e.val egFenced).settle o true stLimit 0x01
      else
        let b := b.wrN (Reg.engEpoch e.val) ((b.egEpoch e.val + 1) % 65536)
        let b := b.putEng e.val { b.eng e.val with epoch := b.egEpoch e.val, inReset := false, ctx := {}, dram := [] }
        let b := if 36 ≤ e.val then ((b.loadSet e.val (b.egSet e.val)).setEg e.val egIdle).serviceBack
          else (b.wrN (Reg.engRole e.val) (1 + 256 * 0xFF)).setEg e.val egStandin
        (b.settle o true stDone).nextTakeover

/-- R269. -/
def execCntInject (c : Cmd) (s : State) : Host.Outcome State Fault Refusal :=
  nextB s fun b =>
    let e := cObj c - 0xB01000
    let k := u8 (cArg c) 0
    let st := b.egState e
    b.runDone 0x0903 c
      [authCheck c roleMaintainer, devCheck b devCnt, envCheck c, deny (!(k == 1 || k == 3)) stBadArg,
       deny (!isEngineSid (cObj c)) stBadRef, deny (!egWatched st) stConflict 0 st] fun b =>
      if k = 1 then b.fence e 5 b.now true
      else b.putEng e { b.eng e with silentTo := some (b.now + 12000), injected := true }

/-! ### Continuity restart (R256–R263) -/

def Block.phase (b : Block) : Nat := b.fld Reg.cntState 12 4
def Block.setPhase (b : Block) (p : Nat) : Block := b.setFld Reg.cntState 12 4 p

/-- Queues in service are RESTARTING while the device is (19 R470). -/
def Block.queuesRestart (b : Block) (on : Bool) : Block :=
  let b := b.setFld Reg.hstState 8 1 (b2n on)
  let old := if on then qReady else qRestarting
  let new := if on then qRestarting else qReady
  b.onOut fun o => (List.range 64).foldl (fun (o : OutSt) q => if o.qState q = old then o.setQ q new else o) o

/-- A RESTART record (11 R276). -/
def Block.restartRec (b : Block) (t us : Nat) : Block :=
  b.record sidDevice 0x33 (leBytes 1 t ++ leBytes 1 (b.fld Reg.cntState 8 4) ++ leBytes 1 (b2n b.cont.install) ++ zeroBytes 1 ++ leBytes 4 us)

/-- Commands that need a service engine and have not completed are caught (R263). -/
def Block.catchOps (b : Block) : Block :=
  let c (o : ServiceOp) : ServiceOp := { o with caught := true }
  let lanes := b.seq.lanes.map fun (p : Nat × LaneSt) => (p.1, { p.2 with check := p.2.check.map c })
  { b with world := { b.world with checking := b.world.checking.map c }, heldOps := b.heldOps.map c, seq := { b.seq with lanes := lanes } }

/-- t0 of a continuity restart (R257), from host (1), management (2) or panel (3). -/
def Block.beginRestart (b : Block) (cause : Nat) (install : Bool) (o : Option ServiceOp) : Block :=
  let again := match b.cont.taking with | some (i, _) => i :: b.cont.waiting | none => b.cont.waiting
  let b := { b with cont := { b.cont with t0 := b.now, back := b.dev, install := install, op := o, installed := false,
                                          newFirmware := false, endStatus := stDone, endReason := 0, taking := none, waiting := again } }
  let b := { b with boot := { b.boot with stopAfterRestart := false } }
  let b := ((b.count Reg.cntRestarts).setPhase 1).setFld Reg.cntState 8 4 cause
  let b := (b.restartRec 0 0).setDev dsRestart
  let b := b.queuesRestart true
  let ts := ((entsOf b.cfg tThread).map (·.1)).filter fun t => b.thUsed t
  let b := ts.foldl (fun (b : Block) t => (b.stagesOf t).foldl (fun (b : Block) k => b.coastStage k) b) b
  let b := ts.foldl (fun (b : Block) t =>
    if b.thState t == thWaiting || b.thState t == thReady then b.contSuspend t false
    else if b.thState t == thRunning || b.thState t == thPreempted then
      (if (b.th t).pendReq = 0 then b.putTh t { b.th t with pendReq := 3 } else b)
    else b) b
  b.catchOps

/-- R256, R269, R270. -/
def execCntRestart (c : Cmd) (s : State) : Host.Outcome State Fault Refusal :=
  nextB s fun b =>
    let a := cArg c
    let install := (u8 a 0).testBit 0
    b.accept 0x0901 c
      [authCheck c (if install then roleMaintainer else roleOperator), devCheck b devCnt, envCheck c, noObject c,
       deny (2 ≤ u8 a 0) stBadArg, deny (install && !b.stageReady) stConflict 0x02 b.dev] fun b =>
      (b.complete 0x0901 c stQueued).beginRestart (if issuerIsHost c.issuer then 1 else 2) install (some (opOf c 0x0901))

/-- An activation that has not committed when quiesce ends is abandoned and not replayed (R258). -/
def Block.abandonOn (b : Block) (e : Nat) : Block :=
  if b.egState e = egFenced ∨ b.egState e = egQuarantined then b else
  let ts := b.onEngine e
  let b := b.putEng e { b.eng e with act := none, saved := [] }
  let b := if b.egState e = egRunning then b.setEg e egIdle else b
  ts.foldl (fun (b : Block) t => ((b.count Reg.cntQuiesceAbandons).raise Reg.cntFlags 4).contSuspend t false) b

/-- R257 t1, R258. -/
def execQuiesceEnd (s : State) : Host.Outcome State Fault Refusal :=
  nextB s fun b =>
    if b.dev != dsRestart || b.phase != 1 then b else
    let b := (List.range 40).foldl (fun (b : Block) e => b.abandonOn e) b
    let b := (List.range 40).foldl (fun (b : Block) e => b.wrN (Reg.engEpoch e) ((b.egEpoch e + 1) % 65536)) b
    b.setPhase 2

/-- R257 t2: every engine is reset and its D-RAM cleared; FENCED and QUARANTINED ones stay so (R261). -/
def execRestartReset (s : State) : Host.Outcome State Fault Refusal :=
  nextB s fun b =>
    if b.dev != dsRestart || b.phase != 2 then b else
    let b := (List.range 40).foldl (fun (b : Block) e =>
      let b := b.dropStores e
      let x := b.eng e
      let b := b.putEng e { x with ctx := {}, act := none, saved := [], dram := [], inReset := true, silentTo := none, injected := false }
      if b.egState e = egFenced ∨ b.egState e = egQuarantined then b else b.setEg e egOffline) b
    b.setPhase 3

/-- A thread's code in a set. -/
def codeOf (set : List Byte) (t : Nat) : Option (List Byte) := (slotOf set t).map fun s => slice set (4 * s.1) (4 * s.2)

/-- The staged sections replace the code sets of the running image (03 R80, R257 t3). -/
def Block.installStaged (b : Block) : Block :=
  match b.boot.staged with
  | none => b
  | some im =>
    let new := entsOf (tabOf im.fixed) tCodeSet
    let svc := (List.range 4).map fun i => b.egSet (36 + i)
    let fw := new.any fun p => svc.contains p.1 && p.2 != b.codeSet p.1
    let ts := ((entsOf b.cfg tThread).map (·.1)).filter fun t => b.thUsed t &&
      new.any fun p => p.1 == b.thSet t && codeOf p.2 t != codeOf (b.codeSet p.1) t
    let b := ts.foldl (fun (b : Block) t => b.putTh t { b.th t with swapped := true }) b
    { b with cfg := tput (new.foldl (fun (t : Tab (List Byte)) p => tput t (key tCodeSet p.1) p.2) b.cfg) (key tImage 1) (ent (tabOf im.fixed) tImage 1),
             cont := { b.cont with installed := true, newFirmware := fw } }

/-- The staging region is empty again. -/
def Block.emptyStage (b : Block) : Block :=
  { b with boot := { b.boot with staged := none } }.wrN Reg.imgStage 0

/-- R257 t3, R260: the image region, or with INSTALL the staged sections, verified or not. A region that fails is read again from the running
slot, which `reload` says can be done. -/
def Block.regionVerified (b : Block) (ok reload : Bool) : Block :=
  if b.dev != dsRestart || b.phase != 3 then b
  else if b.cont.install then
    (if ok then (b.installStaged.emptyStage).setPhase 4
     else
       let b := { b with cont := { b.cont with endStatus := stImage, endReason := 0x06 } }
       ((b.raise Reg.cntFlags 7).emptyStage).setPhase 4)
  else if ok then b.setPhase 4
  else if reload then (b.raise Reg.cntFlags 6).setPhase 4
  else b.setPhase 0xF

/-- R257 t4, R261. -/
def execRestartSelftestDone (failed : List (Fin 40)) (s : State) : Host.Outcome State Fault Refusal :=
  nextB s fun b =>
    if b.dev != dsRestart || b.phase != 4 then b else
    let b := b.setPhase 5
    failed.foldl (fun (b : Block) e => if b.egState e.val = egOffline then b.fence e.val 4 b.now true else b) b

/-- The waiting code sets go to the stand-ins that are left (R261, R262, R251). -/
def Block.assignWaiting (b : Block) : List TakeItem → Block
  | [] => b
  | i :: rest =>
    match b.standins.find? fun e => e != i.eng with
    | some k => (b.takeOverSet i k).assignWaiting rest
    | none =>
      let b := b.raisePost Reg.cntFlags 1 (sidEngine i.eng)
      { b with cont := { b.cont with waiting := b.cont.waiting ++ [i] } }.assignWaiting rest

/-- R257 t5. -/
def execCodeSetsLoaded (s : State) : Host.Outcome State Fault Refusal :=
  nextB s fun b =>
    if b.dev != dsRestart || b.phase != 5 then b else
    let b := (List.range 40).foldl (fun (b : Block) e =>
      if b.egState e != egOffline then b
      else
        let role := b.egRole e
        let b := b.putEng e { b.eng e with epoch := b.egEpoch e, inReset := false }
        if role = 1 then b.setEg e egStandin
        else if role = 3 then b
        else (if b.egSet e = 0xFF then b else b.loadSet e (b.egSet e)).setEg e egIdle) b
    let w := b.cont.waiting
    ({ b with cont := { b.cont with waiting := [] } }.assignWaiting w).setPhase 6

/-- R257 t6: service threads are WAITING. -/
def execServiceInitDone (s : State) : Host.Outcome State Fault Refusal :=
  nextB s fun b =>
    if b.dev != dsRestart || b.phase != 6 then b else
    let ts := ((entsOf b.cfg tThread).map (·.1)).filter fun t => b.thUsed t && b.isService t
    let b := ts.foldl (fun (b : Block) t =>
      ((b.putTh t { b.th t with replay := false }).setFld (Reg.dspThreadState t) 6 1 0).contRestore t) b
    b.setPhase 7

/-- R257 t7, R259: control threads are restored, but for those whose code set waits for a stand-in; a pending code swap is completed (08
R220). -/
def execThreadsRestored (s : State) : Host.Outcome State Fault Refusal :=
  nextB s fun b =>
    if b.dev != dsRestart || b.phase != 7 then b else
    let b := { b with cont := { b.cont with swapEngines := [] } }.swapCheck
    let lost := b.cont.waiting.map (·.set)
    let ts := ((entsOf b.cfg tThread).map (·.1)).filter fun t => b.thUsed t && !b.isService t && !lost.contains (b.thSet t)
    let b := ts.foldl (fun (b : Block) t =>
      ((b.putTh t { b.th t with replay := false, resumed := true }).setFld (Reg.dspThreadState t) 6 1 0).contRestore t) b
    b.setPhase 8

/-- An operation that was in progress when new service firmware was installed comes to nothing (R263). -/
def ServiceOp.lostFw (o : ServiceOp) : Bool := o.caught && !o.held

/-- R263: what new service firmware ends. -/
def Block.abandonOps (b : Block) : Block :=
  if !b.cont.newFirmware then b else
  let b := match b.world.checking with
    | some o => if o.lostFw then
        ({ b with world := { b.world with checking := none } }.setFld Reg.wldState 1 1 0).settle o false stAbandoned 0x06
      else b
    | none => b
  b.seq.lanes.foldl (fun (b : Block) p =>
    match p.2.check with
    | some o => if o.lostFw then
        (b.putLn p.1 { b.ln p.1 with check := none }).settle o false stAbandoned 0x06
      else b
    | none => b) b

/-- R257 t8, R268, R269: dispatch resumes, the device returns to its state or enters SAFE_STOP (03 R76), and the commands that waited
proceed. -/
def execDispatchResume (s : State) : Host.Outcome State Fault Refusal :=
  nextB s fun b =>
    if b.dev != dsRestart || b.phase != 8 then b else
    let us := satNat 0xFFFFFFFF ((b.now - b.cont.t0) / 1000)
    let b := b.wrN Reg.cntRestartUs us
    let b := (((b.raise Reg.cntFlags 3).restartRec 8 us).setPhase 0).setFld Reg.cntState 8 4 0
    let b := b.setDev (if b.boot.stopAfterRestart then dsSafeStop else b.cont.back)
    let b := { b with boot := { b.boot with stopAfterRestart := false } }
    let b := (b.queuesRestart false).loopsResume
    let b := b.abandonOps.serviceBack
    let b := match b.cont.op with
      | some o => b.settle o true b.cont.endStatus b.cont.endReason (leBytes 4 us ++ leBytes 1 (b2n b.cont.installed))
      | none => b
    { b with cont := { b.cont with op := none } }.nextTakeover

end Sys2Proof.Machine
end

