-- ==== Sys2Proof/Machine/ImageCheck.lean ====
section
/-! DEFINITION. Machine/ImageCheck.lean: the check of an image (03 R58–R63): its header and section table as bytes of the NVM, and the
rules on what its sections spell (03 R528, 04 R88, 07 R162, 08 R216, 09 R222, 14 R335, 15 R360, 16 R375, R376, 17 R400, R402, R413,
18 R439). -/

namespace Sys2Proof.Machine

/-! ### Header and sections (R57–R62) -/

/-- Reasons of R62. -/
def rsNoKey : Nat := 1
def rsKeyMismatch : Nat := 2
def rsSignature : Nat := 3
def rsRollback : Nat := 4
def rsFormat : Nat := 5
def rsSectionCrc : Nat := 6
def rsNvm : Nat := 7
def rsMismatch : Nat := 8

def slotSize : Nat := 0x4000000
/-- NVM offset of a slot (R57). -/
def slotBase (n : Nat) : Nat := if n = 0 then 0x10000 else 0x4010000

/-- Bytes of a slot. -/
def Block.slotBytes (b : Block) (n o len : Nat) : List Byte := mread b.boot.nvm (slotBase n + o) len

/-- Header fields (R58). -/
def Block.slotHeader (b : Block) (n : Nat) : List Byte := b.slotBytes n 0 256
def hdLen (h : List Byte) : Nat := u32 h 8
def hdCount (h : List Byte) : Nat := u32 h 12
def hdRollback (h : List Byte) : Nat := u8 h 16
def hdDev (h : List Byte) : Bool := (u8 h 17).testBit 0
def hdPubkey (h : List Byte) : List Byte := slice h 64 97

/-- Section-table entries of a slot (R59). -/
def Block.slotSections (b : Block) (n : Nat) : List (List Byte) :=
  (List.range (hdCount (b.slotHeader n))).map fun i => b.slotBytes n (256 + 32 * i) 32
def scType (e : List Byte) : Nat := u16 e 0
def scFlags (e : List Byte) : Nat := u16 e 2
def scOffset (e : List Byte) : Nat := u32 e 4
def scLength (e : List Byte) : Nat := u32 e 8
def scCrc (e : List Byte) : Nat := u32 e 12

/-- FLAGS of a section type (R60); none for a type that does not exist. -/
def typeFlags (t : Nat) : Option Nat :=
  if t = 1 ∨ t = 2 then some 2 else if t = 5 then some 1 else if t = 3 ∨ t = 4 ∨ 6 ≤ t ∧ t ≤ 8 then some 0 else none

/-- Sections in the order of their offsets lie behind the table, on 8-byte boundaries, and do not overlap. -/
def sectionsApart : Nat → List (List Byte) → Bool
  | _, [] => true
  | lo, e :: r => scOffset e % 8 == 0 && scLength e % 8 == 0 && decide (lo ≤ scOffset e) && sectionsApart (scOffset e + scLength e) r

/-- Insert by offset. -/
def insertSection (e : List Byte) : List (List Byte) → List (List Byte)
  | [] => [e]
  | x :: r => if scOffset e ≤ scOffset x then e :: x :: r else x :: insertSection e r

/-- Check 2 of R62 as far as header and section table show it. -/
def headerOk (h : List Byte) (ss : List (List Byte)) : Bool :=
  let byOff := ss.foldr insertSection []
  let count (t : Nat) : Nat := (ss.filter fun e => scType e == t).length
  u32 h 0 == 0x50524F45 && u16 h 4 == 1 && u16 h 6 == 256 && decide (1 ≤ hdCount h) && decide (hdCount h ≤ 64) &&
    decide (hdLen h + 128 ≤ slotSize) && sectionsApart (256 + 32 * hdCount h) byOff &&
    (match byOff.getLast? with | some e => scOffset e + scLength e == hdLen h | none => false) &&
    (ss.all fun e => typeFlags (scType e) == some (scFlags e)) && ([1, 2, 3, 4, 5, 6, 7].all fun t => count t == 1) && decide (count 8 ≤ 1)

/-- Checks 1 to 4 of R62: the first reason that applies, 0 for none. -/
def Block.headerReason (b : Block) (f : Fuses) (n : Nat) : Nat :=
  let h := b.slotHeader n
  if f.keyHash.isEmpty ∨ b.boot.keyReadError then rsNoKey
  else if !(decide (1 ≤ hdCount h) && decide (hdCount h ≤ 64) && headerOk h (b.slotSections n)) then rsFormat
  else if Config.sha384 (hdPubkey h) != f.keyHash || hdDev h != f.keyDev then rsKeyMismatch
  else if hdRollback h < f.rollback then rsRollback
  else 0

/-! ### What the sections spell -/

/-- Threads, loops and routes (07 R162, 09 R222). -/
def threadOk (e : List Byte) : Bool :=
  inRange 0 31 (u8 e 0) && inRange 0 15 (u8 e 1) && inRange 1 255 (u8 e 2) && inRange 0 15 (u8 e 3) && inRange 0 255 (u16 e 4) &&
    inRange 0 4096 (u16 e 6) && u16 e 6 % 4 == 0 && inRange 16 16777215 (u32 e 8) && u32 e 12 % 4 == 0 && u32 e 16 % 64 == 0 &&
    decide (u32 e 16 + u16 e 6 ≤ 0x400000) && zeros e 20 12

/-- Used threads of an image. -/
def usedThreads (t : Tab (List Byte)) : List (Nat × List Byte) := (entsOf t tThread).filter fun p => (u8 p.2 1).testBit 0

/-- Intervals [base, base + size) that do not overlap. -/
def spansApart (l : List (Nat × Nat)) : Bool :=
  match l with
  | [] => true
  | p :: r => (r.all fun q => p.2 == 0 || q.2 == 0 || decide (p.1 + p.2 ≤ q.1) || decide (q.1 + q.2 ≤ p.1)) && spansApart r

/-- 07 R162. -/
def loopDescOk (e : List Byte) : Bool :=
  (u16 e 0 == 0xFFFF || inRange 0 4095 (u16 e 0)) && inRange 0 1 (u8 e 2) && zeros e 3 1 && zeros e 8 8

/-- No value twice. -/
def distinct (l : List Nat) : Bool :=
  match l with
  | [] => true
  | x :: r => !r.contains x && distinct r

/-- 07 R162, 09 R222. -/
def threadsOk (t : Tab (List Byte)) : Bool :=
  let us := usedThreads t
  let loops := ((entsOf t tLoop).map (·.2)).filter fun e => u16 e 0 != 0xFFFF
  let sets := entsOf t tCodeSet
  let holds (n th : Nat) : Bool := sets.any fun p => u16 p.2 0 == n && (slotOf p.2 th).isSome
  ((entsOf t tLoop).all fun p => loopDescOk p.2) && distinct (loops.map fun e => u16 e 0) && (us.all fun p => threadOk p.2) &&
    spansApart (us.map fun p => (u32 p.2 16, u16 p.2 6)) && (us.all fun p => holds (u16 p.2 4) p.1) &&
    (loops.all fun l =>
      let d := ent t tThread (u16 l 0)
      !(u8 d 1).testBit 0 || (!(u8 d 1).testBit 1 && u8 d 2 == ((entsOf t tRoute).filter fun r => u16 r.2 4 == u16 l 0).length)) &&
    (us.all fun p => us.all fun q => u16 p.2 4 != u16 q.2 4 || (u8 p.2 1).testBit 2 == (u8 q.2 1).testBit 2) &&
    (let rs := (entsOf t tRole).filter fun p => u8 p.2 1 != 0xFF
     rs.all fun p => rs.all fun q => u8 p.2 1 != u8 q.2 1 || (decide (36 ≤ p.1) == decide (36 ≤ q.1)))

/-- 08 R216, R222: the code sets. -/
def codeSetsOk (t : Tab (List Byte)) : Bool :=
  let sets := (entsOf t tCodeSet).map (·.2)
  let slots (e : List Byte) : List (Nat × Nat × Nat) :=
    (List.range (u16 e 8)).map fun i => (u16 e (64 + 8 * i), u16 e (68 + 8 * i), u16 e (70 + 8 * i))
  let used := usedThreads t
  (sets.all fun e =>
    let n := u16 e 2
    let h := u32 e 4
    spansApart ((slots e).map (·.2)) && ((slots e).all fun s => decide (s.2.1 + s.2.2 ≤ n)) &&
      (h == 0 || (decide (h + 64 ≤ 4 * n) && (List.range 16).all fun c => decide (u32 e (h + 4 * c) < 4 * n))) &&
      ((slots e).all fun s => used.any fun p => p.1 == s.1)) &&
    distinct ((sets.map fun e => (slots e).map (·.1)).flatten)

/-- 14 R335. -/
def takesOk (t : Tab (List Byte)) : Bool :=
  (entsOf t tTake).all fun p =>
    decide (u32 p.2 24 ≤ u32 p.2 20) && decide (u32 p.2 16 + u32 p.2 20 ≤ 32768 * u8 (ent t tShare (u8 p.2 0)) 0)

/-- 15 R360. -/
def tripAssignsOk (t : Tab (List Byte)) : Bool :=
  let es := (entsOf t tTripAssign).map (·.2)
  let cycles := (entsOf t tTripSrc).filter fun p => (u32 p.2 0).testBit 2
  decide (es.length ≤ 336) && sidsAscend (es.map fun e => u8 e 0 * 65536 + u16 e 2) &&
    es.all fun e =>
      let k := u8 e 0
      (if k = 0 then inRange 0 47 (u16 e 2) else if k = 1 then inRange 0 191 (u16 e 2) else if k = 2 then inRange 0 31 (u16 e 2)
       else k == 3 && inRange 0 63 (u16 e 2)) &&
        inRange 0 3 (u8 e 1) && (k == 2 || u32 e 4 == 0) && (k == 0 || cycles.all fun p => !(u64 e 8).testBit p.1)

/-- 16 R375: an axis descriptor. -/
def axisOk (e : List Byte) : Bool :=
  let rotary := (u8 e 0).testBit 1
  let medium := (u8 e 0).testBit 2
  let codes := [44, 45, 46, 47].map fun o => u8 e o
  let used := codes.filter (· != 0xFF)
  let ups := (List.range (used.length - 1)).map fun i => w32 e (48 + 4 * i)
  !(u8 e 1 % 4 == 3) && decide (u8 e 1 < 4) && inRange 1 65535 (u16 e 2) &&
    (if rotary then inRange 256 0x7FFFFFFF (u32 e 4) else u32 e 4 == 0) && (medium || u32 e 12 == 0) && decide (s32 e 16 < s32 e 20) &&
    inRange 1 0x7FFFFFFF (u32 e 24) && inRange 1 65535 (u16 e 28) && inRange 0 2 (u8 e 30) &&
    (if u8 e 30 = 2 then inRange 48 63 (u8 e 31) else u8 e 31 == 0xFF || inRange 48 63 (u8 e 31)) && decide (1 ≤ u16 e 32) &&
    decide (1 ≤ u16 e 34) && inRange 8 32 (u8 e 36) && inRange 0 1 (u8 e 37) && inRange 10 1000 (u16 e 38) && inRange 1 100 (u8 e 40) &&
    decide (2 ≤ u8 e 41) && decide (1 ≤ u8 e 42) && inRange 0 15 (u8 e 43) && (codes.all fun c => c == 0xFF || decide (c ≤ 8)) &&
    sidsAscend (used.reverse) && xAscending ups && inRange 0 127 (u8 e 60) && (u16 e 62 == 0 || inRange 10 65535 (u16 e 62))

/-- 16 R375, R376. -/
def axesOk (t : Tab (List Byte)) : Bool :=
  (entsOf t tAxis).all fun p =>
    !(u8 p.2 0).testBit 0 ||
      (axisOk p.2 &&
        (let medium := (u8 p.2 0).testBit 2
         (!medium || (entsOf t tTripAssign).all fun q => !(u8 q.2 0 == 3 && u16 q.2 2 == p.1) || u64 q.2 8 == 0) &&
           (List.range 16).all fun k =>
             !hasEnt t tProfile (16 * p.1 + k) ||
               !profileBad medium (f32Rat (w32 p.2 8)) (f32Rat (w32 p.2 12)) (ent t tProfile (16 * p.1 + k))))

/-- 17 R400: a used timing set, with the rates of R398. -/
def timingOk (e : List Byte) : Bool :=
  let fl := u8 e 9
  let nq := u8 e 0 * (1 + u8 e 1 + u8 e 2)
  let dq := u8 e 4 * (1 + u8 e 5 + u8 e 6)
  !fl.testBit 3 ||
    (inRange 1 32 (u8 e 0) && inRange 2 128 (u8 e 1) && inRange 1 64 (u8 e 2) && inRange 1 (u8 e 2) (u8 e 3) && decide (80 ≤ nq) &&
      (u8 e 4 == 0 || (inRange 1 8 (u8 e 4) && inRange 1 32 (u8 e 5) && inRange 1 16 (u8 e 6) && inRange 1 (u8 e 6) (u8 e 7) &&
        decide ((if fl.testBit 1 then 4 else 10) ≤ dq))) &&
      inRange 0 127 (u8 e 8) && inRange 0 15 fl && zeros e 10 6)

/-- 17 R402, R413, 18 R439. -/
def canOk (t : Tab (List Byte)) : Bool :=
  let rx := ((entsOf t tRxo).map (·.2)).filter fun e => (u8 e 1).testBit 0
  let tx := (entsOf t tTxo).filter fun p => (u8 p.2 0).testBit 0
  let exact := (rx.filter fun e => !(u8 e 1).testBit 2).map fun e => (u8 e 0 * 2 + b2n ((u8 e 1).testBit 1)) * 2 ^ 32 + u32 e 4
  let node (b n : Nat) : Bool := n == 0xFF || (u8 (ent t tNode (256 * b + n)) 0).testBit 0
  let set := ent t tSafety 0
  let safe (c : Nat) : List Nat := ((List.range 16).filter fun k => (u8 set (224 + 16 * k)).testBit 0).map fun k =>
    u16 set (228 + 16 * k + 2 * (c - 6))
  ((entsOf t tCanSet).all fun p => timingOk p.2) && decide ((rx.filter fun e => (u8 e 1).testBit 6).length ≤ 256) && distinct exact &&
    ((entsOf t tNode).all fun p =>
      inRange 0 1 (u8 p.2 0) && zeros p.2 1 1 && (if (u8 p.2 0).testBit 0 then decide (1 ≤ u16 p.2 2) else u16 p.2 2 == 0)) &&
    (rx.all fun e => node (u8 e 0) (u8 e 2)) && (tx.all fun p => node (p.1 / 512) (u8 p.2 1)) &&
    tx.all fun p => decide (p.1 / 512 < 6) || (u8 p.2 0).testBit 1 || !(safe (p.1 / 512)).contains (u32 p.2 4)

/-- Every rule that fails an image with reason FORMAT once its sections have been read. -/
def tablesOk (im : ImageTables) : Bool :=
  let bank := tabOf im.banked
  let t := tabOf im.fixed
  keysAscend im.banked && keysAscend im.fixed && bankFieldsOk bank && tablesRelOk bank && consRelOk bank && catalogueOk t && threadsOk t &&
    codeSetsOk t && takesOk t && tripAssignsOk t && axesOk t && canOk t

/-- Checks 2 and 5 of R62 when the last section has been read. -/
def Block.streamReason (b : Block) (n : Nat) (im : ImageTables) : Nat :=
  if !tablesOk im then rsFormat
  else if (b.slotSections n).all fun e => crc32 (b.slotBytes n (scOffset e) (scLength e)) == scCrc e then 0
  else rsSectionCrc

/-- Check 6 of R62 (R61). -/
def Block.signatureReason (b : Block) (n : Nat) : Nat :=
  let h := b.slotHeader n
  let s := b.slotBytes n (hdLen h) 128
  if zeros s 96 32 && Config.ecdsaVerify (hdPubkey h) (Config.sha384 (b.slotBytes n 0 (hdLen h))) (s.take 96) then 0 else rsSignature

/-- The whole check of a slot (R62). -/
def Block.slotReason (b : Block) (f : Fuses) (n : Nat) (nvmOk : Bool) (im : ImageTables) : Nat :=
  let h := b.headerReason f n
  if f.keyHash.isEmpty ∨ b.boot.keyReadError then rsNoKey
  else if !nvmOk then rsNvm
  else if h ≠ 0 then h
  else
    let s := b.streamReason n im
    if s ≠ 0 then s else b.signatureReason n

/-- Write a slot's check result (R85): its ROLLBACK once the header has passed check 2. -/
def Block.showSlot (b : Block) (n reason : Nat) : Block :=
  let rb := if reason = rsNoKey ∨ reason = rsFormat ∨ reason = rsNvm then 0 else hdRollback (b.slotHeader n)
  b.wrN (Reg.imgSlotStatus n) (2 ^ 24 + 65536 * rb + (if reason = 0 then 0 else 0x4100 + reason))

end Sys2Proof.Machine
end

