-- ==== Sys2Proof/Machine/Startup.lean ====
section
/-! DEFINITION. Machine/Startup.lean: resets, the cold start from POR_N to AWAIT_WORLD, the panel input and the SYS commands (03 R49–R56,
R62–R67, R72–R77; 23 R519). -/

namespace Sys2Proof.Machine

/-- A meaning that reads the fuses. -/
def nextF (s : State) (f : Fuses → Block → Block) : Host.Outcome State Fault Refusal := .next { s with b := f s.fuses s.b }

/-! ### Resets (R55, R72, R77) -/

/-- Registers that a reset leaves: what is kept while VDD_AON is present (22 R510), what the clock, supply and pin monitors see, and the
mirror of an MI that keeps running. `keep` are bits of CLK.FLAGS. -/
def keptRegs (rs : Tab Word) (mi : Bool) (keep : Nat) : Tab Word :=
  let own := rs.filter fun p =>
    p.1 == Reg.clkRefclkLosses || p.1 == Reg.clkSupplyState || p.1 / 0x20 == Reg.dioIn 0 / 0x20 || (!mi && p.1 / 0x100000 == 0x14) ||
      (!mi && p.1 == Reg.sysPanel)
  let t := tput own Reg.clkFlags (BitVec.ofNat 32 ((rdR rs Reg.clkFlags).toNat &&& (0x20 ||| keep)))
  tput t Reg.clkState (BitVec.ofNat 32 ((rdR rs Reg.clkState).toNat % 64))

/-- What an MI that POR_N resets keeps: its event log and the management region (20 R485, R476). -/
def Mgmt.kept (m : Mgmt) : Mgmt :=
  { log := m.log, nvmLog := m.nvmLog, nextSeq := m.nextSeq, rate := m.rate, addr := m.addr, smbAddr := m.smbAddr, aonSince := m.aonSince,
    thermalHold := m.thermalHold }

/-- A write of a slot in progress is interrupted (R72, R77): what its bytes then are is free (log 4). -/
def Block.breakWrite (b : Block) : Block :=
  match b.boot.op with
  | some o =>
    if o.kind = 1 then
      let d := b.drawBytes o.op.data.length
      { d.2 with boot := { d.2.boot with nvm := mwrite d.2.boot.nvm (slotBase o.slot + o.offset) d.1, op := none } }
    else b
  | none => b

/-- The completions that a running MI still holds for the link (20 R482). -/
def heldForLink (l : List Slot) : List Slot :=
  (l.filter fun x => x.src == 0xFFFF && x.first.isSome).map fun (x : Slot) => if x.final.isSome then x else { x with two := false }

/-- Reset of the CP and MP, and with `mi` of the MI: every register, memory and machine returns to its reset state (R55, R72, R77). What
outlasts it: the NVM, the counts and sets that the MI keeps there, host memory, and the levels that the outside drives. -/
def Block.resetAll (b : Block) (mi : Bool) (keep : Nat) : Block :=
  let b := b.breakWrite
  let pins := (b.trips.filter fun p => decide (p.1 < 16)).map fun (p : Nat × TripSt) => (p.1, ({ pin := p.2.pin } : TripSt))
  let o : OutSt := { mem := b.out.mem, regs := [(Reg.recBootId, rdR b.out.regs Reg.recBootId)],
                     slots := if mi then [] else heldForLink b.out.slots }
  let bt : Boot := { t0 := b.elapsed, nvm := b.boot.nvm, sel0 := b.boot.sel0, sel1 := b.boot.sel1, panelLow := b.boot.panelLow,
                     panelLong := b.boot.panelLong }
  { regs := keptRegs b.regs mi keep, out := o, elapsed := b.elapsed, refclk := b.refclk, free := b.free, boot := bt,
    mgmt := if mi then b.mgmt.kept else b.mgmt, trips := pins, tripBank := b.tripBank,
    cal := { count := b.cal.count, curves := b.cal.curves, taken := b.cal.taken },
    saf := { inForce := b.saf.inForce, taken := b.saf.taken, count := b.saf.count } }

/-- A cold start begins (R50): the reset's cause is shown, and the safety demands and, without REFCLK, CLOCK_LOSS are active (18 R427,
15 R359). -/
def Block.newStart (b : Block) (cause : Nat) : Block :=
  let b := { b with boot := { b.boot with t0 := b.elapsed, milestone := 0, waitRefclk := !b.refclk } }
  let b := b.setFld Reg.sysState 16 8 cause
  let b := (b.setFld Reg.clkState 0 1 (b2n b.refclk)).count Reg.recBootId
  let b := [40, 41, 42, 43].foldl (fun (b : Block) s => b.driveSrc s true) b
  (b.driveSrc srcClockLoss (!b.refclk)).log 1 0x01 (leBytes 1 cause)

/-- A commanded cold restart's reset (R77), also the one of a brown-out or a thermal shutdown (22 R506, R508). -/
def Block.coldRestart (b : Block) (cause keep : Nat) : Block :=
  let back := b.mgmt.refRestored.isSome
  let b := b.resetAll false keep
  { b with boot := { b.boot with por := false }, mgmt := { b.mgmt with refRestored := none }, refclk := b.refclk || back }.newStart cause

/-- The island after a reset (18 R427, R429). -/
def islandReset (refclk : Bool) (elapsed : Nat) : SiSt := { refLost := !refclk, refSince := elapsed }

/-- Reset CP, MP and SI, the MI running on. -/
def State.coldRestart (s : State) (cause keep : Nat) : State :=
  let b := s.b.coldRestart cause keep
  { s with b := b, si := islandReset b.refclk b.elapsed }

/-- An assertion of POR_N takes effect (R72). -/
def State.porAssert (s : State) : State :=
  let b := s.b.resetAll true 0
  { s with b := b, si := islandReset b.refclk b.elapsed }

/-- R72: pulses below 100 ns are ignored, those of 1 µs act, and of one between which of the two happens is free (log 4). -/
def execPorNAssert (lowNs : Nat) (s : State) : Host.Outcome State Fault Refusal :=
  .next (if lowNs < 100 then s
    else if 1000 ≤ lowNs then s.porAssert
    else
      let d := s.b.drawBool
      if d.1 then { s with b := d.2 }.porAssert else { s with b := d.2 })

/-- R50, R53, R74; 23 R519. -/
def execPorNRelease (refclkOk panelLow testEn : Bool) (s : State) : Host.Outcome State Fault Refusal :=
  .next (if !s.b.boot.por then s else
    let b := s.b
    let b := { b with refclk := refclkOk, boot := { b.boot with por := false, testHold := testEn, panelLow := b.elapsed, panelLong := false } }
    let b := (b.setFld Reg.clkState 5 1 (b2n (!refclkOk))).wrN Reg.sysPanel (if panelLow then 3 else 0)
    let b := b.newStart 1
    let b := if refclkOk then b else b.log 1 0x02
    { s with b := b, si := islandReset refclkOk b.elapsed })

/-- R53: the moment at which REFCLK becomes valid is t0. -/
def execRefclkValidAtBoot (s : State) : Host.Outcome State Fault Refusal :=
  .next (if !s.b.boot.waitRefclk || s.b.boot.por then s else
    let b := s.b
    let b := { b with refclk := true, boot := { b.boot with waitRefclk := false, t0 := b.elapsed, milestone := 0 } }
    { s with b := (b.setFld Reg.clkState 0 1 1).setFld Reg.clkState 5 1 0, si := { s.si with refSince := b.elapsed } })

/-! ### From t1 to t6 (R50, R62–R66) -/

/-- Has the cold start passed exactly the point `t`, in device state `d`? -/
def Block.atPoint (b : Block) (d t : Nat) : Bool := b.started && b.dev == d && b.boot.milestone == t

def Block.setPoint (b : Block) (t : Nat) : Block := { b with boot := { b.boot with milestone := t } }

/-- `IMG.FUSE` (R85). -/
def Block.showFuses (b : Block) (f : Fuses) : Block :=
  let k := if b.boot.keyReadError then 3 else if f.keyHash.isEmpty then 0 else if f.keyDev then 2 else 1
  b.wrN Reg.imgFuse (k + 256 * f.rollback)

/-- t1 (R50). The root PLL and those that follow it are locked by now (log 32), and REFCLK has been valid for 2 ms (15 R359). -/
def execFusesRead (readError : Bool) (s : State) : Host.Outcome State Fault Refusal :=
  nextF s fun f b =>
    if !b.atPoint dsBoot 0 then b else
    let b := { b with boot := { b.boot with keyReadError := readError } }
    (((b.showFuses f).setFld Reg.clkState 1 4 0xF).driveSrc srcClockLoss false).setPoint 1

/-- The selection record in force and its copy (R64): the valid one with the serially higher sequence number. -/
def Block.selNow (b : Block) : SelRec × Bool :=
  let x := b.boot.sel0
  let y := b.boot.sel1
  if x.ok && (!y.ok || decide ((x.seq + 65536 - y.seq) % 65536 < 32768)) then (x, false)
  else if y.ok then (y, true) else ({}, true)

/-- `IMG.SELECT` (R85). -/
def Block.showSel (b : Block) : Block :=
  let r := b.selNow.1
  b.wrN Reg.imgSelect (r.slot % 2 + 2 * b2n r.trial + 4 * b2n r.tried + 65536 * r.seq)

/-- Write a selection record to the other copy (R64). -/
def Block.selWrite (b : Block) (slot : Nat) (trial tried : Bool) : Block :=
  let c := b.selNow
  let r : SelRec := { ok := true, seq := (c.1.seq + 1) % 65536, slot := slot, trial := trial, tried := tried }
  { b with boot := if c.2 then { b.boot with sel0 := r } else { b.boot with sel1 := r } }.showSel

/-- No slot is under check: both failed for want of a key (R65). -/
def noSlot : Nat := 2

/-- t2 (R50, R54, R65). -/
def execNvmDiscovered (tablesOk : Bool) (s : State) : Host.Outcome State Fault Refusal :=
  nextB s fun b =>
    if !b.atPoint dsBoot 1 then b else
    let b := (b.setDev dsImageCheck).setPoint 2
    if !tablesOk then
      { b with boot := { b.boot with checking := noSlot } }.setFld Reg.sysState 8 8 rsNvm |>.setDev dsFailed
    else
      let r := b.selNow.1
      let b := if r.trial && r.tried then b.selWrite (1 - r.slot) false false
        else if r.trial then b.selWrite r.slot true true else b.showSel
      { b with boot := { b.boot with checking := b.selNow.1.slot, other := false } }

/-- A slot's check fails (R63, R65): the other slot is tried at once. -/
def Block.failSlot (b : Block) (reason : Nat) (read : Bool) : Block :=
  let n := b.boot.checking
  let b := b.showSlot n reason
  let b := if reason = rsNvm ∧ read then b.setFld (Reg.imgSlotStatus n) 16 8 (hdRollback (b.slotHeader n)) else b
  if !b.boot.other then
    { b with boot := { b.boot with checking := 1 - n, other := true, firstReason := reason, streamed := none, milestone := 2 } }.setFld
      Reg.sysState 8 8 reason
  else if b.boot.firstReason = rsNoKey ∧ reason = rsNoKey then { b with boot := { b.boot with checking := noSlot } }
  else b.setDev dsFailed

/-- Is a slot under check, the cold start having passed point `t`? -/
def Block.checkingAt (b : Block) (t : Nat) : Bool := b.atPoint dsImageCheck t && decide (b.boot.checking < 2)

/-- t3: checks 1 to 4 of R62. -/
def execHeaderRead (s : State) : Host.Outcome State Fault Refusal :=
  nextF s fun f b =>
    if !b.checkingAt 2 then b else
    let r := b.headerReason f b.boot.checking
    if r = 0 then b.setPoint 3 else b.failSlot r false

/-- t5: what check 2 says of the sections' content, and check 5. -/
def execImageStreamEnd (tables : ImageTables) (s : State) : Host.Outcome State Fault Refusal :=
  nextB s fun b =>
    if !b.checkingAt 3 then b else
    let r := b.streamReason b.boot.checking tables
    if r = 0 then { b with boot := { b.boot with streamed := some tables } }.setPoint 5 else b.failSlot r true

/-- R63: anywhere from t2 to t5. -/
def execNvmReadError (s : State) : Host.Outcome State Fault Refusal :=
  nextB s fun b =>
    if b.checkingAt 2 then b.failSlot rsNvm false else if b.checkingAt 3 then b.failSlot rsNvm true else b

/-- The safety parameters in force (18 R450). -/
def Block.safLoad (b : Block) : Block :=
  let img := b.fix tSafety 0
  let b := if img = b.saf.taken then b
    else { b with saf := { b.saf with taken := img, inForce := img, count := (b.saf.count + 1) % 2 ^ 32 } }.log 1 0x0A
  b.wrN Reg.safParamCount b.saf.count

/-- `IMG.BANK_CRC` (R85). -/
def Block.showBankCrc (b : Block) : Block := b.wr Reg.imgBankCrc (Config.bankCrc b.idleBank)

/-- t6 (R50, R61, R65, R68): the tables are valid, bank A is active and B is OPEN and empty. -/
def execSignatureVerified (s : State) : Host.Outcome State Fault Refusal :=
  .next (
    let b := s.b
    if !b.checkingAt 5 then s else
    let n := b.boot.checking
    let r := b.signatureReason n
    if r ≠ 0 then { s with b := b.failSlot r true } else
    let im := b.boot.streamed.getD {}
    let b := { b with cfg := tabOf im.fixed, bankA := tabOf im.banked, bankB := [], boot := { b.boot with streamed := none } }
    let b := ((b.showSlot n 0).wrN Reg.imgBank 0).showBankCrc
    let b := if b.boot.other then (b.log 3 0x01 (leBytes 2 n)).raise Reg.imgFlags 0 else b
    let b := (b.calLoad.safLoad).setPoint 6
    { s with b := b, si := { s.si with passed := b.saf.inForce, count := b.saf.count } })

/-! ### From t7 to t10 (R50, R55, R56) -/

/-- The pairs take their image configuration (15 R372, laid out as `PWM.CONFIG`, log 8); an enabled one runs. -/
def Block.pairsInit (b : Block) : Block :=
  (entsOf b.cfg tPair).foldl (fun (b : Block) p =>
    let n := p.1
    let b := b.applyPairCfg n p.2
    if (u8 p.2 1).testBit 5 then ((b.putPr n { start := b.now + 4 }).setPrState n pwRunning).slowStart n else b) b

/-- The trip sources take their configuration (15 R372); pins show their levels under it. -/
def Block.tripsInit (b : Block) : Block :=
  let b := (entsOf b.cfg tTripSrc).foldl (fun (b : Block) p => b.wrN (Reg.trpSrcCfg p.1) (u32 p.2 0 &&& 0xFF7FF)) b
  (List.range 16).foldl (fun (b : Block) s => b.pinShow s) b

/-- The reel's segments of 64 KiB (11 R282): the fitted DDR4, 8 to 32 GiB, less the staging region. Which size is fitted is free (log 4). -/
def Block.reelInit (b : Block) : Block :=
  let d := b.drawNat
  let gib := 8 + d.1 % 25
  (d.2.wrN Reg.recReelSegments (16384 * gib - 1024)).setFld Reg.recState 0 1 1

/-- t7: recording starts, outputs take INIT, the trip network is armed, the MI starts its firmware. -/
def execOutputsInit (s : State) : Host.Outcome State Fault Refusal :=
  nextB s fun b =>
    if !b.checkingAt 6 then b else
    let b := b.tripsInit.reelInit.setPoint 7
    let b := b.pairsInit.dioInit.anaInit.acqInit.axesInit
    let b := b.canInit.serInit.nodesInit.seqInit.ledgerInit
    let b := (entsOf b.cfg tChamber).foldl (fun (b : Block) p => b.setFld (Reg.wldChamber p.1) 1 1 1) b
    let b := { b with mgmt := { b.mgmt with firmware := true } }
    b.outputsInit.armTrips

/-- Engines take role and code set from the image (08 R188, R216). -/
def Block.enginesInit (b : Block) : Block :=
  (List.range 40).foldl (fun (b : Block) e =>
    let d := b.fix tRole e
    if !hasEnt b.cfg tRole e then b.wrN (Reg.engRole e) 0xFF03
    else
      let role := u8 d 0 % 4
      let b := b.wrN (Reg.engRole e) (role + 256 * u8 d 1)
      if role = 1 then { b.putEng e { b.eng e with inReset := false } with cont := b.cont }.setEg e egStandin
      else if role = 3 then b
      else (if u8 d 1 = 0xFF then b.putEng e { b.eng e with inReset := false } else b.loadSet e (u8 d 1)).setEg e egIdle) b

/-- The trace bits and the priorities that the registers show come from the descriptors (09 R222, R241). -/
def Block.traceInit (b : Block) : Block :=
  (entsOf b.cfg tThread).foldl (fun (b : Block) p =>
    if (u8 p.2 1).testBit 0 then
      (b.setFld (Reg.dspTraceEn (p.1 / 32)) (p.1 % 32) 1 (b2n ((u8 p.2 1).testBit 3))).setFld (Reg.dspThreadState p.1) 7 5 (b.thPrio p.1)
    else b) b

/-- t8 and t9: the MP is loaded and self-tested; service threads become WAITING. -/
def execEnginesSelfTested (failed : List (Fin 40)) (s : State) : Host.Outcome State Fault Refusal :=
  nextB s fun b =>
    if !b.checkingAt 7 then b else
    let b := (b.wrN Reg.engSramSplit (u32 (b.fix tImage 0) 0 % 2 ^ 24)).traceInit.enginesInit.setPoint 9
    let ts := ((entsOf b.cfg tThread).map (·.1)).filter fun t => b.thUsed t && b.isService t
    let b := ts.foldl (fun (b : Block) t => b.enableThread t) b
    failed.foldl (fun (b : Block) e => if egWatched (b.egState e.val) then b.fence e.val 4 b.now true else b) b

/-- What `IMG.RUNNING` and `IMG.BUILD_ID` show of the running image (R85). -/
def Block.showRunning (b : Block) : Block :=
  let n := b.boot.checking
  let h := b.slotHeader n
  let b := b.wrN Reg.imgRunning (n + 2 + 4 * b2n (hdDev h) + 256 * hdRollback h)
  (List.range 8).foldl (fun (b : Block) i => b.wrN (Reg.imgBuildId i) (u32 h (32 + 4 * i))) b

/-- t10 (R50, R52). -/
def execAwaitWorldEntry (s : State) : Host.Outcome State Fault Refusal :=
  nextB s fun b =>
    if !b.checkingAt 9 then b else
    let b := ((b.setPoint 10).showRunning).wrN Reg.sysStartUs (satNat 0xFFFFFFFF ((b.elapsed - b.boot.t0) / 1000))
    ((b.setFld Reg.sysState 8 8 0).setDev dsAwaitWorld).serviceBack

/-! ### SYS commands (R76–R78, R82) -/

def devAll : List Nat := [dsImageCheck, dsAwaitWorld, dsOperational, dsRestart, dsSafeStop, dsFailed]
def devRun : List Nat := [dsAwaitWorld, dsOperational, dsRestart, dsSafeStop]

/-- Is a lane in one of the given states? -/
def Block.lanesIn (b : Block) (l : List Nat) : Bool := (List.range 16).any fun n => l.contains (b.lnState n)

/-- R77, R82. -/
def execSysColdRestart (c : Cmd) (s : State) : Host.Outcome State Fault Refusal :=
  nextB s fun b =>
    b.runDone 0x0001 c [authCheck c roleOperator, devCheck b devAll, envCheck c, noObject c,
      deny (!(u8 (cArg c) 0).testBit 0 && b.lanesIn [lsRunning, lsHeld]) stConflict 0x01 b.dev] fun b =>
      { b with boot := { b.boot with restartBy := some (if issuerIsHost c.issuer then 2 else 3) } }

/-- R77: the reset that an accepted `SYS.COLD_RESTART` asked for. -/
def execColdRestartReset (s : State) : Host.Outcome State Fault Refusal :=
  .next (match s.b.boot.restartBy with
    | some cause => s.coldRestart cause (b2n (s.b.mgmt.refRestored.isSome))
    | none => s)

/-- A safe-stop of all lanes (R76): in OPERATIONAL the device enters SAFE_STOP; during a continuity restart it does so at its end. -/
def Block.safeStopAll (b : Block) : Block :=
  let b := (List.range 16).foldl (fun (b : Block) n => b.lnAbort n) b
  if b.dev = dsRestart then { b with boot := { b.boot with stopAfterRestart := true } } else b.setDev dsSafeStop

/-- R76, R82. -/
def execSysSafeStopAll (c : Cmd) (s : State) : Host.Outcome State Fault Refusal :=
  nextB s fun b =>
    b.runDone 0x0002 c [authCheck c roleOperator, devCheck b [dsOperational, dsRestart], envCheck c, noObject c] fun b => b.safeStopAll

/-- R76, R82. -/
def execSysResume (c : Cmd) (s : State) : Host.Outcome State Fault Refusal :=
  nextB s fun b =>
    b.runDone 0x0003 c [authCheck c roleOperator, devCheck b [dsSafeStop], envCheck c, noObject c,
      deny (b.lanesIn [lsAborting, lsRunning, lsHeld]) stConflict 0x01 b.dev] fun b => b.setDev dsOperational

/-! ### The panel input (R73–R76) -/

/-- Is the debounced input low and not stuck? -/
def Block.pressed (b : Block) : Bool := b.bit Reg.sysPanel 0 && !b.bit Reg.sysPanel 1

/-- Presses are ignored in BOOT, IMAGE_CHECK and FAILED (R75). -/
def Block.panelIgnored (b : Block) : Bool := b.dev == dsBoot || b.dev == dsImageCheck || b.dev == dsFailed

/-- A press's request is refused (R75): the event of R46 with source 0xFFFE. -/
def Block.panelRefused (b : Block) (opcode : Nat) : Block :=
  ((b.raise Reg.sysPanelFlags 3).count Reg.sysStateConflicts).event (opcode / 256) sidDevice 2 stConflict 0 0xFFFE opcode b.dev

/-- R73: the press is recognised 20 ms after its first low edge. -/
def execPanelPress (s : State) : Host.Outcome State Fault Refusal :=
  nextB s fun b =>
    if b.boot.por || b.bit Reg.sysPanel 0 || b.bit Reg.sysPanel 1 then b else
    { b with boot := { b.boot with panelLow := b.elapsed - 20000000, panelLong := false } }.setFld Reg.sysPanel 0 1 1

/-- R73, R75: a release before 2 s, recognised 20 ms later. -/
def execPanelShortPress (s : State) : Host.Outcome State Fault Refusal :=
  nextB s fun b =>
    if !b.pressed || b.boot.panelLong then b else
    let b := b.setFld Reg.sysPanel 0 1 0
    if b.panelIgnored then b.raise Reg.sysPanelFlags 3
    else
      let b := b.raise Reg.sysPanelFlags 0
      if b.dev = dsRestart then b.panelRefused 0x0901 else b.beginRestart 3 false none

/-- R73, R75, R76: held at 2 s. -/
def execPanelLongPress (s : State) : Host.Outcome State Fault Refusal :=
  nextB s fun b =>
    if !b.pressed || b.boot.panelLong || decide (b.elapsed < b.boot.panelLow + 2000000000) then b else
    let b := { b with boot := { b.boot with panelLong := true } }
    if b.panelIgnored then b.raise Reg.sysPanelFlags 3
    else
      let b := b.raise Reg.sysPanelFlags 1
      if b.dev = dsOperational ∨ b.dev = dsRestart then b.safeStopAll else b.panelRefused 0x0002

/-- R73: a release after 2 s requests nothing further. -/
def execPanelLongRelease (s : State) : Host.Outcome State Fault Refusal :=
  nextB s fun b => if b.pressed && b.boot.panelLong then b.setFld Reg.sysPanel 0 1 0 else b

/-- R73: held at 10 s. -/
def execPanelStuck (s : State) : Host.Outcome State Fault Refusal :=
  nextB s fun b =>
    if !b.pressed || decide (b.elapsed < b.boot.panelLow + 10000000000) then b else
    ((b.setFld Reg.sysPanel 1 1 1).raise Reg.sysPanelFlags 2).log 5 0x07

/-- R73, R74: seen released for 100 ms. -/
def execPanelUnstuck (s : State) : Host.Outcome State Fault Refusal :=
  nextB s fun b =>
    if b.bit Reg.sysPanel 1 then { b with boot := { b.boot with panelLong := false } }.setFld Reg.sysPanel 0 2 0 else b

end Sys2Proof.Machine
end

