-- ==== Sys2Proof/Machine/Image.lean ====
section
/-! DEFINITION. Machine/Image.lean: the IMG commands: slots, selection, staging, table banks and fuses (03 R64, R66, R68–R70, R78–R85,
R528; 10 R260). -/

namespace Sys2Proof.Machine

/-- The running slot (R85), where one runs. -/
def Block.runningSlot (b : Block) : Option Nat := if b.bit Reg.imgRunning 1 then some (b.fld Reg.imgRunning 0 1) else none
/-- Is a slot verified (R85)? -/
def Block.verified (b : Block) (n : Nat) : Bool := b.bit (Reg.imgSlotStatus n) 24 && b.fld (Reg.imgSlotStatus n) 8 8 == 0

def Block.putOp (b : Block) (o : Option NvmOp) : Block := { b with boot := { b.boot with op := o } }

/-- The checks that slot commands share. -/
def Block.slotPre (b : Block) (c : Cmd) (role : Nat) (dev : List Nat) : List (Option Refuse) :=
  [authCheck c role, devCheck b dev, envCheck c, noObject c, deny (decide (1 < u8 (cArg c) 0)) stBadArg]

/-! ### Slots (R79–R83) -/

/-- R79, R83: the argument block holds the arguments and then the data (log 33). -/
def execImgSlotWrite (c : Cmd) (s : State) : Host.Outcome State Fault Refusal :=
  nextB s fun b =>
    let a := cArg c
    let d := a.drop 12
    let n := u8 a 0
    b.accept 0x0201 c [authCheck c roleMaintainer, devCheck b devAll, envCheck c, noObject c,
      deny (decide (1 < n) || !cExt c || u32 a 8 != d.length || decide (slotSize < u32 a 4 + u32 a 8)) stBadArg,
      deny (b.runningSlot == some n) stConflict 0x02 b.dev, deny b.boot.op.isSome stBusy] fun b =>
      (b.wrN (Reg.imgSlotStatus n) 0).putOp (some { kind := 1, slot := n, offset := u32 a 4, op := opOf c 0x0201 d })

/-- R83: the write ends; of one that the NVM fails the bytes are free (log 4). -/
def execSlotWriteDone (nvmOk : Bool) (s : State) : Host.Outcome State Fault Refusal :=
  nextB s fun b =>
    match b.boot.op with
    | some o =>
      if o.kind ≠ 1 then b
      else if nvmOk then
        let b := { b with boot := { b.boot with nvm := mwrite b.boot.nvm (slotBase o.slot + o.offset) o.op.data, op := none } }
        b.settle o.op false stDone
      else b.breakWrite.settle o.op false stInternal
    | none => b

/-- R62, R83. -/
def execImgSlotVerify (c : Cmd) (s : State) : Host.Outcome State Fault Refusal :=
  nextB s fun b =>
    b.accept 0x0202 c (b.slotPre c roleObserver devAll ++ [deny b.boot.op.isSome stBusy]) fun b =>
      b.putOp (some { kind := 2, slot := u8 (cArg c) 0, op := opOf c 0x0202 })

/-- Check a slot and show the result (R62, R85). Whether an unreadable NVM was met before the header is free (log 4). -/
def Block.checkSlot (b : Block) (f : Fuses) (n : Nat) (nvmOk : Bool) (im : ImageTables) : Block × Nat :=
  let r := b.slotReason f n nvmOk im
  let b := b.showSlot n r
  let h := b.headerReason f n
  if r = rsNvm ∧ h ≠ rsFormat then
    let d := b.drawBool
    (if d.1 then d.2.setFld (Reg.imgSlotStatus n) 16 8 (hdRollback (b.slotHeader n)) else d.2, r)
  else (b, r)

/-- R62, R85. -/
def execSlotVerifyDone (nvmOk : Bool) (tables : ImageTables) (s : State) : Host.Outcome State Fault Refusal :=
  nextF s fun f b =>
    match b.boot.op with
    | some o =>
      if o.kind ≠ 2 then b else
      let r := (b.putOp none).checkSlot f o.slot nvmOk tables
      let h := b.slotHeader o.slot
      if r.2 = 0 then r.1.settle o.op false stDone 0 (slice h 32 32 ++ leBytes 1 (hdRollback h))
      else r.1.settle o.op false stImage r.2
    | none => b

/-- R79: the new record is tried at the next cold start. A slot operation in progress keeps the NVM busy. -/
def execImgSelect (c : Cmd) (s : State) : Host.Outcome State Fault Refusal :=
  nextB s fun b =>
    let a := cArg c
    b.runDone 0x0203 c (b.slotPre c roleMaintainer devAll ++
      [deny (!b.verified (u8 a 0)) stConflict 0x03 b.dev, deny b.boot.op.isSome stBusy]) fun b =>
      b.selWrite (u8 a 0) ((u8 a 1).testBit 0) false

/-- R79. -/
def execImgConfirm (c : Cmd) (s : State) : Host.Outcome State Fault Refusal :=
  nextB s fun b =>
    b.runDone 0x0204 c [authCheck c roleMaintainer, devCheck b devRun, envCheck c, noObject c,
      deny (!b.selNow.1.trial) stConflict 0x04 b.dev] fun b => b.selWrite b.selNow.1.slot false false

/-- R80, R83. -/
def execImgStage (c : Cmd) (s : State) : Host.Outcome State Fault Refusal :=
  nextB s fun b =>
    b.accept 0x0205 c (b.slotPre c roleMaintainer [dsAwaitWorld, dsOperational, dsSafeStop] ++ [deny b.boot.op.isSome stBusy]) fun b =>
      let b := { b with boot := { b.boot with staged := none } }.wrN Reg.imgStage 1
      ((b.complete 0x0205 c stQueued).putOp (some { kind := 3, slot := u8 (cArg c) 0, op := opOf c 0x0205 }))

/-- Do the sections that are not STAGEABLE agree in length and CRC with the running image's (R80)? -/
def Block.sameFixed (b : Block) (n : Nat) : Bool :=
  let fixed (k : Nat) : List (Nat × Nat × Nat) :=
    ([3, 4, 5, 6, 7, 8].map fun t => ((b.slotSections k).filter fun e => scType e == t).map fun e => (t, scLength e, scCrc e)).flatten
  fixed n == fixed (b.fld Reg.imgRunning 0 1)

/-- R80: the check and the copy into the staging region end. -/
def execStageDone (nvmOk : Bool) (tables : ImageTables) (s : State) : Host.Outcome State Fault Refusal :=
  nextF s fun f b =>
    match b.boot.op with
    | some o =>
      if o.kind ≠ 3 then b else
      let q := (b.putOp none).checkSlot f o.slot nvmOk tables
      let r := if q.2 = 0 ∧ !b.sameFixed o.slot then rsMismatch else q.2
      let b := q.1
      if r = 0 then
        let b := { b with boot := { b.boot with staged := some tables, stagedSlot := o.slot } }
        (b.wrN Reg.imgStage (2 + 256 * hdRollback (b.slotHeader o.slot))).settle o.op true stDone
      else ((b.wrN Reg.imgStage 3).raise Reg.imgFlags 3).settle o.op true stImage r
    | none => b

/-- R257 t3, R260: the image region, or with INSTALL the staged sections, pass their CRC or not; a region that fails is read again from the
running slot, which is then checked as at a cold start. -/
def execImageRegionVerified (ok : Bool) (s : State) : Host.Outcome State Fault Refusal :=
  nextF s fun f b =>
    let n := b.fld Reg.imgRunning 0 1
    let crc := (b.slotSections n).all fun e => crc32 (b.slotBytes n (scOffset e) (scLength e)) == scCrc e
    b.regionVerified ok (b.headerReason f n == 0 && crc && b.signatureReason n == 0)

/-! ### Table banks (R68–R71, R528) -/

def bkOpen : Nat := 0
def bkClosed : Nat := 1
def bkPending : Nat := 2
/-- State of the inactive bank (R68). -/
def Block.bankState (b : Block) : Nat := b.fld Reg.imgBank 2 2
def Block.setBankState (b : Block) (st : Nat) : Block := b.setFld Reg.imgBank 2 2 st

/-- The checks that the bank commands share. -/
def Block.bankPre (b : Block) (c : Cmd) : List (Option Refuse) := [authCheck c roleOperator, devCheck b devRun, envCheck c, noObject c]

/-- R68, R83. -/
def execImgBankCopy (c : Cmd) (s : State) : Host.Outcome State Fault Refusal :=
  nextB s fun b =>
    b.runDone 0x0206 c (b.bankPre c ++ [deny (b.bankState == bkPending) stConflict 0 b.bankState]) fun b =>
      ((b.setIdleBank b.bank).setBankState bkOpen).showBankCrc

/-- Entries of `len` bytes each. -/
def chunks (len : Nat) (l : List Byte) : List (List Byte) := (List.range (l.length / len)).map fun i => slice l (len * i) len

/-- The entries that an `IMG.BANK_WRITE` carries: one of a byte pool, else as many as the data hold. -/
def bankEntries (k i len : Nat) (d : List Byte) : List (List Byte) := if k = tSerPart ∧ i < 16 then [d] else chunks len d

/-- R68, R528: entries of one table, from an index on; the argument block holds the arguments and then the data (log 33). -/
def execImgBankWrite (c : Cmd) (s : State) : Host.Outcome State Fault Refusal :=
  nextB s fun b =>
    let a := cArg c
    let d := a.drop 8
    let k := u16 a 0
    let i := u32 a 4
    let len := match tableSize k with | some p => p.1 | none => 1
    let cap := match tableSize k with | some p => p.2 | none => 0
    let es := bankEntries k i len d
    let odd := d.isEmpty || (d.length % len != 0 && !(k == tSerPart && decide (i < 16)))
    b.runDone 0x0207 c (b.bankPre c ++
      [deny (!cExt c || ((tableSize k).isSome && decide (i + es.length ≤ cap) &&
          (odd || !((es.zip (List.range es.length)).all fun p => entryOk k (i + p.2) p.1)))) stBadArg,
       deny (tableSize k).isNone stBadRef, deny (b.bankState != bkOpen) stConflict 0 b.bankState,
       deny (decide (cap < i + es.length)) stNoSpace]) fun b =>
      (b.setIdleBank ((es.zip (List.range es.length)).foldl (fun (t : Tab (List Byte)) p => tput t (key k (i + p.2)) p.1) b.idleBank)).showBankCrc

/-- R68, R528. -/
def execImgBankClose (c : Cmd) (s : State) : Host.Outcome State Fault Refusal :=
  nextB s fun b =>
    b.run 0x0208 c (b.bankPre c ++ [deny (b.bankState != bkOpen) stConflict 0 b.bankState]) fun b =>
      if Config.bankCrc b.idleBank != w32 (cArg c) 0 then (b, stImage, rsSectionCrc, [])
      else if !(tablesRelOk b.idleBank && consRelOk b.idleBank) then (b, stImage, rsFormat, [])
      else (b.setBankState bkClosed, stDone, 0, [])

/-- Does a lane that is LOADED, RUNNING or HELD hold a recipe that the inactive bank lacks (R70)? -/
def Block.recipeAbsent (b : Block) : Bool :=
  (List.range 16).any fun n =>
    [lsLoaded, lsRunning, lsHeld].contains (b.lnState n) && (recipeOf b.idleBank (b.lnRecipe n)).isNone

/-- R69, R70, R83. -/
def execImgBankSwap (c : Cmd) (s : State) : Host.Outcome State Fault Refusal :=
  nextB s fun b =>
    let t := u64 (cArg c) 0
    b.accept 0x0209 c (b.bankPre c ++ [deny (b.bankState != bkClosed) stConflict 0 b.bankState,
      deny b.recipeAbsent stConflict 0x01 b.bankState]) fun b =>
      let b := { b with boot := { b.boot with swapOp := some (opOf c 0x0209), swapAccepted := b.now, swapLate := decide (t < b.now + 2000) } }
      ((b.wr64 Reg.imgSwapAt t).setBankState bkPending).complete 0x0209 c stQueued

/-- What CP readers show of the bank that is now active: quotas and pools (05 R109), ledger structure (06 R140), fields that it adds (17
R412) and serial schedules (17 R417, log 26). -/
def Block.bankShow (b : Block) (old : Tab (List Byte)) : Block :=
  let b := b.wrN Reg.seqPool (u16 (b.act tLaneTrailer 0) 0 + 65536 * u16 (b.act tLaneTrailer 0) 2)
  let b := (List.range 16).foldl (fun (b : Block) n => b.setFld (Reg.seqLaneQuota n) 0 16 (u16 (b.lnTab n) 4)) b
  let b := b.consAll.foldl (fun (b : Block) c => b.showCons c) b
  (b.canSwap old).serStart

/-- R69, R70: on the first tick at or after the swap time, and after that of a late acceptance. -/
def execBankSwap (s : State) : Host.Outcome State Fault Refusal :=
  nextB s fun b =>
    let t := b.rd64 Reg.imgSwapAt
    match b.boot.swapOp with
    | none => b
    | some o =>
      if b.bankState ≠ bkPending ∨ b.now < t ∨ (b.boot.swapLate ∧ b.now ≤ b.boot.swapAccepted) then b else
      let b := { b with boot := { b.boot with swapOp := none } }
      if b.recipeAbsent then ((b.setBankState bkClosed).raise Reg.imgFlags 2).settle o true stAbandoned 0x02
      else
        let old := b.bank
        let b := b.wrN Reg.imgBank ((1 - b.fld Reg.imgBank 0 1) + 65536 * ((b.fld Reg.imgBank 16 16 + 1) % 65536))
        let b := (b.bankShow old).showBankCrc
        if b.boot.swapLate then (b.raise Reg.imgFlags 1).settle o true stDoneLate 0 (leBytes 4 (satNat 0xFFFFFFFF (b.now - t)))
        else b.settle o true stDone

/-! ### Fuses (R66, R81) -/

/-- A command that programs fuses. -/
def nextFuses (s : State) (f : Fuses → Block → Fuses × Block) : Host.Outcome State Fault Refusal :=
  let r := f s.fuses s.b
  .next { s with fuses := r.1, b := r.2 }

/-- Program the thermometer code up to a count; it only grows. -/
def Fuses.advance (f : Fuses) (n : Nat) : Fuses := { f with rollback := max f.rollback (min n 64) }

/-- R66, R81: of a programming fault the count reached is free (log 4). -/
def execImgAdvanceRollback (c : Cmd) (vpp fuseOk : Bool) (s : State) : Host.Outcome State Fault Refusal :=
  nextFuses s fun f b =>
    let n := u8 (cArg c) 0
    match firstRefusal [authCheck c roleMaintainer true, devCheck b devRun, envCheck c, noObject c,
        deny (decide (n < f.rollback)) stBadArg, deny (!vpp) stConflict 0x05 b.dev,
        deny (decide (b.fld Reg.imgRunning 8 8 < n) || decide (64 < n)) stLimit] with
    | some r => (f, b.complete 0x020A c r.status r.reason [] r.code)
    | none =>
      if fuseOk then
        let f := f.advance n
        (f, (((b.showFuses f).log 1 0x0B (leBytes 1 f.rollback)).complete 0x020A c stDone))
      else
        let d := b.drawNat
        let f := f.advance (f.rollback + d.1 % (n - f.rollback + 1))
        (f, (d.2.showFuses f).complete 0x020A c stInternal)

/-- R81: a fused key takes effect at the next cold start; of a programming fault the hash is free (log 4). -/
def execImgFuseKey (c : Cmd) (vpp fuseOk : Bool) (s : State) : Host.Outcome State Fault Refusal :=
  nextFuses s fun f b =>
    match firstRefusal [authCheck c roleMaintainer, devCheck b [dsImageCheck], envCheck c, noObject c,
        deny (b.fld Reg.sysState 8 8 != rsNoKey || !f.keyHash.isEmpty) stConflict 0 b.dev, deny (!vpp) stConflict 0x05 b.dev] with
    | some r => (f, b.complete 0x020B c r.status r.reason [] r.code)
    | none =>
      if fuseOk then
        ({ f with keyHash := padTo 48 (cArg c), keyDev := false }, (b.log 1 0x0C).complete 0x020B c stDone)
      else
        let d := b.drawBytes 48
        ({ f with keyHash := padTo 48 d.1, keyDev := false }, d.2.complete 0x020B c stInternal)

end Sys2Proof.Machine
end

