-- ==== Sys2Proof/Machine/Island.lean ====
section
/-! DEFINITION. Machine/Island.lean: what the safety island decides, from its own state, its parameter set and its own time alone (18
R426–R447). Times are ns of elapsed time. -/

namespace Sys2Proof.Machine

/-! ### The parameter set (R430–R444) -/

def prmIn (p : List Byte) (i : Nat) : List Byte := slice p (32 + 8 * i) 8
def prmOut (p : List Byte) (o : Nat) : List Byte := slice p (128 + 8 * o) 8
def prmBrk (p : List Byte) (k : Nat) : List Byte := slice p (160 + 16 * k) 16
def prmConn (p : List Byte) (c : Nat) : List Byte := slice p (224 + 16 * c) 16
def prmFn (p : List Byte) (f : Nat) : List Byte := slice p (480 + 16 * f) 16

/-- One bit of CRC-32C, reflected. -/
def crcCBits : Nat → Nat → Nat
  | 0, c => c
  | n + 1, c => crcCBits n (if c % 2 = 1 then (c / 2) ^^^ 0x82F63B78 else c / 2)

/-- CRC-32C (R430). -/
def crc32c (l : List Byte) : Nat := (l.foldl (fun c v => crcCBits 8 (c ^^^ v.toNat)) 0xFFFFFFFF) ^^^ 0xFFFFFFFF

/-- The header and the CRC (R430). -/
def prmFormat (p : List Byte) : Bool :=
  p.length == 736 && u32 p 0 == 0x53465331 && u16 p 4 == 1 && zeros p 6 2 && zeros p 16 16 &&
    crc32c (p.take 12 ++ zeroBytes 4 ++ p.drop 16) == u32 p 12

/-- Is x in lo..hi? -/
def between (lo hi x : Nat) : Bool := decide (lo ≤ x) && decide (x ≤ hi)
def inUsed (e : List Byte) : Bool := u8 e 0 != 0
def flagUsed (e : List Byte) : Bool := (u8 e 0).testBit 0

/-- R431. -/
def prmInOk (e : List Byte) : Bool :=
  u8 e 0 == 0 || (between 1 4 (u8 e 0) && between 0 50 (u8 e 1) && between 1 1000 (u16 e 2) && between 0 1000 (u16 e 4) && zeros e 6 2)
/-- R433. -/
def prmOutOk (e : List Byte) : Bool :=
  between 0 1 (u8 e 0) && (!flagUsed e || ((u8 e 1 == 0xFF || between 0 7 (u8 e 1)) && between 10 1000 (u16 e 2) &&
    (u16 e 4 == 0 || between 10 60000 (u16 e 4)) && between 100 1000 (u16 e 6)))
/-- R444. -/
def prmBrkOk (e : List Byte) : Bool :=
  between 0 1 (u8 e 0) && (!flagUsed e || ((u8 e 1 == 0xFF || between 0 11 (u8 e 1)) && between 0 63 (u8 e 2) &&
    (u8 e 3 == 0xFF || between 0 7 (u8 e 3)) && between 10 2000 (u16 e 6) && between 100 10000 (u16 e 8) &&
    between 0 8760 (u16 e 12) && between 0 168 (u8 e 14) && zeros e 15 1))
/-- R435. -/
def prmConnOk (e : List Byte) : Bool :=
  between 0 1 (u8 e 0) && (!flagUsed e || (between 1 255 (u8 e 1) && between 0 0x7FF (u16 e 4) && between 0 0x7FF (u16 e 6) &&
    between 2 1000 (u16 e 8) && between 1 50 (u8 e 10) && zeros e 11 1 && between 0 10000 (u16 e 12) && zeros e 14 2))
/-- R440. -/
def prmFnOk (e : List Byte) : Bool :=
  between 0 3 (u8 e 0) && (!flagUsed e || ((u8 e 1 == 0xFF || between 0 11 (u8 e 1)) && between 0 0xFFF (u16 e 2) &&
    between 0 15 (u8 e 6) && between 0 15 (u8 e 7) && between 0 15 (u8 e 8) && between 0 15 (u8 e 9) &&
    (if (u8 e 0).testBit 1 then between 1 30000 (u16 e 10) else u16 e 10 == 0) && zeros e 12 4))

/-- No connection identity twice (R435). -/
def connIdsApart (p : List Byte) : Bool :=
  (List.range 16).all fun c => (List.range c).all fun d =>
    !(flagUsed (prmConn p c) && flagUsed (prmConn p d)) || u16 (prmConn p c) 2 != u16 (prmConn p d) 2

/-- Every field within its table (R430). -/
def prmRange (p : List Byte) : Bool :=
  ((List.range 12).all fun i => prmInOk (prmIn p i)) && ((List.range 4).all fun o => prmOutOk (prmOut p o)) &&
    ((List.range 4).all fun k => prmBrkOk (prmBrk p k)) && ((List.range 16).all fun c => prmConnOk (prmConn p c)) &&
    ((List.range 16).all fun f => prmFnOk (prmFn p f)) && connIdsApart p

/-- Bits of a mask name entries that satisfy a test. -/
def maskAll (n m : Nat) (ok : Nat → Bool) : Bool := (List.range n).all fun i => !m.testBit i || ok i

/-- Each reference names a used entry of the required mode (R430). -/
def prmRefs (p : List Byte) : Bool :=
  ((List.range 4).all fun k =>
    let e := prmBrk p k
    !flagUsed e || u8 e 1 == 0xFF || u8 (prmIn p (u8 e 1)) 0 == 3) &&
    (List.range 16).all fun f =>
      let e := prmFn p f
      !flagUsed e || ((u8 e 1 == 0xFF || u8 (prmIn p (u8 e 1)) 0 == 4) &&
        maskAll 12 (u16 e 2) (fun i => u8 (prmIn p i) 0 == 1 || u8 (prmIn p i) 0 == 2) &&
        maskAll 16 (u16 e 4) (fun c => flagUsed (prmConn p c)) && maskAll 4 (u8 e 8) (fun o => flagUsed (prmOut p o)) &&
        maskAll 4 (u8 e 9) fun k => flagUsed (prmBrk p k))

/-- The check of a set (R430): the reason of the first failure in the order of R454, 0 for none. -/
def prmReason (p : List Byte) : Nat := if !prmFormat p then 1 else if !prmRefs p then 3 else if !prmRange p then 4 else 0

/-! ### States (R427, R432–R446) -/

def siSelfTest : Nat := 0
def siAwaitParams : Nat := 1
def siRun : Nat := 2
def siSafe : Nat := 3

def fnReleased : Nat := 1
def fnStopping : Nat := 2
def fnStopped : Nat := 3
def fnAwait : Nat := 4

def cnOk : Nat := 1
def cnGrace : Nat := 2
def cnLost : Nat := 3
def cnMismatch : Nat := 4

def bkApplied : Nat := 0
def bkReleased : Nat := 1
def bkTestApply : Nat := 2
def bkTestWindow : Nat := 3
def bkFault : Nat := 4

def SiSt.inp (x : SiSt) (i : Nat) : SafIn := tget {} x.ins i
def SiSt.outp (x : SiSt) (o : Nat) : SafOut := tget {} x.outs o
def SiSt.brk (x : SiSt) (k : Nat) : SafBrk := tget {} x.brks k
def SiSt.conn (x : SiSt) (c : Nat) : SafConn := tget {} x.conns c
def SiSt.fn (x : SiSt) (f : Nat) : SafFn := tget {} x.fns f
def SiSt.putIn (x : SiSt) (i : Nat) (v : SafIn) : SiSt := { x with ins := tput x.ins i v }
def SiSt.putOut (x : SiSt) (o : Nat) (v : SafOut) : SiSt := { x with outs := tput x.outs o v }
def SiSt.putBrk (x : SiSt) (k : Nat) (v : SafBrk) : SiSt := { x with brks := tput x.brks k v }
def SiSt.putConn (x : SiSt) (c : Nat) (v : SafConn) : SiSt := { x with conns := tput x.conns c v }
def SiSt.putFn (x : SiSt) (f : Nat) (v : SafFn) : SiSt := { x with fns := tput x.fns f v }

def SiSt.run (x : SiSt) : Bool := x.state == siRun

/-- Nanoseconds in a number of ms. -/
def msNs (n : Nat) : Nat := 1000000 * n

/-- Used functions that name an object by a mask byte of their entry. -/
def SiSt.users (x : SiSt) (byte i : Nat) : List Nat :=
  (List.range 16).filter fun f => let e := prmFn x.params f; flagUsed e && (u8 e byte).testBit i
/-- Functions of an output, of a brake, of a demand. -/
def SiSt.outUsers (x : SiSt) (o : Nat) : List Nat := x.users 8 o
def SiSt.brkUsers (x : SiSt) (k : Nat) : List Nat := x.users 9 k
def SiSt.sdUsers (x : SiSt) (k : Nat) : List Nat := x.users 7 k

/-- A SAFETY record's payload (R453), kept until the mirror takes it over. -/
def SiSt.note (x : SiSt) (sid kind idx old new detail : Nat) : SiSt :=
  { x with notes := x.notes ++ [(sid, leBytes 1 kind ++ leBytes 1 idx ++ leBytes 1 old ++ leBytes 1 new ++ leBytes 4 detail ++
      leBytes 4 (u32 x.params 8) ++ leBytes 4 x.count)] }
def SiSt.flag (x : SiSt) (i : Nat) : SiSt := { x with flags := x.flags ++ [i] }

/-- SAFE_STATE (R428): everything de-energised, SD0 to SD3 asserted. -/
def SiSt.toSafe (x : SiSt) (cause : Nat) : SiSt :=
  if x.state = siSafe then x
  else
    { x with state := siSafe, fault := cause, sd := 0xF,
             outs := x.outs.map fun (p : Nat × SafOut) => (p.1, { p.2 with state := if p.2.state = 1 then 0 else p.2.state, due := none }),
             brks := x.brks.map fun (p : Nat × SafBrk) => (p.1, { p.2 with state := if p.2.state = bkFault then bkFault else bkApplied, due := none }) }

/-! ### Inputs (R431, R432) -/

/-- A channel's filter: a level counts once it has held for FILTER, a low one also longer than PULSE_TOL. -/
def filterLevel (e : List Byte) (t : Nat) (old raw rawNew : Bool) (since : Nat) : Bool × Nat :=
  let since := if rawNew = raw then since else t
  let held := decide (since + msNs (u8 e 1) ≤ t) && (rawNew || u16 e 4 == 0 || decide (since + 1000 * u16 e 4 < t))
  (if held then rawNew else old, since)

/-- The state of a two-channel input (R432). -/
def twoChannel (mode : Nat) (v : SafIn) (t : Nat) : SafIn :=
  let b := if mode = 2 then !v.b else v.b
  let split (w : SafIn) : SafIn := { w with split := if v.a = b then none else if w.split.isSome then w.split else some t }
  let st := if !v.a && !b then 0 else if v.state = 3 then 3 else if v.a && b then 1 else 2
  { split v with state := st }

/-- A reset button (R432): a press counts when it has been held for at least 100 ms and is released within 2 s, B being low. -/
def buttonPress (v : SafIn) (t : Nat) : SafIn :=
  if v.b then { v with pressed := none, counted := false }
  else if v.a then { v with pressed := some (v.pressed.getD t), counted := false }
  else
    match v.pressed with
    | some p => { v with pressed := none, counted := decide (p + msNs 100 ≤ t) && decide (t ≤ p + msNs 2000) }
    | none => { v with counted := false }

/-- Sample an input at a cycle (R426). -/
def SiSt.sample (x : SiSt) (t : Nat) (s : SafetyInputs) (i : Nat) : SiSt :=
  let e := prmIn x.params i
  if !inUsed e then x
  else
    let v := x.inp i
    let ra := s.a.toNat.testBit i
    let rb := s.b.toNat.testBit i
    let fa := filterLevel e t v.a v.rawA ra v.sinceA
    let fb := filterLevel e t v.b v.rawB rb v.sinceB
    let v := { v with a := fa.1, rawA := ra, sinceA := fa.2, b := fb.1, rawB := rb, sinceB := fb.2 }
    let m := u8 e 0
    x.putIn i (if m = 1 ∨ m = 2 then twoChannel m v t else if m = 4 then buttonPress v t else v)

/-- The channels still disagree after DISCREPANCY (R432). -/
def SiSt.discrepancy (x : SiSt) (t i : Nat) : SiSt :=
  let v := x.inp i
  match v.split with
  | some s => if x.run && v.state == 2 && decide (s + msNs (u16 (prmIn x.params i) 2) ≤ t) then x.putIn i { v with state := 3 } else x
  | none => x

/-- Position of a pair of quadrature levels in its cycle: A leads B when counting up (log 20). -/
def siQuad (a b : Bool) : Nat := if a then (if b then 2 else 1) else (if b then 3 else 0)

/-- Distance between two 16-bit counts. -/
def countDist (a b : Nat) : Nat := let d := (a + 65536 - b) % 65536; if d < 32768 then d else 65536 - d

/-- An edge on a COUNTER input (R432), which a brake test in its window follows (R446). -/
def SiSt.counterEdge (x : SiSt) (t i : Nat) (a b : Bool) : SiSt :=
  if !x.run || u8 (prmIn x.params i) 0 != 3 then x
  else
    let v := x.inp i
    let d := (siQuad a b + 4 - siQuad v.encA v.encB) % 4
    let n := if d = 1 then (v.count + 1) % 65536 else if d = 3 then (v.count + 65535) % 65536 else v.count
    let v := { v with encA := a, encB := b, count := n, moved := if n = v.count then v.moved else some t }
    (List.range 4).foldl (fun (x : SiSt) k =>
      let k' := x.brk k
      if k'.state == bkTestWindow && u8 (prmBrk x.params k) 1 == i then x.putBrk k { k' with slip := max k'.slip (countDist n k'.origin) }
      else x) (x.putIn i v)

/-! ### Connections (R435–R438) -/

def copyOk (c : SafCopy) : Bool := c.status.testBit 0
/-- Effective data of an accepted copy (R437). -/
def effData (c : SafCopy) : Nat := if copyOk c then c.data else 0

/-- A copy is accepted: data, COUNTER, gaps and the time (R437). -/
def SafConn.accept (v : SafConn) (c : SafCopy) (t : Nat) : SafConn :=
  let gap := match v.counter with | some k => decide (1 < (c.counter + 256 - k) % 256) | none => false
  { v with counter := some c.counter, accepted := t, gaps := (v.gaps + b2n gap) % 2 ^ 32 }

/-- A pair at the end of a cycle (R437, R438). -/
def SafConn.pair (v : SafConn) (p : SafCopy × SafCopy) (t : Nat) : SafConn :=
  if v.counter = some p.1.counter then v
  else if p.1.data ≠ p.2.data ∨ p.1.status ≠ p.2.status then { v with state := cnMismatch, data := 0, run := 0 }
  else
    let v := v.accept p.1 t
    if v.state = cnOk ∨ v.state = cnGrace then { v with state := cnOk, data := effData p.1 }
    else if 2 ≤ v.run then { v with state := cnOk, data := effData p.1, run := 0, graceUsed := false }
    else { v with run := v.run + 1 }

/-- The connection that a frame on a network belongs to (R435, R436). -/
def SiSt.connOf (x : SiSt) (net id : Nat) : Option Nat :=
  (List.range 16).find? fun c => let e := prmConn x.params c; flagUsed e && u16 e (4 + 2 * net) == id

/-- Does a frame's CRC fit its connection (R436)? -/
def safeCrcOk (e data : List Byte) : Bool := crc32c (slice e 2 2 ++ data.take 4) == u32 data 4

/-- A copy is seen on a tap (R436, R437). -/
def SiSt.copy (x : SiSt) (t net : Nat) (f : CanFrame) : SiSt :=
  if !x.run || f.ide then x
  else
    match x.connOf net f.id with
    | none => x
    | some c =>
      let e := prmConn x.params c
      let v := x.conn c
      if f.format != 0 || f.rtr || f.data.length != 8 || !safeCrcOk e f.data || !zeros [BitVec.ofNat 8 (u8 f.data 3 / 2)] 0 1 then
        x.putConn c { v with errors := (v.errors + 1) % 2 ^ 32 }
      else
        let k : SafCopy := { net := net, time := t, data := u16 f.data 0, counter := u8 f.data 2, status := u8 f.data 3 }
        if v.counter = some k.counter then x
        else
          match v.waiting.find? fun w => w.net != net && w.counter == k.counter && decide (t ≤ w.time + msNs (u8 e 10)) with
          | some w => x.putConn c { v with waiting := v.waiting.filter (· != w), ready := v.ready ++ [(w, k)] }
          | none => x.putConn c { v with waiting := v.waiting ++ [k] }

/-- A copy's partner has not arrived by SKEW (R438). -/
def SiSt.skew (x : SiSt) (t c : Nat) : SiSt :=
  let e := prmConn x.params c
  let v := x.conn c
  if !x.run then x
  else
    match v.waiting with
    | [] => x
    | k :: rest =>
      if t < k.time + msNs (u8 e 10) then x
      else
        let v := { v with waiting := rest }
        let take (v : SafConn) : SafConn := { v.accept k t with data := effData k }
        if v.state = cnOk ∧ u16 e 12 ≠ 0 ∧ !v.graceUsed then
          x.putConn c (take { v with state := cnGrace, missing := 1 - k.net, graceEnd := t + msNs (u16 e 12) })
        else if v.state = cnGrace ∧ k.net ≠ v.missing ∧ v.counter ≠ some k.counter then x.putConn c (take v)
        else x.putConn c v

def SafConn.lose (v : SafConn) : SafConn := { v with state := cnLost, data := 0, run := 0 }

/-- Nothing has been accepted for TIMEOUT (R438). -/
def SiSt.connTimeout (x : SiSt) (t c : Nat) : SiSt :=
  let e := prmConn x.params c
  let v := x.conn c
  if x.run && flagUsed e && decide (v.accepted + msNs (u16 e 8) ≤ t) then x.putConn c v.lose else x

/-- GRACE runs out without a pair (R438). -/
def SiSt.graceEnds (x : SiSt) (t c : Nat) : SiSt :=
  let v := x.conn c
  if x.run && v.state == cnGrace && decide (v.graceEnd ≤ t) then x.putConn c { v.lose with graceUsed := true } else x

/-! ### Brakes (R444–R447) -/

/-- Is a brake locked out (R445)? -/
def SafBrk.lockedOut (v : SafBrk) : Bool :=
  v.state == bkFault || v.state == bkTestApply || v.state == bkTestWindow || v.failed || (v.overdue && v.graceOut)

/-- A brake test ends with a result (R446): the brake is applied. -/
def SiSt.testEnds (x : SiSt) (k result st : Nat) : SiSt :=
  let v := x.brk k
  let v := { v with state := st, result := result, failed := result == 2 || (v.failed && result != 1) }
  let v := if result = 1 then { v with overdue := false, graceOut := false, passed := some x.cycles } else v
  ((x.putBrk k v).flag 3).note (0xC00300 + k) 4 k 0 result v.slip

/-- Is a test of the brake running? -/
def SafBrk.testing (v : SafBrk) : Bool := v.state == bkTestApply || v.state == bkTestWindow

/-- A brake fails (R445): applied and FAULT; a test in progress ends ABORTED. -/
def SiSt.brkFault (x : SiSt) (k : Nat) : SiSt :=
  if (x.brk k).testing then x.testEnds k 3 bkFault else x.putBrk k { x.brk k with state := bkFault, due := none }

/-- A test is requested on CAN6 (R446). -/
def SiSt.testRequest (x : SiSt) (t k : Nat) (f : CanFrame) : SiSt :=
  let e := prmBrk x.params k
  let v := x.brk k
  if !x.run || !flagUsed e || u8 e 1 == 0xFF || f.ide || f.id != u16 e 4 || !f.data.isEmpty || v.testing then x
  else
    let moved := match (x.inp (u8 e 1)).moved with | some m => decide (t < m + msNs 100) | none => false
    if moved || v.state == bkFault then x.testEnds k 3 v.state
    else x.putBrk k { v with state := bkTestApply, phase := t, slip := 0, due := none }

/-- APPLY_MS is over (R446). -/
def SiSt.testWindow (x : SiSt) (t k : Nat) : SiSt :=
  let e := prmBrk x.params k
  let v := x.brk k
  if x.run && v.state == bkTestApply && decide (v.phase + msNs (u16 e 6) ≤ t) then
    x.putBrk k { v with state := bkTestWindow, phase := t, origin := (x.inp (u8 e 1)).count, slip := 0 }
  else x

/-- WINDOW_MS is over (R446): PASS or FAIL. -/
def SiSt.testDone (x : SiSt) (t k : Nat) : SiSt :=
  let e := prmBrk x.params k
  let v := x.brk k
  if x.run && v.state == bkTestWindow && decide (v.phase + msNs (u16 e 8) ≤ t) then
    x.testEnds k (if v.slip ≤ u16 e 10 then 1 else 2) bkApplied
  else x

/-- Cycles of 500 µs in an hour (R447). -/
def cyclesPerHour : Nat := 7200000

/-- A brake becomes overdue (R447). -/
def SiSt.becomeOverdue (x : SiSt) (k : Nat) : SiSt :=
  (x.putBrk k { x.brk k with overdue := true, overdueAt := x.cycles, graceOut := u8 (prmBrk x.params k) 14 == 0 }).flag 4

/-- Its last PASS is more than INTERVAL hours old (R447). -/
def SiSt.overdue (x : SiSt) (k : Nat) : SiSt :=
  let e := prmBrk x.params k
  let v := x.brk k
  if !x.run || !flagUsed e || u16 e 12 == 0 || v.overdue then x
  else
    match v.passed with
    | some n => if n + u16 e 12 * cyclesPerHour < x.cycles then x.becomeOverdue k else x
    | none => x.becomeOverdue k

/-- GRACE_H is over (R447). -/
def SiSt.graceOver (x : SiSt) (k : Nat) : SiSt :=
  let v := x.brk k
  if x.run && v.overdue && !v.graceOut && decide (v.overdueAt + u8 (prmBrk x.params k) 14 * cyclesPerHour ≤ x.cycles) then
    x.putBrk k { v with graceOut := true }
  else x

/-! ### Functions (R441, R442) -/

/-- Is an output or a brake of a function in FAULT? -/
def SiSt.fnFault (x : SiSt) (f : Nat) : Bool :=
  let e := prmFn x.params f
  ((List.range 4).any fun o => (u8 e 8).testBit o && (x.outp o).state == 2) ||
    (List.range 4).any fun k => (u8 e 9).testBit k && (x.brk k).state == bkFault

/-- Is a function demanded in this cycle (R441, R429)? -/
def SiSt.demanded (x : SiSt) (f : Nat) : Bool :=
  let e := prmFn x.params f
  x.refLost || x.fnFault f || ((List.range 12).any fun i => (u16 e 2).testBit i && (x.inp i).state != 1) ||
    (List.range 16).any fun c => (u16 e 4).testBit c && !(x.conn c).data.testBit (u8 e 6)

/-- EDM input `i` reads 1; an object without one has no condition. -/
def SiSt.edmHigh (x : SiSt) (i : Nat) : Bool := i == 0xFF || x.edm.testBit i

/-- May a function be released (R442)? -/
def SiSt.mayRelease (x : SiSt) (f : Nat) : Bool :=
  let e := prmFn x.params f
  !x.fnFault f && ((List.range 4).all fun o => !(u8 e 8).testBit o || (x.outp o).state == 1 || x.edmHigh (u8 (prmOut x.params o) 1)) &&
    (List.range 4).all fun k => !(u8 e 9).testBit k || !(x.brk k).lockedOut

/-- A release that is not granted (R442). -/
def SiSt.refuse (x : SiSt) (f : Nat) : SiSt :=
  (x.flag 2).note (0xC00500 + f) 2 f (x.fn f).state (x.fn f).state 0

/-- One cycle of a function (R441), with the automatic release of RESET_IN 0xFF (R442). -/
def SiSt.fnCycle (x : SiSt) (t f : Nat) : SiSt :=
  let e := prmFn x.params f
  if !flagUsed e then x
  else
    let v := x.fn f
    let d := x.demanded f
    if v.state = fnReleased then
      (if d then x.putFn f { v with state := if (u8 e 0).testBit 1 then fnStopping else fnStopped, demandAt := t, refused := false } else x)
    else if v.state = fnStopping then
      (if v.demandAt + msNs (u16 e 10) ≤ t then x.putFn f { v with state := fnStopped } else x)
    else if d then x.putFn f { v with state := fnStopped, refused := false }
    else
      let x := x.putFn f { v with state := fnAwait }
      if u8 e 1 ≠ 0xFF then x
      else if x.mayRelease f then x.putFn f { v with state := fnReleased, refused := false }
      else if v.refused then x
      else (x.putFn f { v with state := fnAwait, refused := true }).refuse f

/-! ### Outputs, brakes and demands (R433, R434, R441, R443, R445) -/

/-- What the functions of an object ask: `some true` on, `some false` off, none for no change while one is STOPPING and the others
RELEASED. An object that no function names stays off (log 34). -/
def SiSt.asked (x : SiSt) (us : List Nat) : Option Bool :=
  if us.isEmpty || us.any fun f => (x.fn f).state == fnStopped || (x.fn f).state == fnAwait then some false
  else if us.any fun f => (x.fn f).state == fnStopping then none else some true

/-- Drive one output; `edm` are the EDM levels of the cycle before. -/
def SiSt.driveOut (x : SiSt) (t edm o : Nat) : SiSt :=
  let e := prmOut x.params o
  let v := x.outp o
  if !flagUsed e || v.state == 2 then x
  else
    let dueAt : Option Nat := if u8 e 1 = 0xFF then none else some (t + msNs (u16 e 2))
    match x.asked (x.outUsers o) with
    | some true =>
      if v.state == 1 || !(u8 e 1 == 0xFF || edm.testBit (u8 e 1)) then x else x.putOut o { v with state := 1, due := dueAt }
    | some false => if v.state == 1 then x.putOut o { v with state := 0, due := dueAt } else x
    | none => x

/-- Drive one brake. -/
def SiSt.driveBrk (x : SiSt) (t edm k : Nat) : SiSt :=
  let e := prmBrk x.params k
  let v := x.brk k
  if !flagUsed e || v.state == bkFault || v.testing then x
  else
    let dueAt : Option Nat := if u8 e 3 = 0xFF then none else some (t + msNs (u16 e 6))
    match x.asked (x.brkUsers k) with
    | some true =>
      if v.state == bkReleased || v.lockedOut || !(u8 e 3 == 0xFF || edm.testBit (u8 e 3)) then x
      else x.putBrk k { v with state := bkReleased, due := dueAt }
    | some false => if v.state == bkReleased then x.putBrk k { v with state := bkApplied, due := dueAt } else x
    | none => x

/-- SD0 to SD3 (R443). -/
def SiSt.sdMask (x : SiSt) : Nat :=
  if !x.run then 0xF
  else ((List.range 4).map fun k => if (x.sdUsers k).any fun f => (x.fn f).state != fnReleased then 2 ^ k else 0).sum

/-- The outputs follow the functions at a cycle's end. -/
def SiSt.drive (x : SiSt) (t edm : Nat) : SiSt :=
  if !x.run then x
  else
    let x := (List.range 4).foldl (fun (x : SiSt) o => x.driveOut t edm o) x
    let x := (List.range 4).foldl (fun (x : SiSt) k => x.driveBrk t edm k) x
    { x with sd := x.sdMask }

/-- Is the EDM level of an object the expected one: 0 while energised, 1 while not (R434)? -/
def edmFits (on : Bool) (edm i : Nat) : Bool := edm.testBit i != on

/-- EDM has followed (R434). -/
def SiSt.edmSeen (x : SiSt) : SiSt :=
  let x := (List.range 4).foldl (fun (x : SiSt) o =>
    let v := x.outp o
    if v.due.isSome && edmFits (v.state == 1) x.edm (u8 (prmOut x.params o) 1) then x.putOut o { v with due := none } else x) x
  (List.range 4).foldl (fun (x : SiSt) k =>
    let v := x.brk k
    if v.due.isSome && edmFits (v.state == bkReleased) x.edm (u8 (prmBrk x.params k) 3) then x.putBrk k { v with due := none } else x) x

/-- EDM has not followed in time (R434). -/
def SiSt.edmTime (x : SiSt) (t o : Nat) : SiSt :=
  let v := x.outp o
  match v.due with
  | some d =>
    if x.run && decide (d ≤ t) && !edmFits (v.state == 1) x.edm (u8 (prmOut x.params o) 1) then
      (x.putOut o { v with state := 2, edmFault := true, due := none }).drive t x.edm
    else x
  | none => x

/-- The same of a brake (R444), within APPLY_MS (log 35). -/
def SiSt.brkEdmTime (x : SiSt) (t k : Nat) : SiSt :=
  match (x.brk k).due with
  | some d =>
    if decide (d ≤ t) && !edmFits ((x.brk k).state == bkReleased) x.edm (u8 (prmBrk x.params k) 3) then x.brkFault k else x
  | none => x

/-- A test pulse of an energised output is read back wrongly (R433). -/
def SiSt.outTest (x : SiSt) (t o : Nat) (ok : Bool) : SiSt :=
  let v := x.outp o
  if ok || !x.run || v.state != 1 || u16 (prmOut x.params o) 4 == 0 then x
  else (x.putOut o { v with state := 2, testFault := true, due := none }).drive t x.edm

/-- The same of a released brake (R445). -/
def SiSt.brkTest (x : SiSt) (t k : Nat) (ok : Bool) : SiSt :=
  if ok || !x.run || (x.brk k).state != bkReleased then x else (x.brkFault k).drive t x.edm

/-- A demand on a brake during its test ends it ABORTED (R446). -/
def SiSt.abortTests (x : SiSt) : SiSt :=
  (List.range 4).foldl (fun (x : SiSt) k =>
    if (x.brk k).testing && (x.brkUsers k).any fun f => x.demanded f then x.testEnds k 3 bkApplied else x) x

/-- A function reaches STOPPED at the end of DELAY (R441). -/
def SiSt.stopDelay (x : SiSt) (t f : Nat) : SiSt :=
  let v := x.fn f
  if x.run && v.state == fnStopping && decide (v.demandAt + msNs (u16 (prmFn x.params f) 10) ≤ t) then
    (x.putFn f { v with state := fnStopped }).drive t x.edm
  else x

/-- A counted press of a RESET input (R442): it clears the faults of the functions that it resets, where EDM reads 1, and releases or is
refused. -/
def SiSt.press (x : SiSt) (t i : Nat) : SiSt :=
  if !x.run || !(x.inp i).counted then x
  else
    let x := x.putIn i { x.inp i with counted := false }
    let fs := (List.range 16).filter fun f => let e := prmFn x.params f; flagUsed e && u8 e 1 == i
    let x := fs.foldl (fun (x : SiSt) f =>
      let v := x.fn f
      if v.state = fnReleased then x
      else if v.state = fnAwait ∧ !x.demanded f ∧ x.mayRelease f then x.putFn f { v with state := fnReleased, refused := false }
      else x.refuse f) x
    let x := fs.foldl (fun (x : SiSt) f =>
      let e := prmFn x.params f
      let x := (List.range 4).foldl (fun (x : SiSt) o =>
        let v := x.outp o
        if (u8 e 8).testBit o && v.state == 2 && x.edmHigh (u8 (prmOut x.params o) 1) then
          x.putOut o { v with state := 0, edmFault := false, testFault := false } else x) x
      (List.range 4).foldl (fun (x : SiSt) k =>
        let v := x.brk k
        if (u8 e 9).testBit k && v.state == bkFault && x.edmHigh (u8 (prmBrk x.params k) 3) then x.putBrk k { v with state := bkApplied }
        else x) x) x
    x.drive t x.edm

/-! ### The set in force (R427, R447, R449) -/

/-- Inputs, outputs, brakes, connections and functions at the entry to RUN: connections are LOST until three pairs match (log 31), functions
AWAIT_RESET, brakes without a PASS overdue. -/
def SiSt.enterRun (x : SiSt) (t : Nat) : SiSt :=
  let p := x.passed
  let x := { x with state := siRun, params := p, cycles := 0, ins := [], outs := [], brks := [],
                    conns := ((List.range 16).filter fun c => flagUsed (prmConn p c)).map fun c => (c, { state := cnLost, accepted := t }),
                    fns := ((List.range 16).filter fun f => flagUsed (prmFn p f)).map fun f => (f, { state := fnAwait }) }
  let x := (List.range 4).foldl (fun (x : SiSt) k => x.overdue k) x
  { x with sd := x.sdMask }

/-- Does a function use an object whose entry a new set changes, or is its own entry changed (R449)? -/
def affected (p q : List Byte) (f : Nat) : Bool :=
  let uses (e : List Byte) : Bool :=
    ((List.range 12).any fun i => ((u16 e 2).testBit i || u8 e 1 == i) && prmIn p i != prmIn q i) ||
      ((List.range 4).any fun o => (u8 e 8).testBit o && prmOut p o != prmOut q o) ||
      ((List.range 4).any fun k => (u8 e 9).testBit k && prmBrk p k != prmBrk q k) ||
      (List.range 16).any fun c => (u16 e 4).testBit c && prmConn p c != prmConn q c
  prmFn p f != prmFn q f || uses (prmFn p f) || uses (prmFn q f)

/-- A changed set comes into force at a cycle boundary (R449). Objects whose entry changed start afresh; affected functions stop. -/
def SiSt.applySet (x : SiSt) (t : Nat) (q : List Byte) (count : Nat) : SiSt :=
  let p := x.params
  let aff := (List.range 16).filter fun f => affected p q f
  let x := { x with
    params := q, count := count, next := none,
    ins := x.ins.filter fun v => prmIn p v.1 == prmIn q v.1,
    outs := x.outs.filter fun v => prmOut p v.1 == prmOut q v.1,
    brks := x.brks.filter fun v => prmBrk p v.1 == prmBrk q v.1,
    conns := (List.range 16).filterMap fun c =>
      if !flagUsed (prmConn q c) then none
      else some (c, if prmConn p c = prmConn q c then x.conn c else { state := cnLost, accepted := t }) }
  let x := aff.foldl (fun (x : SiSt) f =>
    let e := prmFn q f
    let v := x.fn f
    if !flagUsed e then { x with fns := tdel x.fns f }
    else if (u8 e 0).testBit 1 && (v.state == fnReleased || v.state == fnStopping) then
      x.putFn f { v with state := fnStopping, demandAt := if v.state = fnStopping then v.demandAt else t }
    else x.putFn f { v with state := fnStopped }) x
  let x := (List.range 4).foldl (fun (x : SiSt) k => if prmBrk p k = prmBrk q k then x else x.overdue k) x
  (x.drive t x.edm |>.flag 5).note 0xC00000 5 0 siRun siRun count

/-! ### The cycle (R426, R429) -/

/-- One cycle in RUN: inputs, connections, functions, outputs; at its end the faults that it found. `ref` says that REFCLK is valid. -/
def SiSt.cycle (x : SiSt) (t : Nat) (ref : Bool) (s : SafetyInputs) : SiSt :=
  if !x.run then x
  else
    let edm := x.edm
    let lost := x.refLost && !(ref && decide (x.refSince + 2000000 ≤ t))
    let x := { x with cycles := (x.cycles + 1) % 2 ^ 48, edm := s.edm.toNat, refLost := lost }
    let x := (List.range 12).foldl (fun (x : SiSt) i => x.sample t s i) x
    let x := (List.range 16).foldl (fun (x : SiSt) c =>
      let v := x.conn c
      if v.ready.isEmpty then x else x.putConn c (v.ready.foldl (fun (w : SafConn) p => w.pair p t) { v with ready := [] })) x
    let x := (List.range 16).foldl (fun (x : SiSt) f => x.fnCycle t f) x.abortTests
    let x := (x.edmSeen).drive t edm
    let x := (List.range 4).foldl (fun (x : SiSt) k => x.brkEdmTime t k) x
    if s.coreMismatch then x.toSafe 1 else if s.ecc then x.toSafe 2 else if s.driveOn then x.toSafe 7
    else x

/-- What changed between two states of the island, as notes and flags of the mirror (R453, R456). -/
def SiSt.notesOn (old x : SiSt) : SiSt :=
  let chg (x : SiSt) (sid idx a b kind detail : Nat) : SiSt := if a = b then x else x.note sid kind idx a b detail
  let x := if old.state = x.state then x
    else x.note 0xC00000 (if x.state = siSafe then 6 else 1) 0 old.state x.state x.fault
  let x := (List.range 12).foldl (fun (x : SiSt) i =>
    let n := (x.inp i).state
    let x := chg x (0xC00100 + i) i (old.inp i).state n (if n = 3 then 3 else 1) 0
    if n = 3 ∧ (old.inp i).state ≠ 3 then x.flag 1 else x) x
  let x := (List.range 4).foldl (fun (x : SiSt) o =>
    let n := (x.outp o).state
    let x := chg x (0xC00200 + o) o (old.outp o).state n (if n = 2 then 3 else 1) 0
    if n = 2 ∧ (old.outp o).state ≠ 2 then x.flag 1 else x) x
  let x := (List.range 4).foldl (fun (x : SiSt) k =>
    let n := (x.brk k).state
    let x := chg x (0xC00300 + k) k (old.brk k).state n (if n = bkFault then 3 else 1) (x.brk k).slip
    if n = bkFault ∧ (old.brk k).state ≠ bkFault then x.flag 1 else x) x
  let x := (List.range 16).foldl (fun (x : SiSt) c =>
    let n := (x.conn c).state
    let bad := n = cnLost ∨ n = cnMismatch
    let x := chg x (0xC00400 + c) c (old.conn c).state n (if bad then 3 else 1) ((x.conn c).counter.getD 0)
    if bad ∧ (old.conn c).state ≠ n then x.flag 1 else x) x
  (List.range 16).foldl (fun (x : SiSt) f =>
    let a := (old.fn f).state
    let n := (x.fn f).state
    let x := chg x (0xC00500 + f) f a n 1 0
    if a = fnReleased ∧ n ≠ fnReleased then x.flag 0 else x) x

end Sys2Proof.Machine
end

