-- ==== Sys2Proof/Machine/SafetyIf.lean ====
section
/-! DEFINITION. Machine/SafetyIf.lean: the safety island's commands, the mirror that shows what it decided, its records, and the changing of
its parameters (18 R427–R456). -/

namespace Sys2Proof.Machine

/-! ### The mirror (R453, R456) -/

/-- `SAF.STATE` (R456). -/
def SiSt.stateWord (x : SiSt) : Nat := x.state + 8 * b2n x.refLost + 16 * x.sd + 256 * x.fault
/-- `SAF.IN[i]`. -/
def SiSt.inWord (x : SiSt) (i : Nat) : Nat :=
  let v := x.inp i
  v.state + 16 * b2n v.a + 32 * b2n v.b + 65536 * v.count
/-- `SAF.OUT[o]`: the read-back follows the drives. -/
def SiSt.outWord (x : SiSt) (o : Nat) : Nat :=
  let v := x.outp o
  v.state + 48 * b2n (v.state == 1) + 64 * b2n v.testFault + 128 * b2n v.edmFault
/-- `SAF.BRK[b]`. -/
def SiSt.brkWord (x : SiSt) (k : Nat) : Nat :=
  let v := x.brk k
  v.state + 16 * v.result + 64 * b2n v.overdue + 128 * b2n v.lockedOut + 65536 * v.slip
/-- `SAF.CONN[c].STATE`. -/
def SiSt.connWord (x : SiSt) (c : Nat) : Nat :=
  let v := x.conn c
  v.state + 8 * v.missing + 256 * v.counter.getD 0 + 65536 * v.data
/-- `SAF.FN[f]`. -/
def SiSt.fnWord (x : SiSt) (f : Nat) : Nat := (x.fn f).state + 256 * b2n (x.fnFault f)

/-- The words of the mirror with their registers and SIDs (R453). -/
def SiSt.words (x : SiSt) : List (Nat × Nat × Nat) :=
  [(Reg.safState, 0xC00000, x.stateWord)] ++
    ((List.range 12).map fun i => (Reg.safIn i, 0xC00100 + i, x.inWord i)) ++
    ((List.range 4).map fun o => (Reg.safOut o, 0xC00200 + o, x.outWord o)) ++
    ((List.range 4).map fun k => (Reg.safBrk k, 0xC00300 + k, x.brkWord k)) ++
    ((List.range 16).map fun c => (Reg.safConnState c, 0xC00400 + c, x.connWord c)) ++
    ((List.range 16).map fun f => (Reg.safFn f, 0xC00500 + f, x.fnWord f))

/-- The registers that carry no signal. -/
def Block.mirrorRegs (b : Block) (x : SiSt) : Block :=
  let b := (b.wrN Reg.safParamId (u32 x.params 8)).wr64 Reg.safCycles x.cycles |>.wrN Reg.safEdm x.edm
  let b := (List.range 4).foldl (fun (b : Block) k => b.wr64 (Reg.safBrkPassAt k) (x.brk k).passAt) b
  (List.range 16).foldl (fun (b : Block) c =>
    (b.wrN (Reg.safConnErrors c) (x.conn c).errors).wrN (Reg.safConnSeqGaps c) (x.conn c).gaps) b

/-- A mirror word as a signal of type int32. -/
def mirrorVal (w : Nat) : DWord := (BitVec.ofNat 32 w).signExtend 64

/-- The CP copies the island's state (R453); `all` signals arrive at a cycle's end, those that changed at another one. -/
def Block.mirror (b : Block) (x : SiSt) (all : Bool) : Block :=
  let ws := x.words.filter fun w => all || b.rdN w.1 != w.2.2 % 2 ^ 32
  let b := ws.foldl (fun (b : Block) w => b.wrN w.1 w.2.2) (b.mirrorRegs x)
  let b := ws.foldl (fun (b : Block) w => b.arrive w.2.1 (mirrorVal w.2.2)) b
  let b := x.flags.foldl (fun (b : Block) i => b.raise Reg.safFlags i) b
  x.notes.foldl (fun (b : Block) n => b.record n.1 0x41 n.2) b

/-- SD0 to SD3 are trip sources 40 to 43 (R443). -/
def Block.demands (b : Block) (old new : Nat) : Block :=
  (List.range 4).foldl (fun (b : Block) k =>
    if old.testBit k == new.testBit k then b else b.driveSrc (40 + k) (new.testBit k)) b

/-- The time of a PASS (R447). -/
def SiSt.stampPass (old x : SiSt) (now : Nat) : SiSt :=
  (List.range 4).foldl (fun (x : SiSt) k =>
    let v := x.brk k
    if v.passed.isSome && v.passed != (old.brk k).passed then x.putBrk k { v with passAt := now } else x) x

/-- Does the island run: has t0 come (R427)? Its own clock serves it where REFCLK does not (R429). -/
def Block.islandUp (b : Block) : Bool := !b.boot.por && !b.boot.waitRefclk && !b.boot.testHold && !b.mgmt.thermalHold

/-- The island has come to a cycle's end in state `x` (R428, R443, R453): the demands act, the MI logs an entry to SAFE_STATE, and the CP,
while it runs, takes the mirror over. -/
def State.siTo (s : State) (x : SiSt) (all : Bool) : State :=
  let old := s.si
  let x := old.notesOn (old.stampPass x s.b.now)
  let b := s.b.demands old.sd x.sd
  let b := if x.state = siSafe ∧ old.state ≠ siSafe then b.log 2 0x05 (leBytes 1 x.fault) else b
  if b.started then { s with b := b.mirror x all, si := { x with notes := [], flags := [] } } else { s with b := b, si := x }

/-- A meaning of the island: its next state at elapsed time t. -/
def siStep (s : State) (f : Nat → SiSt → SiSt) : Host.Outcome State Fault Refusal :=
  .next (if s.b.islandUp then s.siTo (f s.b.elapsed s.si) false else s)

/-! ### The island's events (R427–R447) -/

/-- The pending stage completes (R449). -/
def Block.stageEnds (b : Block) (status reason : Nat) : Block :=
  match b.saf.pend with
  | some o =>
    let b := ((b.settle o true status reason).wrN Reg.safStage 0).wrN Reg.safStageCrc 0
    { b with saf := { b.saf with pend := none, confirmed := false } }
  | none => b

/-- R426, and R449 at the cycle's boundary. -/
def execSafetyCycle (inp : SafetyInputs) (s : State) : Host.Outcome State Fault Refusal :=
  .next (if !s.b.islandUp then s else
    let t := s.b.elapsed
    let x := s.si.cycle t (s.b.refclk || s.b.mgmt.refRestored.isSome) inp
    match x.next with
    | some q =>
      if x.run then
        let s := s.siTo (x.applySet t q s.b.saf.count) true
        { s with b := s.b.stageEnds stDone 0 }
      else
        let s := s.siTo { x with next := none } true
        { s with b := s.b.stageEnds stInternal 0 }
    | none => s.siTo x true)

/-- R427. -/
def execSiSelfTestEnd (passed : Bool) (s : State) : Host.Outcome State Fault Refusal :=
  siStep s fun _ x => if x.state ≠ siSelfTest then x else if passed then { x with state := siAwaitParams } else x.toSafe 5

/-- R427, R430: once the CP has passed the parameters. -/
def execSiParamsAccepted (s : State) : Host.Outcome State Fault Refusal :=
  siStep s fun t x =>
    if x.state ≠ siAwaitParams ∨ x.passed.isEmpty then x else if prmReason x.passed = 0 then x.enterRun t else x.toSafe 6

/-- R428. -/
def execPeriodicSelfTest (passed : Bool) (s : State) : Host.Outcome State Fault Refusal :=
  siStep s fun _ x => if passed then x else x.toSafe 5

/-- R428. -/
def execSiClockFail (s : State) : Host.Outcome State Fault Refusal := siStep s fun _ x => x.toSafe 4

/-- R436, R437. -/
def execSafeCopyReceived (net : Fin 2) (fr : CanFrame) (s : State) : Host.Outcome State Fault Refusal :=
  siStep s fun t x => x.copy t net.val fr

/-- R438. -/
def execSkewExpiry (conn : Fin 16) (s : State) : Host.Outcome State Fault Refusal := siStep s fun t x => x.skew t conn.val

/-- R438. -/
def execConnectionTimeout (conn : Fin 16) (s : State) : Host.Outcome State Fault Refusal := siStep s fun t x => x.connTimeout t conn.val

/-- R438. -/
def execGraceExpiry (conn : Fin 16) (s : State) : Host.Outcome State Fault Refusal := siStep s fun t x => x.graceEnds t conn.val

/-- R432. -/
def execDiscrepancyExpiry (inp : Fin 12) (s : State) : Host.Outcome State Fault Refusal := siStep s fun t x => x.discrepancy t inp.val

/-- R442. -/
def execResetPress (inp : Fin 12) (s : State) : Host.Outcome State Fault Refusal := siStep s fun t x => x.press t inp.val

/-- R441. -/
def execStopDelayExpiry (fn : Fin 16) (s : State) : Host.Outcome State Fault Refusal := siStep s fun t x => x.stopDelay t fn.val

/-- R433. -/
def execTestPulse (out : Fin 4) (readBackOk : Bool) (s : State) : Host.Outcome State Fault Refusal :=
  siStep s fun t x => x.outTest t out.val readBackOk

/-- R434. -/
def execEdmTimeExpiry (out : Fin 4) (s : State) : Host.Outcome State Fault Refusal := siStep s fun t x => x.edmTime t out.val

/-- R445. -/
def execBrakeTestPulse (brake : Fin 4) (readBackOk : Bool) (s : State) : Host.Outcome State Fault Refusal :=
  siStep s fun t x => x.brkTest t brake.val readBackOk

/-- R446. -/
def execBrakeTestRequest (brake : Fin 4) (fr : CanFrame) (s : State) : Host.Outcome State Fault Refusal :=
  siStep s fun t x => x.testRequest t brake.val fr

/-- R446. -/
def execApplyMsExpiry (brake : Fin 4) (s : State) : Host.Outcome State Fault Refusal := siStep s fun t x => x.testWindow t brake.val

/-- R446. -/
def execTestWindowEnd (brake : Fin 4) (s : State) : Host.Outcome State Fault Refusal := siStep s fun t x => x.testDone t brake.val

/-- R447. -/
def execBrakeOverdue (brake : Fin 4) (s : State) : Host.Outcome State Fault Refusal := siStep s fun _ x => x.overdue brake.val

/-- R447. -/
def execBrakeGraceExpiry (brake : Fin 4) (s : State) : Host.Outcome State Fault Refusal := siStep s fun _ x => x.graceOver brake.val

/-- R432, R446. -/
def execSafetyCounterEdge (inp : Fin 12) (a b : Bool) (s : State) : Host.Outcome State Fault Refusal :=
  siStep s fun t x => x.counterEdge t inp.val a b

/-! ### Changing the parameters (R449, R454, R455) -/

/-- The island-state table of R455, for the commands that need RUN. -/
def siRefuse (x : SiSt) : List (Option Refuse) :=
  [deny (x.state == siSelfTest || x.state == siAwaitParams) stConflict 0x01 x.state, deny (x.state == siSafe) stConflict 0x04 x.state]

/-- Is a connection's node not present on CAN6 and CAN7 in the world in force (R454)? -/
def Block.nodeMissing (b : Block) (p : List Byte) : Bool :=
  (List.range 16).any fun c =>
    let e := prmConn p c
    flagUsed e && [6, 7].any fun bus => !(b.dev != dsAwaitWorld && b.fld (Reg.wldNode bus (u8 e 1)) 0 3 == ndPresent)

/-- R449, R454. -/
def execSafParamStage (c : Cmd) (s : State) : Host.Outcome State Fault Refusal :=
  nextB s fun b =>
    let p := cArg c
    b.accept 0x1201 c ([authCheck c roleOperator, devCheck b devRun, envCheck c, noObject c, deny (!cExt c) stBadArg 0x01] ++ siRefuse s.si ++
      [deny b.saf.pend.isSome stBusy, deny (prmReason p != 0) stBadArg (prmReason p), deny (b.nodeMissing p) stLimit 0x0C]) fun b =>
      let k := crc32 p
      let at_ := b.now + 60000000000
      let b := b.complete 0x1201 c stQueued 0 (leBytes 4 k)
      let b := { b with saf := { b.saf with pend := some (opOf c 0x1201 p), crc := k, deadline := at_, confirmed := false } }
      ((b.wrN Reg.safStage 1).wrN Reg.safStageCrc k).wr64 Reg.safStageDeadline at_

/-- Is a stage pending that may still be confirmed (R449)? -/
def Block.stagePending (b : Block) : Bool := b.saf.pend.isSome && (b.saf.confirmed || decide (b.now ≤ b.saf.deadline))

/-- R449, R454. -/
def execSafParamConfirm (c : Cmd) (s : State) : Host.Outcome State Fault Refusal :=
  nextB s fun b =>
    b.runDone 0x1202 c ([authCheck c roleMaintainer true, devCheck b devRun, envCheck c, noObject c,
      deny (s.si.run && b.stagePending && u32 (cArg c) 0 != b.saf.crc) stBadArg 0x02] ++ siRefuse s.si ++
      [deny (!b.stagePending) stConflict 0x03 s.si.state]) fun b => { b with saf := { b.saf with confirmed := true } }

/-- R449: step 3, the MI's write, and step 4, the island's check; the set comes into force with the next `SAFETY_CYCLE`. -/
def execSafParamApply (s : State) : Host.Outcome State Fault Refusal :=
  .next (match s.b.saf.pend with
    | none => s
    | some o =>
      if !s.b.saf.confirmed ∨ s.si.next.isSome ∨ !s.b.started then s
      else if !s.si.run ∨ prmReason o.data ≠ 0 then
        { s with b := s.b.stageEnds stInternal 0 }
      else
        let n := (s.b.saf.count + 1) % 2 ^ 32
        let b := { s.b with saf := { s.b.saf with inForce := o.data, count := n } }
        { s with b := (b.log 1 0x0A (leBytes 4 n)).wrN Reg.safParamCount n, si := { s.si with next := some o.data } })

/-- R449: no matching confirmation within 60 s. -/
def execParamConfirmTimeout (s : State) : Host.Outcome State Fault Refusal :=
  nextB s fun b =>
    if b.saf.pend.isNone || b.saf.confirmed || decide (b.now ≤ b.saf.deadline) then b
    else (b.stageEnds stAbandoned 0x09).raise Reg.safFlags 6

/-- R454. -/
def execSafParamRead (c : Cmd) (s : State) : Host.Outcome State Fault Refusal :=
  nextB s fun b =>
    let a := cArg c
    b.runDone 0x1203 c [authCheck c roleObserver, devCheck b devRun, envCheck c, hostOnly c, noObject c,
      deny (decide (u32 a 8 < 736)) stNoSpace] fun b =>
      { b with out := { b.out with mem := mwrite b.out.mem (u64 a 0) (padTo 736 b.saf.inForce) } }

end Sys2Proof.Machine
end

