-- ==== Sys2Proof/Machine/Clocks.lean ====
section
/-! DEFINITION. Machine/Clocks.lean: REFCLK and the PLLs, supplies, die temperature (22 R501–R509), performance-counter wraps and skid samples
(21 R493, R496), and the PCIe link's coming up (19 R458). -/

namespace Sys2Proof.Machine

/-! ### REFCLK and the PLLs (R501–R503) -/

/-- Is there a REFCLK that can be lost: valid, or valid again and waiting for the restart of R502? -/
def Block.refPresent (b : Block) : Bool := !b.boot.por && (b.refclk || b.mgmt.refRestored.isSome)

/-- The monitors declare REFCLK lost (R501; 01 R22). Before t2 the wait of 03 R53 starts again. -/
def Block.loseRef (b : Block) : Block :=
  let b := b.driveSrc srcClockLoss true
  let b := { b with refclk := false, mgmt := { b.mgmt with refRestored := none } }
  let b := if b.dev = dsBoot then { b with boot := { b.boot with waitRefclk := true, milestone := 0 } } else b
  let b := (b.setFld Reg.clkState 0 1 0).setFld Reg.clkState 5 1 1
  ((b.count Reg.clkRefclkLosses).raise Reg.clkFlags 0).onOut (·.pcieReset) |>.log 1 0x02

/-- REFCLK is lost (R501, 18 R429). -/
def State.loseRef (s : State) : State :=
  if s.b.refPresent then { s with b := s.b.loseRef, si := { s.si with refLost := true } } else s

/-- R501. -/
def execRefclkLost (s : State) : Host.Outcome State Fault Refusal := .next s.loseRef

/-- R502: REFCLK has been valid for 2 ms; the MI issues `SYS.COLD_RESTART` with FORCE, whose reset `COLD_RESTART_RESET` carries out. -/
def execRefclkRestored (s : State) : Host.Outcome State Fault Refusal :=
  .next (
    let b := s.b
    if b.refclk || b.boot.por || b.boot.waitRefclk || b.mgmt.refRestored.isSome then s else
    let b := (b.setFld Reg.clkState 0 1 1).setFld Reg.clkState 5 1 0
    let b := (b.driveSrc srcClockLoss false).log 1 0x03
    let b := { b with boot := { b.boot with restartBy := some 3 }, mgmt := { b.mgmt with refRestored := some b.elapsed } }
    { s with b := b, si := { s.si with refSince := b.elapsed - 2000000 } })

/-- R503: 0 root, 1 DDR, 2 PCIe, 3 Ethernet. -/
def execPllUnlock (pll : Fin 4) (s : State) : Host.Outcome State Fault Refusal :=
  .next (
    let b := s.b
    if b.boot.por || !b.bit Reg.clkState (1 + pll.val) then s else
    let b := (b.setFld Reg.clkState (1 + pll.val) 1 0).raisePost Reg.clkFlags 1
    match pll.val with
    | 0 => { s with b := b }.loseRef
    | 1 => { s with b := b.onOut fun o => { o with rcd := { o.rcd with ddrDown := true } } }
    | 2 => { s with b := (b.onOut (·.pcieReset)).emit (.flag Reg.hstFlags 0 false []) }
    | _ => { s with b := (b.portDown 0).portDown 1 })

/-- R503: the domain resumes without a reset; what waited is written to the reel. -/
def execPllRelock (pll : Fin 4) (s : State) : Host.Outcome State Fault Refusal :=
  nextB s fun b =>
    if b.boot.por || b.bit Reg.clkState (1 + pll.val) then b else
    let b := b.setFld Reg.clkState (1 + pll.val) 1 1
    if pll.val ≠ 1 then b
    else
      let ws := b.out.rcd.waitRecs
      let b := b.onOut fun o => { o with rcd := { o.rcd with ddrDown := false, waitRecs := [] } }
      ws.foldl (fun (b : Block) r => b.emit (.write r)) b

/-! ### Supplies (R504–R506) -/

/-- Is a voltage in mV within a percentage of its nominal? -/
def within (mv nom pct : Nat) : Bool := decide (nom * (100 - pct) ≤ mv * 100) && decide (mv * 100 ≤ nom * (100 + pct))

/-- Nominal voltages and tolerances of R504, the VDDIO banks aside. -/
def railSpec : Nat → Nat × Nat
  | 0 => (750, 3)
  | 1 => (850, 3)
  | 4 => (850, 3)
  | 5 => (1200, 3)
  | 6 => (1200, 3)
  | 8 => (1800, 3)
  | 9 => (5000, 5)
  | 10 => (1800, 5)
  | _ => (800, 3)

/-- Is rail `v` within tolerance (R504, R505)? The bank reported for VDDIO is judged against the declared voltages; VPP_FUSE is at 0 V but
while fuses are programmed. -/
def Block.railOk (b : Block) (v mv : Nat) : Bool :=
  if v = 7 then
    let ds := (entsOf b.cfg tDioBank).map fun p => if u8 p.2 0 % 2 = 1 then 1800 else 3300
    ds.isEmpty || ds.any fun d => within mv d 5
  else (v == 10 && mv == 0) || within mv (railSpec v).1 (railSpec v).2

/-- R506. What a rail does as it leaves its tolerance is done once; its bit follows every evaluation. -/
def execSupplyEvaluation (mv : List Nat) (s : State) : Host.Outcome State Fault Refusal :=
  .next (if s.b.boot.por then s else
    let b := s.b
    let bad := (List.range 11).filter fun v => !b.railOk v (mv.getD v 0)
    let new := bad.filter fun v => !b.bit Reg.clkSupplyState v
    let b := b.wrN Reg.clkSupplyState ((bad.map fun v => 2 ^ v).sum)
    let b := new.foldl (fun (b : Block) v =>
      (b.raisePost Reg.clkFlags 4 sidDevice (leBytes 1 v)).log 1 0x04 (leBytes 1 v ++ leBytes 4 (mv.getD v 0))) b
    let s := { s with b := b }
    if new.contains 3 then s.siTo (s.si.toSafe 3) false else s)

/-- R506: VDD_CORE below 0.68 V for 1 µs. -/
def execBrownout (s : State) : Host.Outcome State Fault Refusal :=
  .next (if s.b.boot.por then s else
    let s := s.coldRestart 3 0
    { s with b := s.b.raise Reg.clkFlags 5 })

/-- R506: VDD_AON below 0.70 V acts as an assertion of POR_N; what only VDD_AON keeps is lost, and the event log comes back from its copy
(20 R485, 22 R510). -/
def execVddAonLow (s : State) : Host.Outcome State Fault Refusal :=
  .next (
    let s := s.porAssert
    let b := (s.b.wrN Reg.clkFlags 0).wrN Reg.clkRefclkLosses 0
    let m := b.mgmt
    let l := m.nvmLog.map fun (e : LogEntry) => { e with fromNvm := true }
    { s with b := { b with mgmt := { m with log := l, aonSince := b.elapsed, thermalHold := false } } })

/-! ### Die temperature (R508, R509) -/

/-- Is a condition active after an evaluation: at or above the threshold on any sensor, or active and not yet below it by the hysteresis on
every sensor? Temperatures in units of 0.125 °C. -/
def thermalOn (was : Bool) (temps : List Int) (thr hyst : Nat) : Bool :=
  if was then !(temps.all fun t => decide (t < (8 * (thr : Int)) - 8 * hyst)) else temps.any fun t => decide (8 * (thr : Int) ≤ t)

/-- The thermal priority floor begins or lifts (06 R158, 09 R237). -/
def Block.thermalFloor (b : Block) (on : Bool) : Block :=
  let b := b.setFld Reg.lgrThermal 8 1 (b2n on)
  let b := if on then (b.count Reg.lgrThermalEntries).raisePost Reg.lgrFlags 5 else b
  (entsOf b.cfg tThread).foldl (fun (b : Block) p => if b.thState p.1 = thReady then b.holdFields p.1 else b) b

/-- The highest reading and the sensor that shows it. -/
def hottest (temps : List Int) : Nat × Int :=
  ((List.range temps.length).zip temps).foldl (fun (m : Nat × Int) p => if m.2 < p.2 then p else m) (0, temps.headD 0)

/-- The detail of a THRESHOLD entry: sensor and value (20 R485). -/
def tempDetail (temps : List Int) : List Byte :=
  let m := hottest temps
  leBytes 1 m.1 ++ leBytes 4 (ofSigned 32 m.2)

/-- WARN and LIMIT (R508). -/
def Block.thermalSteps (b : Block) (temps : List Int) : Block :=
  let cfg := b.rdN Reg.clkTempCfg
  let warn := thermalOn (b.bit Reg.clkState 6) temps (field cfg 8 8) (field cfg 0 4)
  let lim := thermalOn (b.bit Reg.clkState 7) temps (field cfg 16 8) (field cfg 0 4)
  let b :=
    if warn = b.bit Reg.clkState 6 then b
    else
      let b := (b.setFld Reg.clkState 6 1 (b2n warn)).thermalFloor warn
      if warn then (b.raise Reg.clkFlags 2).log 1 0x04 (tempDetail temps) else b
  if lim = b.bit Reg.clkState 7 then b
  else
    let b := (b.setFld Reg.clkState 7 1 (b2n lim)).driveSrc 45 lim
    if lim then (b.raise Reg.clkFlags 3).log 1 0x04 (tempDetail temps) else b

/-- `CLK.TEMP_MAX` (R510): the highest reading since the last read. -/
def Block.tempMax (b : Block) (temps : List Int) : Block :=
  let m := (hottest temps).2
  let old := toSigned 16 (b.rdN Reg.clkTempMax % 65536)
  b.wrN Reg.clkTempMax (ofSigned 16 (if old = 0 then m else max old m))

/-- R508. -/
def execThermalEvaluation (temps : List Int) (s : State) : Host.Outcome State Fault Refusal :=
  .next (if s.b.boot.por || temps.isEmpty then s
    else if s.b.mgmt.thermalHold then
      (if temps.all fun t => decide (t < 960) then
        let b := { s.b with mgmt := { s.b.mgmt with thermalHold := false }, boot := { s.b.boot with t0 := s.b.elapsed } }
        { s with b := b, si := islandReset b.refclk b.elapsed }
      else s)
    else if temps.any fun t => decide (1120 ≤ t) then
      let b := (s.b.log 1 0x04 (tempDetail temps)).coldRestart 3 0
      { s with b := { b with mgmt := { b.mgmt with thermalHold := true } }, si := islandReset b.refclk b.elapsed }
    else { s with b := (s.b.tempMax temps).thermalSteps temps })

/-! ### Performance counters (21 R493, R496) -/

/-- R493: the count past 0xFFFF_FFFF_FFFF. -/
def execCounterWrap (e : Fin 40) (i : Fin 8) (s : State) : Host.Outcome State Fault Refusal :=
  nextB s fun b =>
    if b.rd64 (Reg.prfEngCtr e.val i.val) ≠ 2 ^ 48 - 1 then b else
    let r := b.prfOne e.val i.val 1
    match r.2 with
    | some o => r.1.putEng e.val { r.1.eng e.val with skids := tput (r.1.eng e.val).skids i.val o }
    | none => r.1

/-- R496: no instruction has retired within 32 cycles of the wraps whose samples wait. -/
def execSkidSample (e : Fin 40) (s : State) : Host.Outcome State Fault Refusal :=
  nextB s fun b =>
    let x := b.eng e.val
    let p : PrfAt := match x.act with
      | some a => { act := a.act, thread := a.thread, kernel := x.ctx.kernel }
      | none => {}
    x.skids.foldl (fun (b : Block) k => b.prfSample e.val k.1 p true 32) (b.putEng e.val { x with skids := [] })

/-! ### PCIe (19 R457, R458) -/

/-- The link is up at its negotiated rate and width (R475). -/
def execPcieLinkUp (gen : Fin 4) (width : Fin 3) (s : State) : Host.Outcome State Fault Refusal :=
  nextB s fun b => if b.started then b.setFld Reg.hstState 0 5 (gen.val + 4 * 2 ^ width.val) else b

end Sys2Proof.Machine
end

