-- ==== Sys2Proof/Machine/Declare.lean ====
section
/-! DEFINITION. Machine/Declare.lean: declaring the world: the document, its check and its effect (04 R90–R97, R529). -/

namespace Sys2Proof.Machine

/-! ### The document (R90, R91) -/

/-- Entries of 16 bytes. -/
def chunks16 : Nat → List Byte → List (List Byte)
  | 0, _ => []
  | n + 1, l => l.take 16 :: chunks16 n (l.drop 16)

def dcCount (d : List Byte) : Nat := u32 d 8
def dcGen (d : List Byte) : Nat := u32 d 12
def dcEntries (d : List Byte) : List (List Byte) := chunks16 ((d.length - 64) / 16) (d.drop 64)
def deSid (e : List Byte) : Nat := u24 e 0
def deKind (e : List Byte) : Nat := u8 e 3

/-- Check 1 of R94. -/
def headerFine (d : List Byte) : Bool :=
  u32 d 0 == 0x57444C31 && u16 d 4 == 1 && u16 d 6 == 64 && decide (dcCount d ≤ 4091) && d.length == 64 + 16 * dcCount d &&
    crc32 (d.take 48 ++ zeroBytes 4 ++ d.drop 52) == u32 d 48 && zeros d 52 12

/-- Does a SID belong to the class of a KIND (04 R87)? -/
def kindSid (k sid : Nat) : Bool :=
  if k = 1 then decide (0x100 ≤ sid) && decide (sid < 0x110) else if k = 2 then decide (0x810000 ≤ sid) && decide (sid < 0x810800)
  else if k = 3 then decide (0xA00000 ≤ sid) && decide (sid < 0xA00008) else if k = 4 then decide (0xA00010 ≤ sid) && decide (sid < 0xA00014)
  else if k = 5 then decide (0xA01000 ≤ sid) && decide (sid < 0xA01200) else k == 6 && (sid == 0x200 || sid == 0x201)

/-- Presence values of R91. -/
def prAbsent : Nat := 0
def prPresent : Nat := 1
def prSpare : Nat := 2
def prActing : Nat := 3
def prRetired : Nat := 4

/-- Are an entry's fields as R91 gives them? -/
def entryFine (e : List Byte) : Bool :=
  let k := deKind e
  kindSid k (deSid e) &&
    (if k = 1 then decide (u8 e 4 ≤ 1) && (decide (u8 e 5 ≤ 15) || u8 e 5 == 0xFF) && zeros e 6 10
     else if k = 2 then
       decide (u8 e 4 ≤ 4) && decide (u8 e 5 ≤ 1) && zeros e 9 1 && zeros e 12 4 &&
         (if u8 e 4 = prSpare ∨ u8 e 4 = prActing then kindSid 2 (u24 e 6) && u24 e 6 != deSid e else u24 e 6 == 0)
     else if k = 3 ∨ k = 4 then decide (u8 e 12 ≤ 1) && zeros e 13 3
     else if k = 5 then decide (u8 e 4 ≤ 1) && zeros e 5 3 && zeros e 12 4
     else decide (u8 e 4 ≤ 2) && zeros e 5 11)

/-- The declared entry of a SID. -/
def findEntry (es : List (List Byte)) (sid : Nat) : Option (List Byte) := es.find? fun e => deSid e == sid

/-- R93: nodes of CAN6 and CAN7 are absent or present; a spare lies on the bus of the node it stands for and has no spare itself. -/
def nodeFine (es : List (List Byte)) (e : List Byte) : Bool :=
  let bus (sid : Nat) : Nat := (sid - 0x810000) / 256
  deKind e != 2 ||
    ((decide (bus (deSid e) < 6) || decide (u8 e 4 ≤ prPresent)) &&
      (!(u8 e 4 == prSpare || u8 e 4 == prActing) || bus (u24 e 6) == bus (deSid e)) &&
      (u8 e 4 != prSpare || !(es.any fun o => deKind o == 2 && u8 o 4 == prSpare && u24 o 6 == deSid e)))

/-- Each entry with the SID before it. -/
def withPrev (es : List (List Byte)) : List (Option Nat × List Byte) := (none :: es.map fun e => some (deSid e)).zip es

/-! ### The world that a declaration makes (R92, R95) -/

/-- The state, partner and working state of a node (R98, 17 R413). A node whose part does not change keeps its state. -/
def Block.declareNode (b : Block) (es : List (List Byte)) (bus n : Nat) : Block :=
  let sid := sidNode bus n
  let x := b.node bus n
  let st := b.nodeState bus n
  match findEntry es sid with
  | none => (b.putNode bus n { boundTo := x.boundTo }).wrN (Reg.wldNode bus n) (0xFF0000 + ndAbsent)
  | some e =>
    let p := u8 e 4
    let spare := es.find? fun o => deKind o == 2 && u8 o 4 == prSpare && u24 o 6 == sid
    let partner := if p = prSpare ∨ p = prActing then (u24 e 6) % 256 else match spare with | some o => deSid o % 256 | none => 0xFF
    let keep := { x with auto := (u8 e 5).testBit 0, timeoutMs := u16 e 10 }
    if p = prAbsent then (b.putNode bus n { boundTo := x.boundTo }).wrN (Reg.wldNode bus n) (0xFF0000 + ndAbsent)
    else if p = prActing then (b.putNode bus n keep).setPartner bus n partner
    else if p = prRetired then b.putNode bus n keep
    else
      let f := if p = prSpare then u24 e 6 else 0
      let same := st != ndAbsent && st != ndUndefined && st != ndRetired && x.standsFor == f
      if same then (b.putNode bus n keep).setPartner bus n partner
      else
        let b := b.putNode bus n { keep with standsFor := f, heard := b.now, everHeard := false, lastEvt := none, rateCount := 0 }
        (b.setNode bus n (if b.hasHeartbeat bus n then ndDeclared else ndPresent)).setPartner bus n partner

/-- The nodes that the image defines. -/
def Block.definedNodes (b : Block) : List (Nat × Nat) :=
  ((entsOf b.cfg tNode).filter fun p => (u8 p.2 0).testBit 0).map fun p => (p.1 / 256, p.1 % 256)

/-- Bindings of two nodes that are both absent end. -/
def Block.unbindAbsent (b : Block) : Block :=
  b.definedNodes.foldl (fun (b : Block) k =>
    match (b.node k.1 k.2).boundTo with
    | some m => if b.nodeState k.1 k.2 = ndAbsent ∧ b.nodeState k.1 m = ndAbsent then
        (b.putNode k.1 k.2 {}).putNode k.1 m {} else b
    | none => b) b

/-- A consumer's presence and rating (06 R142). -/
def Block.declareCons (b : Block) (es : List (List Byte)) (c : Nat) : Block :=
  let img := u32 (b.consEnt c) 0
  match findEntry es (sidCons c) with
  | some e =>
    let on := u8 e 4 == 1
    let r := if u32 e 8 = 0 then img else u32 e 8
    (b.putCons c { b.cons c with rating := r }).setFld (Reg.lgrConsStatus c) 0 1 (b2n on)
  | none => (b.putCons c { b.cons c with rating := img }).setFld (Reg.lgrConsStatus c) 0 1 0

/-- A feed's or circuit's capacity, reserve and state (06 R142). -/
def Block.declareRes (b : Block) (es : List (List Byte)) (r : Nat) : Block :=
  match findEntry es (sidRes r) with
  | some e =>
    let on := u8 e 12 == 1
    let b := (b.putRes r { b.res r with declared := u32 e 4 }).wrN (Reg.lgrResReserve r) (u32 e 8)
    if on then (if b.resIn r then b else b.setFld (Reg.lgrResStatus r) 0 2 1) else b.setFld (Reg.lgrResStatus r) 0 2 0
  | none => ((b.putRes r { b.res r with declared := 0 }).wrN (Reg.lgrResReserve r) 0).setFld (Reg.lgrResStatus r) 0 2 0

/-- A chamber's service and lane. -/
def Block.declareChamber (b : Block) (es : List (List Byte)) (n : Nat) : Block :=
  match findEntry es (0x100 + n) with
  | some e => (b.setFld (Reg.wldChamber n) 0 1 (u8 e 4)).setFld (Reg.wldChamber n) 8 8 (u8 e 5)
  | none => (b.setFld (Reg.wldChamber n) 0 1 0).setFld (Reg.wldChamber n) 8 8 0xFF

/-- Is the chamber defined by the image? -/
def Block.chamberExists (b : Block) (n : Nat) : Bool := b.bit (Reg.wldChamber n) 1

/-- The world of a declaration, without the commands and records that go with it. -/
def Block.declareAll (b : Block) (es : List (List Byte)) : Block :=
  let b := b.definedNodes.foldl (fun (b : Block) k => b.declareNode es k.1 k.2) b
  let b := b.unbindAbsent
  let b := b.consAll.foldl (fun (b : Block) c => b.declareCons es c) b
  let b := ((List.range 12).filter fun r => b.resExists r).foldl (fun (b : Block) r => b.declareRes es r) b
  let b := ((List.range 16).filter fun n => b.chamberExists n).foldl (fun (b : Block) n => b.declareChamber es n) b
  { b with world := { b.world with entries := es } }

/-! ### Checks of R94 -/

/-- A report entry (R96). -/
def repEntry (sid sev code related value : Nat) : List Byte :=
  leBytes 3 sid ++ leBytes 1 sev ++ leBytes 1 code ++ leBytes 3 related ++ leBytes 8 value

def failure (sid code : Nat) (related value : Nat := 0) : List Byte := repEntry sid 1 code related value

/-- Does the image define the object (R92)? -/
def Block.inImage (b : Block) (sid : Nat) : Bool :=
  if sid < 0x110 then b.chamberExists (sid - 0x100)
  else if sid < 0x202 then true
  else if sid < 0x810800 then b.nodeDefined (nodeBus sid) (nodeNum sid)
  else if sid < 0xA00008 then b.resExists (sid - 0xA00000)
  else if sid < 0xA00014 then b.resExists (sid - 0xA00010 + 8)
  else decide (sid - 0xA01000 < u16 b.lgrHead 0)

/-- Do two nodes' objects match in number, order, length and direction (R93)? Only nodes with a heartbeat can be spare or have one
(17 R413). -/
def Block.sameLayout (b : Block) (bus n m : Nat) : Bool :=
  let rx (k : Nat) : List Bool := (b.rxosOf bus k).map fun i => (u8 (b.fix tRxo i) 1).testBit 6
  let tx (k : Nat) : List Nat := (b.txosOf bus k).map fun i => u16 (b.fix tTxo i) 2
  b.hasHeartbeat bus n && b.hasHeartbeat bus m && rx n == rx m && tx n == tx m

/-- The lane that serves a chamber in the world in force, where it is in none of IDLE, SAFE and FAULTED (R97). -/
def Block.chamberBusy (b : Block) (n : Nat) : Bool :=
  let l := b.fld (Reg.wldChamber n) 8 8
  l != 0xFF && !([lsIdle, lsSafe, lsFaulted].contains (b.lnState l))

/-- Does a change touch a chamber (R97)? `t` is the world declared. -/
def Block.touched (b t : Block) (n : Nat) : Bool :=
  b.rd (Reg.wldChamber n) != t.rd (Reg.wldChamber n) ||
    (entsOf b.cfg tSignal).any fun p =>
      let r := u24 p.2 12
      u8 p.2 11 == n &&
        ((kindSid 2 r && b.present r != t.present r) ||
         (kindSid 5 r && (b.present r != t.present r || (t.cons (r - 0xA01000)).rating != (b.cons (r - 0xA01000)).rating)))

/-- Does a node act for a retired one? -/
def Block.acting (b : Block) (bus n : Nat) : Option Nat :=
  match (b.node bus n).boundTo with
  | some m => if b.nodeState bus m = ndRetired then some m else none
  | none => none

/-- Check 8: PRESENCE acting and retired agree with the nodes' states. -/
def Block.roleFine (b : Block) (es : List (List Byte)) (bus n : Nat) : Bool :=
  let p := match findEntry es (sidNode bus n) with | some e => u8 e 4 | none => prAbsent
  let f := match findEntry es (sidNode bus n) with | some e => u24 e 6 | none => 0
  (p == prRetired) == (b.nodeState bus n == ndRetired) &&
    (match b.acting bus n with | some m => p == prActing && f == sidNode bus m | none => p != prActing)

/-- The lanes whose recipe a declaration must suit. -/
def Block.heldLanes (b : Block) : List Nat := (List.range 16).filter fun n => [lsLoaded, lsRunning, lsHeld].contains (b.lnState n)

/-- The steps of a lane's recipe. -/
def Block.lnSteps (b : Block) (n : Nat) : List (List Byte) := (List.range (rcCount (b.lnHead n))).map fun i => stepOf b.bank (b.lnHead n) i

/-- What a lane's recipe uses (R529). -/
def Block.lnUses (b : Block) (n : Nat) : List Nat :=
  ((b.lnSteps n).map fun e => ((spActions b.bank e).map fun a => acTarget a.2) ++ (if spEndKind e = 1 then [u24 e 20] else [])).flatten

/-- What threads, interlock rules and machines use (R529). -/
def Block.otherUses (b : Block) : List Nat :=
  let routes := ((entsOf b.cfg tRoute).filter fun p => (u8 (b.thDesc (u16 p.2 4)) 1).testBit 0).map fun p => u24 p.2 0
  let locks := ((entsOf b.bank tLock).map fun p => [8, 16, 24].map fun o => u24 p.2 o).flatten
  let guards := ((entsOf b.bank tMachine).map fun p =>
    (List.range (u16 p.2 12)).map fun i => u24 (b.act tTrans (u32 p.2 8 + i)) 4).flatten
  routes ++ locks ++ guards

/-- Check 9 in the world declared, `t` (R529): the signals that would be ABSENT, each once. -/
def Block.requiredAbsent (t : Block) : List Nat :=
  let byLane := (t.heldLanes.filter fun n => t.bit (Reg.wldChamber (rcChamber (t.lnHead n))) 0).map fun n => (t.lnUses n).filter fun s => t.absent s
  let own := t.otherUses.filter fun s =>
    t.absent s && (match t.sigEntry s with | some e => u8 e 11 != 0xFF && t.bit (Reg.wldChamber (u8 e 11)) 0 | none => false)
  (byLane.flatten ++ own).eraseDups

/-- Check 11 in the world declared: consumers and claims that exceed a feed's or a circuit's capacity minus reserve. -/
def Block.claimsOver (t : Block) : List (Nat × Nat) :=
  let cl := ((t.heldLanes.map fun n => ((t.lnSteps n).map fun e => (spClaims t.bank e).map fun q => (q.1, q.2.1)).flatten).flatten).eraseDups
  cl.filter fun q => (List.range 12).any fun r =>
    t.weight q.1 r ≠ 0 && decide (((t.res r).declared - t.rdN (Reg.lgrResReserve r) : Nat) < t.weight q.1 r * (q.2 : Rat))

/-- Check 12: presence on CAN6 and CAN7 against the safety parameters. -/
def Block.safetyOff (b : Block) (es : List (List Byte)) : List Nat :=
  let p := b.saf.inForce
  let used := ((List.range 16).filter fun c => (u8 p (224 + 16 * c)).testBit 0).map fun c => u8 p (225 + 16 * c)
  let bad (bus n : Nat) : Bool :=
    let on := match findEntry es (sidNode bus n) with | some e => u8 e 4 == prPresent | none => false
    on != used.contains n
  ([6, 7].map fun bus => ((List.range 256).filter fun n => bad bus n).map fun n => sidNode bus n).flatten

/-- The failures and notes of a declaration (R94), in the table's order. -/
def Block.checkWorld (b : Block) (d : List Byte) : List (List Byte) :=
  if !headerFine d then [failure 0 1]
  else
    let es := dcEntries d
    let order := (withPrev es).filter fun p =>
      (match p.1 with | some s => decide (deSid p.2 ≤ s) | none => false) || !entryFine p.2 || !nodeFine es p.2
    let c2 := order.map fun p => failure (deSid p.2) 2
    let c3 := if (List.range 8).all fun i => u32 d (16 + 4 * i) == b.rdN (Reg.imgBuildId i) then [] else [failure 0 3]
    let c4 := (es.filter fun e => kindSid (deKind e) (deSid e) && !b.inImage (deSid e)).map fun e => failure (deSid e) 4
    let c5 := (es.filter fun e => deKind e == 2 && u8 e 4 == prSpare &&
      !b.sameLayout (nodeBus (deSid e)) (nodeNum (u24 e 6)) (nodeNum (deSid e))).map fun e => failure (deSid e) 5 (u24 e 6)
    let g := b.nextGen
    let c6 := if dcGen d = g then [] else [failure 0 6 0 (dcGen d)]
    -- the checks of content read the entries that can be read
    let es := es.filter fun e => entryFine e && kindSid (deKind e) (deSid e) && b.inImage (deSid e)
    let t := b.declareAll es
    let c7 := ((List.range 16).filter fun n => b.chamberExists n && b.chamberBusy n && b.touched t n).map fun n => failure (0x100 + n) 7
    let c8 := (b.definedNodes.filter fun k => !b.roleFine es k.1 k.2).map fun k => failure (sidNode k.1 k.2) 8
    let c9 := t.requiredAbsent.map fun s => failure s 9
    let c10 := (es.filter fun e => deKind e == 5 && decide (u32 (b.consEnt (deSid e - 0xA01000)) 0 < u32 e 8)).map fun e =>
      failure (deSid e) 10 0 (u32 e 8)
    let c11 := t.claimsOver.map fun q => failure (sidCons q.1) 11 0 q.2
    let c12 := (b.safetyOff es).map fun s => failure s 12
    let claimed := ((entsOf b.bank tClaim).map fun p => u24 p.2 0) ++ (entsOf b.cfg tSignal).map fun p => u24 p.2 12
    let unused := (es.filter fun e => (deKind e == 2 || deKind e == 5) && u8 e 4 == 1 && !claimed.contains (deSid e)).map fun e =>
      repEntry (deSid e) 0 0x10 0 0
    let noLane := (es.filter fun e => deKind e == 1 && u8 e 4 == 1 && u8 e 5 == 0xFF).map fun e => repEntry (deSid e) 0 0x11 0 0
    let noSpare := if es.any fun e => deKind e == 6 && u8 e 4 == 2 then [] else [repEntry 0 0 0x12 0 0]
    c2 ++ c3 ++ c4 ++ c5 ++ c6 ++ c7 ++ c8 ++ c9 ++ c10 ++ c11 ++ c12 ++ unused ++ noLane ++ noSpare

/-- The status of a failure code (R94). -/
def worldStatus (code : Nat) : Nat :=
  if code ≤ 2 then stBadArg else if code ≤ 5 then stBadRef else if code ≤ 8 then stConflict else stLimit

/-! ### The command and its outcome -/

/-- R94, R104, R105. -/
def execWldDeclare (c : Cmd) (s : State) : Host.Outcome State Fault Refusal :=
  nextB s fun b =>
    b.accept 0x0301 c [authCheck c roleOperator, devCheck b devLive, envCheck c, noObject c, deny (!cExt c) stBadArg 0x01,
      deny b.world.checking.isSome stBusy] fun b =>
      { b with world := { b.world with checking := some (b.serviceOp c 0x0301 (cArg c)), report := [] } }.setFld Reg.wldState 1 1 1

/-- What starts on entry to OPERATIONAL (07 R167, 09 R224, 14 R341, 16 R387, 17 R406, R417). -/
def Block.goOperational (b : Block) : Block :=
  let b := (b.setDev dsOperational).loopsStart.canStart.serStart.axesStart.acqStart
  ((entsOf b.cfg tThread).filter fun p => (u8 p.2 1).testBit 0 && (u8 p.2 1).testBit 1).foldl (fun (b : Block) p => b.enableThread p.1) b

/-- A declaration takes effect (R95). -/
def Block.worldInForce (b : Block) (es : List (List Byte)) : Block :=
  let g := b.nextGen
  let b := ((b.declareAll es).setFld Reg.wldState 0 1 1).setFld Reg.lgrState 0 1 1
  let role (p : Nat) : Nat := match findEntry es (0x200 + p) with | some e => u8 e 4 | none => 0
  let b := ((b.portRoles [role 0, role 1]).showRxos).worldChanged g 0 0
  let b := (b.consAll.foldl (fun (b : Block) c => b.showCons c) b).showLedger
  if b.dev = dsAwaitWorld then b.goOperational else b

/-- R94–R96, R103: the check is made, and its outcome takes effect. -/
def execDeclarationApply (s : State) : Host.Outcome State Fault Refusal :=
  nextB s fun b =>
    match b.world.checking with
    | none => b
    | some o =>
      if !b.serviceUp then b
      else
        let rep := b.checkWorld o.data
        let fails := rep.filter fun e => u8 e 3 == 1
        let nf := satNat 255 (min fails.length 1024)
        let kept := rep.take 1024
        let nn := satNat 255 ((kept.filter fun e => u8 e 3 == 0).length)
        let code := match fails.head? with | some e => u8 e 4 | none => 0
        let st := if fails.isEmpty then stDone else worldStatus code
        let b := if fails.isEmpty then b.worldInForce (dcEntries o.data) else b
        let b := { b with world := { b.world with checking := none, report := kept } }.setFld Reg.wldState 1 1 0
        let b := b.wrN Reg.wldCheck (st + 256 * code + 65536 * nn + 2 ^ 24 * nf)
        b.settle o false st code (leBytes 4 (b.rdN Reg.wldGeneration) ++ leBytes 4 nf ++ leBytes 4 nn) b.dev

end Sys2Proof.Machine
end

