-- ==== Sys2Proof/Machine/HostIf.lean ====
section
/-! DEFINITION. Machine/HostIf.lean: what the host's queues do: fetching commands, writing completions, events lost, coalescing, resets and
DMA errors, Ethernet frames, and the HST commands (19 R458–R474). -/

namespace Sys2Proof.Machine

/-! ### Opcodes (02 R41, R43) -/

/-- The command numbers that the chapters define for each block. -/
def commandsOf : Nat → List Nat
  | 0x00 => [1, 2, 3]
  | 0x02 => [1, 2, 3, 4, 5, 6, 7, 8, 9, 10, 11]
  | 0x03 => [1, 2, 3, 4, 5]
  | 0x04 => [1, 2, 3, 4, 5, 6, 7, 8, 9]
  | 0x05 => [1, 2, 3]
  | 0x06 => [1, 2, 3, 4]
  | 0x07 => [1, 2, 3, 4, 5]
  | 0x08 => [1]
  | 0x09 => [1, 2, 3]
  | 0x0A => [1, 2, 3, 4, 5]
  | 0x0B => [1, 2, 3, 4, 5]
  | 0x0C => [1, 2, 3, 4, 5, 6]
  | 0x0D => [1, 2, 3, 4, 5]
  | 0x0E => [0x01, 0x02, 0x03, 0x10, 0x11, 0x12]
  | 0x0F => [1, 2, 3, 4, 5, 6]
  | 0x10 => [0x01, 0x02, 0x03, 0x04, 0x05, 0x11, 0x12, 0x13]
  | 0x12 => [1, 2, 3]
  | 0x13 => [1, 2, 3]
  | 0x14 => [1, 2, 3, 4, 5, 6, 7, 8, 9]
  | _ => []

/-- Is an opcode defined (R43)? -/
def opcodeDefined (op : Nat) : Bool := (commandsOf (op / 256)).contains (op % 256)

/-- The opcodes whose command table lists QUEUED (R463). -/
def queuedOpcodes : List Nat := [0x0205, 0x0209, 0x0801, 0x0901, 0x0902, 0x0A04, 0x0C05, 0x1002, 0x1201]

/-- Completion entries that a command needs (R463). -/
def entriesFor (op : Nat) : Nat := if queuedOpcodes.contains op then 2 else 1

/-! ### Fetching (R462, R463) -/

/-- Completion entries reserved on the pair of command queue q. -/
def OutSt.reservedOn (o : OutSt) (q : Nat) : Nat := ((o.slots.filter fun x => x.src == q && x.lost == 0).map Slot.reserved).sum

/-- May an entry be fetched from a command queue, needing `n` completion entries? -/
def OutSt.mayFetch (o : OutSt) (q n : Nat) : Bool :=
  o.qUp q && o.qHead q != o.qTail q && o.qUp (q + 16) && decide (o.reservedOn q + n ≤ o.qRoom (q + 16))

/-- The queue that is served next (R462): Q0 first, then the others in round robin with up to 8 entries per turn. -/
def OutSt.nextFetch (o : OutSt) : Option Nat :=
  if o.mayFetch 0 1 then some 0
  else if o.rrTaken < 8 && o.mayFetch o.rrAt 1 then some o.rrAt
  else ((List.range 15).map fun i => 1 + (o.rrAt + i) % 15).find? fun q => o.mayFetch q 1

/-- R462: the entry at the head is decoded, which accepts its command; an opcode that no chapter defines completes at once (02 R43). The
command's own effect is its own row. -/
def execCommandFetch (q : Fin 16) (env : List Byte) (s : State) : Host.Outcome State Fault Refusal :=
  nextB s fun b =>
    let op := u16 env 0
    if !b.started || b.out.nextFetch != some q.val || !b.out.mayFetch q.val (entriesFor op) then b else
    let o := b.out
    let h := if o.qHead q.val + 1 = o.qSize q.val then 0 else o.qHead q.val + 1
    let again := decide (o.rrTaken < 8) && o.rrAt == q.val
    let x : Slot := { src := q.val, opcode := op, tag := u16 env 2, notify := (u8 env 4).testBit 1, cmdHead := h, two := entriesFor op == 2 }
    let b := b.onOut fun o => { o with
      slots := o.slots ++ [x],
      rrAt := if q.val = 0 then o.rrAt else q.val,
      rrTaken := if q.val = 0 then o.rrTaken else if again then o.rrTaken + 1 else 1 }
    let b := ((b.setFld (Reg.hstQIndex q.val) 0 12 h).count48 Reg.hstFetched).blkCount 0x28
    if opcodeDefined op then b
    else
      let cpl : Completion := { status := stBadArg, reason := 0x20, time := b.now }
      let b := b.answer q.val op (u16 env 2) x.notify cpl
      if x.notify then
        b.event (if op / 256 ≤ 0x15 then op / 256 else 0) (objSid (u32 env 8 % 0x1000000)) 3 stBadArg 0x20 q.val (op + 65536 * u16 env 2) 0
          (notifyBytes cpl)
      else b

/-! ### Completions (R463, R464) -/

/-- Bytes 0–55 of a completion (02 R42). -/
def cplBody (x : Slot) (c : Completion) : List Byte :=
  leBytes 2 x.opcode ++ leBytes 2 x.tag ++ leBytes 1 c.status ++ leBytes 1 c.reason ++ leBytes 2 x.src ++ leBytes 8 c.time ++ padTo 40 c.result

/-- Write one completion of a command at the tail of its completion queue (R464). -/
def OutSt.pushCpl (o : OutSt) (now q : Nat) (x : Slot) (c : Completion) : OutSt :=
  o.push now (q + 16) (cplBody x c) (leBytes 2 x.cmdHead ++ leBytes 1 (o.qState q))

/-- What one slot writes when its turn comes; `open_` says that every first entry before it is written. -/
def OutSt.writeSlot (now q : Nat) (acc : OutSt × List Slot × Bool) (x : Slot) : OutSt × List Slot × Bool :=
  let (o, kept, open_) := acc
  if x.src ≠ q ∨ x.lost ≠ 0 then (o, kept ++ [x], open_)
  else
    match x.firstWritten, x.first, open_ with
    | false, some c, true =>
      let o := o.pushCpl now q x c
      if !x.two then (o, kept, true)
      else
        match x.final with
        | some f => (o.pushCpl now q x f, kept, true)
        | none => let y : Slot := { x with firstWritten := true }; (o, kept ++ [y], true)
    | false, _, _ => (o, kept ++ [x], false)
    | true, _, _ => (o, kept ++ [x], open_)

/-- The final entries of commands whose first entry is written (R463). -/
def OutSt.writeFinals (o : OutSt) (now q : Nat) : OutSt :=
  let due (x : Slot) : Bool := x.src == q && x.lost == 0 && x.firstWritten && x.final.isSome
  let o' := (o.slots.filter due).foldl (fun (o : OutSt) x => match x.final with | some f => o.pushCpl now q x f | none => o) o
  { o' with slots := o'.slots.filter fun x => !due x }

/-- R463, R464: first entries in order of acceptance, final entries as soon as they are known. -/
def execCompletionWrite (q : Fin 16) (s : State) : Host.Outcome State Fault Refusal :=
  nextB s fun b =>
    let n := b.out.entries
    if !b.out.qUp (q.val + 16) then b else
    let o := b.out.writeFinals b.now q.val
    let r := o.slots.foldl (OutSt.writeSlot b.now q.val) (o, [], true)
    let b := b.onOut fun _ => { r.1 with slots := r.2.1 }
    b.blkCount 0x29 (b.out.entries - n)

/-! ### Events and signals (R466, R469) -/

/-- R466: the LOSS entry for all events dropped since the last entry. -/
def execEventLossEntry (q : Fin 16) (s : State) : Host.Outcome State Fault Refusal :=
  nextB s fun b =>
    let k := 32 + q.val
    let st := tget ({} : QueueSt) b.out.q k
    if st.lost = 0 || !b.out.qUp k || b.out.qRoom k == 0 then b else
    let bs := eventBytes b.now sidDevice 4 0 0 0xFFFD st.lost 0 (leBytes 8 st.lostFirst)
    let b := b.record sidDevice 0x60 bs true
    let b := b.onOut fun o =>
      let o := o.push b.now k bs (leBytes 2 st.seq ++ leBytes 1 (o.qState k) ++ leBytes 4 (st.seq >>> 16))
      { o with q := tput o.q k { tget ({} : QueueSt) o.q k with seq := st.seq + 1, lost := 0, lostFirst := 0 } }
    b.blkCount 0x29 1

/-- R469: COAL_US have passed since the first entry written after the last signal. -/
def execCoalesceTimeout (q : Fin 64) (s : State) : Host.Outcome State Fault Refusal :=
  nextB s fun b =>
    let o := b.out
    let st := tget ({} : QueueSt) o.q q.val
    let us := fldR o.regs (Reg.hstQCoal q.val) 16 10
    if st.unsig ≠ 0 && us != 0 && decide (st.since + 1000 * us ≤ b.now) && o.qUp q.val && o.qHead q.val != o.qTail q.val then
      b.onOut (·.signal q.val)
    else b

/-! ### Resets, errors, Ethernet (R458, R470, R472) -/

/-- R458: 0 PERST, 1 hot reset, 2 Function Level Reset, 3 DL_Down; all act alike. -/
def execPcieReset (_kind : Fin 4) (s : State) : Host.Outcome State Fault Refusal :=
  nextB s fun b => (b.onOut (·.pcieReset)).emit (.flag Reg.hstFlags 0 false [])

/-- R470. A command queue holds no entry that the controller has yet to deliver. -/
def execDmaError (q : Fin 64) (s : State) : Host.Outcome State Fault Refusal :=
  nextB s fun b =>
    if !b.out.qUp q.val then b else
    let b := b.onOut (·.setQ q.val qFault)
    let b := if 32 ≤ q.val then b.count (Reg.hstQDrops q.val)
      else if 16 ≤ q.val then
        b.onOut fun o => { o with slots := o.slots.map fun (x : Slot) =>
          if x.src == q.val - 16 && x.lost == 0 then { x with lost := 3 } else x }.dropLost
      else b
    b.emit (.flag Reg.hstFlags 3 true [])

/-- R472. PTP messages take their own rows (12 R299). -/
def execEthFrameRx (port : Fin 2) (ptp : Bool) (s : State) : Host.Outcome State Fault Refusal :=
  nextB s fun b => if ptp || !b.started then b else b.count (Reg.hstEthDiscards port.val)

/-! ### HST commands (R473, R474) -/

/-- The commands are accepted only on Q0 or from the management core (R473). -/
def notAdmin (c : Cmd) : Bool := match c.issuer with | .host q => q.val != 0 | .mgmt _ => false

/-- What comes before the arguments. -/
def hstPre (b : Block) (c : Cmd) : List (Option Refuse) :=
  [authCheck c roleOperator, devCheck b [dsAwaitWorld, dsOperational, dsRestart, dsSafeStop], envCheck c, noObject c, deny (notAdmin c) stBadArg]

/-- Do the arguments of `HST.QUEUE_CREATE` lie within R461 and the table? A command queue signals nothing, so no coalescing is asked of it. -/
def createArgsOk (a : List Byte) : Bool :=
  let q := u8 a 0
  let size := u32 a 4
  decide (q < 64) && decide ((if 48 ≤ q then 64 else 16) ≤ size) && decide (size ≤ 4096) && u64 a 8 % 4096 == 0 && decide (u8 a 2 < 64) &&
    (decide (q < 16) || (u8 a 16 != 0 && decide (u16 a 18 ≤ 1000)))

/-- R473, R474. -/
def execHstQueueCreate (c : Cmd) (s : State) : Host.Outcome State Fault Refusal :=
  nextB s fun b =>
    let a := cArg c
    let q := u8 a 0
    b.runDone 0x1301 c (hstPre b c ++ [deny (q == 0 || q == 16) stBadArg 0x01, deny (!createArgsOk a) stBadArg,
      deny (b.out.qState q != qDisabled) stConflict 0x01 (b.out.qState q),
      deny (decide (q < 16) && !b.out.qUp (q + 16)) stConflict 0x02 (b.out.qState q)]) fun b =>
      b.onOut fun o => o.makeQ q (u32 a 4) (u8 a 2) (decide (16 ≤ q) && (u8 a 1).testBit 0) (u64 a 8) (if q < 16 then 0 else u8 a 16)
        (if q < 16 then 0 else u16 a 18) (b.dev == dsRestart)

/-- R473, R474. -/
def execHstQueueDelete (c : Cmd) (s : State) : Host.Outcome State Fault Refusal :=
  nextB s fun b =>
    let q := u8 (cArg c) 0
    b.runDone 0x1302 c (hstPre b c ++ [deny (q == 0 || q == 16) stBadArg 0x01, deny (decide (64 ≤ q)) stBadArg,
      deny (b.out.qState q == qDisabled) stConflict 0x04 qDisabled,
      deny (decide (16 < q) && decide (q < 32) && b.out.qState (q - 16) != qDisabled) stConflict 0x03 (b.out.qState q)]) fun b =>
      b.onOut (·.deleteQ q)

/-- R473, R474. -/
def execHstEventRoute (c : Cmd) (s : State) : Host.Outcome State Fault Refusal :=
  nextB s fun b =>
    let a := cArg c
    b.runDone 0x1303 c (hstPre b c ++ [deny (decide (0x15 < u8 a 0) || decide (u8 a 1 < 32) || decide (47 < u8 a 1)) stBadArg]) fun b =>
      b.wrN (Reg.hstEvtRoute (u8 a 0)) (u8 a 1)

end Sys2Proof.Machine
end

