-- ==== Sys2Proof/Machine/MgmtLink.lean ====
section
/-! DEFINITION. Machine/MgmtLink.lean: the management island: its frames and answers, its commands, the event log's copy, restarts and the
mirror (20 R476–R488). -/

namespace Sys2Proof.Machine

/-! ### Frames (R479, R480) -/

/-- "SHV-ROLE-" followed by the role's digit. -/
def roleLabel (n : Nat) : List Byte := [0x53#8, 0x48#8, 0x56#8, 0x2D#8, 0x52#8, 0x4F#8, 0x4C#8, 0x45#8, 0x2D#8] ++ leBytes 1 (0x30 + n)
/-- Role key n. -/
def Fuses.roleKey (f : Fuses) (n : Nat) : List Byte := Config.hmacSha256 f.devKey (roleLabel n)

/-- Does the MI run its ROM, not yet its firmware, so that the link has its default rate and address (R476)? -/
def Block.linkAddr (b : Block) : Nat := if b.mgmt.firmware then b.mgmt.addr else 0x10
def Block.linkRate (b : Block) : Nat := if b.mgmt.firmware then b.mgmt.rate else 0

/-- The MAC of a frame in a session: over the nonce and the frame's bytes 2 to 11 + LEN (R480). -/
def frameMac (f : Fuses) (nonce : List Byte) (role : Nat) (head : List Byte) : List Byte :=
  if role = 0 then zeroBytes 16 else (Config.hmacSha256 (f.roleKey role) (nonce ++ head.drop 2)).take 16

/-- A frame of the controller (R479): type, role, counter and body. -/
def Block.frame (b : Block) (f : Fuses) (typ role counter : Nat) (body : List Byte) : List Byte :=
  let head := [0x53#8, 0x48#8] ++ leBytes 1 b.linkAddr ++ leBytes 1 typ ++ leBytes 2 body.length ++ leBytes 1 role ++ leBytes 1 0 ++
    leBytes 4 counter ++ body
  let all := head ++ padTo 16 (frameMac f (b.mgmt.nonce.getD []) role head)
  all ++ leBytes 4 (crc32 all)

/-- A frame is ready for the master (R476, R478). -/
def Block.sendFrame (b : Block) (f : Fuses) (typ role counter : Nat) (body : List Byte) : Block :=
  { b with mgmt := { b.mgmt with response := b.frame f typ role counter body, respRead := 0, alert := true } }

/-- A completion as the link carries it (R479): bytes 56–59 echo COUNTER. -/
def linkCpl (x : Slot) (c : Completion) (counter : Nat) : List Byte := cplBody x c ++ leBytes 4 counter ++ zeroBytes 4

/-- Does anything await the master (R478)? -/
def Block.awaits (b : Block) : Bool :=
  !b.mgmt.response.isEmpty || !b.mgmt.events.isEmpty || b.out.slots.any fun x => x.src == 0xFFFF && x.lost == 0 && x.known != 0

/-- `SMB_ALERT_N` goes inactive when nothing awaits the master. -/
def Block.settleAlert (b : Block) : Block := { b with mgmt := { b.mgmt with alert := b.mgmt.alert && b.awaits } }

/-- Remove the last element that satisfies `p`, or put another in its place. -/
def updLast {α : Type} (p : α → Bool) (f : α → Option α) (l : List α) : List α :=
  let go : List α → List α := fun l => match l.span (fun x => !p x) with
    | (a, x :: r) => (match f x with | some y => a ++ y :: r | none => a ++ r)
    | (a, []) => a
  (go l.reverse).reverse

/-- Answer a request (R482): by a RESPONSE with its completion, or by PENDING where it has none yet. -/
def Block.respond (b : Block) (f : Fuses) (role counter op tag : Nat) : Block :=
  let own (x : Slot) : Bool := x.src == 0xFFFF && x.opcode == op && x.tag == tag && x.lost == 0 && x.first.isSome && !x.firstWritten
  match b.out.slots.reverse.find? own with
  | some x =>
    let b := b.onOut fun o => { o with slots := updLast own (fun (x : Slot) => if x.two then some { x with firstWritten := true } else none) o.slots }
    match x.first with
    | some c => b.sendFrame f 2 role counter (linkCpl x c counter)
    | none => b
  | none => b.sendFrame f 3 role counter (leBytes 2 op ++ leBytes 2 tag)

/-- The oldest held completion (R482), and the slots once it is delivered. `open_` says that every first entry before is delivered. -/
def heldFrom (open_ : Bool) : List Slot → Option (List Slot × Slot × Completion)
  | [] => none
  | x :: r =>
    let rest (o : Bool) : Option (List Slot × Slot × Completion) := (heldFrom o r).map fun t => (x :: t.1, t.2)
    if x.src ≠ 0xFFFF ∨ x.lost ≠ 0 then rest open_
    else
      match x.firstWritten, x.first, x.final with
      | false, some c, _ => if open_ then some (if x.two then { x with firstWritten := true } :: r else r, x, c) else rest open_
      | false, none, _ => rest false
      | true, _, some c => some (r, x, c)
      | true, _, none => rest open_

/-- The completions that are held (R482). -/
def Block.heldCount (b : Block) : Nat := ((b.out.slots.filter fun x => x.src == 0xFFFF && x.lost == 0).map Slot.known).sum

/-! ### The event log (R485) -/

/-- The 32 bytes of an entry. -/
def LogEntry.bytes (e : LogEntry) : List Byte :=
  leBytes 8 e.time ++ leBytes 4 e.seq ++ leBytes 1 e.source ++ leBytes 1 e.code ++ leBytes 1 (b2n e.timeValid + 2 * b2n e.fromNvm) ++
    leBytes 1 0 ++ padTo 16 e.detail

/-- The entry with a sequence number. -/
def Mgmt.entry (m : Mgmt) (seq : Nat) : Option LogEntry := m.log.find? fun e => e.seq % 2 ^ 32 == seq

/-- R485: within 1 s of logging. -/
def execLogNvmCopy (s : State) : Host.Outcome State Fault Refusal :=
  nextB s fun b => if b.boot.por || b.mgmt.restarting then b else { b with mgmt := { b.mgmt with nvmLog := b.mgmt.log } }

/-! ### The mirror and restarts (R484, R488) -/

/-- Is only the ROM service available (R486)? -/
def Block.romService (b : Block) : Bool := [dsBoot, dsImageCheck, dsFailed].contains b.dev || !b.mgmt.firmware

/-- `MGT.STATE` and `MGT.LOG_SEQ` (R488). -/
def Block.showMgt (b : Block) : Block :=
  let rc := b.bit Reg.clkState 5
  let w := 1 + 2 * b2n b.romService + 4 * b2n b.mgmt.nonce.isSome + 8 * b2n rc + 65536 * b.linkRate + 2 ^ 24 * b.linkAddr
  (b.wrN Reg.mgtState w).wrN Reg.mgtLogSeq (b.mgmt.nextSeq - 1)

/-- New link settings take effect once the response has been sent (R487). -/
def Block.applyLink (b : Block) : Block :=
  match b.mgmt.newLink with
  | some (r, a, m) => { b with mgmt := { b.mgmt with rate := r, addr := a, smbAddr := m, newLink := none } }
  | none => b

/-- R488: every 1 ms. -/
def execMirrorRefresh (temps : List Int) (supplies : List Nat) (s : State) : Host.Outcome State Fault Refusal :=
  nextB s fun b =>
    if b.boot.por || b.mgmt.restarting then b else
    let b := (List.range 6).foldl (fun (b : Block) i => b.wrN (Reg.mgtTemp i) (ofSigned 32 (temps.getD i 0))) b.applyLink
    let b := (List.range 11).foldl (fun (b : Block) v => b.wrN (Reg.mgtSupply v) (supplies.getD v 0)) b
    b.showMgt

/-- An MI restart begins (R484, 01 R22): the link is silent, the session ends, held completions are lost and counted. -/
def Block.miRestart (b : Block) (slot : Option Nat) : Block :=
  let b := b.count Reg.mgtLostCompletions b.heldCount
  let b := b.onOut fun o => { o with slots := o.slots.map fun (x : Slot) => if x.src == 0xFFFF then { x with lost := 1 } else x }.dropLost
  let b := b.setFld Reg.mgtState 0 1 0
  { b with mgmt := { b.mgmt with restarting := true, nonce := none, counters := [], authRun := 0, backoff := false, partialFrame := [],
                                 response := [], respRead := 0, alert := false, miSlot := slot } }

/-- R484. -/
def execMiSelfFault (s : State) : Host.Outcome State Fault Refusal :=
  nextB s fun b => if b.boot.por || b.mgmt.restarting then b else b.miRestart b.mgmt.miSlot

/-- R484: the link answers again. -/
def execMiRestartEnd (s : State) : Host.Outcome State Fault Refusal :=
  nextB s fun b =>
    if b.boot.por || !b.mgmt.restarting then b else
    (({ b with mgmt := { b.mgmt with restarting := false } }.log 1 0x0D).showMgt).raise Reg.mgtFlags 1

/-- R480: 1 s of back-off is over. -/
def execBackoffEnd (s : State) : Host.Outcome State Fault Refusal :=
  nextB s fun b =>
    if b.mgmt.backoff && decide (b.mgmt.backoffSince + 1000000000 ≤ b.elapsed) then
      { b with mgmt := { b.mgmt with backoff := false, authRun := 0 } }
    else b

/-! ### SMBus (R478) -/

/-- R478: up to 255 further bytes of the response; its last byte read, it no longer awaits. -/
def execSmbusBlockRead (count : Nat) (s : State) : Host.Outcome State Fault Refusal :=
  nextB s fun b =>
    let n := b.mgmt.respRead + min count 255
    if b.mgmt.response.length ≤ n then { b with mgmt := { b.mgmt with response := [], respRead := 0 } }.settleAlert
    else { b with mgmt := { b.mgmt with respRead := n } }

/-- R478. -/
def execAlertResponseRead (s : State) : Host.Outcome State Fault Refusal :=
  nextB s fun b => { b with mgmt := { b.mgmt with alert := false } }

/-! ### MGT commands (R486, R487) -/

/-- The device-state part of the checks (R486). -/
def Block.mgtCheck (b : Block) (ok : Bool) : Option Refuse := deny (b.romService && !ok) stConflict 0x10 b.dev

/-- Run an MGT command and answer it; an MI that restarts or is in reset gives none. -/
def Block.mgtRun (b : Block) (f : Fuses) (op : Nat) (c : Cmd) (role : Nat) (rom : Bool) (refusals : List (Option Refuse))
    (eff : Block → Block × Nat × Nat × List Byte) : Block :=
  if b.boot.por || b.mgmt.restarting then b
  else
    let b := b.run op c ([authCheck c role true, b.mgtCheck rom, envCheck c, noObject c] ++ refusals) eff
    match c.issuer with
    | .mgmt r => b.respond f r.val b.mgmt.reqCounter op c.tag.toNat
    | .host _ => b

/-- R480: `nonce` is the fresh one. -/
def execMgtHello (c : Cmd) (nonce : List Byte) (s : State) : Host.Outcome State Fault Refusal :=
  nextF s fun f b =>
    b.mgtRun f 0x1401 c roleNone true [] fun b =>
      (({ b with mgmt := { b.mgmt with nonce := some nonce, counters := [], authRun := 0 } }).showMgt, stDone, 0, padTo 16 nonce)

/-- R482. -/
def Block.mgtPoll (b : Block) (f : Fuses) (role counter : Nat) (c : Cmd) : Block :=
  match firstRefusal [authCheck c roleObserver true, envCheck c, noObject c] with
  | some r => (b.complete 0x1402 c r.status r.reason [] r.code).respond f role counter 0x1402 c.tag.toNat
  | none =>
    match heldFrom true b.out.slots with
    | some (l, x, cpl) => ((b.onOut fun o => { o with slots := l }).sendFrame f 2 role counter (linkCpl x cpl counter)).settleAlert
    | none =>
      match b.mgmt.events.dropWhile fun v => (b.mgmt.entry (u32 v 0)).isNone with
      | v :: rest =>
        let body := match b.mgmt.entry (u32 v 0) with | some e => e.bytes | none => []
        ({ b with mgmt := { b.mgmt with events := rest } }.sendFrame f 4 role counter body).settleAlert
      | [] =>
        let b := { b with mgmt := { b.mgmt with events := [] } }
        (b.complete 0x1402 c stDone).respond f role counter 0x1402 c.tag.toNat

/-- R482, R487. -/
def execMgtPoll (c : Cmd) (s : State) : Host.Outcome State Fault Refusal :=
  nextF s fun f b =>
    if b.boot.por || b.mgmt.restarting then b
    else
      match c.issuer with
      | .mgmt r => b.mgtPoll f r.val b.mgmt.reqCounter c
      | .host _ => b.complete 0x1402 c stAuth

/-- Words from an offset up, read one after another through the management latch (02 R35). -/
def Block.mgtWords (b : Block) (off : Nat) : Nat → List Byte × Block
  | 0 => ([], b)
  | n + 1 =>
    let r := b.regRead .mgmt off
    let t := Block.mgtWords r.2 (off + 4) n
    (leBytes 4 r.1.toNat ++ t.1, t.2)

/-- BAR0 covers 64 MiB (19 R459). -/
def bar0Word (off : Nat) : Bool := off % 4 == 0 && decide (off < 0x4000000)

/-- R487; in the ROM service only SYS, IMG and MGT (R486). -/
def execMgtRead (c : Cmd) (s : State) : Host.Outcome State Fault Refusal :=
  nextF s fun f b =>
    let a := cArg c
    let off := u32 a 0
    let n := u8 a 4
    b.mgtRun f 0x1403 c roleObserver ([0x00, 0x02, 0x14].contains (off / 0x100000))
      [deny (!bar0Word off || n == 0 || decide (10 < n) || !bar0Word (off + 4 * (n - 1))) stBadArg] fun b =>
        let r := b.mgtWords off n
        (r.2, stDone, 0, r.1)

/-- R487. -/
def execMgtWrite (c : Cmd) (s : State) : Host.Outcome State Fault Refusal :=
  nextF s fun f b =>
    let a := cArg c
    b.mgtRun f 0x1404 c roleOperator false [deny (!bar0Word (u32 a 0)) stBadArg] fun b =>
      (b.regWrite .mgmt (u32 a 0) (w32 a 4), stDone, 0, [])

/-- R487. -/
def execMgtLogRead (c : Cmd) (s : State) : Host.Outcome State Fault Refusal :=
  nextF s fun f b =>
    let e := b.mgmt.entry (u32 (cArg c) 0)
    b.mgtRun f 0x1405 c roleObserver true [deny e.isNone stBadRef] fun b =>
      (b, stDone, 0, match e with | some e => e.bytes | none => [])

/-- R487: the sensors are those of 22 R508. -/
def execMgtHealth (c : Cmd) (s : State) : Host.Outcome State Fault Refusal :=
  nextF s fun f b =>
    let i := u8 (cArg c) 0
    b.mgtRun f 0x1406 c roleObserver true [deny (decide (6 ≤ i)) stBadRef] fun b => (b, stDone, 0, leBytes 4 (b.rdN (Reg.mgtTemp i)))

/-- R487. -/
def execMgtUnlock (c : Cmd) (s : State) : Host.Outcome State Fault Refusal :=
  nextF s fun f b =>
    let k := u8 (cArg c) 0
    b.mgtRun f 0x1407 c roleMaintainer false [deny (decide (0x15 < k)) stBadArg] fun b =>
      ((b.wrN (0x100000 * k + 0xFFFF0) 0).log 6 0x0E (leBytes 1 k), stDone, 0, [])

/-- The check of section 0x0007 of a slot as R62 prescribes (R487): the first reason that applies, 0 for none. -/
def Block.firmwareReason (b : Block) (f : Fuses) (n : Nat) : Nat :=
  let h := b.headerReason f n
  if h ≠ 0 then h
  else
    match (b.slotSections n).find? fun e => scType e == 7 with
    | some e => if crc32 (b.slotBytes n (scOffset e) (scLength e)) = scCrc e then b.signatureReason n else rsSectionCrc
    | none => rsFormat

/-- R487. -/
def execMgtMiRestart (c : Cmd) (s : State) : Host.Outcome State Fault Refusal :=
  nextF s fun f b =>
    let k := u8 (cArg c) 0
    let n := if k = 0xFF then b.runningSlot.getD b.boot.checking else k
    let bad := b.firmwareReason f n
    let refs := [deny (decide (1 < k) && k != 0xFF) stBadArg]
    let b' := b.mgtRun f 0x1408 c roleMaintainer false refs fun b => (b, if bad = 0 then stDone else stImage, bad, [])
    let go := (firstRefusal ([authCheck c roleMaintainer true, b.mgtCheck false, envCheck c, noObject c] ++ refs)).isNone && bad == 0 &&
      !b.boot.por && !b.mgmt.restarting
    if go then
      let r := b'.mgmt.response
      let b := b'.miRestart (some n)
      { b with mgmt := { b.mgmt with response := r } }
    else b'

/-- R487. -/
def execMgtLinkConfig (c : Cmd) (s : State) : Host.Outcome State Fault Refusal :=
  nextF s fun f b =>
    let a := cArg c
    b.mgtRun f 0x1409 c roleMaintainer false
      [deny (decide (4 < u8 a 0) || u8 a 1 == 0 || decide (254 < u8 a 1) || decide (0x7F < u8 a 2)) stBadArg] fun b =>
      ({ b with mgmt := { b.mgmt with newLink := some (u8 a 0, u8 a 1, u8 a 2) } }, stDone, 0, [])

end Sys2Proof.Machine
end

