-- ==== Sys2Proof/Machine/Link.lean ====
section
/-! DEFINITION. Machine/Link.lean: requests over the Shavor link, received, authenticated and executed (20 R478–R486). -/

namespace Sys2Proof.Machine

/-- The meaning of an opcode's row. What an outside event decides for a row of its own (a nonce, the fusing supply and whether fuses take) is
free here (log 4). -/
def rowOf : Nat → Option (Cmd → State → Host.Outcome State Fault Refusal)
  | 0x0001 => some execSysColdRestart
  | 0x0002 => some execSysSafeStopAll
  | 0x0003 => some execSysResume
  | 0x0201 => some execImgSlotWrite
  | 0x0202 => some execImgSlotVerify
  | 0x0203 => some execImgSelect
  | 0x0204 => some execImgConfirm
  | 0x0205 => some execImgStage
  | 0x0206 => some execImgBankCopy
  | 0x0207 => some execImgBankWrite
  | 0x0208 => some execImgBankClose
  | 0x0209 => some execImgBankSwap
  | 0x020A => some fun c s => let p := s.b.drawBool; let q := p.2.drawBool; execImgAdvanceRollback c p.1 q.1 { s with b := q.2 }
  | 0x020B => some fun c s => let p := s.b.drawBool; let q := p.2.drawBool; execImgFuseKey c p.1 q.1 { s with b := q.2 }
  | 0x0301 => some execWldDeclare
  | 0x0302 => some execWldReport
  | 0x0303 => some execWldRead
  | 0x0304 => some execWldReplace
  | 0x0305 => some execWldRestore
  | 0x0401 => some execSeqLoad
  | 0x0402 => some execSeqUnload
  | 0x0403 => some execSeqStart
  | 0x0404 => some execSeqHold
  | 0x0405 => some execSeqRelease
  | 0x0406 => some execSeqAbort
  | 0x0407 => some execSeqClear
  | 0x0408 => some execSeqSmPost
  | 0x0409 => some execSeqValidate
  | 0x0501 => some execLgrCapacity
  | 0x0502 => some execLgrReport
  | 0x0503 => some execLgrRestore
  | 0x0601 => some execHostOutSet
  | 0x0602 => some execOutForce
  | 0x0603 => some execOutRelease
  | 0x0604 => some execOutLoop
  | 0x0701 => some execDspEnable
  | 0x0702 => some execDspDisable
  | 0x0703 => some execDspSuspend
  | 0x0704 => some execDspResume
  | 0x0705 => some execDspKick
  | 0x0801 => some execEngCodeSwap
  | 0x0901 => some execCntRestart
  | 0x0902 => some execCntRelease
  | 0x0903 => some execCntInject
  | 0x0A01 => some execRecDest
  | 0x0A02 => some execRecFilter
  | 0x0A03 => some execRecQueueBind
  | 0x0A04 => some execRecReplay
  | 0x0A05 => some execRecConfig
  | 0x0B01 => some execTbSource
  | 0x0B02 => some execTbSet
  | 0x0B03 => some execTbAdjust
  | 0x0B04 => some execTbTout
  | 0x0B05 => some execTbTin
  | 0x0C01 => some execAnaConfig
  | 0x0C02 => some execAnaUrgent
  | 0x0C03 => some execAnaBridge
  | 0x0C04 => some execAnaWindow
  | 0x0C05 => some execAnaCalStage
  | 0x0C06 => some execAnaCalConfirm
  | 0x0D01 => some execAcqTake
  | 0x0D02 => some execAcqArm
  | 0x0D03 => some execAcqTrigger
  | 0x0D04 => some execAcqCompare
  | 0x0D05 => some execAcqChannel
  | 0x0E01 => some execPwmConfig
  | 0x0E02 => some execPwmStop
  | 0x0E03 => some execPwmOverride
  | 0x0E10 => some execTrpClear
  | 0x0E11 => some execTrpConfig
  | 0x0E12 => some execTrpAssert
  | 0x0F01 => some execMotMove
  | 0x0F02 => some execMotEnable
  | 0x0F03 => some execMotProfile
  | 0x0F04 => some execMotSetPosition
  | 0x0F05 => some execMotLimits
  | 0x0F06 => some execMotPoint
  | 0x1001 => some execCanMode
  | 0x1002 => some execCanDetect
  | 0x1003 => some execCanRecover
  | 0x1004 => some execCanTx
  | 0x1005 => some execCanCancel
  | 0x1011 => some execSerMode
  | 0x1012 => some execSerTrigger
  | 0x1013 => some execSerSend
  | 0x1201 => some execSafParamStage
  | 0x1202 => some execSafParamConfirm
  | 0x1203 => some execSafParamRead
  | 0x1301 => some execHstQueueCreate
  | 0x1302 => some execHstQueueDelete
  | 0x1303 => some execHstEventRoute
  | 0x1401 => some fun c s => let d := s.b.drawBytes 16; execMgtHello c d.1 { s with b := d.2 }
  | 0x1402 => some execMgtPoll
  | 0x1403 => some execMgtRead
  | 0x1404 => some execMgtWrite
  | 0x1405 => some execMgtLogRead
  | 0x1406 => some execMgtHealth
  | 0x1407 => some execMgtUnlock
  | 0x1408 => some execMgtMiRestart
  | 0x1409 => some execMgtLinkConfig
  | _ => none

/-- An answer without acceptance (R480, R482). -/
def Block.linkRefuse (b : Block) (f : Fuses) (role counter op tag status reason : Nat) : Block :=
  b.sendFrame f 2 role counter
    (linkCpl { src := 0xFFFF, opcode := op, tag := tag } { status := status, reason := reason, time := b.now } counter)

/-- A request that is not authentic (R480). -/
def Block.authFails (b : Block) (f : Fuses) (role counter op tag : Nat) : Block :=
  let n := b.mgmt.authRun + 1
  let b := (({ b with mgmt := { b.mgmt with authRun := n } }.count Reg.mgtAuthFails).raise Reg.mgtFlags 0).log 6 0x08 (leBytes 1 role)
  let b := if n = 16 then ({ b with mgmt := { b.mgmt with backoff := true, backoffSince := b.elapsed } }).raise Reg.mgtFlags 2 else b
  b.linkRefuse f role counter op tag stAuth 0x01

/-- Is a frame well formed and for this controller (R479)? -/
def Block.frameOk (b : Block) (fr : List Byte) : Bool :=
  let n := u16 fr 4
  fr.length == 32 + n && decide (n ≤ 1088) && u8 fr 0 == 0x53 && u8 fr 1 == 0x48 && u8 fr 2 == b.linkAddr &&
    crc32 (fr.take (28 + n)) == u32 fr (28 + n)

/-- Is a request authentic (R480)? -/
def Block.authentic (b : Block) (f : Fuses) (fr : List Byte) : Bool :=
  let n := u16 fr 4
  let role := u8 fr 6
  if role = 0 then u16 fr 12 == 0x1401
  else
    match b.mgmt.nonce with
    | some nonce => decide (role ≤ 3) && slice fr (12 + n) 16 == padTo 16 (frameMac f nonce role (fr.take (12 + n))) &&
        decide (tget 0 b.mgmt.counters role < u32 fr 8)
    | none => false

/-- The command that an envelope of the link holds (02 R41, 20 R479). -/
def linkCmd (role : Nat) (body : List Byte) : Cmd :=
  { issuer := .mgmt (Fin.ofNat 4 role), tag := BitVec.ofNat 16 (u16 body 2), flags := body.getD 4 0#8, version := body.getD 5 0#8,
    arglen := BitVec.ofNat 16 (u16 body 6), object := w32 body 8, reserved := w32 body 12, args := slice body 16 48,
    extData := body.drop 64 }

/-- Does a request carry just the argument bytes that it names (R479)? -/
def linkArgsOk (body : List Byte) : Bool :=
  if (u8 body 4).testBit 0 then decide (u16 body 6 ≤ 1024) && body.length == 64 + u16 body 6 else body.length == 64

/-- An accepted request is executed and answered (R482). -/
def State.linkRun (s : State) (role counter op : Nat) (body : List Byte) : State :=
  let c := linkCmd role body
  match rowOf op with
  | none => { s with b := s.b.linkRefuse s.fuses role counter op c.tag.toNat stBadArg 0x20 }
  | some row =>
    match row c s with
    | .next s' => if op / 256 = 0x14 then s' else { s' with b := s'.b.respond s'.fuses role counter op c.tag.toNat }
    | _ => s

/-- A request frame (R479–R482). -/
def State.linkFrame (s : State) (fr : List Byte) : State :=
  let f := s.fuses
  let b := s.b.applyLink
  if !b.frameOk fr ∨ u16 fr 4 < 64 then { s with b := b.count Reg.mgtFrameErrors }
  else if u8 fr 3 ≠ 1 then { s with b := b }
  else
    let body := slice fr 12 (u16 fr 4)
    let role := u8 fr 6
    let counter := u32 fr 8
    let op := u16 body 0
    let tag := u16 body 2
    if b.mgmt.backoff && op != 0x1401 then { s with b := b.linkRefuse f role counter op tag stAuth 0x02 }
    else if !b.authentic f fr then { s with b := b.authFails f role counter op tag }
    else if 16 ≤ b.heldCount ∧ op ≠ 0x1402 then { s with b := b.linkRefuse f role counter op tag stBusy 0 }
    else
      let m := { b.mgmt with authRun := 0, reqRole := role, reqCounter := counter,
                             counters := if role = 0 then b.mgmt.counters else tput b.mgmt.counters role counter }
      let b := { b with mgmt := m }
      if !linkArgsOk body then { s with b := b.linkRefuse f role counter op tag stBadArg 0 }
      else { s with b := b }.linkRun role counter op body

/-- Does the link answer: is the MI neither in reset nor restarting (R484)? -/
def Block.linkUp (b : Block) : Bool := !b.boot.por && !b.mgmt.restarting

/-- R479: a frame over TIA-485; `gapOk` says that no gap between its characters was too long. -/
def execShavorRequest (frame : List Byte) (gapOk : Bool) (s : State) : Host.Outcome State Fault Refusal :=
  .next (if !s.b.linkUp then s
    else if gapOk then s.linkFrame frame
    else { s with b := s.b.applyLink.count Reg.mgtFrameErrors })

/-- R478: a piece with a wrong PEC discards the partial frame; the last piece completes it. -/
def execSmbusBlockWrite (last : Bool) (piece : List Byte) (pecOk : Bool) (s : State) : Host.Outcome State Fault Refusal :=
  .next (if !s.b.linkUp then s else
    let put (l : List Byte) : State := { s with b := { s.b with mgmt := { s.b.mgmt with partialFrame := l } } }
    if !pecOk then put []
    else
      let l := s.b.mgmt.partialFrame ++ piece
      if last then (put []).linkFrame l else put l)

end Sys2Proof.Machine
end

