-- ==== Sys2Proof/Machine/Dispatch.lean ====
section
/-! DEFINITION. Machine/Dispatch.lean: one arm per command, each one call of the command's meaning. -/

namespace Sys2Proof.Machine

def exec (i : Instr) (s : State) : Host.Outcome State Fault Refusal :=
  match i with
  | .porNAssert lowNs => Sys2Proof.Machine.execPorNAssert lowNs s
  | .porNRelease refclkOk panelLow testEn => Sys2Proof.Machine.execPorNRelease refclkOk panelLow testEn s
  | .refclkValidAtBoot => Sys2Proof.Machine.execRefclkValidAtBoot s
  | .fusesRead readError => Sys2Proof.Machine.execFusesRead readError s
  | .nvmDiscovered tablesOk => Sys2Proof.Machine.execNvmDiscovered tablesOk s
  | .headerRead => Sys2Proof.Machine.execHeaderRead s
  | .imageStreamEnd tables => Sys2Proof.Machine.execImageStreamEnd tables s
  | .nvmReadError => Sys2Proof.Machine.execNvmReadError s
  | .signatureVerified => Sys2Proof.Machine.execSignatureVerified s
  | .outputsInit => Sys2Proof.Machine.execOutputsInit s
  | .enginesSelfTested failed => Sys2Proof.Machine.execEnginesSelfTested failed s
  | .awaitWorldEntry => Sys2Proof.Machine.execAwaitWorldEntry s
  | .panelShortPress => Sys2Proof.Machine.execPanelShortPress s
  | .panelLongPress => Sys2Proof.Machine.execPanelLongPress s
  | .panelStuck => Sys2Proof.Machine.execPanelStuck s
  | .panelUnstuck => Sys2Proof.Machine.execPanelUnstuck s
  | .sysColdRestart c => Sys2Proof.Machine.execSysColdRestart c s
  | .coldRestartReset => Sys2Proof.Machine.execColdRestartReset s
  | .sysSafeStopAll c => Sys2Proof.Machine.execSysSafeStopAll c s
  | .sysResume c => Sys2Proof.Machine.execSysResume c s
  | .imgSlotWrite c => Sys2Proof.Machine.execImgSlotWrite c s
  | .slotWriteDone nvmOk => Sys2Proof.Machine.execSlotWriteDone nvmOk s
  | .imgSlotVerify c => Sys2Proof.Machine.execImgSlotVerify c s
  | .slotVerifyDone nvmOk tables => Sys2Proof.Machine.execSlotVerifyDone nvmOk tables s
  | .imgSelect c => Sys2Proof.Machine.execImgSelect c s
  | .imgConfirm c => Sys2Proof.Machine.execImgConfirm c s
  | .imgStage c => Sys2Proof.Machine.execImgStage c s
  | .stageDone nvmOk tables => Sys2Proof.Machine.execStageDone nvmOk tables s
  | .imgBankCopy c => Sys2Proof.Machine.execImgBankCopy c s
  | .imgBankWrite c => Sys2Proof.Machine.execImgBankWrite c s
  | .imgBankClose c => Sys2Proof.Machine.execImgBankClose c s
  | .imgBankSwap c => Sys2Proof.Machine.execImgBankSwap c s
  | .bankSwap => Sys2Proof.Machine.execBankSwap s
  | .imgAdvanceRollback c vpp fuseOk => Sys2Proof.Machine.execImgAdvanceRollback c vpp fuseOk s
  | .imgFuseKey c vpp fuseOk => Sys2Proof.Machine.execImgFuseKey c vpp fuseOk s
  | .wldDeclare c => Sys2Proof.Machine.execWldDeclare c s
  | .declarationApply => Sys2Proof.Machine.execDeclarationApply s
  | .wldReport c => Sys2Proof.Machine.execWldReport c s
  | .wldRead c => Sys2Proof.Machine.execWldRead c s
  | .wldReplace c => Sys2Proof.Machine.execWldReplace c s
  | .wldRestore c => Sys2Proof.Machine.execWldRestore c s
  | .nodeDead bus node => Sys2Proof.Machine.execNodeDead bus node s
  | .seqLoad c => Sys2Proof.Machine.execSeqLoad c s
  | .seqValidate c => Sys2Proof.Machine.execSeqValidate c s
  | .validationDone lane => Sys2Proof.Machine.execValidationDone lane s
  | .seqUnload c => Sys2Proof.Machine.execSeqUnload c s
  | .seqStart c => Sys2Proof.Machine.execSeqStart c s
  | .startTimeReached lane => Sys2Proof.Machine.execStartTimeReached lane s
  | .seqHold c => Sys2Proof.Machine.execSeqHold c s
  | .seqRelease c => Sys2Proof.Machine.execSeqRelease c s
  | .seqAbort c => Sys2Proof.Machine.execSeqAbort c s
  | .seqClear c => Sys2Proof.Machine.execSeqClear c s
  | .seqSmPost c => Sys2Proof.Machine.execSeqSmPost c s
  | .claimPresentation lane => Sys2Proof.Machine.execClaimPresentation lane s
  | .decisionTick lane => Sys2Proof.Machine.execDecisionTick lane s
  | .stepEnd lane => Sys2Proof.Machine.execStepEnd lane s
  | .conditionEvaluation lane => Sys2Proof.Machine.execConditionEvaluation lane s
  | .laneEvent lane code => Sys2Proof.Machine.execLaneEvent lane code s
  | .stepTimeout lane => Sys2Proof.Machine.execStepTimeout lane s
  | .holdToleranceExpiry lane => Sys2Proof.Machine.execHoldToleranceExpiry lane s
  | .stepStart lane => Sys2Proof.Machine.execStepStart lane s
  | .safeTimeoutExpiry lane => Sys2Proof.Machine.execSafeTimeoutExpiry lane s
  | .actSet src idx => Sys2Proof.Machine.execActSet src idx s
  | .actRamp src idx => Sys2Proof.Machine.execActRamp src idx s
  | .rampUpdate target => Sys2Proof.Machine.execRampUpdate target s
  | .rampEnd target => Sys2Proof.Machine.execRampEnd target s
  | .actDiscrete src idx => Sys2Proof.Machine.execActDiscrete src idx s
  | .pulseEnd target => Sys2Proof.Machine.execPulseEnd target s
  | .actMove src idx => Sys2Proof.Machine.execActMove src idx s
  | .actObjWrite src idx => Sys2Proof.Machine.execActObjWrite src idx s
  | .actLoop src idx => Sys2Proof.Machine.execActLoop src idx s
  | .actArm src idx => Sys2Proof.Machine.execActArm src idx s
  | .actSmPost src idx => Sys2Proof.Machine.execActSmPost src idx s
  | .actClaim src idx => Sys2Proof.Machine.execActClaim src idx s
  | .enforceEvaluation => Sys2Proof.Machine.execEnforceEvaluation s
  | .smCycle machine => Sys2Proof.Machine.execSmCycle machine s
  | .smStateTimeout machine => Sys2Proof.Machine.execSmStateTimeout machine s
  | .ledgerUpdate => Sys2Proof.Machine.execLedgerUpdate s
  | .measuredTrigger res => Sys2Proof.Machine.execMeasuredTrigger res s
  | .rankRestore res => Sys2Proof.Machine.execRankRestore res s
  | .lgrCapacity c => Sys2Proof.Machine.execLgrCapacity c s
  | .lgrReport c => Sys2Proof.Machine.execLgrReport c s
  | .lgrRestore c => Sys2Proof.Machine.execLgrRestore c s
  | .freshExpiry stage => Sys2Proof.Machine.execFreshExpiry stage s
  | .planExpiry stage => Sys2Proof.Machine.execPlanExpiry stage s
  | .hostOutSet c => Sys2Proof.Machine.execHostOutSet c s
  | .outForce c => Sys2Proof.Machine.execOutForce c s
  | .outRelease c => Sys2Proof.Machine.execOutRelease c s
  | .outLoop c => Sys2Proof.Machine.execOutLoop c s
  | .insAdd e f => Sys2Proof.Machine.execInsAdd e f s
  | .insSub e f => Sys2Proof.Machine.execInsSub e f s
  | .insAnd e f => Sys2Proof.Machine.execInsAnd e f s
  | .insOr e f => Sys2Proof.Machine.execInsOr e f s
  | .insXor e f => Sys2Proof.Machine.execInsXor e f s
  | .insShl e f => Sys2Proof.Machine.execInsShl e f s
  | .insShru e f => Sys2Proof.Machine.execInsShru e f s
  | .insShrs e f => Sys2Proof.Machine.execInsShrs e f s
  | .insCmplt e f => Sys2Proof.Machine.execInsCmplt e f s
  | .insCmpltu e f => Sys2Proof.Machine.execInsCmpltu e f s
  | .insMin e f => Sys2Proof.Machine.execInsMin e f s
  | .insMax e f => Sys2Proof.Machine.execInsMax e f s
  | .insMul e f => Sys2Proof.Machine.execInsMul e f s
  | .insMulhi e f => Sys2Proof.Machine.execInsMulhi e f s
  | .insMulhiu e f => Sys2Proof.Machine.execInsMulhiu e f s
  | .insDivs e f => Sys2Proof.Machine.execInsDivs e f s
  | .insDivu e f => Sys2Proof.Machine.execInsDivu e f s
  | .insMods e f => Sys2Proof.Machine.execInsMods e f s
  | .insModu e f => Sys2Proof.Machine.execInsModu e f s
  | .insShlk e f => Sys2Proof.Machine.execInsShlk e f s
  | .insShruk e f => Sys2Proof.Machine.execInsShruk e f s
  | .insShrsk e f => Sys2Proof.Machine.execInsShrsk e f s
  | .insAddk e f => Sys2Proof.Machine.execInsAddk e f s
  | .insCmpltk e f => Sys2Proof.Machine.execInsCmpltk e f s
  | .insAndk e f => Sys2Proof.Machine.execInsAndk e f s
  | .insOrk e f => Sys2Proof.Machine.execInsOrk e f s
  | .insXork e f => Sys2Proof.Machine.execInsXork e f s
  | .insHik e f => Sys2Proof.Machine.execInsHik e f s
  | .insFadd e f => Sys2Proof.Machine.execInsFadd e f s
  | .insFsub e f => Sys2Proof.Machine.execInsFsub e f s
  | .insFmul e f => Sys2Proof.Machine.execInsFmul e f s
  | .insFdiv e f => Sys2Proof.Machine.execInsFdiv e f s
  | .insFsqrt e f => Sys2Proof.Machine.execInsFsqrt e f s
  | .insFmin e f => Sys2Proof.Machine.execInsFmin e f s
  | .insFmax e f => Sys2Proof.Machine.execInsFmax e f s
  | .insFmac e f => Sys2Proof.Machine.execInsFmac e f s
  | .insFabs e f => Sys2Proof.Machine.execInsFabs e f s
  | .insFneg e f => Sys2Proof.Machine.execInsFneg e f s
  | .insFcmpeq e f => Sys2Proof.Machine.execInsFcmpeq e f s
  | .insFcmplt e f => Sys2Proof.Machine.execInsFcmplt e f s
  | .insFcmple e f => Sys2Proof.Machine.execInsFcmple e f s
  | .insItof e f => Sys2Proof.Machine.execInsItof e f s
  | .insFtoi e f => Sys2Proof.Machine.execInsFtoi e f s
  | .insLdw e f => Sys2Proof.Machine.execInsLdw e f s
  | .insLdh e f => Sys2Proof.Machine.execInsLdh e f s
  | .insLdhu e f => Sys2Proof.Machine.execInsLdhu e f s
  | .insLdb e f => Sys2Proof.Machine.execInsLdb e f s
  | .insLdbu e f => Sys2Proof.Machine.execInsLdbu e f s
  | .insLdp e f => Sys2Proof.Machine.execInsLdp e f s
  | .insStw e f => Sys2Proof.Machine.execInsStw e f s
  | .insSth e f => Sys2Proof.Machine.execInsSth e f s
  | .insStb e f => Sys2Proof.Machine.execInsStb e f s
  | .insStp e f => Sys2Proof.Machine.execInsStp e f s
  | .insAmoAdd e f => Sys2Proof.Machine.execInsAmoAdd e f s
  | .insAmoSwp e f => Sys2Proof.Machine.execInsAmoSwp e f s
  | .insAmoCas e f => Sys2Proof.Machine.execInsAmoCas e f s
  | .insFence e f => Sys2Proof.Machine.execInsFence e f s
  | .insBreq e f => Sys2Proof.Machine.execInsBreq e f s
  | .insBrne e f => Sys2Proof.Machine.execInsBrne e f s
  | .insBrlt e f => Sys2Proof.Machine.execInsBrlt e f s
  | .insBrge e f => Sys2Proof.Machine.execInsBrge e f s
  | .insBrltu e f => Sys2Proof.Machine.execInsBrltu e f s
  | .insBrgeu e f => Sys2Proof.Machine.execInsBrgeu e f s
  | .insCall e f => Sys2Proof.Machine.execInsCall e f s
  | .insJmpr e f => Sys2Proof.Machine.execInsJmpr e f s
  | .insCwr e f => Sys2Proof.Machine.execInsCwr e f s
  | .insCww e f => Sys2Proof.Machine.execInsCww e f s
  | .insKcall e f => Sys2Proof.Machine.execInsKcall e f s
  | .insTret e f => Sys2Proof.Machine.execInsTret e f s
  | .insAbort e f => Sys2Proof.Machine.execInsAbort e f s
  | .insSigLd e f => Sys2Proof.Machine.execInsSigLd e f s
  | .insSigSt e f => Sys2Proof.Machine.execInsSigSt e f s
  | .insObjLd e f => Sys2Proof.Machine.execInsObjLd e f s
  | .insOutSet e f => Sys2Proof.Machine.execInsOutSet e f s
  | .insCurve e f => Sys2Proof.Machine.execInsCurve e f s
  | .insPost e f => Sys2Proof.Machine.execInsPost e f s
  | .insCairnW e f => Sys2Proof.Machine.execInsCairnW e f s
  | .insDone e f => Sys2Proof.Machine.execInsDone e f s
  | .commitComplete e => Sys2Proof.Machine.execCommitComplete e s
  | .budgetExpiry e => Sys2Proof.Machine.execBudgetExpiry e s
  | .engCodeSwap c => Sys2Proof.Machine.execEngCodeSwap c s
  | .codeSwapCopy e => Sys2Proof.Machine.execCodeSwapCopy e s
  | .dispatch thread e => Sys2Proof.Machine.execDispatch thread e s
  | .minIntervalEnd thread => Sys2Proof.Machine.execMinIntervalEnd thread s
  | .dspEnable c => Sys2Proof.Machine.execDspEnable c s
  | .dspDisable c => Sys2Proof.Machine.execDspDisable c s
  | .dspSuspend c => Sys2Proof.Machine.execDspSuspend c s
  | .dspResume c => Sys2Proof.Machine.execDspResume c s
  | .dspKick c => Sys2Proof.Machine.execDspKick c s
  | .lockstepMismatch e => Sys2Proof.Machine.execLockstepMismatch e s
  | .eccUncorrectable e => Sys2Proof.Machine.execEccUncorrectable e s
  | .heartbeatTimeout e => Sys2Proof.Machine.execHeartbeatTimeout e s
  | .standinLoadDone e => Sys2Proof.Machine.execStandinLoadDone e s
  | .aliveAfterDeath e => Sys2Proof.Machine.execAliveAfterDeath e s
  | .cntRestart c => Sys2Proof.Machine.execCntRestart c s
  | .quiesceEnd => Sys2Proof.Machine.execQuiesceEnd s
  | .restartReset => Sys2Proof.Machine.execRestartReset s
  | .imageRegionVerified ok => Sys2Proof.Machine.execImageRegionVerified ok s
  | .restartSelftestDone failed => Sys2Proof.Machine.execRestartSelftestDone failed s
  | .codeSetsLoaded => Sys2Proof.Machine.execCodeSetsLoaded s
  | .serviceInitDone => Sys2Proof.Machine.execServiceInitDone s
  | .threadsRestored => Sys2Proof.Machine.execThreadsRestored s
  | .dispatchResume => Sys2Proof.Machine.execDispatchResume s
  | .cntRelease c => Sys2Proof.Machine.execCntRelease c s
  | .releaseSelftestDone e passed => Sys2Proof.Machine.execReleaseSelftestDone e passed s
  | .cntInject c => Sys2Proof.Machine.execCntInject c s
  | .injectSilenceEnd e => Sys2Proof.Machine.execInjectSilenceEnd e s
  | .segmentClose => Sys2Proof.Machine.execSegmentClose s
  | .segmentSend port => Sys2Proof.Machine.execSegmentSend port s
  | .portDown port => Sys2Proof.Machine.execPortDown port s
  | .pathFailover port => Sys2Proof.Machine.execPathFailover port s
  | .portLinkUp port => Sys2Proof.Machine.execPortLinkUp port s
  | .recDest c => Sys2Proof.Machine.execRecDest c s
  | .recFilter c => Sys2Proof.Machine.execRecFilter c s
  | .recQueueBind c => Sys2Proof.Machine.execRecQueueBind c s
  | .recReplay c => Sys2Proof.Machine.execRecReplay c s
  | .replayEnd port => Sys2Proof.Machine.execReplayEnd port s
  | .recConfig c => Sys2Proof.Machine.execRecConfig c s
  | .tbSampleWrite ini lo => Sys2Proof.Machine.execTbSampleWrite ini lo s
  | .ppsEdge => Sys2Proof.Machine.execPpsEdge s
  | .slewEnd => Sys2Proof.Machine.execSlewEnd s
  | .holdoverTimeout => Sys2Proof.Machine.execHoldoverTimeout s
  | .ptpMessageRx port msg => Sys2Proof.Machine.execPtpMessageRx port msg s
  | .ptpMessageTx port kind seqId => Sys2Proof.Machine.execPtpMessageTx port kind seqId s
  | .txtsPop ini port v => Sys2Proof.Machine.execTxtsPop ini port v s
  | .toutEdge pin => Sys2Proof.Machine.execToutEdge pin s
  | .tinEdge pin rising => Sys2Proof.Machine.execTinEdge pin rising s
  | .tbSource c => Sys2Proof.Machine.execTbSource c s
  | .tbSet c => Sys2Proof.Machine.execTbSet c s
  | .tbAdjust c => Sys2Proof.Machine.execTbAdjust c s
  | .tbTout c => Sys2Proof.Machine.execTbTout c s
  | .tbTin c => Sys2Proof.Machine.execTbTin c s
  | .sarConversionEnd conv code => Sys2Proof.Machine.execSarConversionEnd conv code s
  | .dischargeSlot conv => Sys2Proof.Machine.execDischargeSlot conv s
  | .anaConvUrgent ini conv v => Sys2Proof.Machine.execAnaConvUrgent ini conv v s
  | .qPop ini conv v => Sys2Proof.Machine.execQPop ini conv v s
  | .bridgeOutput ch code excMv => Sys2Proof.Machine.execBridgeOutput ch code excMv s
  | .settlingEnd ch => Sys2Proof.Machine.execSettlingEnd ch s
  | .dacOverload dac => Sys2Proof.Machine.execDacOverload dac s
  | .anaConfig c => Sys2Proof.Machine.execAnaConfig c s
  | .anaUrgent c => Sys2Proof.Machine.execAnaUrgent c s
  | .anaBridge c => Sys2Proof.Machine.execAnaBridge c s
  | .anaWindow c => Sys2Proof.Machine.execAnaWindow c s
  | .anaCalStage c => Sys2Proof.Machine.execAnaCalStage c s
  | .anaCalConfirm c => Sys2Proof.Machine.execAnaCalConfirm c s
  | .calApply => Sys2Proof.Machine.execCalApply s
  | .calConfirmTimeout => Sys2Proof.Machine.execCalConfirmTimeout s
  | .fastBlockClose ch => Sys2Proof.Machine.execFastBlockClose ch s
  | .fchComparatorAssert ch => Sys2Proof.Machine.execFchComparatorAssert ch s
  | .fchComparatorRelease ch => Sys2Proof.Machine.execFchComparatorRelease ch s
  | .timeTrigger ch => Sys2Proof.Machine.execTimeTrigger ch s
  | .takeComplete ch => Sys2Proof.Machine.execTakeComplete ch s
  | .handoffStart take => Sys2Proof.Machine.execHandoffStart take s
  | .handoffEnd take => Sys2Proof.Machine.execHandoffEnd take s
  | .holdoffEnd ch => Sys2Proof.Machine.execHoldoffEnd ch s
  | .acqTake c => Sys2Proof.Machine.execAcqTake c s
  | .acqArm c => Sys2Proof.Machine.execAcqArm c s
  | .acqTrigger c => Sys2Proof.Machine.execAcqTrigger c s
  | .acqCompare c => Sys2Proof.Machine.execAcqCompare c s
  | .acqChannel c => Sys2Proof.Machine.execAcqChannel c s
  | .updatePoint pair => Sys2Proof.Machine.execUpdatePoint pair s
  | .syncRestart pair => Sys2Proof.Machine.execSyncRestart pair s
  | .zcTimeout pair => Sys2Proof.Machine.execZcTimeout pair s
  | .pwmCommit ini pair v => Sys2Proof.Machine.execPwmCommit ini pair v s
  | .commitMaskWrite ini lo => Sys2Proof.Machine.execCommitMaskWrite ini lo s
  | .dutyShWrite ini pair v => Sys2Proof.Machine.execDutyShWrite ini pair v s
  | .tripPinEdge pin level widthNs => Sys2Proof.Machine.execTripPinEdge pin level widthNs s
  | .tripFilterCount pin level => Sys2Proof.Machine.execTripFilterCount pin level s
  | .blankWindowEnd src => Sys2Proof.Machine.execBlankWindowEnd src s
  | .pwmConfig c => Sys2Proof.Machine.execPwmConfig c s
  | .pwmStop c => Sys2Proof.Machine.execPwmStop c s
  | .pwmOverride c => Sys2Proof.Machine.execPwmOverride c s
  | .trpClear c => Sys2Proof.Machine.execTrpClear c s
  | .trpConfig c => Sys2Proof.Machine.execTrpConfig c s
  | .trpAssert c => Sys2Proof.Machine.execTrpAssert c s
  | .axisAtTarget axis => Sys2Proof.Machine.execAxisAtTarget axis s
  | .reversal axis => Sys2Proof.Machine.execReversal axis s
  | .resolutionSwitch axis => Sys2Proof.Machine.execResolutionSwitch axis s
  | .dcpFrameEnd port miso => Sys2Proof.Machine.execDcpFrameEnd port miso s
  | .standstillDelayExpiry axis => Sys2Proof.Machine.execStandstillDelayExpiry axis s
  | .deviation axis => Sys2Proof.Machine.execDeviation axis s
  | .encoderIndex axis => Sys2Proof.Machine.execEncoderIndex axis s
  | .ssiFrame axis ready raw => Sys2Proof.Machine.execSsiFrame axis ready raw s
  | .motionRecord axis => Sys2Proof.Machine.execMotionRecord axis s
  | .motMove c => Sys2Proof.Machine.execMotMove c s
  | .motEnable c => Sys2Proof.Machine.execMotEnable c s
  | .motProfile c => Sys2Proof.Machine.execMotProfile c s
  | .motSetPosition c => Sys2Proof.Machine.execMotSetPosition c s
  | .motLimits c => Sys2Proof.Machine.execMotLimits c s
  | .motPoint c => Sys2Proof.Machine.execMotPoint c s
  | .canFrameReceived ctl fr => Sys2Proof.Machine.execCanFrameReceived ctl fr s
  | .startOfFrame ctl => Sys2Proof.Machine.execStartOfFrame ctl s
  | .canFrameSent ctl => Sys2Proof.Machine.execCanFrameSent ctl s
  | .canError ctl arbitration cause => Sys2Proof.Machine.execCanError ctl arbitration cause s
  | .busOffRecoveryEnd ctl => Sys2Proof.Machine.execBusOffRecoveryEnd ctl s
  | .cyclicPeriod ctl obj => Sys2Proof.Machine.execCyclicPeriod ctl obj s
  | .detectDwellEnd ctl => Sys2Proof.Machine.execDetectDwellEnd ctl s
  | .detectTimeout ctl => Sys2Proof.Machine.execDetectTimeout ctl s
  | .canMode c => Sys2Proof.Machine.execCanMode c s
  | .canDetect c => Sys2Proof.Machine.execCanDetect c s
  | .canRecover c => Sys2Proof.Machine.execCanRecover c s
  | .canTx c => Sys2Proof.Machine.execCanTx c s
  | .canCancel c => Sys2Proof.Machine.execCanCancel c s
  | .canRxoSnapRead ini k => Sys2Proof.Machine.execCanRxoSnapRead ini k s
  | .serEntryDue port entry => Sys2Proof.Machine.execSerEntryDue port entry s
  | .serRequestSent port => Sys2Proof.Machine.execSerRequestSent port s
  | .serMessageEnd port msg framing => Sys2Proof.Machine.execSerMessageEnd port msg framing s
  | .respTimeout port => Sys2Proof.Machine.execRespTimeout port s
  | .serTurnEnd port => Sys2Proof.Machine.execSerTurnEnd port s
  | .serMode c => Sys2Proof.Machine.execSerMode c s
  | .serTrigger c => Sys2Proof.Machine.execSerTrigger c s
  | .serSend c => Sys2Proof.Machine.execSerSend c s
  | .dioEdge line level => Sys2Proof.Machine.execDioEdge line level s
  | .dioEdgeMergeEnd line => Sys2Proof.Machine.execDioEdgeMergeEnd line s
  | .dioBankMismatch bank => Sys2Proof.Machine.execDioBankMismatch bank s
  | .safetyCycle inp => Sys2Proof.Machine.execSafetyCycle inp s
  | .siSelfTestEnd passed => Sys2Proof.Machine.execSiSelfTestEnd passed s
  | .siParamsAccepted => Sys2Proof.Machine.execSiParamsAccepted s
  | .periodicSelfTest passed => Sys2Proof.Machine.execPeriodicSelfTest passed s
  | .siClockFail => Sys2Proof.Machine.execSiClockFail s
  | .safeCopyReceived net fr => Sys2Proof.Machine.execSafeCopyReceived net fr s
  | .skewExpiry conn => Sys2Proof.Machine.execSkewExpiry conn s
  | .connectionTimeout conn => Sys2Proof.Machine.execConnectionTimeout conn s
  | .graceExpiry conn => Sys2Proof.Machine.execGraceExpiry conn s
  | .discrepancyExpiry inp => Sys2Proof.Machine.execDiscrepancyExpiry inp s
  | .resetPress inp => Sys2Proof.Machine.execResetPress inp s
  | .stopDelayExpiry fn => Sys2Proof.Machine.execStopDelayExpiry fn s
  | .testPulse out readBackOk => Sys2Proof.Machine.execTestPulse out readBackOk s
  | .edmTimeExpiry out => Sys2Proof.Machine.execEdmTimeExpiry out s
  | .brakeTestPulse brake readBackOk => Sys2Proof.Machine.execBrakeTestPulse brake readBackOk s
  | .brakeTestRequest brake fr => Sys2Proof.Machine.execBrakeTestRequest brake fr s
  | .applyMsExpiry brake => Sys2Proof.Machine.execApplyMsExpiry brake s
  | .testWindowEnd brake => Sys2Proof.Machine.execTestWindowEnd brake s
  | .brakeOverdue brake => Sys2Proof.Machine.execBrakeOverdue brake s
  | .brakeGraceExpiry brake => Sys2Proof.Machine.execBrakeGraceExpiry brake s
  | .safParamStage c => Sys2Proof.Machine.execSafParamStage c s
  | .safParamConfirm c => Sys2Proof.Machine.execSafParamConfirm c s
  | .safParamApply => Sys2Proof.Machine.execSafParamApply s
  | .paramConfirmTimeout => Sys2Proof.Machine.execParamConfirmTimeout s
  | .safParamRead c => Sys2Proof.Machine.execSafParamRead c s
  | .doorbellWrite q v => Sys2Proof.Machine.execDoorbellWrite q v s
  | .commandFetch q env => Sys2Proof.Machine.execCommandFetch q env s
  | .completionWrite q => Sys2Proof.Machine.execCompletionWrite q s
  | .eventLossEntry q => Sys2Proof.Machine.execEventLossEntry q s
  | .coalesceTimeout q => Sys2Proof.Machine.execCoalesceTimeout q s
  | .adminCtrlWrite v => Sys2Proof.Machine.execAdminCtrlWrite v s
  | .pcieReset kind => Sys2Proof.Machine.execPcieReset kind s
  | .dmaError q => Sys2Proof.Machine.execDmaError q s
  | .ethFrameRx port ptp => Sys2Proof.Machine.execEthFrameRx port ptp s
  | .hstQueueCreate c => Sys2Proof.Machine.execHstQueueCreate c s
  | .hstQueueDelete c => Sys2Proof.Machine.execHstQueueDelete c s
  | .hstEventRoute c => Sys2Proof.Machine.execHstEventRoute c s
  | .shavorRequest frame gapOk => Sys2Proof.Machine.execShavorRequest frame gapOk s
  | .smbusBlockWrite last piece pecOk => Sys2Proof.Machine.execSmbusBlockWrite last piece pecOk s
  | .smbusBlockRead count => Sys2Proof.Machine.execSmbusBlockRead count s
  | .alertResponseRead => Sys2Proof.Machine.execAlertResponseRead s
  | .backoffEnd => Sys2Proof.Machine.execBackoffEnd s
  | .miSelfFault => Sys2Proof.Machine.execMiSelfFault s
  | .miRestartEnd => Sys2Proof.Machine.execMiRestartEnd s
  | .logNvmCopy => Sys2Proof.Machine.execLogNvmCopy s
  | .mirrorRefresh temps supplies => Sys2Proof.Machine.execMirrorRefresh temps supplies s
  | .mgtHello c nonce => Sys2Proof.Machine.execMgtHello c nonce s
  | .mgtPoll c => Sys2Proof.Machine.execMgtPoll c s
  | .mgtRead c => Sys2Proof.Machine.execMgtRead c s
  | .mgtWrite c => Sys2Proof.Machine.execMgtWrite c s
  | .mgtLogRead c => Sys2Proof.Machine.execMgtLogRead c s
  | .mgtHealth c => Sys2Proof.Machine.execMgtHealth c s
  | .mgtUnlock c => Sys2Proof.Machine.execMgtUnlock c s
  | .mgtMiRestart c => Sys2Proof.Machine.execMgtMiRestart c s
  | .mgtLinkConfig c => Sys2Proof.Machine.execMgtLinkConfig c s
  | .counterWrap e idx => Sys2Proof.Machine.execCounterWrap e idx s
  | .skidSample e => Sys2Proof.Machine.execSkidSample e s
  | .prfCounterWrite ini blk e idx lo => Sys2Proof.Machine.execPrfCounterWrite ini blk e idx lo s
  | .refclkLost => Sys2Proof.Machine.execRefclkLost s
  | .refclkRestored => Sys2Proof.Machine.execRefclkRestored s
  | .pllUnlock pll => Sys2Proof.Machine.execPllUnlock pll s
  | .pllRelock pll => Sys2Proof.Machine.execPllRelock pll s
  | .supplyEvaluation mv => Sys2Proof.Machine.execSupplyEvaluation mv s
  | .brownout => Sys2Proof.Machine.execBrownout s
  | .vddAonLow => Sys2Proof.Machine.execVddAonLow s
  | .thermalEvaluation temps => Sys2Proof.Machine.execThermalEvaluation temps s
  | .tempCfgWrite ini v => Sys2Proof.Machine.execTempCfgWrite ini v s
  | .tripBankFail => Sys2Proof.Machine.execTripBankFail s
  | .tripBankRecover => Sys2Proof.Machine.execTripBankRecover s
  | .lowWordRead ini off => Sys2Proof.Machine.execLowWordRead ini off s
  | .highWordWrite ini off v => Sys2Proof.Machine.execHighWordWrite ini off v s
  | .rcRead ini off => Sys2Proof.Machine.execRcRead ini off s
  | .unmappedAccess ini off isWrite => Sys2Proof.Machine.execUnmappedAccess ini off isWrite s
  | .registerWrite ini off v => Sys2Proof.Machine.execRegisterWrite ini off v s
  | .planEvaluation stage => Sys2Proof.Machine.execPlanEvaluation stage s
  | .fastStoredSample ch codes => Sys2Proof.Machine.execFastStoredSample ch codes s
  | .axisAtSpeed axis => Sys2Proof.Machine.execAxisAtSpeed axis s
  | .encoderEdge axis a b => Sys2Proof.Machine.execEncoderEdge axis a b s
  | .safetyCounterEdge inp a b => Sys2Proof.Machine.execSafetyCounterEdge inp a b s
  | .panelPress => Sys2Proof.Machine.execPanelPress s
  | .panelLongRelease => Sys2Proof.Machine.execPanelLongRelease s
  | .pcieLinkUp gen width => Sys2Proof.Machine.execPcieLinkUp gen width s
  | .dacOverloadClear dac => Sys2Proof.Machine.execDacOverloadClear dac s

end Sys2Proof.Machine
end

