-- ==== Sys2Proof/Safety.lean ====
section
/-! DEFINITION. Safety.lean: the terms that statements use: what a safe run is, what reporting may change, and what it means
that a command has its effect and is answered. -/

namespace Sys2Proof

open Sys2Proof.Machine

/-- Nothing stops: the machine answers a next state. -/
def Safe (o : Host.Outcome State Fault Refusal) : Prop := ∃ t, o = .next t

/-- The invariant of the one-time-programmable fuses (03 R66, R81): the thermometer count lies in 0..64, and a programmed key
hash has its 48 bytes. -/
def FusesOk (f : Fuses) : Prop := f.rollback ≤ 64 ∧ (f.keyHash = [] ∨ f.keyHash.length = 48)

/-- Fuses only ever go from unprogrammed to programmed (03 R66, R81). -/
def FusesGrow (f g : Fuses) : Prop :=
  f.rollback ≤ g.rollback ∧ (f.keyHash ≠ [] → g.keyHash = f.keyHash ∧ g.keyDev = f.keyDev)

/-- `t` is `b` but for what reporting changes: the records, events, entries and completions that leave the controller (`out`), the
performance counters that count them (block 0x15, 21 R491), the count of refusals for state (02 R46), the management
island's alert and its log, and the draw of free values. Everything else is as in `b`. -/
def Reports (b t : Block) : Prop :=
  ∃ o rs fr al lg ev ns,
    t = { b with out := o, regs := rs, free := fr,
                 mgmt := { b.mgmt with alert := al, log := lg, events := ev, nextSeq := ns } } ∧
    ∀ off, off / 0x100000 ≠ 0x15 → off ≠ Reg.sysStateConflicts → rdR rs off = rdR b.regs off

/-- The completion of a command is recorded for its source (02 R42): its status, reason and result, at the time `now`. -/
def Answered (now : Nat) (t : Block) (op : Nat) (c : Cmd) (st rs : Nat) (res : List Byte) : Prop :=
  ∃ x ∈ t.out.slots, x.src = issuerSrc c.issuer ∧ x.opcode = op ∧ x.tag = c.tag.toNat ∧
    x.first = some { status := st, reason := rs, time := now, result := res }

/-- No completion queue of a waiting command has gone: its completions are owed. -/
def Owed (b : Block) : Prop := ∀ x ∈ b.out.slots, x.lost = 0

/-- The command or event `i` completes: in the next state the block is `b'`; queue, fuses and safety island are as before. -/
def Gives (s : State) (i : Instr) (b' : Block) : Prop := exec i s = .next { s with b := b' }

/-- The command or event `i` completes: the next state is `b'`, but for reporting; queue, fuses and safety island are as before. -/
def Does (s : State) (i : Instr) (b' : Block) : Prop := ∃ t, exec i s = .next { s with b := t } ∧ Reports b' t

/-- The command `i` completes: the next state is `b'`, but for reporting, and its completion with the given status, reason and result is
recorded, unless the queue it came from has gone. -/
def Completes (s : State) (i : Instr) (op : Nat) (c : Cmd) (b' : Block) (st : Nat) (rs : Nat := 0) (res : List Byte := []) : Prop :=
  ∃ t, exec i s = .next { s with b := t } ∧ Reports b' t ∧ (Owed b' → Answered b'.now t op c st rs res)

/-- A command that may run (02 R43): its issuer has the authority, the device state is one of those named, its envelope is well formed. -/
def Sent (b : Block) (c : Cmd) (role : Nat) (legal : List Nat) : Prop :=
  authCheck c role = none ∧ devCheck b legal = none ∧ envCheck c = none

/-- A thread command that may run: operator authority, a well-formed envelope, OPERATIONAL or SAFE_STOP, and a used thread of no service
code set as its OBJECT (09 R239). -/
def ThreadCmd (b : Block) (c : Cmd) (t : Nat) : Prop :=
  authCheck c roleOperator = none ∧ envCheck c = none ∧ b.refclk = true ∧ (b.dev = dsOperational ∨ b.dev = dsSafeStop) ∧
    cObj c = sidThread t ∧ t < 4096 ∧ b.thUsed t = true ∧ b.isService t = false

/-! ### Register accesses (02) -/

/-- A write of a register word by an initiator reaches the register: the offset names one, the initiator is in its writer set and no lock
refuses it (02 R28); the block answers (03 R51); an engine runs an activation in kernel mode whose epoch is not stale (02 R48, 08 R191). -/
def Reaches (b : Block) (ini : Ini) (off : Nat) (r : RegRow) (hi : Bool) : Prop :=
  regAt off = some (r, hi) ∧ b.memWindow off = none ∧ r.allows ini = true ∧ (r.acc = .rwl → b.lockedAt off = false) ∧
    match ini with
    | .engine e => (b.issuer e.val).isSome = true ∧ (b.eng e.val).ctx.kernel = true ∧ b.stale e.val = false
    | _ => b.silent off = false

/-- A read of a register word by an initiator reaches it: the block answers, and an engine reads in kernel mode (02 R48, 03 R51, 10 R268). -/
def ReadReaches (b : Block) (ini : Ini) (off : Nat) (r : RegRow) (hi : Bool) : Prop :=
  regAt off = some (r, hi) ∧ b.memWindow off = none ∧ b.partReset off = false ∧
    match ini with
    | .engine e => (b.issuer e.val).isSome = true ∧ (b.eng e.val).ctx.kernel = true
    | .island => True
    | _ => b.silent off = false

/-! ### Engine instructions (08) -/

/-- Engine `e` issues its next instruction for the activation `a`: it runs it with budget left and no DONE issued, and its pc names a
word of I-RAM (08 R189, R212). -/
def Runs (b : Block) (e : Nat) (a : ActSt) : Prop :=
  b.issuer e = some a ∧ (b.eng e).ctx.pc % 4 = 0 ∧ (b.eng e).ctx.pc < 0x10000

/-- The registers that show what an engine does: `ENG[e].BUSY_CYCLES`, `ENG[e].STATE`, and `CNT.STATE`, which counts stand-ins. -/
def engShown (e : Nat) : List Nat := [Reg.engBusyCycles e, Reg.engBusyCycles e + 4, Reg.engState e, Reg.cntState]

/-- `t` is `b` but for what the retirement of an instruction on engine `e` changes beside its own effect: the engine's registers and
activation and the samples it owes, what shows them, performance counters and their records, and the draw of free values. Every memory,
every other engine and every other register is as in `b`. -/
def EngFrame (e : Nat) (b t : Block) : Prop :=
  ∃ o rs fr es,
    t = { b with out := o, regs := rs, free := fr, engs := es } ∧
    (∀ k, k ≠ e → t.eng k = b.eng k) ∧
    { t.eng e with ctx := (b.eng e).ctx, act := (b.eng e).act, skids := (b.eng e).skids } = b.eng e ∧
    ∀ off, off / 0x100000 ≠ 0x15 → off ∉ engShown e → rdR rs off = rdR b.regs off

/-- The instruction `i` retires on engine `e`: it leaves the registers `c`, the activation `a` and, in what instructions share, the
block `b'`. -/
def Retires (s : State) (i : Instr) (e : Nat) (b' : Block) (c : EngCtx) (a : ActSt) : Prop :=
  ∃ t, exec i s = .next { s with b := t } ∧ (t.eng e).ctx = c ∧ (t.eng e).act = some a ∧ EngFrame e b' t

/-- Registers of an engine with the pc at the following instruction. -/
def stepPc (c : EngCtx) : EngCtx := { c with pc := c.pc + 4 }

/-- An activation that has spent cycles of its budget (08 R212). -/
def spend (a : ActSt) (n : Nat) : ActSt := { a with budget := a.budget - n, used := a.used + n }

/-- A register operation retires: v[d] takes `r`, the sticky integer flags `k` are set, and `n` cycles are spent; nothing else changes. -/
def AluGives (s : State) (i : Instr) (e : Nat) (a : ActSt) (d : Fin 32) (r : Word) (k n : Nat) : Prop :=
  let c := (s.b.eng e).ctx
  Retires s i e s.b (stepPc { c.set d.val r with arith := c.arith ||| k }) (spend a n)

/-- A binary32 operation retires: v[d] takes the result and its sticky flags are set. -/
def FpGives (s : State) (i : Instr) (e : Nat) (a : ActSt) (d : Fin 32) (r : Word × FFlags) (n : Nat) : Prop :=
  let c := (s.b.eng e).ctx
  Retires s i e s.b (stepPc { c.set d.val r.1 with fflags := c.fflags ||| r.2.toNat }) (spend a n)

/-! ### The safety island (18) -/

/-- `q` is an event of the safety island with what it does at elapsed time t to the island's state (18 R427–R447). -/
def SiEvent (inp : Fin 12) (out brk : Fin 4) (fn conn : Fin 16) (net : Fin 2) (fr : CanFrame) (ok l m : Bool)
    (q : Instr × (Nat → SiSt → SiSt)) : Prop :=
  q ∈ ([(.siSelfTestEnd ok, fun _ x => if x.state ≠ siSelfTest then x else if ok then { x with state := siAwaitParams } else x.toSafe 5),
   (.siParamsAccepted, fun t x => if x.state ≠ siAwaitParams ∨ x.passed.isEmpty then x
      else if prmReason x.passed = 0 then x.enterRun t else x.toSafe 6),
   (.periodicSelfTest ok, fun _ x => if ok then x else x.toSafe 5),
   (.siClockFail, fun _ x => x.toSafe 4),
   (.safeCopyReceived net fr, fun t x => x.copy t net.val fr),
   (.skewExpiry conn, fun t x => x.skew t conn.val),
   (.connectionTimeout conn, fun t x => x.connTimeout t conn.val),
   (.graceExpiry conn, fun t x => x.graceEnds t conn.val),
   (.discrepancyExpiry inp, fun t x => x.discrepancy t inp.val),
   (.resetPress inp, fun t x => x.press t inp.val),
   (.stopDelayExpiry fn, fun t x => x.stopDelay t fn.val),
   (.testPulse out ok, fun t x => x.outTest t out.val ok),
   (.edmTimeExpiry out, fun t x => x.edmTime t out.val),
   (.brakeTestPulse brk ok, fun t x => x.brkTest t brk.val ok),
   (.brakeTestRequest brk fr, fun t x => x.testRequest t brk.val fr),
   (.applyMsExpiry brk, fun t x => x.testWindow t brk.val),
   (.testWindowEnd brk, fun t x => x.testDone t brk.val),
   (.brakeOverdue brk, fun _ x => x.overdue brk.val),
   (.brakeGraceExpiry brk, fun _ x => x.graceOver brk.val),
   (.safetyCounterEdge inp l m, fun t x => x.counterEdge t inp.val l m)] : List (Instr × (Nat → SiSt → SiSt)))

/-! ### Commands and the device state (02 R43, 03 R51) -/

/-- The opcode and envelope of a command that the CP takes from a host queue or the link (02 R41); the MI's own are not among them. -/
def opcodeOf : Instr → Option (Nat × Cmd)
  | .sysColdRestart c => some (0x0001, c)
  | .sysSafeStopAll c => some (0x0002, c)
  | .sysResume c => some (0x0003, c)
  | .imgSlotWrite c => some (0x0201, c)
  | .imgSlotVerify c => some (0x0202, c)
  | .imgSelect c => some (0x0203, c)
  | .imgConfirm c => some (0x0204, c)
  | .imgStage c => some (0x0205, c)
  | .imgBankCopy c => some (0x0206, c)
  | .imgBankWrite c => some (0x0207, c)
  | .imgBankClose c => some (0x0208, c)
  | .imgBankSwap c => some (0x0209, c)
  | .imgAdvanceRollback c _ _ => some (0x020A, c)
  | .imgFuseKey c _ _ => some (0x020B, c)
  | .wldDeclare c => some (0x0301, c)
  | .wldReport c => some (0x0302, c)
  | .wldRead c => some (0x0303, c)
  | .wldReplace c => some (0x0304, c)
  | .wldRestore c => some (0x0305, c)
  | .seqLoad c => some (0x0401, c)
  | .seqUnload c => some (0x0402, c)
  | .seqStart c => some (0x0403, c)
  | .seqHold c => some (0x0404, c)
  | .seqRelease c => some (0x0405, c)
  | .seqAbort c => some (0x0406, c)
  | .seqClear c => some (0x0407, c)
  | .seqSmPost c => some (0x0408, c)
  | .seqValidate c => some (0x0409, c)
  | .lgrCapacity c => some (0x0501, c)
  | .lgrReport c => some (0x0502, c)
  | .lgrRestore c => some (0x0503, c)
  | .hostOutSet c => some (0x0601, c)
  | .outForce c => some (0x0602, c)
  | .outRelease c => some (0x0603, c)
  | .outLoop c => some (0x0604, c)
  | .dspEnable c => some (0x0701, c)
  | .dspDisable c => some (0x0702, c)
  | .dspSuspend c => some (0x0703, c)
  | .dspResume c => some (0x0704, c)
  | .dspKick c => some (0x0705, c)
  | .engCodeSwap c => some (0x0801, c)
  | .cntRestart c => some (0x0901, c)
  | .cntRelease c => some (0x0902, c)
  | .cntInject c => some (0x0903, c)
  | .recDest c => some (0x0A01, c)
  | .recFilter c => some (0x0A02, c)
  | .recQueueBind c => some (0x0A03, c)
  | .recReplay c => some (0x0A04, c)
  | .recConfig c => some (0x0A05, c)
  | .tbSource c => some (0x0B01, c)
  | .tbSet c => some (0x0B02, c)
  | .tbAdjust c => some (0x0B03, c)
  | .tbTout c => some (0x0B04, c)
  | .tbTin c => some (0x0B05, c)
  | .anaConfig c => some (0x0C01, c)
  | .anaUrgent c => some (0x0C02, c)
  | .anaBridge c => some (0x0C03, c)
  | .anaWindow c => some (0x0C04, c)
  | .anaCalStage c => some (0x0C05, c)
  | .anaCalConfirm c => some (0x0C06, c)
  | .acqTake c => some (0x0D01, c)
  | .acqArm c => some (0x0D02, c)
  | .acqTrigger c => some (0x0D03, c)
  | .acqCompare c => some (0x0D04, c)
  | .acqChannel c => some (0x0D05, c)
  | .pwmConfig c => some (0x0E01, c)
  | .pwmStop c => some (0x0E02, c)
  | .pwmOverride c => some (0x0E03, c)
  | .trpClear c => some (0x0E10, c)
  | .trpConfig c => some (0x0E11, c)
  | .trpAssert c => some (0x0E12, c)
  | .motMove c => some (0x0F01, c)
  | .motEnable c => some (0x0F02, c)
  | .motProfile c => some (0x0F03, c)
  | .motSetPosition c => some (0x0F04, c)
  | .motLimits c => some (0x0F05, c)
  | .motPoint c => some (0x0F06, c)
  | .canMode c => some (0x1001, c)
  | .canDetect c => some (0x1002, c)
  | .canRecover c => some (0x1003, c)
  | .canTx c => some (0x1004, c)
  | .canCancel c => some (0x1005, c)
  | .serMode c => some (0x1011, c)
  | .serTrigger c => some (0x1012, c)
  | .serSend c => some (0x1013, c)
  | .safParamStage c => some (0x1201, c)
  | .safParamConfirm c => some (0x1202, c)
  | .safParamRead c => some (0x1203, c)
  | .hstQueueCreate c => some (0x1301, c)
  | .hstQueueDelete c => some (0x1302, c)
  | .hstEventRoute c => some (0x1303, c)
  | _ => none

/-- Opcodes that only the management link may send (03 R82, 13 R319, 18 R449). -/
def linkOnly (op : Nat) : Bool := op == 0x0C06 || op == 0x020A || op == 0x1202

/-- May the row act on the safety island's state: its own events, the resets, the loss and return of REFCLK, its supply, and the two points at
which it takes parameters (18 R427–R449)? -/
def reachesIsland : Instr → Bool
  | .safetyCycle _ => true
  | .siSelfTestEnd _ => true
  | .siParamsAccepted => true
  | .periodicSelfTest _ => true
  | .siClockFail => true
  | .safeCopyReceived _ _ => true
  | .skewExpiry _ => true
  | .connectionTimeout _ => true
  | .graceExpiry _ => true
  | .discrepancyExpiry _ => true
  | .resetPress _ => true
  | .stopDelayExpiry _ => true
  | .testPulse _ _ => true
  | .edmTimeExpiry _ => true
  | .brakeTestPulse _ _ => true
  | .brakeTestRequest _ _ => true
  | .applyMsExpiry _ => true
  | .testWindowEnd _ => true
  | .brakeOverdue _ => true
  | .brakeGraceExpiry _ => true
  | .safetyCounterEdge _ _ _ => true
  | .safParamApply => true
  | .signatureVerified => true
  | .porNAssert _ => true
  | .porNRelease _ _ _ => true
  | .refclkValidAtBoot => true
  | .coldRestartReset => true
  | .refclkLost => true
  | .refclkRestored => true
  | .pllUnlock _ => true
  | .supplyEvaluation _ => true
  | .brownout => true
  | .thermalEvaluation _ => true
  | .vddAonLow => true
  | _ => false

/-- A reset of the safety island: POR_N, a cold restart, a brown-out, a thermal shutdown or its end (18 R427; 22 R506, R508). -/
def resetsIsland : Instr → Bool
  | .porNAssert _ => true
  | .porNRelease _ _ _ => true
  | .coldRestartReset => true
  | .brownout => true
  | .thermalEvaluation _ => true
  | .vddAonLow => true
  | _ => false

end Sys2Proof
end

