-- ==== Sys2Proof/Certificates/Slice0/Obligations.lean ====
section
/-! DEFINITION. Certificates/Slice0/Obligations.lean: the statements for the provers, family by family of the command table. Where a clause follows a
reading or a choice of the model, its log entry stands in notes/assumptions. -/

open Sys2Proof Sys2Proof.Machine

/-- 08 R195: ADD, SUB, AND, OR, XOR, the shifts, the comparisons, MIN and MAX give v[d] the result of their table row from v[a] and v[b] as
they were, in one cycle (R214); nothing else changes. v0 reads 0 and discards (R192: `EngCtx.get`, `EngCtx.set`). 08 R195, R196: MUL, MULHI
and MULHIU give words of the 64-bit product in 3 cycles; DIVS, DIVU, MODS and MODU give quotient and remainder in 34 (R214). A division by 0
saturates in the direction of the dividend and sets DIV_ZERO; −2³¹ / −1 gives 0x7FFF_FFFF and 0 and sets DIV_OVF; otherwise quotient q and
remainder r satisfy x = q·y + r with r smaller than y, and q is rounded towards 0 wherever the spec fixes it (an inexact quotient of
operands of different signs may be either, log 29). 08 R195: the shifts by the b field and the operations with a 16-bit immediate,
sign-extended for ADDK and CMPLTK and zero-extended for ANDK, ORK and XORK; HIK puts the immediate into the high half, its a field being 0.
-/
def Obligations.IntegerInstructionsRetire : Prop :=
  (∀ (s : State) (e : Fin 40) (a : ActSt) (f : FormA), Runs s.b e a →
    let x := (s.b.eng e).ctx.get f.a
    let y := (s.b.eng e).ctx.get f.b
    (f.fn = 0x000 → AluGives s (.insAdd e f) e a f.d (x + y) 0 1) ∧
    (f.fn = 0x001 → AluGives s (.insSub e f) e a f.d (x - y) 0 1) ∧
    (f.fn = 0x002 → AluGives s (.insAnd e f) e a f.d (x &&& y) 0 1) ∧
    (f.fn = 0x003 → AluGives s (.insOr e f) e a f.d (x ||| y) 0 1) ∧
    (f.fn = 0x004 → AluGives s (.insXor e f) e a f.d (x ^^^ y) 0 1) ∧
    (f.fn = 0x005 → AluGives s (.insShl e f) e a f.d (x <<< (y.toNat % 32)) 0 1) ∧
    (f.fn = 0x006 → AluGives s (.insShru e f) e a f.d (x >>> (y.toNat % 32)) 0 1) ∧
    (f.fn = 0x007 → AluGives s (.insShrs e f) e a f.d (x.sshiftRight (y.toNat % 32)) 0 1) ∧
    (f.fn = 0x008 → AluGives s (.insCmplt e f) e a f.d (if x.toInt < y.toInt then 1 else 0) 0 1) ∧
    (f.fn = 0x009 → AluGives s (.insCmpltu e f) e a f.d (if x.toNat < y.toNat then 1 else 0) 0 1) ∧
    (f.fn = 0x00A → AluGives s (.insMin e f) e a f.d (if x.toInt < y.toInt then x else y) 0 1) ∧
    (f.fn = 0x00B → AluGives s (.insMax e f) e a f.d (if x.toInt < y.toInt then y else x) 0 1)) ∧
  (∀ (s : State) (e : Fin 40) (a : ActSt) (f : FormA), Runs s.b e a →
    let x := (s.b.eng e).ctx.get f.a
    let y := (s.b.eng e).ctx.get f.b
    (f.fn = 0x010 → AluGives s (.insMul e f) e a f.d (BitVec.ofInt 32 (x.toInt * y.toInt)) 0 3) ∧
    (f.fn = 0x011 → AluGives s (.insMulhi e f) e a f.d (BitVec.ofInt 32 (x.toInt * y.toInt / 2 ^ 32)) 0 3) ∧
    (f.fn = 0x012 → AluGives s (.insMulhiu e f) e a f.d (BitVec.ofNat 32 (x.toNat * y.toNat / 2 ^ 32)) 0 3) ∧
    (f.fn = 0x019 → y ≠ 0 → AluGives s (.insDivu e f) e a f.d (BitVec.ofNat 32 (x.toNat / y.toNat)) 0 34) ∧
    (f.fn = 0x01B → y ≠ 0 → AluGives s (.insModu e f) e a f.d (BitVec.ofNat 32 (x.toNat % y.toNat)) 0 34) ∧
    (f.fn = 0x018 → y = 0 → AluGives s (.insDivs e f) e a f.d (if 0 ≤ x.toInt then 0x7FFFFFFF else 0x80000000) 1 34) ∧
    (f.fn = 0x019 → y = 0 → AluGives s (.insDivu e f) e a f.d 0xFFFFFFFF 1 34) ∧
    (f.fn = 0x01A → y = 0 → AluGives s (.insMods e f) e a f.d 0 1 34) ∧
    (f.fn = 0x01B → y = 0 → AluGives s (.insModu e f) e a f.d 0 1 34) ∧
    (f.fn = 0x018 → x = 0x80000000 → y = 0xFFFFFFFF → AluGives s (.insDivs e f) e a f.d 0x7FFFFFFF 2 34) ∧
    (f.fn = 0x01A → x = 0x80000000 → y = 0xFFFFFFFF → AluGives s (.insMods e f) e a f.d 0 2 34) ∧
    (y ≠ 0 → ¬(x = 0x80000000 ∧ y = 0xFFFFFFFF) → ∃ q r : Int,
      x.toInt = q * y.toInt + r ∧ r.natAbs < y.toInt.natAbs ∧
      ((0 ≤ x.toInt ∧ 0 < y.toInt ∨ x.toInt < 0 ∧ y.toInt < 0 ∨ r = 0) → q = x.toInt.tdiv y.toInt) ∧
      (f.fn = 0x018 → AluGives s (.insDivs e f) e a f.d (BitVec.ofInt 32 q) 0 34) ∧
      (f.fn = 0x01A → AluGives s (.insMods e f) e a f.d (BitVec.ofInt 32 r) 0 34))) ∧
  (∀ (s : State) (e : Fin 40) (a : ActSt), Runs s.b e a →
    (∀ f : FormA,
      let x := (s.b.eng e).ctx.get f.a
      (f.fn = 0x020 → AluGives s (.insShlk e f) e a f.d (x <<< f.b.val) 0 1) ∧
      (f.fn = 0x021 → AluGives s (.insShruk e f) e a f.d (x >>> f.b.val) 0 1) ∧
      (f.fn = 0x022 → AluGives s (.insShrsk e f) e a f.d (x.sshiftRight f.b.val) 0 1)) ∧
    (∀ f : FormI,
      let x := (s.b.eng e).ctx.get f.a
      AluGives s (.insAddk e f) e a f.d (x + f.imm.signExtend 32) 0 1 ∧
      AluGives s (.insCmpltk e f) e a f.d (if x.toInt < f.imm.toInt then 1 else 0) 0 1 ∧
      AluGives s (.insAndk e f) e a f.d (x &&& f.imm.zeroExtend 32) 0 1 ∧
      AluGives s (.insOrk e f) e a f.d (x ||| f.imm.zeroExtend 32) 0 1 ∧
      AluGives s (.insXork e f) e a f.d (x ^^^ f.imm.zeroExtend 32) 0 1 ∧
      (f.a = 0 → AluGives s (.insHik e f) e a f.d (BitVec.ofNat 32 (f.imm.toNat * 65536)) 0 1)))

/-- 08 R195, R196, R214: each binary32 instruction gives v[d] the result of its operation, ORs that operation's sticky flags into cw.FFLAGS
and spends its cycles; FSQRT, FABS, FNEG, ITOF and FTOI need a b field of 0. -/
def Obligations.FloatInstructionsRetire : Prop :=
  ∀ (s : State) (e : Fin 40) (a : ActSt) (f : FormA), Runs s.b e a →
    let x := (s.b.eng e).ctx.get f.a
    let y := (s.b.eng e).ctx.get f.b
    let z := (s.b.eng e).ctx.get f.d
    (f.fn = 0x000 → FpGives s (.insFadd e f) e a f.d (fpAdd 0 x y) 4) ∧
    (f.fn = 0x001 → FpGives s (.insFsub e f) e a f.d (fpAdd 1 x (y ^^^ 0x80000000)) 4) ∧
    (f.fn = 0x002 → FpGives s (.insFmul e f) e a f.d (fpMul x y) 4) ∧
    (f.fn = 0x003 → FpGives s (.insFdiv e f) e a f.d (fpDiv x y) 16) ∧
    (f.fn = 0x004 → f.b = 0 → FpGives s (.insFsqrt e f) e a f.d (fpSqrt x) 18) ∧
    (f.fn = 0x005 → FpGives s (.insFmin e f) e a f.d (fpMinMax false x y, {}) 4) ∧
    (f.fn = 0x006 → FpGives s (.insFmax e f) e a f.d (fpMinMax true x y, {}) 4) ∧
    (f.fn = 0x007 → FpGives s (.insFmac e f) e a f.d (fpMac z x y) 4) ∧
    (f.fn = 0x008 → f.b = 0 → FpGives s (.insFabs e f) e a f.d (x &&& 0x7FFFFFFF, {}) 4) ∧
    (f.fn = 0x009 → f.b = 0 → FpGives s (.insFneg e f) e a f.d (x ^^^ 0x80000000, {}) 4) ∧
    (f.fn = 0x00A → FpGives s (.insFcmpeq e f) e a f.d (fpCmp 4 f32Eq x y) 4) ∧
    (f.fn = 0x00B → FpGives s (.insFcmplt e f) e a f.d (fpCmp 5 f32Lt x y) 4) ∧
    (f.fn = 0x00C → FpGives s (.insFcmple e f) e a f.d (fpCmp 6 (fun p q => f32Lt p q || f32Eq p q) x y) 4) ∧
    (f.fn = 0x010 → f.b = 0 → FpGives s (.insItof e f) e a f.d (fpOfInt x) 4) ∧
    (f.fn = 0x011 → f.b = 0 → FpGives s (.insFtoi e f) e a f.d (fpToInt x) 4)

/-- 08 R195, R196: what the binary32 operations give: finite operands give the exact sum, product or quotient rounded once; invalid
operations give the quiet NaN 0x7FC0_0000 and NV; a NaN makes every comparison false, FMIN and FMAX answer the other operand, and FTOI gives
0 with NV; FTOI rounds to nearest even and saturates. -/
def Obligations.FloatOperationsFollowIeee : Prop :=
  (∀ (k : Nat) (x y : Word) (p q : Bool) (v w : Rat), F32.decode x = .fin p v → F32.decode y = .fin q w →
    fpAdd k x y = fpRound (v + w) (p && q) ∧ fpMul x y = fpRound (v * w) (fpSign x != fpSign y) ∧
    (w ≠ 0 → fpDiv x y = fpRound (v / w) (fpSign x != fpSign y)) ∧
    (w = 0 → v = 0 → fpDiv x y = (0x7FC00000, { nv := true })) ∧
    (∀ (z : Word) (r : Bool) (u : Rat), F32.decode z = .fin r u →
      fpMac z x y = fpRound (u + v * w) (r && (fpSign x != fpSign y)))) ∧
  (∀ (k : Nat) (x y : Word) (p q : Bool), F32.decode x = .inf p → F32.decode y = .inf q →
    (p ≠ q → fpAdd k x y = (0x7FC00000, { nv := true })) ∧ fpDiv x y = (0x7FC00000, { nv := true })) ∧
  (∀ (x : Word) (p : Bool) (v : Rat), F32.decode x = .fin p v → v < 0 → fpSqrt x = (0x7FC00000, { nv := true })) ∧
  (∀ (m : Bool) (x y : Word), isNaN32 x = true → isNaN32 y = false → fpMinMax m x y = y ∧ fpMinMax m y x = y) ∧
  (∀ (k : Nat) (f : Word → Word → Bool) (x y : Word), isNaN32 x = true ∨ isNaN32 y = true → (fpCmp k f x y).1 = 0) ∧
  (∀ (k : Nat) (f : Word → Word → Bool) (x y : Word), isNaN32 x = false → isNaN32 y = false →
    fpCmp k f x y = (if f x y then 1 else 0, {})) ∧
  (∀ x : Word, isNaN32 x = true → fpToInt x = (0, { nv := true })) ∧
  (∀ (x : Word) (p : Bool) (v : Rat), F32.decode x = .fin p v →
    (rneInt v < -2147483648 → (fpToInt x).1 = 0x80000000) ∧ (2147483647 < rneInt v → (fpToInt x).1 = 0x7FFFFFFF) ∧
    (-2147483648 ≤ rneInt v → rneInt v ≤ 2147483647 → (fpToInt x).1 = BitVec.ofInt 32 (rneInt v))) ∧
  (∀ x : Word, fpOfInt x = fpRound (x.toInt : Rat) false)

/-- 08 R195, R214: a branch whose comparison holds goes to pc + 4 + 4·sx(off) in 2 cycles, another one to pc + 4 in one; CALL and JMPR write
pc + 4 and jump in 2 cycles, JMPR to v[a] + sx(imm) with bits 1:0 cleared, from the old v[a]. -/
def Obligations.BranchesAndJumpsRetire : Prop :=
  ∀ (s : State) (e : Fin 40) (a : ActSt), Runs s.b e a →
    let c := (s.b.eng e).ctx
    (∀ f : FormB,
      let x := c.get f.a
      let y := c.get f.b
      let goes (i : Instr) (p : Prop) : Prop :=
        (p → Retires s i e s.b { c with pc := (c.pc + 4 + 4 * (f.imm.signExtend 32).toNat) % 2 ^ 32 } (spend a 2)) ∧
        (¬p → Retires s i e s.b (stepPc c) (spend a 1))
      goes (.insBreq e f) (x = y) ∧ goes (.insBrne e f) (x ≠ y) ∧ goes (.insBrlt e f) (x.toInt < y.toInt) ∧
      goes (.insBrge e f) (y.toInt ≤ x.toInt) ∧ goes (.insBrltu e f) (x.toNat < y.toNat) ∧ goes (.insBrgeu e f) (y.toNat ≤ x.toNat)) ∧
    (∀ f : FormJ, Retires s (.insCall e f) e s.b
      { c.set 31 (BitVec.ofNat 32 (c.pc + 4)) with pc := (c.pc + 4 + 4 * (f.imm.signExtend 32).toNat) % 2 ^ 32 } (spend a 2)) ∧
    (∀ f : FormI, Retires s (.insJmpr e f) e s.b
      { c.set f.d (BitVec.ofNat 32 (c.pc + 4)) with pc := (c.get f.a + f.imm.signExtend 32).toNat / 4 * 4 } (spend a 2))

/-- 08 R189, R195, R196, R214: a load from general D-RAM aligned to its size gives v[d] the bytes there, extended as named, in 2 cycles and
changes nothing else; a load from any place gives what that place answers (`engLoad`) or traps. LDP fills v[d] and v[d+1], d even. 08 R189,
R196, R206, R191, R214: an aligned store to general D-RAM writes the bytes of v[d] there in 2 cycles; one to the work region joins the store
buffer in 1 cycle or, stale, is discarded and counted; a store to any other place does what that place answers (`engStore`) or traps. STP
stores v[d] and v[d+1], d even. -/
def Obligations.LoadsAndStoresRetire : Prop :=
  (∀ (s : State) (e : Fin 40) (a : ActSt) (f : FormI), Runs s.b e a →
    let c := (s.b.eng e).ctx
    let ad := (c.get f.a + f.imm.signExtend 32).toNat
    let loads (i : Instr) (n : Nat) (put : EngCtx → List Byte → EngCtx) : Prop :=
      (ad % n = 0 → 0x10000 ≤ ad → ad < 0x1DFE0 →
        Retires s i e s.b (stepPc (put c (mread (s.b.eng e).dram (ad - 0x10000) n))) (spend a 2)) ∧
      (∀ b' bs cyc evs, s.b.engLoad e c a ad n = .val b' bs cyc evs → Retires s i e b' (stepPc (put c bs)) (spend a cyc)) ∧
      (∀ k v, s.b.engLoad e c a ad n = .trap k v → exec i s = .next { s with b := s.b.trapOn e k v })
    loads (.insLdw e f) 4 (fun c bs => c.set f.d (BitVec.ofNat 32 (leNat bs))) ∧
    loads (.insLdh e f) 2 (fun c bs => c.set f.d ((BitVec.ofNat 16 (leNat bs)).signExtend 32)) ∧
    loads (.insLdhu e f) 2 (fun c bs => c.set f.d (BitVec.ofNat 32 (leNat bs))) ∧
    loads (.insLdb e f) 1 (fun c bs => c.set f.d ((BitVec.ofNat 8 (leNat bs)).signExtend 32)) ∧
    loads (.insLdbu e f) 1 (fun c bs => c.set f.d (BitVec.ofNat 32 (leNat bs))) ∧
    (f.d.val % 2 = 0 → loads (.insLdp e f) 8 (fun c bs => (c.set f.d (w32 bs 0)).set (f.d.val + 1) (w32 bs 4)))) ∧
  (∀ (s : State) (e : Fin 40) (a : ActSt) (f : FormI), Runs s.b e a →
    let c := (s.b.eng e).ctx
    let ad := (c.get f.a + f.imm.signExtend 32).toNat
    let stores (i : Instr) (bs : List Byte) : Prop :=
      (ad % bs.length = 0 → 0x10000 ≤ ad → ad < 0x1DFE0 →
        Retires s i e (s.b.putEng e { s.b.eng e with dram := mwrite (s.b.eng e).dram (ad - 0x10000) bs }) (stepPc c) (spend a 2)) ∧
      (ad % bs.length = 0 → 0x10000000 + s.b.sramSplit ≤ ad → ad < 0x11000000 →
        Retires s i e (s.b.sramStore e (ad - 0x10000000) bs) (stepPc c) (spend a 1)) ∧
      (∀ b' cyc, s.b.engStore e c ad bs = .done b' cyc → Retires s i e b' (stepPc c) (spend a cyc)) ∧
      (∀ k v, s.b.engStore e c ad bs = .trap k v → exec i s = .next { s with b := s.b.trapOn e k v })
    stores (.insStw e f) (leBytes 4 (c.get f.d).toNat) ∧
    stores (.insSth e f) (leBytes 2 (c.get f.d).toNat) ∧
    stores (.insStb e f) (leBytes 1 (c.get f.d).toNat) ∧
    (f.d.val % 2 = 0 → stores (.insStp e f) (leBytes 4 (c.get f.d).toNat ++ leBytes 4 (c.get (f.d.val + 1)).toNat)))

/-- 08 R189, R196: which accesses an engine's memory map allows: a misaligned one traps MISALIGNED; user code reads no I-RAM, no trap record
and no context frame, writes no I-RAM, no image region and no cairn; the cairn window answers below cw.CAIRN_SIZE; what lies between the
regions traps ACCESS. -/
def Obligations.EngineMapIsEnforced : Prop :=
  ∀ (b : Block) (e : Nat) (c : EngCtx) (a : ActSt) (ad n : Nat) (bs : List Byte), 0 < n → bs.length = n →
    (ad % n ≠ 0 → b.engLoad e c a ad n = .trap 4 ad ∧ b.engStore e c ad bs = .trap 4 ad) ∧
    (ad % n = 0 →
      (ad < 0x10000 → b.engStore e c ad bs = .trap 3 ad ∧
        (c.kernel = false → b.engLoad e c a ad n = .trap 3 ad) ∧
        (c.kernel = true → b.engLoad e c a ad n = .val b (padTo n (slice (b.eng e).iram ad n)) 2 [])) ∧
      (0x1DFE0 ≤ ad → ad < 0x20000 → c.kernel = false →
        b.engLoad e c a ad n = .trap 3 ad ∧ b.engStore e c ad bs = .trap 3 ad) ∧
      (0x1DFE0 ≤ ad → ad < 0x1E000 → c.kernel = true →
        b.engLoad e c a ad n = .val b (mread (b.eng e).dram (ad - 0x10000) n) 2 []) ∧
      (0x1E000 ≤ ad → ad < 0x20000 → b.engStore e c ad bs = .trap 3 ad) ∧
      (0x10000000 ≤ ad → ad < 0x10000000 + b.sramSplit → b.engStore e c ad bs = .trap 3 ad) ∧
      (0x20000000 ≤ ad → ad < 0x20001000 → b.engStore e c ad bs = .trap 3 ad ∧
        (b.cairnSize a.thread < ad - 0x20000000 + n → b.engLoad e c a ad n = .trap 3 ad) ∧
        (ad - 0x20000000 + n ≤ b.cairnSize a.thread → (b.th a.thread).cairned = false →
          b.engLoad e c a ad n = .val b (zeroBytes n) 12 [0x08]) ∧
        (ad - 0x20000000 + n ≤ b.cairnSize a.thread → (b.th a.thread).cairned = true →
          b.engLoad e c a ad n = .val b (mread b.cairn (u32 (b.thDesc a.thread) 16 + (ad - 0x20000000)) n) 12 [0x08])) ∧
      (0x40000000 ≤ ad → ad < 0x43C00000 → c.kernel = false → b.engStore e c ad bs = .trap 3 ad) ∧
      ((0x20000 ≤ ad ∧ ad < 0x10000000) ∨ (0x11000000 ≤ ad ∧ ad < 0x20000000) ∨ (0x20001000 ≤ ad ∧ ad < 0x40000000) ∨
          0x43C00000 ≤ ad →
        b.engLoad e c a ad n = .trap 3 ad ∧ b.engStore e c ad bs = .trap 3 ad))

/-- 08 R207, R208, R191, R214: an atomic on an aligned word of the work region first lets every store of its engine become visible, then
reads the word into v[d] and writes its new value in one step of 40 cycles (AMO.CAS only where the word equals v[d]; a stale engine writes
nothing and is counted); elsewhere it traps ACCESS. FENCE empties the store buffer into shared SRAM, in order. -/
def Obligations.AtomicsAndFenceRetire : Prop :=
  ∀ (s : State) (e : Fin 40) (a : ActSt) (f : FormA), Runs s.b e a →
    let c := (s.b.eng e).ctx
    let ad := (c.get f.a).toNat
    let b1 := (s.b.drainAll e).drainOthers e
    let t := w32 (mread b1.sram (ad - 0x10000000) 4) 0
    let amo (i : Instr) (fn : BitVec 11) (w : Option Word) : Prop := f.fn = fn →
      (ad % 4 = 0 → 0x10000000 + s.b.sramSplit ≤ ad → ad < 0x11000000 →
        Retires s i e (match w with
          | some v => if b1.stale e then b1.fencedWrites e 1 else b1.sramPut (ad - 0x10000000) (leBytes 4 v.toNat)
          | none => b1) (stepPc (c.set f.d t)) (spend a 40)) ∧
      (ad % 4 ≠ 0 ∨ ad < 0x10000000 + s.b.sramSplit ∨ 0x11000000 ≤ ad → exec i s = .next { s with b := s.b.trapOn e 3 ad })
    amo (.insAmoAdd e f) 0 (some (t + c.get f.b)) ∧ amo (.insAmoSwp e f) 1 (some (c.get f.b)) ∧
    amo (.insAmoCas e f) 2 (if t = c.get f.d then some (c.get f.b) else none) ∧
    (f.fn = 0 → f.d = 0 → f.a = 0 → f.b = 0 → ∃ n, Retires s (.insFence e f) e
      (({ s.b with sram := (s.b.eng e).stores.foldl (fun (m : Mem) (x : Nat × List Byte) => mwrite m x.1 x.2) s.b.sram }).putEng e { s.b.eng e with stores := [] })
      (stepPc c) (spend a n))

/-- 08 R193, R209: CWR of a readable control word gives it in one cycle (the words of the table; a 64-bit word gives its low half and
latches its high half, which the next number then gives); CWW writes cw.FFLAGS and cw.ARITH, and in kernel mode cw.HTABLE; a kernel word in
user mode traps PRIVILEGE, and a reserved field or a word that may not be written ILLEGAL. -/
def Obligations.ControlWordInstructionsRetire : Prop :=
  ∀ (s : State) (e : Fin 40) (a : ActSt) (f : FormI), Runs s.b e a →
    let c := (s.b.eng e).ctx
    let n := f.imm.toNat % 256
    let gives (v : Nat) : Prop := Retires s (.insCwr e f) e s.b (stepPc (c.set f.d (BitVec.ofNat 32 v))) (spend a 1)
    (f.a = 0 →
      (n = 0x00 → gives (s.b.eng e).epoch) ∧ (n = 0x01 → gives a.thread) ∧ (n = 0x02 → gives a.act) ∧ (n = 0x05 → gives a.budget) ∧
      (n = 0x06 → gives a.start) ∧ (n = 0x09 → gives c.sflags) ∧ (n = 0x0C → gives c.oflags) ∧ (n = 0x0D → gives c.cflags) ∧
      (n = 0x0E → gives c.fflags) ∧ (n = 0x0F → gives c.arith) ∧ (n = 0x10 → gives (s.b.th a.thread).postRes) ∧
      (n = 0x11 → gives (a.outs.length + 256 * a.sigs.length + 65536 * a.posts.length)) ∧
      (n = 0x12 → gives (e.val + 256 * b2n c.kernel)) ∧ (n = 0x13 → gives (u16 (s.b.thDesc a.thread) 6)) ∧
      (n = 0x20 → c.kernel = true → gives (b2n c.handler)) ∧ (n = 0x21 → c.kernel = true → gives c.htable) ∧
      (∀ h, tget? s.b.latch (2 + e.val) = some h → n = 0x04 ∨ n = 0x08 ∨ n = 0x0B → gives h.toNat) ∧
      (∀ v, (n = 0x03 ∧ v = s.b.now) ∨ (n = 0x07 ∧ v = a.disp) ∨ (n = 0x0A ∧ v = c.stime) →
        Retires s (.insCwr e f) e { s.b with latch := tput s.b.latch (2 + e.val) (BitVec.ofNat 32 (v / 2 ^ 32)) }
          (stepPc (c.set f.d (BitVec.ofNat 32 v))) (spend a 1))) ∧
    (f.d = 0 →
      (n = 0x0E → Retires s (.insCww e f) e s.b (stepPc { c with fflags := (c.get f.a).toNat % 32 }) (spend a 1)) ∧
      (n = 0x0F → Retires s (.insCww e f) e s.b (stepPc { c with arith := (c.get f.a).toNat % 4 }) (spend a 1)) ∧
      (n = 0x21 → c.kernel = true → Retires s (.insCww e f) e s.b (stepPc { c with htable := (c.get f.a).toNat }) (spend a 1)) ∧
      (n = 0x20 → c.kernel = true → exec (.insCww e f) s = .next { s with b := s.b.trapOn e 1 (wordI 0x29 f) })) ∧
    (f.a = 0 → f.d = 0 → n = 0x20 ∨ n = 0x21 → c.kernel = false →
      exec (.insCwr e f) s = .next { s with b := s.b.trapOn e 2 (wordI 0x28 f) } ∧
      exec (.insCww e f) s = .next { s with b := s.b.trapOn e 2 (wordI 0x29 f) }) ∧
    (f.a ≠ 0 → exec (.insCwr e f) s = .next { s with b := s.b.trapOn e 1 (wordI 0x28 f) }) ∧
    (f.d ≠ 0 → exec (.insCww e f) s = .next { s with b := s.b.trapOn e 1 (wordI 0x29 f) })

/-- 08 R204, R209–R212: KCALL traps with cause KCALL and its immediate; TRET in kernel mode restores v29 to v31 and the mode from the trap
record, clears IN_HANDLER and continues at the address held there, in 8 cycles; ABORT in kernel mode ends the activation with code 4; DONE
marks the activation as committing. TRET and ABORT in user mode trap PRIVILEGE. -/
def Obligations.TrapAndEndInstructionsComplete : Prop :=
  ∀ (s : State) (e : Fin 40) (a : ActSt), Runs s.b e a →
    let c := (s.b.eng e).ctx
    let r := mread (s.b.eng e).dram 0xDFE0 32
    (∀ f : FormI, f.d = 0 → f.a = 0 → exec (.insKcall e f) s = .next { s with b := s.b.trapOn e 12 f.imm.toNat }) ∧
    (∀ f : FormJ, f.imm = 0 → c.kernel = true → u32 r 0 % 4 = 0 →
      Retires s (.insTret e f) e s.b { ((c.set 29 (w32 r 16)).set 30 (w32 r 20)).set 31 (w32 r 24) with
        kernel := (u32 r 4).testBit 8, handler := false, pc := u32 r 0 } (spend a 8)) ∧
    (∀ f : FormJ, f.imm = 0 → c.kernel = true → ∃ b1, exec (.insAbort e f) s = .next { s with b := b1.abortAct e 4 } ∧
      (b1.eng e).ctx = stepPc c ∧ (b1.eng e).act = some (spend a 1) ∧ EngFrame e s.b b1) ∧
    (∀ f : FormJ, f.imm = 0 → c.kernel = false →
      exec (.insTret e f) s = .next { s with b := s.b.trapOn e 2 (wordJ 0x3A f) } ∧
      exec (.insAbort e f) s = .next { s with b := s.b.trapOn e 2 (wordJ 0x3B f) }) ∧
    (∀ f : FormJ, f.imm = 0 → Retires s (.insDone e f) e s.b (stepPc c) (spend { a with committing := true } 1)) ∧
    (∀ f : FormJ, f.imm ≠ 0 → exec (.insDone e f) s = .next { s with b := s.b.trapOn e 1 (wordJ 0x38 f) })

/-- 08 R210: a trap outside a handler, with a handler for its cause, writes the trap record at D-RAM 0x1_DFE0, enters kernel mode and the
handler with v0 to v31 kept, counts in `ENG[n].TRAPS`, writes LAST_TRAP, LAST_TRAP_PC and LAST_TRAP_ARG, sets FLAGS.TRAP and spends 8
cycles; shared SRAM, cairns and the other engines are as before. -/
def Obligations.TrapEntrySavesAndEntersTheHandler : Prop :=
  ∀ (b : Block) (e : Fin 40) (a : ActSt) (cause arg : Nat), (b.eng e).act = some a → a.thread < 4096 → cause < 256 → arg < 2 ^ 32 →
    (b.eng e).ctx.pc < 2 ^ 32 → (b.eng e).ctx.handler = false → (b.eng e).handlerFor cause ≠ 0 →
    let c := (b.eng e).ctx
    let t := b.trapOn e cause arg
    (t.eng e).ctx = { c with kernel := true, handler := true, pc := (b.eng e).handlerFor cause } ∧
    (t.eng e).act = some (spend a 8) ∧
    (t.eng e).dram = mwrite (b.eng e).dram 0xDFE0
      (leBytes 4 c.pc ++ leBytes 4 (cause + 256 * b2n c.kernel) ++ leBytes 4 arg ++ zeroBytes 4 ++ leBytes 4 (c.get 29).toNat ++
        leBytes 4 (c.get 30).toNat ++ leBytes 4 (c.get 31).toNat ++ zeroBytes 4) ∧
    (t.rd (Reg.engTraps e)).toNat = ((b.rd (Reg.engTraps e)).toNat + 1) % 2 ^ 32 ∧
    (t.rd (Reg.engLastTrap e)).toNat = cause + 256 * a.thread ∧ (t.rd (Reg.engLastTrapPc e)).toNat = c.pc ∧
    (t.rd (Reg.engLastTrapArg e)).toNat = arg ∧ (t.rd (Reg.engFlags e)).toNat.testBit 0 = true ∧
    t.sram = b.sram ∧ t.cairn = b.cairn ∧ ∀ k, k ≠ e.val → t.eng k = b.eng k

/-- 08 R198, R199, R201, R214: SIG.LD gives the signal's value, flags and time in 12 cycles (int64 only with PAIR); OBJ.LD with SNAP copies
and consumes the object in 16 cycles, without it reads the snapshot in 2; CURVE evaluates the curve in 40 cycles. Operands outside their
class trap with the cause that R209 names. 08 R200–R203, R214: SIG.ST, OUT.SET, CAIRN.W and POST stage their item in the activation and
change nothing else; the item beyond 64, 64 or 32 traps STAGE_FULL, and an operand outside its class traps as R209 names. (A narrow integer
stored without PAIR is sign-extended: the model's choice, log 40.) -/
def Obligations.SignalObjectCurveAndStagingInstructionsRetire : Prop :=
  (∀ (s : State) (e : Fin 40) (a : ActSt), Runs s.b e a →
    let c := (s.b.eng e).ctx
    (∀ f : FormI,
      let sid := (c.get f.a).toNat % 0x1000000
      let v := s.b.ldVal sid
      let w := s.b.ldWords sid (f.imm.toNat % 16) v.1
      (f.imm.toNat.testBit 4 = false → s.b.isSignal sid = true → s.b.ldType sid ≠ 6 →
        Retires s (.insSigLd e f) e s.b (stepPc { c.set f.d w.1 with sflags := v.2.2, stime := v.2.1 }) (spend a 12)) ∧
      (f.imm.toNat.testBit 4 = true → f.d.val % 2 = 0 → s.b.isSignal sid = true →
        Retires s (.insSigLd e f) e s.b
          (stepPc (({ c.set f.d w.1 with sflags := v.2.2, stime := v.2.1 } : EngCtx).set (f.d.val + 1) w.2)) (spend a 12)) ∧
      (f.imm.toNat.testBit 4 = false ∨ f.d.val % 2 = 0 →
        s.b.isSignal sid = false ∨ (s.b.ldType sid = 6 ∧ f.imm.toNat.testBit 4 = false) →
        exec (.insSigLd e f) s = .next { s with b := s.b.trapOn e 5 sid })) ∧
    (∀ f : FormI,
      let sid := (c.get f.a).toNat % 0x1000000
      let word := f.imm.toNat % 16
      (0x820000 ≤ sid → sid < 0x821000 → f.imm.toNat.testBit 15 = true →
        Retires s (.insObjLd e f) e (s.b.consumeRxo (sid - 0x820000))
          (stepPc { c.set f.d (w32 (padTo 64 (s.b.rxo (sid - 0x820000)).data) (4 * word)) with
            snap := padTo 64 (s.b.rxo (sid - 0x820000)).data, oflags := s.b.objFlags (sid - 0x820000) }) (spend a 16)) ∧
      (0x820000 ≤ sid → sid < 0x821000 → f.imm.toNat.testBit 15 = false →
        Retires s (.insObjLd e f) e s.b (stepPc (c.set f.d (w32 (padTo 64 c.snap) (4 * word)))) (spend a 2)) ∧
      (sid < 0x820000 ∨ 0x821000 ≤ sid → exec (.insObjLd e f) s = .next { s with b := s.b.trapOn e 7 sid })) ∧
    (∀ f : FormA, f.fn = 0 →
      let k := (c.get f.b).toNat
      let r := (curveOf s.b.bank k).eval (c.get f.a)
      (k ≤ 1023 → u16 (ent s.b.bank tCurve k) 0 ≠ 0 →
        Retires s (.insCurve e f) e s.b (stepPc { c.set f.d r.1 with cflags := r.2 }) (spend a 40)) ∧
      (1023 < k ∨ u16 (ent s.b.bank tCurve k) 0 = 0 → exec (.insCurve e f) s = .next { s with b := s.b.trapOn e 11 k }))) ∧
  (∀ (s : State) (e : Fin 40) (a : ActSt), Runs s.b e a →
    let c := (s.b.eng e).ctx
    (∀ (f : FormI) (x : List Byte),
      let sid := (c.get f.a).toNat % 0x1000000
      s.b.sigEntry sid = some x → (u8 x 7).testBit 2 = true →
      (f.imm.toNat.testBit 4 = true → f.d.val % 2 = 0 → a.sigs.length < 64 →
        Retires s (.insSigSt e f) e s.b (stepPc c)
          (spend { a with sigs := a.sigs ++ [(sid, BitVec.ofNat 64 ((c.get f.d).toNat + 2 ^ 32 * (c.get (f.d.val + 1)).toNat))] } 2)) ∧
      (f.imm.toNat.testBit 4 = false → a.sigs.length < 64 → s.b.sigType sid ∉ [1, 2, 3, 6] →
        Retires s (.insSigSt e f) e s.b (stepPc c)
          (spend { a with sigs := a.sigs ++ [(sid, BitVec.ofNat 64 (c.get f.d).toNat)] } 2)) ∧
      (f.imm.toNat.testBit 4 = false → a.sigs.length < 64 → s.b.sigType sid ∈ [1, 2, 3, 6] →
        Retires s (.insSigSt e f) e s.b (stepPc c) (spend { a with sigs := a.sigs ++ [(sid, (c.get f.d).signExtend 64)] } 2)) ∧
      (f.imm.toNat.testBit 4 = false → 64 ≤ a.sigs.length →
        exec (.insSigSt e f) s = .next { s with b := s.b.trapOn e 8 (wordI 0x31 f) })) ∧
    (∀ f : FormI, f.imm.toNat.testBit 4 = false →
      s.b.sigEntry ((c.get f.a).toNat % 0x1000000) = none →
        exec (.insSigSt e f) s = .next { s with b := s.b.trapOn e 6 ((c.get f.a).toNat % 0x1000000) }) ∧
    (∀ f : FormA, f.fn = 0 →
      let sid := (c.get f.a).toNat % 0x1000000
      (0x500000 ≤ sid → sid < 0x500400 → c.get f.b = 0 → a.outs.length < 64 →
        Retires s (.insOutSet e f) e s.b (stepPc c)
          (spend { a with outs := a.outs ++ [(sid - 0x500000, c.get f.d, [])] } 4)) ∧
      (0x500000 ≤ sid → sid < 0x500400 → c.get f.b = 0 → 64 ≤ a.outs.length →
        exec (.insOutSet e f) s = .next { s with b := s.b.trapOn e 8 (wordA 0x33 f) }) ∧
      (∀ bs b' sram, 0x500000 ≤ sid → sid < 0x500400 → c.get f.b ≠ 0 →
        s.b.copyPlan e c (c.get f.b).toNat = some (bs, b', sram) → a.outs.length < 64 →
        Retires s (.insOutSet e f) e b' (stepPc c)
          (spend { a with outs := a.outs ++ [(sid - 0x500000, c.get f.d, bs)] } (4 + u8 bs 0 + if sram then 20 else 0))) ∧
      (0x500000 ≤ sid → sid < 0x500400 → (c.get f.b).toNat % 8 ≠ 0 →
        exec (.insOutSet e f) s = .next { s with b := s.b.trapOn e 10 (c.get f.b).toNat }) ∧
      (sid < 0x500000 ∨ 0x500400 ≤ sid → exec (.insOutSet e f) s = .next { s with b := s.b.trapOn e 5 sid })) ∧
    (∀ f : FormI,
      let o := (c.get f.a + f.imm.signExtend 32).toNat
      (o % 4 = 0 → o < u16 (s.b.thDesc a.thread) 6 →
        Retires s (.insCairnW e f) e s.b (stepPc c) (spend { a with cairn := tput a.cairn o (c.get f.d) } 2)) ∧
      (o % 4 ≠ 0 ∨ u16 (s.b.thDesc a.thread) 6 ≤ o → exec (.insCairnW e f) s = .next { s with b := s.b.trapOn e 9 o })) ∧
    (∀ f : FormI, f.d = 0 →
      let kind := f.imm.toNat % 2048
      let bf := f.imm.toNat / 2048
      let sid := (c.get f.a).toNat % 0x1000000
      let posts (p : PostSt) : Prop := Retires s (.insPost e f) e s.b (stepPc c) (spend { a with posts := a.posts ++ [p] } 2)
      (a.posts.length < 32 →
        (kind = 0 → sid / 0x10000 = 0x92 → posts { kind := 0, sid := sid, code := (c.get bf).toNat, entry := [] }) ∧
        (kind = 1 → sid / 0x10000 = 0x90 → posts { kind := 1, sid := sid, code := (c.get bf).toNat, entry := [] }) ∧
        (kind = 3 → bf = 0 → sid / 0x10000 = 0x83 → posts { kind := 3, sid := sid, code := 0, entry := [] }) ∧
        (kind = 4 → bf = 0 → 0xB00000 ≤ sid → sid < 0xB01000 → posts { kind := 4, sid := sid, code := 0, entry := [] }) ∧
        (∀ bs b' sram, kind = 2 → bf = 0 → s.b.copyFrom e c (c.get f.a).toNat 32 = some (bs, b', sram) →
          Retires s (.insPost e f) e b' (stepPc c) (spend { a with posts := a.posts ++ [{ kind := 2, sid := 0, code := 0, entry := bs }] } 2))) ∧
      (4 < kind → exec (.insPost e f) s = .next { s with b := s.b.trapOn e 1 (wordI 0x35 f) }) ∧
      (kind = 0 → sid / 0x10000 ≠ 0x92 → exec (.insPost e f) s = .next { s with b := s.b.trapOn e 5 sid }) ∧
      (kind = 0 → sid / 0x10000 = 0x92 → 32 ≤ a.posts.length →
        exec (.insPost e f) s = .next { s with b := s.b.trapOn e 8 (wordI 0x35 f) })))

/-- 09 R224, R226, R235, R239, R240: the thread commands in every thread state: what each writes in `DSP.THREAD[t].STATE` and where it is
refused with STATE_CONFLICT. A disable or suspension of a RUNNING or PREEMPTED thread waits for its activation's end; a kick of a thread
that is not WAITING is abandoned with reason NOT_WAITING. -/
def Obligations.ThreadCommandsComplete : Prop :=
  ∀ (s : State) (c : Cmd) (t : Nat), ThreadCmd s.b c t →
    let st := s.b.thState t
    let r := Reg.dspThreadState t
    let n := u8 (s.b.thDesc t) 2
    (s.b.loopOf t = none →
      (st = thDormant → Completes s (.dspEnable c) 0x0701 c ((s.b.setFld r 0 3 thWaiting).setFld r 12 8 n) stDone) ∧
      (st ≠ thDormant → Completes s (.dspEnable c) 0x0701 c s.b stConflict) ∧
      (st = thWaiting ∨ (st = thSuspended ∧ s.b.thCause t ≠ 3) → Completes s (.dspDisable c) 0x0702 c
        ((((s.b.setFld r 0 3 thDormant).setFld r 12 8 n).setFld r 20 2 0).setFld r 6 1 0) stDone) ∧
      (st = thReady → (s.b.th t).readyAt ≠ s.b.now → Completes s (.dspDisable c) 0x0702 c
        (((s.b.setFld r 0 3 thDormant).setFld r 12 8 n).holdFields t) stDone) ∧
      (st = thRunning ∨ st = thPreempted → Completes s (.dspDisable c) 0x0702 c
        ((s.b.putTh t { s.b.th t with pendReq := 1 }).setFld r 3 1 1) stDone) ∧
      (st = thDormant → Completes s (.dspDisable c) 0x0702 c s.b stConflict) ∧
      (st = thSuspended → s.b.thCause t = 3 → Completes s (.dspDisable c) 0x0702 c s.b stConflict 0x03)) ∧
    (s.b.loopOf t ≠ none →
      Completes s (.dspEnable c) 0x0701 c s.b stConflict 0x01 ∧ Completes s (.dspDisable c) 0x0702 c s.b stConflict 0x01) ∧
    (st = thWaiting ∨ st = thReady → Completes s (.dspSuspend c) 0x0703 c
      ((((s.b.setFld r 20 2 1).setFld r 6 1 (b2n (st == thReady))).setFld r 0 3 thSuspended).holdFields t) stDone) ∧
    (st = thRunning ∨ st = thPreempted → Completes s (.dspSuspend c) 0x0703 c
      ((s.b.putTh t { s.b.th t with pendReq := 2 }).setFld r 3 1 1) stDone) ∧
    (st = thDormant ∨ st = thSuspended → Completes s (.dspSuspend c) 0x0703 c s.b stConflict) ∧
    (st = thSuspended → s.b.thCause t ≠ 3 → s.b.bit r 6 = false → Completes s (.dspResume c) 0x0704 c
      ((((s.b.setFld r 20 2 0).setFld r 6 1 0).setFld r 0 3 thWaiting).setFld r 12 8 n) stDone) ∧
    (st = thSuspended → s.b.thCause t ≠ 3 → s.b.bit r 6 = true → Completes s (.dspResume c) 0x0704 c
      ((((s.b.setFld r 20 2 0).setFld r 6 1 0).setFld r 0 3 thReady).holdFields t) stDone) ∧
    (st ≠ thSuspended → Completes s (.dspResume c) 0x0704 c s.b stConflict) ∧
    (st = thWaiting → 1 < s.b.thCounter t → Completes s (.dspKick c) 0x0705 c (s.b.setFld r 12 8 (s.b.thCounter t - 1)) stDone) ∧
    (st = thWaiting → s.b.thCounter t ≤ 1 → Completes s (.dspKick c) 0x0705 c (s.b.makeReady t) stDone) ∧
    (st ≠ thWaiting → st ≤ 5 → Completes s (.dspKick c) 0x0705 c (s.b.discard t none) stAbandoned 5)

/-- 09 R228, R229, 08 R193, R203: a READY thread that dispatch places on an idle engine runs there: its activation carries the next number,
the dispatch time and the declared budget and has staged nothing; the thread is RUNNING and the engine too. The end of MIN_INTERVAL frees a
READY thread's hold. -/
def Obligations.DispatchStartsAnActivation : Prop :=
  (∀ (s : State) (t : Fin 4096) (e : Fin 40), s.b.mayDispatch = true → t.val ∈ s.b.offered → s.b.placeFor t = some e.val →
    (s.b.eng e).act = none → (∀ u ∈ s.b.offered, s.b.before u t = true → s.b.placeFor u = none) →
    ∃ x, Gives s (.dispatch t e) x ∧
      (x.eng e).act = some { thread := t, act := (s.b.rdN (Reg.dspThreadAct t) + 1) % 2 ^ 32, start := s.b.startBits t, disp := s.b.now,
                             budget := u32 (s.b.thDesc t) 8 } ∧
      x.thState t = thRunning ∧ x.thEngine t = e ∧ x.egState e = egRunning ∧ (x.th t).lastDispatch = some s.b.now) ∧
  (∀ (s : State) (t : Fin 4096), s.b.thState t = thReady → Does s (.minIntervalEnd t) (s.b.holdFields t))

/-- 08 R204, R205, R212, 10 R255: the commit of an activation that staged cairn words alone merges them into the thread's cairn and writes
its number, wholly; one whose epoch is stale or whose engine is fenced releases nothing and counts every staged item; one whose number does
not follow the committed one is dropped as a duplicate. Budget expiry aborts an activation unless its commit is in progress. 08 R216–R220:
ENG.CODE_SWAP of a used thread whose staged code fits its slot is answered QUEUED and begins; each engine that holds the set then takes the
code into its I-RAM once the thread does not run there. -/
def Obligations.CommitIsWholeOrNothing : Prop :=
  (∀ (s : State) (e : Fin 40) (a : ActSt), (s.b.eng e).act = some a → a.committing = true → s.b.stale e = false →
    a.act = (s.b.rdN (Reg.dspThreadAct a.thread) + 1) % 2 ^ 32 → a.outs = [] → a.sigs = [] → a.posts = [] →
    let m := a.cairn.foldl (fun (m : Mem) (w : Nat × Word) => mwrite m (u32 (s.b.thDesc a.thread) 16 + w.1) (leBytes 4 w.2.toNat)) s.b.cairn
    ∃ x, Gives s (.commitComplete e) x ∧ x.cairn = m ∧ x.rdN (Reg.dspThreadAct a.thread) = a.act) ∧
  (∀ (s : State) (e : Fin 40) (a : ActSt), (s.b.eng e).act = some a → a.committing = true → s.b.stale e = true → s.b.known e = false →
    ∃ x, Gives s (.commitComplete e) x ∧ x.cairn = s.b.cairn ∧ (x.eng e).act = none ∧
      x.rdN (Reg.engFencedWrites e) = (s.b.rdN (Reg.engFencedWrites e) + a.staged) % 2 ^ 32 ∧
      x.rdN (Reg.dspThreadAct a.thread) = s.b.rdN (Reg.dspThreadAct a.thread)) ∧
  (∀ (s : State) (e : Fin 40) (a : ActSt), (s.b.eng e).act = some a →
    (a.committing = true → Does s (.budgetExpiry e) s.b) ∧
    (a.committing = false → Gives s (.budgetExpiry e) (s.b.abortAct e 1))) ∧
  (∀ (s : State) (c : Cmd) (t : Nat) (o n : Nat × Nat) (set : List Byte), authCheck c roleMaintainer = none →
    devCheck s.b [dsAwaitWorld, dsOperational, dsSafeStop] = none → envCheck c = none → u8 (cArg c) 0 < 2 →
    cObj c = sidThread t → t < 4096 → s.b.thUsed t = true → slotOf (s.b.codeSet (s.b.thSet t)) t = some o →
    s.b.stageReady = true → s.b.stagedSlot t = some (set, n) → n.1 = o.1 → n.2 ≤ o.2 → s.b.cont.swapOp = none →
    Gives s (.engCodeSwap c) ((s.b.complete 0x0801 c stQueued).swapBegin (opOf c 0x0801) t ((u8 (cArg c) 0).testBit 0))) ∧
  (∀ (s : State) (e : Fin 40) (off len : Nat), s.b.cont.swapOp ≠ none → e.val ∈ s.b.cont.swapEngines →
    ¬((s.b.thState s.b.cont.swapThread = thRunning ∨ s.b.thState s.b.cont.swapThread = thPreempted) ∧
      s.b.thEngine s.b.cont.swapThread = e) →
    slotOf (s.b.codeSet (s.b.thSet s.b.cont.swapThread)) s.b.cont.swapThread = some (off, len) →
    Gives s (.codeSwapCopy e) ((((s.b.putEng e { s.b.eng e with
      iram := patch (s.b.eng e).iram (4 * off) s.b.cont.swapCode }).raise (Reg.engFlags e) 5 (sidEngine e)).swapDrop e)))

/-- 02 R27, R28: a write that reaches a 32-bit register without an operation of its own stores, clears or sets by its access code, in the
bits that the register has (`regMask`), and changes nothing else at all; a write to an RO or RC register has no effect. 02 R28, R31: a write
of the host or the management core from outside the writer set, or to an RWL register of a locked block, is discarded and counted in
`SYS.WRITE_REFUSED`; an engine's traps ACCESS. An access of either to an offset that no block defines is counted in `SYS.UNMAPPED`; an
engine's traps ACCESS. -/
def Obligations.RegisterWritesFollowTheirAccessCode : Prop :=
  (∀ (s : State) (ini : Ini) (off : Nat) (v : Word) (r : RegRow), Reaches s.b ini off r false → r.wide = false →
    s.b.writeOp ini off v = none →
    let old := s.b.rd off
    let m := BitVec.ofNat 32 (regMask off)
    (r.acc = .rw ∨ r.acc = .rwl → Gives s (.registerWrite ini off v) (s.b.wr off ((old &&& ~~~m) ||| (v &&& m)))) ∧
    (r.acc = .w1c → Gives s (.registerWrite ini off v) (s.b.wr off (old &&& ~~~v))) ∧
    (r.acc = .w1s → Gives s (.registerWrite ini off v) (s.b.wr off (old ||| (v &&& m)))) ∧
    (r.acc = .ro ∨ r.acc = .rc ∨ r.acc = .wo → exec (.registerWrite ini off v) s = .next s)) ∧
  (∀ (s : State) (ini : Ini) (off : Nat) (v : Word) (r : RegRow) (hi : Bool), regAt off = some (r, hi) → s.b.memWindow off = none →
    (r.allows ini = false ∨ (r.acc = .rwl ∧ s.b.lockedAt off = true)) →
    (iniCounts ini = true → Gives s (.registerWrite ini off v) (s.b.count Reg.sysWriteRefused)) ∧
    (∀ e, ini = .engine e → (s.b.issuer e).isSome = true →
      Gives s (.registerWrite ini off v) (s.b.trapOn e 3 (0x40000000 + off)))) ∧
  (∀ (s : State) (ini : Ini) (off : Nat) (w : Bool), regAt off = none → s.b.memWindow off = none →
    (iniCounts ini = true → s.b.silent off = false →
      Gives s (.unmappedAccess ini off w) (s.b.count Reg.sysUnmapped)) ∧
    (∀ e, ini = .engine e → (s.b.issuer e).isSome = true →
      Gives s (.unmappedAccess ini off w) (s.b.trapOn e 3 (0x40000000 + off))))

/-- 02 R30, R34, R35, R37: a high-word write is held in the initiator's staging register and changes no register; the following low write
commits both halves, or the present high word where nothing is staged, and empties it (a base of the admin pair, discarded and counted while
the pair is enabled, 19 R460); a low read latches the live high word for its initiator; a read of an RC register clears it. -/
def Obligations.WideAccessesStageAndLatch : Prop :=
  (∀ (s : State) (ini : Ini) (off : Nat) (v : Word) (r : RegRow), Reaches s.b ini off r true → r.wide = true →
    Gives s (.highWordWrite ini off v) ({ s.b with staging := tput s.b.staging (stageKey ini (off - 4)) v })) ∧
  (∀ (s : State) (off : Nat) (v : Word), off = Reg.adminCmdBase ∨ off = Reg.adminCplBase →
    let h := (tget? s.b.staging (stageKey .host off)).getD (s.b.regNow (off + 4))
    let b : Block := { s.b with staging := tdel s.b.staging (stageKey .host off) }
    (s.b.bit Reg.adminCtrl 0 = false → Gives s (.registerWrite .host off v) ((b.wr off v).wr (off + 4) h)) ∧
    (s.b.bit Reg.adminCtrl 0 = true → Gives s (.registerWrite .host off v) (b.count Reg.sysWriteRefused))) ∧
  (∀ (s : State) (ini : Ini) (off : Nat) (r : RegRow), ReadReaches s.b ini off r false → r.wide = true →
    Gives s (.lowWordRead ini off) ({ s.b with latch := tput s.b.latch (iniIdx ini) (s.b.regNow (off + 4)) }) ∧
    ({ s.b with latch := tput s.b.latch (iniIdx ini) (s.b.regNow (off + 4)) } : Block).highRead ini (off + 4) = s.b.regNow (off + 4)) ∧
  (∀ (s : State) (ini : Ini) (off : Nat) (r : RegRow), ReadReaches s.b ini off r false → r.wide = false → r.acc = .rc →
    ¬(0x1010000 ≤ off ∧ off < 0x1030000) → Gives s (.rcRead ini off) (s.b.wr off 0))

/-- 12 R291, R292, log 1: with no command waiting a step is one 4 ns tick. While the controller runs the timebase advances by 4 ns × (1 +
(FREQ + SLEW) × 10⁻¹²), kept to 2⁻³² ns, rounded down there; the elapsed time advances by 4 ns; before t0 or without REFCLK the timebase
stands still. (That such a tick is what an empty queue does is the model's choice, log 1.) -/
def Obligations.EmptyQueueTicksTheTimebase : Prop :=
  ∀ s : State, s.pending = [] →
    let ppt : Int := toSigned 32 (s.b.rdN Reg.tbFreq) + toSigned 32 (s.b.rdN Reg.tbSlew)
    let total : Nat := (4 * (2 : Int) ^ 32 + (4 * ppt * (2 : Int) ^ 32) / 10 ^ 12 + (s.b.frac : Int)).toNat
    step s = .next { s with b := s.b.tick } ∧ s.b.timeTick.elapsed = s.b.elapsed + 4 ∧ s.b.timeTick.regs = s.b.regs ∧
      (s.b.started = true → s.b.timeTick.now = s.b.now + total / 2 ^ 32 ∧ s.b.timeTick.frac = total % 2 ^ 32 ∧
        s.b.tick = s.b.timeTick.axesTick.dacsTick.ledgerTick.readyWait) ∧
      (s.b.started = false → s.b.tick = s.b.timeTick ∧ s.b.timeTick.now = s.b.now)

/-- 12 R294, R295: a sample whose offset lies within STEP_US slews: `TB.OFFSET` takes it, the slew lasts for the interval and stays within
SLEW_MAX, FREQ within FREQ_MAX changes only for an offset within UNLOCK; one beyond STEP_US steps the timebase while steps are allowed. PPS
edges are samples only with source PPS, `TB.SAMPLE` only with source PTP. -/
def Obligations.ServoTakesSamples : Prop :=
  (∀ (s : State) (ini : Ini) (lo : Word) (r : RegRow), Reaches s.b ini Reg.tbSample r false → r.wide = true →
    let hi := (tget? s.b.staging (stageKey ini Reg.tbSample)).getD (s.b.regNow (Reg.tbSample + 4))
    let b0 : Block := { s.b with staging := tdel s.b.staging (stageKey ini Reg.tbSample) }
    (s.b.tbSource = 1 → 1 ≤ hi.toNat → hi.toNat ≤ 16000000 →
      Gives s (.tbSampleWrite ini lo) (b0.servo lo.toInt hi.toNat)) ∧
    (s.b.tbSource = 1 → hi.toNat = 0 ∨ 16000000 < hi.toNat → Gives s (.tbSampleWrite ini lo) (b0)) ∧
    (s.b.tbSource ≠ 1 → Gives s (.tbSampleWrite ini lo) (b0.raise Reg.tbFlags 4 sidTime))) ∧
  (∀ s : State,
    (s.b.tbSource = 2 → s.b.now % 1000000000 < 500000000 →
      Gives s .ppsEdge (s.b.servo (s.b.now % 1000000000 : Nat) 1000000)) ∧
    (s.b.tbSource = 2 → 500000000 < s.b.now % 1000000000 →
      Gives s .ppsEdge (s.b.servo ((s.b.now % 1000000000 : Nat) - 1000000000) 1000000)) ∧
    (s.b.tbSource ≠ 2 → exec .ppsEdge s = .next s)) ∧
  (∀ (b : Block) (o : Int) (t : Nat), o.natAbs ≤ 1000 * b.rdN Reg.tbStepUs → -2147483648 ≤ o → o ≤ 2147483647 →
    let x := b.servo o t
    toSigned 32 (x.rdN Reg.tbOffset) = o ∧ x.now = b.now ∧ x.tim.slewEnd = some (b.now + 1000 * t) ∧
    (b.fld Reg.tbLimits 0 16 ≤ 2000 → (toSigned 32 (x.rdN Reg.tbSlew)).natAbs ≤ b.fld Reg.tbLimits 0 16 * 1000000) ∧
    (10 * b.fld Reg.tbLockCfg 12 12 < o.natAbs → x.rdN Reg.tbFreq = b.rdN Reg.tbFreq)) ∧
  (∀ (b : Block) (o : Int) (t : Nat), 1000 * b.rdN Reg.tbStepUs < o.natAbs → b.stepAllowed = true →
    b.servo o t = ((((b.wrN Reg.tbOffset (ofSigned 32 (clampInt (-2147483648) 2147483647 o))).setTim
      { b.tim with last := b.now, slewEnd := none }).wrN Reg.tbSlew 0).stepTo ((b.now : Int) - 4 * divOpen o 4).toNat))

/-- 12 R293, R295, R299, R301, R302: what time itself does and what reaches its pins: a slew ends; HOLDOVER_MS without a sample enters
HOLDOVER; an ingress stamp is kept with its message, corrected by the PHY's latency; an egress stamp joins the port's queue of 64, or is
dropped and counted; POP removes its head; a TOUT pin takes its edge at its time; a selected TIN edge is stamped unless 16 ns have not
passed. 12 R296, R297, R301, R304, R305: the timebase's commands: TB.SOURCE selects and goes FREE; TB.SET with source OFF steps to its time
where steps are allowed; TB.ADJUST slews at SLEW_MAX for the time the offset takes; TB.TOUT sets a pin's mode, start, period and width, late
by its policy; TB.TIN selects edges. -/
def Obligations.TimeEventsAndCommandsComplete : Prop :=
  (∀ (s : State) (t : Nat), s.b.tim.slewEnd = some t → t ≤ s.b.now →
    Gives s .slewEnd ((s.b.wrN Reg.tbSlew 0).setTim { s.b.tim with slewEnd := none })) ∧
  (∀ s : State, s.b.tbSt = tbAcquiring ∨ s.b.tbSt = tbLocked → s.b.tim.last + 1000000 * s.b.rdN Reg.tbHoldoverMs ≤ s.b.now →
    ∃ x, Gives s .holdoverTimeout x ∧ x.tbSt = tbHoldover ∧ x.rdN Reg.tbSlew = 0 ∧ x.tim.slewEnd = none) ∧
  (∀ (s : State) (p : Fin 2) (msg : List Byte), Does s (.ptpMessageRx p msg)
    (s.b.setTim { s.b.tim with rx := tput s.b.tim.rx p (s.b.now - s.b.fld (Reg.tbPortLatency p) 16 16, msg) })) ∧
  (∀ (s : State) (p : Fin 2) (k q : Nat), k = 1 ∨ k = 2 ∨ (k = 3 ∧ s.b.bit (Reg.tbPortCtrl p) 2 = false) →
    ((tget [] s.b.tim.txts p).length < 64 → ∃ x, Gives s (.ptpMessageTx p k q) x ∧
      tget [] x.tim.txts p = tget [] s.b.tim.txts p ++
        [{ time := s.b.now + s.b.fld (Reg.tbPortLatency p) 0 16, kind := k, seqId := q, lost := tget false s.b.tim.txtsLost p }]) ∧
    (64 ≤ (tget [] s.b.tim.txts p).length → ∃ x, Gives s (.ptpMessageTx p k q) x ∧
      x.tim.txts = s.b.tim.txts ∧ tget false x.tim.txtsLost p = true ∧
      x.rdN (Reg.tbPortTxtsDrops p) = (s.b.rdN (Reg.tbPortTxtsDrops p) + 1) % 2 ^ 32)) ∧
  (∀ (s : State) (p : Fin 2) (k q : Nat), ¬(k = 1 ∨ k = 2 ∨ (k = 3 ∧ s.b.bit (Reg.tbPortCtrl p) 2 = false)) →
    exec (.ptpMessageTx p k q) s = .next s) ∧
  (∀ (s : State) (ini : Ini) (p : Fin 2) (v : Word) (r : RegRow), Reaches s.b ini (Reg.tbPortTxtsPop p) r false → r.wide = false →
    v.toNat.testBit 0 = true → ∃ x, Gives s (.txtsPop ini p v) x ∧
      tget [] x.tim.txts p = (tget [] s.b.tim.txts p).drop 1) ∧
  (∀ (s : State) (n : Fin 8) (t : Nat), (s.b.tout n).next = some t → t ≤ s.b.now →
    ∃ x, Gives s (.toutEdge n) x ∧ (x.tout n).level = !(s.b.tout n).level ∧
      ((s.b.tout n).level = false → (x.tout n).next = some (t + s.b.rdN (Reg.tbToutWidth n)))) ∧
  (∀ (s : State) (n : Fin 8) (up : Bool), (s.b.fld (Reg.tbTinCtrl n) 0 2).testBit (if up then 0 else 1) = true →
    ((∀ t, tget? s.b.tim.tinAt n = some t → t + 16 ≤ s.b.now) → Gives s (.tinEdge n up) ((((((s.b.wr64 (Reg.tbTinLast n) s.b.now).setTim { s.b.tim with tinAt := tput s.b.tim.tinAt n s.b.now }).record (sidTin n) 0x48
        (leBytes 1 3 ++ leBytes 1 s.b.tbSt ++ leBytes 1 s.b.tbSource ++ zeroBytes 5 ++ leBytes 8 s.b.now)).arrive (sidTin n)
          (BitVec.ofNat 64 s.b.now)).zcAll n))) ∧
    (∀ t, tget? s.b.tim.tinAt n = some t → s.b.now < t + 16 → Does s (.tinEdge n up)
      ((s.b.count (Reg.tbTinDrops n)).raise Reg.tbFlags 7 (sidTin n)))) ∧
  (∀ (s : State) (c : Cmd), Sent s.b c roleMaintainer devLive → cObj c = 0 → u8 (cArg c) 0 ≤ 2 →
    Completes s (.tbSource c) 0x0B01 c (((s.b.setTb tbFree).setFld Reg.tbState 8 2 (u8 (cArg c) 0)).setTim { s.b.tim with good := 0 }) stDone) ∧
  (∀ (s : State) (c : Cmd), Sent s.b c roleMaintainer devLive → cObj c = 0 → u64 (cArg c) 0 % 4 = 0 → s.b.tbSource = 0 →
    (s.b.stepAllowed = true → Completes s (.tbSet c) 0x0B02 c (s.b.stepTo (u64 (cArg c) 0)) stDone ∧
      (s.b.stepTo (u64 (cArg c) 0)).now = u64 (cArg c) 0) ∧
    (s.b.stepAllowed = false → Completes s (.tbSet c) 0x0B02 c s.b stConflict 0x01)) ∧
  (∀ (s : State) (c : Cmd), Sent s.b c roleOperator devLive → cObj c = 0 → s.b.tbSource = 0 →
    let x := toSigned 64 (u64 (cArg c) 0)
    let ppm := s.b.fld Reg.tbLimits 0 16
    x.natAbs ≤ 1000000000 →
    (x = 0 ∨ ppm = 0 → Completes s (.tbAdjust c) 0x0B03 c ((s.b.wrN Reg.tbSlew 0).setTim { s.b.tim with slewEnd := none }) stDone) ∧
    (x ≠ 0 → ppm ≠ 0 → Completes s (.tbAdjust c) 0x0B03 c
      ((s.b.wrN Reg.tbSlew (ofSigned 32 (if x < 0 then -(ppm * 1000000 : Int) else ppm * 1000000))).setTim
        { s.b.tim with slewEnd := some (s.b.now + (x.natAbs * 1000000 + ppm - 1) / ppm) }) stDone)) ∧
  (∀ (s : State) (c : Cmd) (n : Fin 8), Sent s.b c roleOperator devLive → cObj c = sidTout n →
    let a := cArg c
    u8 a 0 ≤ 3 → u8 a 1 < 3 → u32 a 16 % 4 = 0 → 8 ≤ u32 a 16 → u32 a 20 < u32 a 16 →
    let set (b : Block) (t : Nat) : Block := (((((b.setFld (Reg.tbToutCtrl n) 0 2 (u8 a 0)).wr64 (Reg.tbToutStart n) (u64 a 8)).wrN
      (Reg.tbToutPeriod n) (u32 a 16)).wrN (Reg.tbToutWidth n) (u32 a 20)).putTout n (toutStart b.now (u8 a 0) (u64 a 8) (u32 a 16) t (u8 a 1)))
    (u8 a 0 ≠ 1 ∨ s.b.now + 2000 ≤ u64 a 8 → Completes s (.tbTout c) 0x0B04 c (set s.b (u64 a 8)) stDone) ∧
    (u8 a 0 = 1 → u64 a 8 < s.b.now + 2000 → u8 a 1 = 2 →
      Completes s (.tbTout c) 0x0B04 c (s.b.toutLate n (u64 a 8)) stAbandoned 0x01) ∧
    (u8 a 0 = 1 → u64 a 8 < s.b.now + 2000 → u8 a 1 ≠ 2 →
      let b1 := s.b.toutLate n (u64 a 8)
      let t := lateRun b1.now (u64 a 8)
      Completes s (.tbTout c) 0x0B04 c (set b1 t) stDoneLate 0 (leBytes 4 (t - u64 a 8)))) ∧
  (∀ (s : State) (c : Cmd) (n : Fin 8), Sent s.b c roleOperator devLive → cObj c = sidTin n → u8 (cArg c) 0 ≤ 3 →
    Completes s (.tbTin c) 0x0B05 c (s.b.setFld (Reg.tbTinCtrl n) 0 2 (u8 (cArg c) 0)) stDone)

/-- 03 R55, R72, R77, 22 R510: what resets do. POR_N low for 1 µs resets CP, MP, MI and SI; a pulse below 100 ns does nothing. Registers but
for the listed ones read their reset values, no command is owed, host memory, the slots' NVM and the pins' levels stay; the commanded
restart keeps the MI and shows its cause. -/
def Obligations.ResetsReturnTheControllerToItsResetState : Prop :=
  (∀ (s : State) (ns : Nat), ns < 100 → exec (.porNAssert ns) s = .next s) ∧
  (∀ (s : State) (ns : Nat), 1000 ≤ ns → ∃ x : Block, exec (.porNAssert ns) s = .next { s with b := x, si := islandReset s.b.refclk s.b.elapsed } ∧
    x.boot.por = true ∧ x.started = false ∧ x.out.slots = [] ∧ x.out.mem = s.b.out.mem ∧ x.engs = [] ∧ x.cfg = [] ∧ x.elapsed = s.b.elapsed ∧
    (s.b.boot.op = none → x.boot.nvm = s.b.boot.nvm) ∧ x.mgmt.log = s.b.mgmt.log ∧ x.mgmt.counters = [] ∧
    ∀ off, isOut off = false → off ∉ [Reg.clkRefclkLosses, Reg.clkSupplyState, Reg.clkFlags, Reg.clkState] →
      off / 0x20 ≠ Reg.dioIn 0 / 0x20 → x.rd off = regReset off) ∧
  (∀ (s : State) (cause : Nat), s.b.boot.restartBy = some cause → s.b.mgmt.refRestored = none → s.b.boot.op = none →
    ∃ x : Block, exec .coldRestartReset s = .next { s with b := x, si := islandReset s.b.refclk s.b.elapsed } ∧
      x.boot.por = false ∧ x.dev = dsBoot ∧ x.fld Reg.sysState 16 8 = cause % 256 ∧ x.boot.t0 = s.b.elapsed ∧ x.boot.milestone = 0 ∧
      x.boot.nvm = s.b.boot.nvm ∧ x.out.mem = s.b.out.mem ∧ x.mgmt.counters = s.b.mgmt.counters ∧ x.engs = []) ∧
  (∀ s : State, s.b.boot.restartBy = none → exec .coldRestartReset s = .next s) ∧
  (∀ (s : State) (ok panel test : Bool), s.b.boot.por = true →
    ∃ x : Block, exec (.porNRelease ok panel test) s = .next { s with b := x, si := islandReset ok s.b.elapsed } ∧
      x.boot.por = false ∧ x.refclk = ok ∧ x.boot.waitRefclk = !ok ∧ x.boot.t0 = s.b.elapsed ∧ x.boot.testHold = test ∧
      x.fld Reg.sysState 16 8 = 1 ∧ x.bit Reg.clkState 0 = ok ∧ x.rdN Reg.sysPanel = (if panel then 3 else 0)) ∧
  (∀ s : State, s.b.boot.waitRefclk = true → s.b.boot.por = false →
    let b : Block := { s.b with refclk := true, boot := { s.b.boot with waitRefclk := false, t0 := s.b.elapsed, milestone := 0 } }
    exec .refclkValidAtBoot s = .next { s with
      b := (b.setFld Reg.clkState 0 1 1).setFld Reg.clkState 5 1 0, si := { s.si with refSince := s.b.elapsed } })

/-- 03 R50, R62–R66: the points of a cold start, each from the one before: fuses at t1, the NVM and the selection record at t2 (a trial
already tried falls back), header checks at t3, the image stream at t5, the signature at t6, INIT outputs at t7, the engines at t9,
AWAIT_WORLD at t10. A failed check tries the other slot and then fails the device. 03 R62–R65: the first failed slot's reason is shown and
the other slot is checked next from t2; when both fail the device fails, but for two slots that both want a key, which leave IMAGE_CHECK
open. -/
def Obligations.ColdStartPassesItsPoints : Prop :=
  (∀ (s : State) (err : Bool), s.b.atPoint dsBoot 0 = true → 
    let b : Block := { s.b with boot := { s.b.boot with keyReadError := err } }
    Gives s (.fusesRead err) ((((b.showFuses s.fuses).setFld Reg.clkState 1 4 0xF).driveSrc srcClockLoss false).setPoint 1)) ∧
  (∀ s : State, s.b.atPoint dsBoot 1 = true →
    (∃ x, Gives s (.nvmDiscovered false) x ∧ x.dev = dsFailed ∧ x.fld Reg.sysState 8 8 = rsNvm) ∧
    (∃ x, Gives s (.nvmDiscovered true) x ∧ x.dev = dsImageCheck ∧ x.boot.milestone = 2 ∧
      x.boot.checking = (if s.b.selNow.1.trial && s.b.selNow.1.tried then 1 - s.b.selNow.1.slot else s.b.selNow.1.slot) ∧
      x.boot.other = false)) ∧
  (∀ s : State, s.b.checkingAt 2 = true →
    let r := s.b.headerReason s.fuses s.b.boot.checking
    Gives s .headerRead (if r = 0 then s.b.setPoint 3 else s.b.failSlot r false)) ∧
  (∀ (s : State) (tb : ImageTables), s.b.checkingAt 3 = true →
    let r := s.b.streamReason s.b.boot.checking tb
    Gives s (.imageStreamEnd tb) (if r = 0 then ({ s.b with boot := { s.b.boot with streamed := some tb } } : Block).setPoint 5 else s.b.failSlot r true)) ∧
  (∀ s : State, s.b.checkingAt 2 = true → Gives s .nvmReadError (s.b.failSlot rsNvm false)) ∧
  (∀ s : State, s.b.checkingAt 3 = true → Gives s .nvmReadError (s.b.failSlot rsNvm true)) ∧
  (∀ s : State, s.b.checkingAt 5 = true →
    let n := s.b.boot.checking
    (s.b.signatureReason n ≠ 0 → Gives s .signatureVerified (s.b.failSlot (s.b.signatureReason n) true)) ∧
    (s.b.signatureReason n = 0 → ∃ x : Block, exec .signatureVerified s = .next { s with b := x, si := { s.si with
        passed := x.saf.inForce, count := x.saf.count } } ∧ x.boot.milestone = 6 ∧ x.bankB = [] ∧
      x.cfg = tabOf (s.b.boot.streamed.getD {}).fixed ∧ x.bankA = tabOf (s.b.boot.streamed.getD {}).banked ∧ x.saf.inForce = x.fix tSafety 0)) ∧
  (∀ s : State, s.b.checkingAt 6 = true → ∃ x, Gives s .outputsInit x ∧
    x = (let b := (s.b.tripsInit.reelInit.setPoint 7).pairsInit.dioInit.anaInit.acqInit.axesInit.canInit.serInit.nodesInit.seqInit.ledgerInit
         let b := (entsOf b.cfg tChamber).foldl (fun (b : Block) p => b.setFld (Reg.wldChamber p.1) 1 1 1) b
         ({ b with mgmt := { b.mgmt with firmware := true } } : Block).outputsInit.armTrips)) ∧
  (∀ (s : State) (bad : List (Fin 40)), s.b.checkingAt 7 = true → ∃ x, Gives s (.enginesSelfTested bad) x ∧
    (let b := (s.b.wrN Reg.engSramSplit (u32 (s.b.fix tImage 0) 0 % 2 ^ 24)).traceInit.enginesInit.setPoint 9
     let ts := ((entsOf b.cfg tThread).map (·.1)).filter fun t => b.thUsed t && b.isService t
     x = bad.foldl (fun (b : Block) e => if egWatched (b.egState e.val) then b.fence e.val 4 b.now true else b)
       (ts.foldl (fun (b : Block) t => b.enableThread t) b))) ∧
  (∀ s : State, s.b.checkingAt 9 = true → ∃ x : Block, Gives s .awaitWorldEntry ((x.setDev dsAwaitWorld).serviceBack) ∧
    x.boot.milestone = 10 ∧ x.fld Reg.sysState 8 8 = 0 ∧ x.rdN Reg.sysStartUs = min 0xFFFFFFFF ((s.b.elapsed - s.b.boot.t0) / 1000)) ∧
  (∀ (b : Block) (r : Nat) (rd : Bool), b.boot.checking < 2 → r < 256 →
    (b.boot.other = false → (b.failSlot r rd).boot.checking = 1 - b.boot.checking ∧ (b.failSlot r rd).boot.other = true ∧
      (b.failSlot r rd).boot.milestone = 2 ∧ (b.failSlot r rd).boot.firstReason = r ∧ (b.failSlot r rd).fld Reg.sysState 8 8 = r ∧
      (b.failSlot r rd).dev = b.dev) ∧
    (b.boot.other = true → b.boot.firstReason = rsNoKey → r = rsNoKey → (b.failSlot r rd).boot.checking = noSlot ∧ (b.failSlot r rd).dev = b.dev) ∧
    (b.boot.other = true → ¬(b.boot.firstReason = rsNoKey ∧ r = rsNoKey) → (b.failSlot r rd).dev = dsFailed))

/-- 03 R73–R78, R82: the SYS commands and the panel input. SYS.COLD_RESTART is accepted with every lane idle, or with FORCE;
SYS.SAFE_STOP_ALL aborts every lane and enters SAFE_STOP, during a continuity restart at its end; SYS.RESUME needs every lane stopped. A
short press asks for a continuity restart, a press held for 2 s for the safe stop, and at 10 s the input is stuck; in BOOT, IMAGE_CHECK and
FAILED presses are ignored. -/
def Obligations.SystemCommandsAndPanelComplete : Prop :=
  (∀ (s : State) (c : Cmd), Sent s.b c roleOperator devAll → cObj c = 0 →
    ((u8 (cArg c) 0).testBit 0 = true ∨ s.b.lanesIn [lsRunning, lsHeld] = false → Completes s (.sysColdRestart c) 0x0001 c
      { s.b with boot := { s.b.boot with restartBy := some (if issuerIsHost c.issuer then 2 else 3) } } stDone) ∧
    ((u8 (cArg c) 0).testBit 0 = false → s.b.lanesIn [lsRunning, lsHeld] = true →
      Completes s (.sysColdRestart c) 0x0001 c s.b stConflict 0x01)) ∧
  (∀ (s : State) (c : Cmd), Sent s.b c roleOperator [dsOperational, dsRestart] → cObj c = 0 →
    let b := (List.range 16).foldl (fun (b : Block) n => b.lnAbort n) s.b
    Completes s (.sysSafeStopAll c) 0x0002 c (if b.dev = dsRestart then { b with boot := { b.boot with stopAfterRestart := true } }
      else b.setDev dsSafeStop) stDone) ∧
  (∀ (s : State) (c : Cmd), Sent s.b c roleOperator [dsSafeStop] → cObj c = 0 →
    (s.b.lanesIn [lsAborting, lsRunning, lsHeld] = false →
      Completes s (.sysResume c) 0x0003 c (s.b.setFld Reg.sysState 0 8 dsOperational) stDone) ∧
    (s.b.lanesIn [lsAborting, lsRunning, lsHeld] = true → Completes s (.sysResume c) 0x0003 c s.b stConflict 0x01)) ∧
  (∀ s : State, s.b.boot.por = false → s.b.bit Reg.sysPanel 0 = false → s.b.bit Reg.sysPanel 1 = false →
    ∃ x, Gives s .panelPress x ∧ x.bit Reg.sysPanel 0 = true ∧ x.boot.panelLow = s.b.elapsed - 20000000 ∧
      x.boot.panelLong = false) ∧
  (∀ s : State, s.b.pressed = true → s.b.boot.panelLong = false →
    let b := s.b.setFld Reg.sysPanel 0 1 0
    (s.b.panelIgnored = true → Gives s .panelShortPress (b.raise Reg.sysPanelFlags 3)) ∧
    (s.b.panelIgnored = false → s.b.dev ≠ dsRestart →
      Gives s .panelShortPress ((b.raise Reg.sysPanelFlags 0).beginRestart 3 false none)) ∧
    (s.b.dev = dsRestart → Gives s .panelShortPress ((b.raise Reg.sysPanelFlags 0).panelRefused 0x0901))) ∧
  (∀ s : State, s.b.pressed = true → s.b.boot.panelLong = false → s.b.boot.panelLow + 2000000000 ≤ s.b.elapsed →
    let b : Block := { s.b with boot := { s.b.boot with panelLong := true } }
    (s.b.panelIgnored = true → Gives s .panelLongPress (b.raise Reg.sysPanelFlags 3)) ∧
    (s.b.dev = dsOperational ∨ s.b.dev = dsRestart →
      Gives s .panelLongPress ((b.raise Reg.sysPanelFlags 1).safeStopAll)) ∧
    (s.b.dev = dsAwaitWorld ∨ s.b.dev = dsSafeStop →
      Gives s .panelLongPress ((b.raise Reg.sysPanelFlags 1).panelRefused 0x0002))) ∧
  (∀ s : State, s.b.pressed = true → s.b.boot.panelLong = true →
    Gives s .panelLongRelease (s.b.setFld Reg.sysPanel 0 1 0)) ∧
  (∀ s : State, s.b.pressed = true → s.b.boot.panelLow + 10000000000 ≤ s.b.elapsed →
    Does s .panelStuck ((s.b.setFld Reg.sysPanel 1 1 1).setFlag Reg.sysPanelFlags 2)) ∧
  (∀ s : State, s.b.bit Reg.sysPanel 1 = true → ∃ x, Gives s .panelUnstuck x ∧ x.bit Reg.sysPanel 0 = false ∧
    x.bit Reg.sysPanel 1 = false)

/-- 22 R501–R503, 01 R22: clocks. A present REFCLK that is lost clears VALID and sets LOSS, counts and flags it, makes CLOCK_LOSS active,
resets the PCIe side and the island sees it; restored, the MI asks for the cold restart; a PLL that unlocks shows it and its domain's
effect, one that relocks lets the records that waited go to the reel. 22 R504–R509: supplies and temperature. Each rail outside its
tolerance shows its bit, and its crossing sets CLK.FLAGS; VDDIO of the island takes it to its safe state; a brown-out and a shutdown
temperature reset the controller; WARN and LIMIT appear at their thresholds and leave below them by the hysteresis; TEMP_MAX keeps the
highest reading. -/
def Obligations.ClockSupplyAndThermalEventsComplete : Prop :=
  (∀ s : State, s.b.refPresent = true → ∃ x : Block, exec .refclkLost s = .next { s with b := x, si := { s.si with refLost := true } } ∧
    x.refclk = false ∧ x.bit Reg.clkState 0 = false ∧ x.bit Reg.clkState 5 = true ∧ x.bit Reg.clkFlags 0 = true ∧
    x.rdN Reg.clkRefclkLosses = (s.b.rdN Reg.clkRefclkLosses + 1) % 2 ^ 32 ∧ x.mgmt.refRestored = none ∧ x.dev = s.b.dev ∧
    (s.b.dev = dsBoot → x.boot.waitRefclk = true ∧ x.boot.milestone = 0)) ∧
  (∀ s : State, s.b.refPresent = false → exec .refclkLost s = .next s) ∧
  (∀ s : State, s.b.refclk = false → s.b.boot.por = false → s.b.boot.waitRefclk = false → s.b.mgmt.refRestored = none →
    ∃ x : Block, exec .refclkRestored s = .next { s with b := x, si := { s.si with refSince := s.b.elapsed - 2000000 } } ∧
      x.boot.restartBy = some 3 ∧ x.mgmt.refRestored = some s.b.elapsed ∧ x.bit Reg.clkState 0 = true ∧ x.bit Reg.clkState 5 = false ∧
      x.refclk = false) ∧
  (∀ (s : State) (p : Fin 4), s.b.boot.por = false → s.b.bit Reg.clkState (1 + p.val) = true →
    let b := (s.b.setFld Reg.clkState (1 + p.val) 1 0).raisePost Reg.clkFlags 1
    exec (.pllUnlock p) s = .next (match p.val with
      | 0 => ({ s with b := b } : State).loseRef
      | 1 => { s with b := b.onOut fun o => { o with rcd := { o.rcd with ddrDown := true } } }
      | 2 => { s with b := (b.onOut (·.pcieReset)).emit (.flag Reg.hstFlags 0 false []) }
      | _ => { s with b := (b.portDown 0).portDown 1 })) ∧
  (∀ (s : State) (p : Fin 4), s.b.boot.por = false → s.b.bit Reg.clkState (1 + p.val) = false →
    Does s (.pllRelock p) (s.b.setFld Reg.clkState (1 + p.val) 1 1) ∧
    (p.val = 1 → ∃ x : Block, Gives s (.pllRelock p) x ∧
      x = s.b.out.rcd.waitRecs.foldl (fun (b : Block) r => b.emit (.write r))
        ((s.b.setFld Reg.clkState 2 1 1).onOut fun o => { o with rcd := { o.rcd with ddrDown := false, waitRecs := [] } }))) ∧
  (∀ (s : State) (g : Fin 4) (w : Fin 3), s.b.started = true → ∃ x, Gives s (.pcieLinkUp g w) x ∧
    x.fld Reg.hstState 0 2 = g.val ∧ x.fld Reg.hstState 2 3 = 2 ^ w.val ∧ x.fld Reg.hstState 5 27 = s.b.fld Reg.hstState 5 27) ∧
  (∀ (s : State) (mv : List Nat), s.b.boot.por = false →
    let bad := (List.range 11).filter fun v => !s.b.railOk v (mv.getD v 0)
    ∃ (x : Block) (t : State), exec (.supplyEvaluation mv) s = .next t ∧
      (∀ v, v < 11 → x.bit Reg.clkSupplyState v = bad.contains v) ∧
      ((∃ v ∈ bad, s.b.bit Reg.clkSupplyState v = false) → x.bit Reg.clkFlags 4 = true) ∧
      (∀ off, isOut off = false → off ∉ [Reg.clkSupplyState, Reg.clkFlags, Reg.clkFlags + 4] → off / 0x100000 ≠ 0x15 → x.rd off = s.b.rd off) ∧
      (bad.contains 3 = true → s.b.bit Reg.clkSupplyState 3 = false → t = ({ s with b := x } : State).siTo (s.si.toSafe 3) false) ∧
      (bad.contains 3 = false ∨ s.b.bit Reg.clkSupplyState 3 = true → t = { s with b := x })) ∧
  (∀ (s : State) (ini : Ini) (v : Word) (r : RegRow), Reaches s.b ini Reg.clkTempCfg r false → r.wide = false →
    let l := field v.toNat 16 8
    let w := field v.toNat 8 8
    let h := field v.toNat 0 4
    (85 ≤ w ∧ w ≤ 115 ∧ w + 5 ≤ l ∧ l ≤ 130 ∧ 1 ≤ h →
      Gives s (.tempCfgWrite ini v) (s.b.wrN Reg.clkTempCfg (h + 256 * w + 65536 * l))) ∧
    (¬(85 ≤ w ∧ w ≤ 115 ∧ w + 5 ≤ l ∧ l ≤ 130 ∧ 1 ≤ h) → Gives s (.tempCfgWrite ini v) (s.b.refuseWrite ini))) ∧
  (∀ s : State, s.b.boot.por = false → exec .brownout s = .next { s.coldRestart 3 0 with
    b := (s.coldRestart 3 0).b.raise Reg.clkFlags 5 }) ∧
  (∀ s : State, ∃ x : Block, exec .vddAonLow s = .next { s.porAssert with b := x } ∧ x.boot.por = true ∧ x.rdN Reg.clkFlags = 0 ∧
    x.rdN Reg.clkRefclkLosses = 0 ∧ x.mgmt.log = s.b.mgmt.nvmLog.map (fun (e : LogEntry) => { e with fromNvm := true }) ∧
    x.mgmt.thermalHold = false) ∧
  (∀ (s : State) (ts : List Int), s.b.boot.por = false → ts ≠ [] → s.b.mgmt.thermalHold = false →
    ((∀ t ∈ ts, t < 1120) → Gives s (.thermalEvaluation ts) ((s.b.tempMax ts).thermalSteps ts)) ∧
    ((∃ t ∈ ts, 1120 ≤ t) → ∃ x : Block, exec (.thermalEvaluation ts) s = .next { s with b := x, si := islandReset x.refclk x.elapsed } ∧
      x.mgmt.thermalHold = true ∧ x.dev = dsBoot ∧ x.fld Reg.sysState 16 8 = 3)) ∧
  (∀ (s : State) (ts : List Int), s.b.boot.por = false → ts ≠ [] → s.b.mgmt.thermalHold = true →
    ((∀ t ∈ ts, t < 960) → ∃ x : Block, exec (.thermalEvaluation ts) s = .next { s with b := x, si := islandReset x.refclk x.elapsed } ∧
      x.mgmt.thermalHold = false ∧ x.boot.t0 = s.b.elapsed) ∧
    ((∃ t ∈ ts, 960 ≤ t) → exec (.thermalEvaluation ts) s = .next s)) ∧
  (∀ (b : Block) (ts : List Int), ts ≠ [] →
    let cfg := b.rdN Reg.clkTempCfg
    let x := b.thermalSteps ts
    x.bit Reg.clkState 6 = thermalOn (b.bit Reg.clkState 6) ts (field cfg 8 8) (field cfg 0 4) ∧
    x.bit Reg.clkState 7 = thermalOn (b.bit Reg.clkState 7) ts (field cfg 16 8) (field cfg 0 4))

/-- 21 R493, R496: at its last count an engine counter wraps, to RELOAD with RELOAD_EN, and counts the wrap; a precise sample may then skid
to the next retirement; with none within 32 cycles the samples that wait are taken. Writes of a PRF counter stage and set both halves. -/
def Obligations.PerformanceCountersWrap : Prop :=
  (∀ (s : State) (e : Fin 40) (i : Fin 8), s.b.rd64 (Reg.prfEngCtr e.val i.val) = 2 ^ 48 - 1 →
    let r := s.b.prfOne e.val i.val 1
    (r.2 = none → Gives s (.counterWrap e i) (r.1)) ∧
    (∀ o, r.2 = some o → Gives s (.counterWrap e i) (r.1.putEng e.val { r.1.eng e.val with skids := tput (r.1.eng e.val).skids i.val o }))) ∧
  (∀ (s : State) (e : Fin 40) (i : Fin 8), s.b.rd64 (Reg.prfEngCtr e.val i.val) ≠ 2 ^ 48 - 1 → exec (.counterWrap e i) s = .next s) ∧
  (∀ (s : State) (e : Fin 40), ∃ x, Gives s (.skidSample e) x ∧ (x.eng e.val).skids = [] ∧
    Reports { s.b with engs := x.engs } x) ∧
  (∀ v n r : Nat, v < 2 ^ 48 → (prfAdd v n r).1 < 2 ^ 48 ∧ (v + n < 2 ^ 48 → prfAdd v n r = (v + n, 0)) ∧
    (2 ^ 48 ≤ v + n → v + n < 2 ^ 48 + (2 ^ 48 - r % 2 ^ 48) → prfAdd v n r = (r % 2 ^ 48 + (v + n - 2 ^ 48), 1))) ∧
  (∀ (s : State) (ini : Ini) (e i : Nat) (lo : Word) (r : RegRow), e < 40 → i < 8 → Reaches s.b ini (Reg.prfEngCtr e i) r false → r.wide = true →
    let off := Reg.prfEngCtr e i
    let hi := (tget? s.b.staging (stageKey ini off)).getD (s.b.regNow (off + 4))
    ∃ x, Gives s (.prfCounterWrite ini false e i lo) x ∧ x.rd off = lo ∧ x.rdN (off + 4) = hi.toNat % 65536 ∧
      x.bit (Reg.prfEngCfg e i) 31 = false ∧ x.staging = tdel s.b.staging (stageKey ini off)) ∧
  (∀ (s : State) (ini : Ini) (i : Nat) (lo : Word) (r : RegRow), i < 32 → Reaches s.b ini (Reg.prfBlkCtr i) r false → r.wide = true →
    let off := Reg.prfBlkCtr i
    let hi := (tget? s.b.staging (stageKey ini off)).getD (s.b.regNow (off + 4))
    ∃ x, Gives s (.prfCounterWrite ini true 0 i lo) x ∧ x.rd off = lo ∧ x.rdN (off + 4) = hi.toNat % 65536 ∧
      x.bit (Reg.prfBlkCfg i) 31 = false)

/-- 03 R62, R79, R80, R83: slots. A write needs another slot than the running one and an idle NVM, unverifies the slot and puts its data in
place when it ends; a verification shows and answers the slot's check, with BUILD_ID and ROLLBACK when it passes; STAGE is answered QUEUED,
then DONE with the staged tables, or IMAGE with the reason; one operation at a time. 03 R64, R66, R79, R81: selection and fuses. SELECT of a
verified slot writes the other record with the next sequence number; CONFIRM ends a trial; ADVANCE_ROLLBACK fuses a higher count, of a
running image that carries it; FUSE_KEY programs the hash once, in IMAGE_CHECK for want of a key. -/
def Obligations.SlotsSelectionAndFusesComplete : Prop :=
  (∀ (s : State) (c : Cmd), Sent s.b c roleMaintainer devAll → cObj c = 0 → cExt c = true →
    let a := cArg c
    let n := u8 a 0
    n ≤ 1 → u32 a 8 = (a.drop 12).length → u32 a 4 + u32 a 8 ≤ slotSize →
    let w : Block := (s.b.wrN (Reg.imgSlotStatus n) 0).putOp (some { kind := 1, slot := n, offset := u32 a 4, op := opOf c 0x0201 (a.drop 12) })
    (s.b.runningSlot ≠ some n → s.b.boot.op = none → Gives s (.imgSlotWrite c) (w)) ∧
    (s.b.runningSlot = some n → Completes s (.imgSlotWrite c) 0x0201 c s.b stConflict 0x02) ∧
    (s.b.runningSlot ≠ some n → s.b.boot.op ≠ none → Completes s (.imgSlotWrite c) 0x0201 c s.b stBusy)) ∧
  (∀ (s : State) (o : NvmOp), s.b.boot.op = some o → o.kind = 1 →
    let w : Block := { s.b with boot := { s.b.boot with nvm := mwrite s.b.boot.nvm (slotBase o.slot + o.offset) o.op.data, op := none } }
    Gives s (.slotWriteDone true) (w.settle o.op false stDone) ∧
    Gives s (.slotWriteDone false) (s.b.breakWrite.settle o.op false stInternal)) ∧
  (∀ (s : State) (c : Cmd), Sent s.b c roleObserver devAll → cObj c = 0 → u8 (cArg c) 0 ≤ 1 →
    (s.b.boot.op = none → Gives s (.imgSlotVerify c) (s.b.putOp (some { kind := 2, slot := u8 (cArg c) 0, op := opOf c 0x0202 }))) ∧
    (s.b.boot.op ≠ none → Completes s (.imgSlotVerify c) 0x0202 c s.b stBusy)) ∧
  (∀ (s : State) (o : NvmOp) (ok : Bool) (im : ImageTables), s.b.boot.op = some o → o.kind = 2 →
    let r := (s.b.putOp none).checkSlot s.fuses o.slot ok im
    let h := s.b.slotHeader o.slot
    (r.2 = 0 → Gives s (.slotVerifyDone ok im) (r.1.settle o.op false stDone 0 (slice h 32 32 ++ leBytes 1 (hdRollback h)))) ∧
    (r.2 ≠ 0 → Gives s (.slotVerifyDone ok im) (r.1.settle o.op false stImage r.2))) ∧
  (∀ (s : State) (c : Cmd), Sent s.b c roleMaintainer [dsAwaitWorld, dsOperational, dsSafeStop] → cObj c = 0 → u8 (cArg c) 0 ≤ 1 →
    (s.b.boot.op = none → Completes s (.imgStage c) 0x0205 c
      (({ s.b with boot := { s.b.boot with staged := none } } : Block).wrN Reg.imgStage 1 |>.putOp
        (some { kind := 3, slot := u8 (cArg c) 0, op := opOf c 0x0205 })) stQueued) ∧
    (s.b.boot.op ≠ none → Completes s (.imgStage c) 0x0205 c s.b stBusy)) ∧
  (∀ (s : State) (o : NvmOp) (ok : Bool) (im : ImageTables), s.b.boot.op = some o → o.kind = 3 →
    let q := (s.b.putOp none).checkSlot s.fuses o.slot ok im
    (q.2 = 0 → q.1.sameFixed o.slot = true → Gives s (.stageDone ok im) ((({ q.1 with boot := { q.1.boot with staged := some im, stagedSlot := o.slot } } : Block).wrN Reg.imgStage
        (2 + 256 * hdRollback (q.1.slotHeader o.slot))).settle o.op true stDone)) ∧
    (q.2 = 0 → q.1.sameFixed o.slot = false → Gives s (.stageDone ok im) (((q.1.wrN Reg.imgStage 3).raise Reg.imgFlags 3).settle o.op true stImage rsMismatch)) ∧
    (q.2 ≠ 0 → Gives s (.stageDone ok im) (((q.1.wrN Reg.imgStage 3).raise Reg.imgFlags 3).settle o.op true stImage q.2))) ∧
  (∀ (s : State) (c : Cmd), Sent s.b c roleMaintainer devAll → cObj c = 0 → u8 (cArg c) 0 ≤ 1 →
    (s.b.verified (u8 (cArg c) 0) = true → s.b.boot.op = none →
      Completes s (.imgSelect c) 0x0203 c (s.b.selWrite (u8 (cArg c) 0) ((u8 (cArg c) 1).testBit 0) false) stDone) ∧
    (s.b.verified (u8 (cArg c) 0) = false → Completes s (.imgSelect c) 0x0203 c s.b stConflict 0x03)) ∧
  (∀ (b : Block) (n : Nat) (t u : Bool),
    (b.selWrite n t u).selNow.1 = { ok := true, seq := (b.selNow.1.seq + 1) % 65536, slot := n, trial := t, tried := u } ∧
    (b.selWrite n t u).selNow.2 = !b.selNow.2) ∧
  (∀ (s : State) (c : Cmd), Sent s.b c roleMaintainer devRun → cObj c = 0 →
    (s.b.selNow.1.trial = true → Completes s (.imgConfirm c) 0x0204 c (s.b.selWrite s.b.selNow.1.slot false false) stDone) ∧
    (s.b.selNow.1.trial = false → Completes s (.imgConfirm c) 0x0204 c s.b stConflict 0x04)) ∧
  (∀ (s : State) (c : Cmd) (vpp ok : Bool), authCheck c roleMaintainer true = none → devCheck s.b devRun = none → envCheck c = none → cObj c = 0 →
    let n := u8 (cArg c) 0
    (s.fuses.rollback ≤ n → vpp = true → n ≤ s.b.fld Reg.imgRunning 8 8 → n ≤ 64 → ok = true →
      ∃ x, exec (.imgAdvanceRollback c vpp ok) s = .next { s with fuses := { s.fuses with rollback := n }, b := x } ∧
        Reports (s.b.showFuses { s.fuses with rollback := n }) x ∧ (Owed s.b → Answered s.b.now x 0x020A c stDone 0 [])) ∧
    (s.fuses.rollback ≤ n → vpp = true → n ≤ s.b.fld Reg.imgRunning 8 8 → n ≤ 64 → ok = false →
      ∃ (x : Block) (m : Nat), exec (.imgAdvanceRollback c vpp ok) s = .next { s with fuses := { s.fuses with rollback := m }, b := x } ∧
        s.fuses.rollback ≤ m ∧ m ≤ n ∧ (Owed s.b → Answered s.b.now x 0x020A c stInternal 0 [])) ∧
    (n < s.fuses.rollback → Completes s (.imgAdvanceRollback c vpp ok) 0x020A c s.b stBadArg) ∧
    (s.fuses.rollback ≤ n → vpp = false → Completes s (.imgAdvanceRollback c vpp ok) 0x020A c s.b stConflict 0x05) ∧
    (s.fuses.rollback ≤ n → vpp = true → s.b.fld Reg.imgRunning 8 8 < n → Completes s (.imgAdvanceRollback c vpp ok) 0x020A c s.b stLimit)) ∧
  (∀ (s : State) (c : Cmd) (vpp ok : Bool), Sent s.b c roleMaintainer [dsImageCheck] → cObj c = 0 →
    (s.b.fld Reg.sysState 8 8 = rsNoKey → s.fuses.keyHash = [] → vpp = true → ok = true →
      ∃ x, exec (.imgFuseKey c vpp ok) s = .next { s with fuses := { s.fuses with keyHash := padTo 48 (cArg c), keyDev := false }, b := x } ∧
        Reports s.b x ∧ (Owed s.b → Answered s.b.now x 0x020B c stDone 0 [])) ∧
    (s.b.fld Reg.sysState 8 8 ≠ rsNoKey ∨ s.fuses.keyHash ≠ [] → Completes s (.imgFuseKey c vpp ok) 0x020B c s.b stConflict 0))

/-- 03 R68–R71, R528: table banks. COPY fills the inactive bank from the active one and opens it; WRITE sets entries while it is open and
refuses one outside its field table; CLOSE needs the bank's CRC and relations; SWAP of a closed bank waits for its time, and then the active
bank changes and the counter counts, unless a lane's recipe is missing in it. -/
def Obligations.TableBanksOpenCloseAndSwap : Prop :=
  (∀ (s : State) (c : Cmd), Sent s.b c roleOperator devRun → cObj c = 0 →
    (s.b.bankState ≠ bkPending → Completes s (.imgBankCopy c) 0x0206 c ((s.b.setIdleBank s.b.bank).setBankState bkOpen).showBankCrc stDone) ∧
    (s.b.bankState = bkPending → Completes s (.imgBankCopy c) 0x0206 c s.b stConflict)) ∧
  (∀ (s : State) (c : Cmd) (len cap : Nat), Sent s.b c roleOperator devRun → cObj c = 0 → cExt c = true →
    let k := u16 (cArg c) 0
    let i := u32 (cArg c) 4
    let d := (cArg c).drop 8
    let es := bankEntries k i len d
    tableSize k = some (len, cap) →
    (d ≠ [] → (d.length % len = 0 ∨ (k = tSerPart ∧ i < 16)) → i + es.length ≤ cap →
      ((es.zip (List.range es.length)).all fun p => entryOk k (i + p.2) p.1) = true →
      (s.b.bankState = bkOpen → Completes s (.imgBankWrite c) 0x0207 c
        (s.b.setIdleBank ((es.zip (List.range es.length)).foldl (fun (t : Tab (List Byte)) p => tput t (key k (i + p.2)) p.1)
          s.b.idleBank)).showBankCrc stDone) ∧
      (s.b.bankState ≠ bkOpen → Completes s (.imgBankWrite c) 0x0207 c s.b stConflict)) ∧
    (i + es.length ≤ cap → ((es.zip (List.range es.length)).all fun p => entryOk k (i + p.2) p.1) = false →
      Completes s (.imgBankWrite c) 0x0207 c s.b stBadArg) ∧
    (cap < i + es.length → s.b.bankState = bkOpen → Completes s (.imgBankWrite c) 0x0207 c s.b stNoSpace)) ∧
  (∀ (s : State) (c : Cmd), Sent s.b c roleOperator devRun → cObj c = 0 → s.b.bankState = bkOpen →
    (Config.bankCrc s.b.idleBank = w32 (cArg c) 0 → tablesRelOk s.b.idleBank = true → consRelOk s.b.idleBank = true →
      Completes s (.imgBankClose c) 0x0208 c (s.b.setBankState bkClosed) stDone) ∧
    (Config.bankCrc s.b.idleBank ≠ w32 (cArg c) 0 → Completes s (.imgBankClose c) 0x0208 c s.b stImage rsSectionCrc) ∧
    (Config.bankCrc s.b.idleBank = w32 (cArg c) 0 → (tablesRelOk s.b.idleBank && consRelOk s.b.idleBank) = false →
      Completes s (.imgBankClose c) 0x0208 c s.b stImage rsFormat)) ∧
  (∀ (s : State) (c : Cmd), Sent s.b c roleOperator devRun → cObj c = 0 →
    let t := u64 (cArg c) 0
    let w : Block := { s.b with boot := { s.b.boot with
      swapOp := some (opOf c 0x0209), swapAccepted := s.b.now, swapLate := decide (t < s.b.now + 2000) } }
    (s.b.bankState = bkClosed → s.b.recipeAbsent = false → Completes s (.imgBankSwap c) 0x0209 c
      ((w.wr64 Reg.imgSwapAt t).setBankState bkPending) stQueued) ∧
    (s.b.bankState ≠ bkClosed → Completes s (.imgBankSwap c) 0x0209 c s.b stConflict) ∧
    (s.b.bankState = bkClosed → s.b.recipeAbsent = true → Completes s (.imgBankSwap c) 0x0209 c s.b stConflict 0x01)) ∧
  (∀ (s : State) (o : ServiceOp), s.b.boot.swapOp = some o → s.b.bankState = bkPending → s.b.rd64 Reg.imgSwapAt ≤ s.b.now →
    (s.b.boot.swapLate = true → s.b.boot.swapAccepted < s.b.now) →
    let b0 : Block := { s.b with boot := { s.b.boot with swapOp := none } }
    (s.b.recipeAbsent = false → ∃ x : Block, Gives s .bankSwap x ∧ x.boot.swapOp = none ∧
      x.fld Reg.imgBank 0 1 = 1 - s.b.fld Reg.imgBank 0 1 ∧ x.bankState = bkOpen ∧ x.bankA = s.b.bankA ∧ x.bankB = s.b.bankB ∧
      x.fld Reg.imgBank 16 16 = (s.b.fld Reg.imgBank 16 16 + 1) % 65536) ∧
    (s.b.recipeAbsent = true → Gives s .bankSwap (((b0.setBankState bkClosed).raise Reg.imgFlags 2).settle o true stAbandoned 0x02)))

/-- 04 R94–R97, R103–R105: declaring. DECLARE keeps the document for the service engine and shows CHECKING; when the check ends its report
and counts are shown and answered, and a document without failures brings its world into force; REPORT and READ write into host memory, READ
only where the buffer holds it. -/
def Obligations.DeclarationsAreCheckedAndApplied : Prop :=
  (∀ (s : State) (c : Cmd), Sent s.b c roleOperator devLive → cObj c = 0 →
    let w : Block := { s.b with world := { s.b.world with checking := some (s.b.serviceOp c 0x0301 (cArg c)), report := [] } }
    (cExt c = true → s.b.world.checking = none → Gives s (.wldDeclare c) (w.setFld Reg.wldState 1 1 1)) ∧
    (cExt c = false → Completes s (.wldDeclare c) 0x0301 c s.b stBadArg 0x01) ∧
    (cExt c = true → s.b.world.checking ≠ none → Completes s (.wldDeclare c) 0x0301 c s.b stBusy)) ∧
  (∀ (s : State) (o : ServiceOp), s.b.world.checking = some o → s.b.serviceUp = true →
    let rep := s.b.checkWorld o.data
    let fails := rep.filter fun e => u8 e 3 == 1
    ∃ x, Gives s .declarationApply x ∧ x.world.checking = none ∧ x.world.report = rep.take 1024 ∧ x.bit Reg.wldState 1 = false ∧
      x.fld Reg.wldCheck 24 8 = min fails.length 255 ∧
      (fails = [] → x.fld Reg.wldCheck 0 8 = stDone ∧ Reports (({ s.b.worldInForce (dcEntries o.data) with world :=
        { (s.b.worldInForce (dcEntries o.data)).world with checking := none, report := rep.take 1024 } } : Block).setFld Reg.wldState 1 1 0
          |>.wrN Reg.wldCheck (65536 * min ((rep.take 1024).filter fun e => u8 e 3 == 0).length 255)) x) ∧
      (∀ f r, fails = f :: r → x.fld Reg.wldCheck 0 8 = worldStatus (u8 f 4) ∧ x.fld Reg.wldCheck 8 8 = u8 f 4 ∧
        x.rdN Reg.wldGeneration = s.b.rdN Reg.wldGeneration ∧ x.world.entries = s.b.world.entries ∧ x.world.nodes = s.b.world.nodes)) ∧
  (∀ s : State, s.b.serviceUp = false ∨ s.b.world.checking = none → exec .declarationApply s = .next s) ∧
  (∀ (s : State) (c : Cmd) (q : Fin 16), c.issuer = .host q → devCheck s.b devLive = none → envCheck c = none → cObj c = 0 →
    let es := s.b.world.report.take (u32 (cArg c) 8 / 16)
    Completes s (.wldReport c) 0x0302 c { s.b with out := { s.b.out with mem := mwrite s.b.out.mem (u64 (cArg c) 0) es.flatten } }
      stDone 0 (leBytes 4 es.length)) ∧
  (∀ (s : State) (c : Cmd) (q : Fin 16), c.issuer = .host q → devCheck s.b devWorld = none → envCheck c = none → cObj c = 0 →
    let doc := s.b.worldDoc
    (doc.length ≤ u32 (cArg c) 8 → Completes s (.wldRead c) 0x0303 c
      { s.b with out := { s.b.out with mem := mwrite s.b.out.mem (u64 (cArg c) 0) doc } } stDone 0
      (leBytes 4 doc.length ++ leBytes 4 (s.b.rdN Reg.wldGeneration))) ∧
    (u32 (cArg c) 8 < doc.length → Completes s (.wldRead c) 0x0303 c s.b stNoSpace)) ∧
  (∀ (s : State) (c : Cmd), authCheck c roleObserver = none → s.b.dev = dsAwaitWorld → s.b.refclk = true →
    Completes s (.wldRead c) 0x0303 c s.b stConflict 0x02)

/-- 04 R98–R102, R104, R105, 17 R413: nodes. A node that is silent for its timeout is DEAD and its automatic spare takes over; REPLACE takes
a present spare; RESTORE makes a retired node DECLARED as the spare of the one that acts for it. A takeover leaves the old node RETIRED, the
new one PRESENT and counts a generation. -/
def Obligations.NodesDieAreReplacedAndRestored : Prop :=
  (∀ (s : State) (bus : Fin 8) (n : Fin 256),
    let x := s.b.node bus n
    let st := s.b.nodeState bus n
    let dead := s.b.setNode bus n ndDead
    (st = ndDeclared ∨ st = ndPresent ∨ st = ndSpare) → s.b.hasHeartbeat bus n = true → x.heard + s.b.nodeTimeout bus n ≤ s.b.now →
    (∀ m, dead.spareOf bus n = some m → dead.nodeState bus m = ndSpare → (dead.node bus m).auto = true →
      Gives s (.nodeDead bus n) (dead.takeOver bus n m)) ∧
    (dead.spareOf bus n = none → Gives s (.nodeDead bus n) (dead.raise Reg.wldFlags 4 (sidNode bus n)))) ∧
  (∀ (s : State) (bus : Fin 8) (n : Fin 256), s.b.now < (s.b.node bus n).heard + s.b.nodeTimeout bus n →
    exec (.nodeDead bus n) s = .next s) ∧
  (∀ (s : State) (c : Cmd), Sent s.b c roleOperator devWorld → isNodeSid (cObj c) = true →
    let bus := nodeBus (cObj c)
    let n := nodeNum (cObj c)
    let sp := u24 (cArg c) 0
    let st := s.b.nodeState bus n
    s.b.nodeDefined bus n = true → isNodeSid sp = true → s.b.nodeDefined (nodeBus sp) (nodeNum sp) = true →
    (st = ndDeclared ∨ st = ndPresent ∨ st = ndDead → nodeBus sp = bus → s.b.nodeState bus (nodeNum sp) = ndSpare →
      (s.b.node bus (nodeNum sp)).standsFor = cObj c → Completes s (.wldReplace c) 0x0304 c (s.b.takeOver bus n (nodeNum sp)) stDone) ∧
    (st = ndRetired → Completes s (.wldReplace c) 0x0304 c s.b stConflict 0x01)) ∧
  (∀ (s : State) (c : Cmd), Sent s.b c roleOperator devWorld → isNodeSid (cObj c) = true →
    let bus := nodeBus (cObj c)
    let n := nodeNum (cObj c)
    s.b.nodeDefined bus n = true →
    (s.b.nodeState bus n = ndRetired → ∃ x, Gives s (.wldRestore c) x ∧ x.nodeState bus n = ndDeclared ∧
      (x.node bus n).standsFor = sidNode bus (s.b.fld (Reg.wldNode bus n) 16 8) ∧ (x.node bus n).heard = s.b.now ∧
      x.rdN Reg.wldGeneration = s.b.nextGen ∧ (Owed s.b → Answered s.b.now x 0x0305 c stDone 0 [])) ∧
    (s.b.nodeState bus n ≠ ndRetired → Completes s (.wldRestore c) 0x0305 c s.b stConflict)) ∧
  (∀ (b : Block) (bus n m : Nat), bus < 8 → n < 256 → m < 256 → n ≠ m →
    let x := b.takeOver bus n m
    x.nodeState bus n = ndRetired ∧ x.nodeState bus m = ndPresent ∧ x.fld (Reg.wldNode bus n) 16 8 = m ∧ x.fld (Reg.wldNode bus m) 16 8 = n ∧
    x.rdN Reg.wldGeneration = b.nextGen ∧ x.rd64 Reg.wldAppliedAt = b.now % 2 ^ 64 ∧ (x.node bus m).standsFor = 0 ∧ x.bit Reg.wldFlags 3 = true)

/-- 05 R135, R137, R138: what the lane commands do where they are legal: LOAD and VALIDATE hand their check to a service engine; UNLOAD
empties a LOADED lane; START sets its run, wafer and start time, late ones two microseconds too near; HOLD and RELEASE set and clear HOST;
ABORT stops safely; CLEAR empties a lane that is SAFE or FAULTED; SM_POST queues an event. -/
def Obligations.LaneCommandsComplete : Prop :=
  (∀ (s : State) (c : Cmd) (n : Fin 16), cObj c = sidLane n → Sent s.b c roleOperator [dsOperational, dsRestart] → s.b.lnState n = lsIdle →
    ((s.b.ln n).check = none → Gives s (.seqLoad c) (s.b.putLn n { s.b.ln n with
      check := some (s.b.serviceOp c 0x0401 (cArg c)), checkSid := u24 (cArg c) 0, checkBank := false })) ∧
    ((s.b.ln n).check ≠ none → Completes s (.seqLoad c) 0x0401 c s.b stBusy)) ∧
  (∀ (s : State) (c : Cmd) (n : Fin 16), cObj c = sidLane n → Sent s.b c roleOperator [dsOperational, dsRestart] → s.b.lnState n ≠ lsIdle →
    Completes s (.seqLoad c) 0x0401 c s.b stConflict) ∧
  (∀ (s : State) (c : Cmd) (n : Fin 16), cObj c = sidLane n → Sent s.b c roleObserver devWorld → u8 (cArg c) 3 ≤ 1 →
    (s.b.ln n).check = none → Gives s (.seqValidate c) (s.b.putLn n { s.b.ln n with
      check := some (s.b.serviceOp c 0x0409 (cArg c)), checkSid := u24 (cArg c) 0, checkBank := u8 (cArg c) 3 == 1 })) ∧
  (∀ (s : State) (c : Cmd) (n : Fin 16), cObj c = sidLane n → Sent s.b c roleOperator devWorld →
    (s.b.lnState n = lsLoaded → Completes s (.seqUnload c) 0x0402 c ((s.b.abandonLane n 3).lnEnter n lsIdle) stDone) ∧
    (s.b.lnState n ≠ lsLoaded → Completes s (.seqUnload c) 0x0402 c s.b stConflict)) ∧
  (∀ (s : State) (c : Cmd) (n : Fin 16), cObj c = sidLane n → Sent s.b c roleOperator [dsOperational, dsRestart] → s.b.lnState n = lsLoaded →
    let a := cArg c
    let t := u64 a 0
    u16 a 24 < rcCount (s.b.lnHead n) → spFaultOnly (stepOf s.b.bank (s.b.lnHead n) (u16 a 24)) = false → (s.b.ln n).tReady = none →
    let set (at_ : Nat) : Block := (s.b.count (Reg.seqLaneRun n)).putLn n { s.b.ln n with
      tReady := none, wafer := slice a 8 16, startAt := some at_, startStep := u16 a 24 }
    (t = 0 → Completes s (.seqStart c) 0x0403 c (set s.b.now) stDone) ∧
    (s.b.now + 2000 ≤ t → Completes s (.seqStart c) 0x0403 c (set t) stDone) ∧
    (t ≠ 0 → t < s.b.now + 2000 →
      Completes s (.seqStart c) 0x0403 c (set (lateRun s.b.now t)) stDoneLate 0 (leBytes 4 (lateRun s.b.now t - t)))) ∧
  (∀ (s : State) (c : Cmd) (n : Fin 16), cObj c = sidLane n → Sent s.b c roleOperator devWorld →
    s.b.lnState n = lsRunning ∨ s.b.lnState n = lsHeld →
    (s.b.lnState n = lsHeld → (s.b.ln n).tReady = none → Completes s (.seqHold c) 0x0404 c ((s.b.hostOn n).refreshHold n) stDone) ∧
    (s.b.lnState n = lsRunning ∨ (s.b.ln n).tReady ≠ none →
      Completes s (.seqHold c) 0x0404 c (s.b.setFld (Reg.seqLaneState n) 12 1 1) stDone) ∧
    (s.b.lnState n = lsRunning → Completes s (.seqRelease c) 0x0405 c
      ((s.b.setFld (Reg.seqLaneState n) 8 1 0).setFld (Reg.seqLaneState n) 12 1 0) stDone) ∧
    (s.b.lnState n = lsHeld → (s.b.ln n).tReady = none → (s.b.ln n).presented = true → Completes s (.seqRelease c) 0x0405 c
      (((s.b.setFld (Reg.seqLaneState n) 8 1 0).setFld (Reg.seqLaneState n) 12 1 0).refreshHold n) stDone) ∧
    Completes s (.seqAbort c) 0x0406 c (s.b.lnAbort n) stDone) ∧
  (∀ (s : State) (c : Cmd) (n : Fin 16), cObj c = sidLane n → Sent s.b c roleOperator devWorld →
    (s.b.lnState n = lsSafe ∨ s.b.lnState n = lsFaulted → Completes s (.seqClear c) 0x0407 c (s.b.lnEnter n lsIdle) stDone) ∧
    (¬(s.b.lnState n = lsSafe ∨ s.b.lnState n = lsFaulted) → Completes s (.seqClear c) 0x0407 c s.b stConflict)) ∧
  (∀ (s : State) (c : Cmd) (m : Nat), m < 256 → cObj c = sidMachine m → Sent s.b c roleOperator devWorld → u8 (cArg c) 0 ≠ 0xFF →
    s.b.smUsed m = true → let r := s.b.smPost m (u8 (cArg c) 0)
    Completes s (.seqSmPost c) 0x0408 c r.1 (if r.2 then stDone else stNoSpace)) ∧
  (∀ (s : State) (n : Fin 16) (o : ServiceOp), (s.b.ln n).check = some o → s.b.serviceUp = true →
    Gives s (.validationDone n) (s.b.validationEnd n o)) ∧
  (∀ (s : State) (n : Fin 16), (s.b.ln n).check = none → exec (.validationDone n) s = .next s)

/-- 05 R114–R118, R134: time in a lane. 200 µs before a DURATION step ends its successor's claims are presented; 4 µs before, the successor
is decided and its actions placed where nothing holds it; at T_end, at a condition's 4 µs evaluation, an event or a timeout the step ends;
T_start follows T_ready by 4 µs; a hold longer than its tolerance and a safe stop longer than its limit fault the lane. 05 R116, R132–R134,
R136: what a lane and a machine enter. At T_start the step, its start time and RUNNING show, HELD's reasons clear and a DURATION step's end
is known, then its claims are committed; an abort of an idle lane does nothing; a machine takes at most one queued event each 4 µs, in
order, through its first transition, and an event without one is counted. -/
def Obligations.LanesAndMachinesProceed : Prop :=
  (∀ (s : State) (n : Fin 16) (t : Nat), let x := s.b.ln n
    x.endAt = some t → x.active = true → spEndKind x.cur = 0 → spLast x.cur = false → x.nextIdx < rcCount (s.b.lnHead n) →
    (x.presented = false → s.b.lnHost n = false → max (t - 200000) (s.b.rd64 (Reg.seqLaneStepStart n) + 250000) ≤ s.b.now →
      Gives s (.claimPresentation n) ((s.b.presentSet n x.nextIdx
        (spClaims s.b.bank (stepOf s.b.bank (s.b.lnHead n) x.nextIdx))).putLn n { x with presented := true })) ∧
    (x.decided = false → t ≤ s.b.now + 4000 → s.b.bit (Reg.seqLaneState n) 12 = false →
      let e := stepOf s.b.bank (s.b.lnHead n) x.nextIdx
      let u := s.b.unmet n e
      let b1 := s.b.putLn n { x with reasonsSeen := x.reasonsSeen ||| u }
      (u ≠ 0 → Gives s (.decisionTick n) b1) ∧
      (u = 0 → let r := (b1.putLn n { b1.ln n with decided := true, next := e }).placeAll (.lane n) x.nextIdx t (spActions s.b.bank e)
        Gives s (.decisionTick n) (if r.2 then r.1.lnFault n 1 x.nextIdx else r.1)))) ∧
  (∀ (s : State) (n : Fin 16) (t : Nat), (s.b.ln n).active = true → (s.b.ln n).endAt = some t →
    (t ≤ s.b.now → Gives s (.stepEnd n) (s.b.lnEnd n)) ∧ (s.b.now < t → exec (.stepEnd n) s = .next s)) ∧
  (∀ (s : State) (n : Fin 16), (s.b.ln n).active = true → spEndKind (s.b.ln n).cur = 1 →
    (s.b.lnEndsNow n = true → Gives s (.conditionEvaluation n) (s.b.lnEnd n)) ∧
    (s.b.lnEndsNow n = false → exec (.conditionEvaluation n) s = .next s)) ∧
  (∀ (s : State) (n : Fin 16) (k : Byte), Gives s (.laneEvent n k) (s.b.laneEvent n k.toNat)) ∧
  (∀ (s : State) (n : Fin 16), let x := s.b.ln n
    x.active = true → spEndKind x.cur ≠ 0 → x.faultAt ≠ some s.b.now →
    s.b.rd64 (Reg.seqLaneStepStart n) + 1000 * spTimeout x.cur ≤ s.b.now →
    (s.b.lnEndsNow n = true ∨ spTimeoutNext x.cur = true → Gives s (.stepTimeout n) (s.b.lnEnd n)) ∧
    (s.b.lnEndsNow n = false → spTimeoutNext x.cur = false → Gives s (.stepTimeout n) (s.b.lnFault n 3 (s.b.lnStep n)))) ∧
  (∀ (s : State) (n : Fin 16) (t : Nat), let b := s.b.refreshHold n
    let x := b.ln n
    let tol := spTol (stepOf b.bank (b.lnHead n) x.nextIdx)
    b.lnState n = lsHeld → x.tReady = none → x.tolFrom = some t → tol ≠ 0xFFFF → 1000000 * tol ≤ x.tolNs + (b.now - t) →
    Gives s (.holdToleranceExpiry n) (b.lnFault n 2 x.nextIdx)) ∧
  (∀ (s : State) (n : Fin 16) (t : Nat), (s.b.ln n).tReady = some t → (s.b.ln n).active = false → s.b.lnState n = lsHeld →
    (t + 4000 ≤ s.b.now → Gives s (.stepStart n) (s.b.lnStart n (s.b.ln n).nextIdx (s.b.ln n).next)) ∧
    (s.b.now < t + 4000 → exec (.stepStart n) s = .next s)) ∧
  (∀ (s : State) (n : Fin 16) (t : Nat), (s.b.ln n).safeSince = some t → s.b.lnState n = lsAborting →
    t + 1000000 * u32 (s.b.lnTab n) 8 ≤ s.b.now → Gives s (.safeTimeoutExpiry n) (s.b.lnFault n 8 (s.b.lnStep n))) ∧
  (∀ (s : State) (n : Fin 16) (t : Nat), (s.b.ln n).startAt = some t → s.b.lnState n = lsLoaded →
    (t ≤ s.b.now → Gives s (.startTimeReached n) (s.b.lnGo n (s.b.ln n).startStep)) ∧
    (s.b.now < t → exec (.startTimeReached n) s = .next s)) ∧
  (∀ (s : State) (m : Fin 256), Gives s (.smCycle m) (s.b.smCycle m) ∧
    (s.b.smExpired m = true → Gives s (.smStateTimeout m) (s.b.smCycle m)) ∧
    (s.b.smExpired m = false → exec (.smStateTimeout m) s = .next s)) ∧
  (∀ (b : Block) (n i : Nat) (e : List Byte), n < 16 → i < 65536 → b.lnFaultPath n = false → ∃ y : Block,
    b.lnStart n i e = (if (y.commitSet n).2 then ((y.commitSet n).1.raise Reg.lgrFlags 4 (sidLane n)).lnFault n 4 i else (y.commitSet n).1) ∧
    y.lnState n = lsRunning ∧ y.lnStep n = i ∧ y.rd64 (Reg.seqLaneStepStart n) = b.now % 2 ^ 64 ∧ y.rd64 (Reg.seqLaneHoldSince n) = 0 ∧
    y.fld (Reg.seqLaneState n) 8 4 = 0 ∧ (y.ln n).active = true ∧ (y.ln n).cur = e ∧ (y.ln n).nextIdx = i + 1 ∧ (y.ln n).tReady = none ∧
    (y.ln n).endAt = (if spEndKind e = 0 then some (b.now + 1000 * spDuration e) else none)) ∧
  (∀ (b : Block) (n : Nat), b.lnState n ≠ lsRunning → b.lnState n ≠ lsHeld → b.lnAbort n = b) ∧
  (∀ (b : Block) (m : Nat), b.smUsed m = true → (b.sm m).cycle ≠ some (b.now / 4000) →
    let y := b.putSm m { b.sm m with cycle := some (b.now / 4000) }
    (∀ k q, (b.sm m).queue = k :: q →
      let z := y.putSm m { y.sm m with queue := q }
      (∀ t, z.smFind m k = some t → b.smCycle m = z.smEnter m (u8 t 2) (some k)) ∧
      (z.smFind m k = none → b.smCycle m = z.count Reg.seqSmDrops)) ∧
    ((b.sm m).queue = [] → (∀ t, y.smFind m 0xFF = some t → b.smCycle m = y.smEnter m (u8 t 2) none) ∧
      (y.smFind m 0xFF = none → y.smExpired m = true → b.smCycle m = y.smEnter m (u8 (y.smEntry m (y.smState m)) 12) none) ∧
      (y.smFind m 0xFF = none → y.smExpired m = false → b.smCycle m = y))) ∧
  (∀ (b : Block) (m : Nat), b.smUsed m = false ∨ (b.sm m).cycle = some (b.now / 4000) → b.smCycle m = b)

/-- 05 R123, R125–R128: a due action of each kind is carried out, its outcome is recorded and it leaves the queue: SET, RAMP, DISCRETE,
MOVE, OBJ_WRITE, LOOP, ARM, SM_POST; with 250 actions in its 2 µs window it is late, and one that must not be late is abandoned with reason
1; an action that is not due changes nothing. 05 R123, R128, R130: what action kinds do with their target: SET stores a loop variable's or a
field's value and refuses an unknown target; a DISCRETE change that the matrix refuses leaves the line, another sets it, and a width appends
a pulse; an undefined machine is BAD_REF and event 0xFF BAD_ARG; the queue holds one entry less once an action ends. -/
def Obligations.DueActionsTakeTheirEffect : Prop :=
  (∀ (s : State) (i : Instr) (src : ActSrc) (idx k : Nat) (f : Block → Pend → Block × Nat × Nat),
    (i, k, f) ∈ ([(.actSet src idx, 1, fun b p => b.setRun (acTarget p.entry) (w32 p.entry 16)),
      (.actRamp src idx, 2, fun b p => b.rampRun src (acTarget p.entry) p.entry),
      (.actDiscrete src idx, 3, fun b p => b.discRun p),
      (.actMove src idx, 4, fun b p => b.orRefuse (b.moveRefusals (acTarget p.entry) (u8 p.entry 20) (u8 p.entry 21) (w32 p.entry 16)) fun b =>
        b.moveRun (acTarget p.entry) (u8 p.entry 20) (u8 p.entry 21) (w32 p.entry 16)),
      (.actObjWrite src idx, 5, fun b p => b.objRun p.entry),
      (.actLoop src idx, 6, fun b p => b.orRefuse [deny (!isLoopSid (acTarget p.entry) || !b.loopUsed (acTarget p.entry - 0x400000)) stBadRef]
        fun b => b.loopSet (acTarget p.entry - 0x400000) ((u8 p.entry 16).testBit 0)),
      (.actArm src idx, 7, fun b p => b.orRefuse (b.armRefusals (acTarget p.entry) ((u8 p.entry 16).testBit 0)) fun b =>
        b.armRun (acTarget p.entry) ((u8 p.entry 16).testBit 0)),
      (.actSmPost src idx, 8, fun b p => b.smAsk (acTarget p.entry) (u8 p.entry 16))] : List (Instr × Nat × (Block → Pend → Block × Nat × Nat))) →
    (s.b.dueAction src idx k = none → exec i s = .next s) ∧
    (∀ p, s.b.dueAction src idx k = some p →
      let due := p.due.getD s.b.now
      let near := s.b.seq.recent.filter fun t => decide (due < t + 2000)
      let b1 : Block := { s.b with seq := { s.b.seq with recent := near ++ [due] } }
      (near.length < 250 ∨ p.late = true →
        Gives s i ((f b1 p).1.finishAction p p.late (f b1 p).2.1 (f b1 p).2.2)) ∧
      (250 ≤ near.length → p.late = false → acDrop p.entry = true →
        Gives s i ((((b1.raise Reg.seqFlags 0 (srcSid src)).count Reg.seqLate).blkCount 0x23).finishAction p false stAbandoned 1)))) ∧
  (∀ (s : State) (src : ActSrc) (idx : Nat) (p : Pend) (n : Nat), s.b.dueAction src idx 9 = some p → s.b.claimLane src = some n →
    let c := acTarget p.entry - 0xA01000
    let w := u32 p.entry 16
    let b := s.b.capFlag n [(c, w, u32 p.entry 20)]
    0xA01000 ≤ acTarget p.entry → c < u16 s.b.lgrHead 0 →
    (w ≤ b.laneClaim n c → (w ≠ 0 ∨ b.laneClaim n c ≠ 0) →
      Gives s (.actClaim src idx) ((b.commitClaim n c w (u32 p.entry 20)).finishAction p p.late stDone 0)) ∧
    (b.laneClaim n c < w →
      Gives s (.actClaim src idx) (b.setQueue (b.seq.queue.map fun x => if x = p then { x with claimAt := some b.now } else x)))) ∧
  (∀ (s : State) (src : ActSrc) (idx : Nat) (p : Pend), s.b.dueAction src idx 9 = some p → s.b.claimLane src = none →
    Gives s (.actClaim src idx) (s.b.finishAction p p.late stBadArg 0)) ∧
  (∀ (b : Block) (sid : Nat) (w : Word),
    (b.isVar sid = true → b.setRun sid w = ((b.stopRamp sid).varSet sid (payVal (b.sigType sid) w), stDone, 0)) ∧
    (b.isVar sid = false → ¬(isStageSid sid = true ∧ b.sgUsed (sid - 0x500000) = true) → b.isField sid = true →
      b.setRun sid w = (b.fieldWrite sid (payVal (b.sigType sid) w), stDone, 0)) ∧
    (b.isVar sid = false → ¬(isStageSid sid = true ∧ b.sgUsed (sid - 0x500000) = true) → b.isField sid = false →
      b.setRun sid w = (b, stBadRef, 0))) ∧
  (∀ (b : Block) (p : Pend), let sid := acTarget p.entry
    let l := (u8 p.entry 16).testBit 0
    b.isDiscrete sid = true →
    (∀ r, b.discLevel sid ≠ l → b.refusal sid l = some r → b.discRun p = (b, stInterlock, r)) ∧
    (b.discLevel sid = l ∨ b.refusal sid l = none → u32 p.entry 20 = 0 → b.discRun p = (b.discPut sid l, stDone, 0)) ∧
    (b.discLevel sid = l ∨ b.refusal sid l = none → u32 p.entry 20 ≠ 0 → ∃ x, b.discRun p = (x, stDone, 0) ∧
      x.seq.pulses = (b.discPut sid l).seq.pulses ++
        [(sid, { back := b.discLevel sid, endAt := (b.discPut sid l).now + 1000 * u32 p.entry 20, action := p })])) ∧
  (∀ (b : Block) (m code : Nat), m < 256 →
    (b.smUsed m = false → b.smAsk (sidMachine m) code = (b, stBadRef, 0)) ∧
    (b.smUsed m = true → b.smAsk (sidMachine m) 0xFF = (b, stBadArg, 0)) ∧
    (b.smUsed m = true → code ≠ 0xFF → (b.smAsk (sidMachine m) code).2.1 = (if (b.smPost m code).2 then stDone else stNoSpace))) ∧
  (∀ (b : Block) (p : Pend) (st rs l : Nat), p ∈ b.seq.queue → (b.endAction p st rs l).seq.queue.length + 1 = b.seq.queue.length)

/-- 05 R123, R131, 07 R183: ramps, pulses and enforcing rules in time. Before its end a ramp writes its interpolated value, at its end its
end value, and it is gone; a pulse ends with its line back unless an ENFORCE rule refuses; each 4 µs an ENFORCE rule whose terms fail forces
its guarded target and flags it. -/
def Obligations.RampsPulsesAndRulesAct : Prop :=
  (∀ (s : State) (t : Nat) (r : RampSt), tget? s.b.seq.ramps t = some r →
    let off : Block := { s.b with seq := { s.b.seq with ramps := tdel s.b.seq.ramps t } }
    (r.ended s.b.now = false → isStageSid t = true →
      Gives s (.rampUpdate t) (s.b.rampWrite (t - 0x500000) (ratF32 (s.b.rampAt r (s.b.sigType t))))) ∧
    (r.ended s.b.now = false → isStageSid t = false →
      Gives s (.rampUpdate t) (s.b.varSet t (ratType (s.b.sigType t) (s.b.rampAt r (s.b.sigType t))))) ∧
    (r.ended s.b.now = true → isStageSid t = true →
      Gives s (.rampEnd t) (off.freshWrite (t - 0x500000) (off.holdPlan (t - 0x500000) r.stop))) ∧
    (r.ended s.b.now = true → isStageSid t = false → Gives s (.rampEnd t) (off.varSet t (payVal (off.sigType t) r.stop))) ∧
    (r.ended s.b.now = true → exec (.rampUpdate t) s = .next s) ∧ (r.ended s.b.now = false → exec (.rampEnd t) s = .next s)) ∧
  (∀ (s : State) (t : Nat) (q : Nat × PulseSt), s.b.seq.pulses.find? (fun q => q.1 == t && decide (q.2.endAt ≤ s.b.now)) = some q →
    let b : Block := { s.b with seq := { s.b.seq with pulses := s.b.seq.pulses.erase q } }
    (b.discLevel t = q.2.back → Gives s (.pulseEnd t) b) ∧
    (b.discLevel t ≠ q.2.back → b.refusal t q.2.back true = none → Gives s (.pulseEnd t) (b.discPut t q.2.back)) ∧
    (∀ r, b.discLevel t ≠ q.2.back → b.refusal t q.2.back true = some r →
      Gives s (.pulseEnd t) ((b.count Reg.seqInterlockRefusals).actionRec q.2.action stInterlock r 0))) ∧
  (∀ s : State, ∃ x, Gives s .enforceEvaluation x ∧
    ((∀ p ∈ entsOf s.b.bank tLock, ruleEnforce p.2 = false) → x = s.b) ∧
    (∀ k e l, entsOf s.b.bank tLock = [(k, e)] → s.b.lockLevel (u24 e 0) = some l → ruleEnforce e = true → ruleGuards e l = true →
      s.b.lockForced (u24 e 0) = false → s.b.ruleOkNow e = false →
      x = (s.b.lockForce (u24 e 0) ((u8 e 4).testBit 0)).raise Reg.seqFlags 3 (u24 e 0)))

/-- 06 R145, R152, R155, R159, R160, 01 R11: the ledger's commands and its time. CAPACITY of a declared amount waits for the next update,
one above it is LIMIT; REPORT writes the report where it fits; RESTORE needs a shedding resource; each waits while no service engine is
available. Once on each 100 µs tick from t7 the update runs; 502 updates over capacity shed; ranks return after RESTORE_MS. 07 R167,
R172–R178, R184, R185: stages. The host sets a direct stage at once and is refused with its mark otherwise; FORCE adds the reason HOST with
its value to the stage or its group, RELEASE takes it away; LOOP enables or disables; a loop stage whose plan is older than its freshness
coasts, one past its last point goes STALE, and each 4 µs it evaluates its plan. -/
def Obligations.LedgerAndStagesComplete : Prop :=
  (∀ (s : State) (c : Cmd), Sent s.b c roleOperator devWorld → isFeedSid (cObj c) = true ∨ isCircSid (cObj c) = true →
    let r := resOf (cObj c)
    let v := u32 (cArg c) 0
    s.b.resExists r = true → s.b.serviceUp = true →
    (s.b.resIn r = true → v = 0xFFFFFFFF ∨ v ≤ (s.b.res r).declared →
      Completes s (.lgrCapacity c) 0x0501 c (s.b.putRes r { s.b.res r with newCap := some v }) stDone) ∧
    (s.b.resIn r = false → Completes s (.lgrCapacity c) 0x0501 c s.b stConflict) ∧
    (s.b.resIn r = true → v ≠ 0xFFFFFFFF → (s.b.res r).declared < v → Completes s (.lgrCapacity c) 0x0501 c s.b stLimit)) ∧
  (∀ (s : State) (c : Cmd), Sent s.b c roleOperator devWorld → s.b.serviceUp = false →
    Gives s (.lgrCapacity c) { s.b with heldOps := s.b.heldOps ++ [s.b.serviceOp c 0x0501 (cArg c)] }) ∧
  (∀ (s : State) (c : Cmd) (q : Fin 16), c.issuer = .host q → devCheck s.b devWorld = none → envCheck c = none → s.b.serviceUp = true →
    isFeedSid (cObj c) = true ∨ isCircSid (cObj c) = true → s.b.resExists (resOf (cObj c)) = true →
    (s.b.lgrReport.length ≤ u32 (cArg c) 8 → Completes s (.lgrReport c) 0x0502 c
      { s.b with out := { s.b.out with mem := mwrite s.b.out.mem (u64 (cArg c) 0) s.b.lgrReport } } stDone 0 (leBytes 4 s.b.lgrReport.length)) ∧
    (u32 (cArg c) 8 < s.b.lgrReport.length → Completes s (.lgrReport c) 0x0502 c s.b stNoSpace)) ∧
  (∀ (s : State) (c : Cmd), Sent s.b c roleOperator devWorld → isFeedSid (cObj c) = true ∨ isCircSid (cObj c) = true →
    let r := resOf (cObj c)
    s.b.resExists r = true →
    (s.b.shedding r = true → (s.b.fitsWithout r fun _ => true) = true →
      Completes s (.lgrRestore c) 0x0503 c (s.b.putRes r { s.b.res r with restoreAll := true }) stDone) ∧
    (s.b.shedding r = false → Completes s (.lgrRestore c) 0x0503 c s.b stConflict) ∧
    (s.b.shedding r = true → (s.b.fitsWithout r fun _ => true) = false → Completes s (.lgrRestore c) 0x0503 c s.b stLimit)) ∧
  (∀ s : State,
    (7 ≤ s.b.boot.milestone → s.b.now % 100000 < 4 → s.b.lgr.updAt ≠ some s.b.now → Gives s .ledgerUpdate s.b.ledgerUpdate) ∧
    (s.b.boot.milestone < 7 ∨ 4 ≤ s.b.now % 100000 ∨ s.b.lgr.updAt = some s.b.now → exec .ledgerUpdate s = .next s)) ∧
  (∀ (s : State) (r : Fin 12), s.b.resExists r = true →
    (502 ≤ s.b.overCount r → ∃ x : Block, Gives s (.measuredTrigger r) x.showLedger ∧ x.lgr.pub = some s.b.now ∧
      x = { (s.b.shedRes r).1.shedFaults ((s.b.shedRes r).2.getD []) with lgr := x.lgr }) ∧
    (s.b.overCount r < 502 → exec (.measuredTrigger r) s = .next s) ∧
    (10 * u16 s.b.lgrHead 4 < (s.b.res r).held → ∃ x : Block, Gives s (.rankRestore r) x.showLedger ∧
      x.lgr.pub = some (s.b.restoreDue r).now) ∧
    ((s.b.res r).held ≤ 10 * u16 s.b.lgrHead 4 → exec (.rankRestore r) s = .next s)) ∧
  (∀ (s : State) (c : Cmd) (n : Nat), n < 1024 → cObj c = sidStage n → Sent s.b c roleOperator devWorld → s.b.sgUsed n = true →
    let v := w32 (cArg c) 0
    isNaN32 v = false →
    (s.b.direct n = true → s.b.stageRefusal n v = none → Completes s (.hostOutSet c) 0x0601 c
      ((s.b.stopRamp (sidStage n)).freshWrite n (s.b.holdPlan n v)) stDone) ∧
    (s.b.direct n = false → Completes s (.hostOutSet c) 0x0601 c (s.b.setFlag (Reg.outStageFlags n) 5) stConflict 0x01) ∧
    (∀ r, s.b.direct n = true → s.b.stageRefusal n v = some r →
      Completes s (.hostOutSet c) 0x0601 c (s.b.count Reg.seqInterlockRefusals) stInterlock r)) ∧
  (∀ (s : State) (c : Cmd) (n : Nat), n < 1024 → cObj c = sidStage n → Sent s.b c roleOperator devLive → s.b.sgUsed n = true →
    (u8 (cArg c) 4).testBit 0 = false → isNaN32 (w32 (cArg c) 0) = false →
    Completes s (.outForce c) 0x0602 c ((s.b.putSg n { s.b.sg n with hostVal := w32 (cArg c) 0 }).forceStage n frHost) stDone) ∧
  (∀ (s : State) (c : Cmd) (n : Nat), n < 1024 → cObj c = sidStage n → Sent s.b c roleOperator devLive → s.b.sgUsed n = true →
    (u8 (cArg c) 4).testBit 0 = true → isNaN32 (w32 (cArg c) 0) = false → u8 (s.b.sgDesc n) 26 ≠ 0xFF →
    Completes s (.outForce c) 0x0602 c ((s.b.groupStages (u8 (s.b.sgDesc n) 26)).foldl (fun (b : Block) k =>
      (b.putSg k { b.sg k with hostVal := w32 (cArg c) 0 }).forceStage k frHost) s.b) stDone) ∧
  (∀ (s : State) (c : Cmd) (n : Nat), n < 1024 → cObj c = sidStage n → Sent s.b c roleOperator devLive → s.b.sgUsed n = true →
    (u8 (cArg c) 4).testBit 0 = false →
    ((s.b.sgReasons n).testBit frHost = true → Completes s (.outRelease c) 0x0603 c (s.b.unforceStage n frHost) stDone) ∧
    ((s.b.sgReasons n).testBit frHost = false → Completes s (.outRelease c) 0x0603 c s.b stConflict 0x02)) ∧
  (∀ (s : State) (c : Cmd) (l : Nat), cObj c = sidLoop l → isLoopSid (sidLoop l) = true → Sent s.b c roleOperator devWorld → s.b.loopUsed l = true →
    Completes s (.outLoop c) 0x0604 c (s.b.loopSet l ((u8 (cArg c) 0).testBit 0)) stDone) ∧
  (∀ (s : State) (n : Fin 1024), s.b.sgUsed n = true → s.b.direct n = false → s.b.sgState n = osLive →
    (s.b.sgFresh n * 4000 < s.b.sgAge n → Gives s (.freshExpiry n) (s.b.coastStage n)) ∧
    (s.b.sgAge n ≤ s.b.sgFresh n * 4000 → exec (.freshExpiry n) s = .next s)) ∧
  (∀ (s : State) (n : Fin 1024), Gives s (.planExpiry n) (s.b.planExpiry n) ∧
    (s.b.sgUsed n = true → let b := s.b.planExpiry n
      (b.sgAge n % 4000 < 4 → Gives s (.planEvaluation n) (b.applyStage n)) ∧ (4 ≤ b.sgAge n % 4000 → Gives s (.planEvaluation n) b)) ∧
    (s.b.sgUsed n = false → exec (.planEvaluation n) s = .next s)) ∧
  (∀ (b : Block) (n : Nat), b.sgUsed n = true → b.direct n = false → b.sgState n = osLive ∨ b.sgState n = osCoasting →
    ((b.sg n).plan.expired (b.sgAge n) = true → b.planExpiry n = (b.expirePlan n).staleTrip n) ∧
    ((b.sg n).plan.expired (b.sgAge n) = false → b.planExpiry n = b))

/-- 10 R242–R248, R250, R253, R254, R269: faults of engines. A watched engine that mismatches, has an uncorrectable error or misses ten
heartbeats is fenced with that cause; the end of a stand-in's copy restores the set's threads; a fenced engine that is heard again is
quarantined; a release is accepted for a fenced or quarantined engine and ends a stand-in, or fenced again; INJECT fences, or silences for
12 µs. 10 R245, R246: a fence counts the failover, names its engine and cause, takes a new epoch so that later writes of the engine are
stale, and leaves the engine FENCED, in reset where it is held; its waiting stores are dropped. -/
def Obligations.EngineFaultsAreFencedAndReleased : Prop :=
  (∀ (s : State) (e : Fin 40), egWatched (s.b.egState e) = true →
    Gives s (.lockstepMismatch e) (s.b.fence e 1 s.b.now true) ∧ Gives s (.eccUncorrectable e) (s.b.fence e 2 s.b.now true) ∧
    ((s.b.eng e).silentTo = none → Gives s (.heartbeatTimeout e) (s.b.fence e 3 (s.b.now - 10000) false)) ∧
    (∀ t, (s.b.eng e).silentTo = some t → (s.b.eng e).injected = true →
      Gives s (.heartbeatTimeout e) (s.b.fence e 5 (t - 12000) false))) ∧
  (∀ (s : State) (e : Fin 40), egWatched (s.b.egState e) = false → exec (.lockstepMismatch e) s = .next s ∧
    exec (.eccUncorrectable e) s = .next s ∧ exec (.heartbeatTimeout e) s = .next s) ∧
  (∀ (s : State) (e : Fin 40) (i : TakeItem), s.b.dev ≠ dsRestart → e.val < 36 → s.b.cont.taking = some (i, e.val) →
    let b := ({ s.b with cont := { s.b.cont with taking := none } } : Block).takeOverSet i e
    Gives s (.standinLoadDone e) ((b.threadsOf i.set).foldl (fun (b : Block) t => b.contRestore t) b).nextTakeover) ∧
  (∀ (s : State) (e : Fin 40), s.b.dev ≠ dsRestart → 36 ≤ e.val → s.b.setElsewhere e (s.b.egSet e) = true →
    Gives s (.standinLoadDone e) ((s.b.threadsOf (s.b.egSet e)).foldl (fun (b : Block) t => b.contRestore t) s.b).serviceBack) ∧
  (∀ (s : State) (e : Fin 40), s.b.egState e = egFenced → (s.b.eng e).inReset = false → ∃ x, Gives s (.aliveAfterDeath e) x ∧
    x.egState e = egQuarantined ∧ (x.eng e).inReset = true ∧ (x.eng e).act = none ∧ x.bit Reg.cntFlags 2 = true) ∧
  (∀ (s : State) (c : Cmd) (e : Fin 40), cObj c = sidEngine e → Sent s.b c roleMaintainer devCnt →
    let st := s.b.egState e
    ((st = egFenced ∨ st = egQuarantined) → (s.b.eng e).release = none → Completes s (.cntRelease c) 0x0902 c (s.b.putEng e { s.b.eng e with
      release := some (opOf c 0x0902), act := none, saved := [], inReset := true, silentTo := none, injected := false }) stQueued) ∧
    (¬(st = egFenced ∨ st = egQuarantined) → Completes s (.cntRelease c) 0x0902 c s.b stConflict)) ∧
  (∀ (s : State) (e : Fin 40) (o : ServiceOp), (s.b.eng e).release = some o →
    Gives s (.releaseSelftestDone e false)
      (((s.b.putEng e { s.b.eng e with release := none, cause := 4 }).setEg e egFenced).settle o true stLimit 0x01) ∧
    (e.val < 36 → ∃ x : Block, Gives s (.releaseSelftestDone e true) ((x.settle o true stDone).nextTakeover) ∧ x.egState e = egStandin ∧
      (x.eng e).inReset = false ∧ (x.eng e).ctx = {} ∧ (x.eng e).dram = [] ∧ x.egRole e = 1)) ∧
  (∀ (s : State) (c : Cmd) (e : Fin 40), cObj c = sidEngine e → Sent s.b c roleMaintainer devCnt →
    (egWatched (s.b.egState e) = true → u8 (cArg c) 0 = 1 → Completes s (.cntInject c) 0x0903 c (s.b.fence e 5 s.b.now true) stDone) ∧
    (egWatched (s.b.egState e) = true → u8 (cArg c) 0 = 3 → Completes s (.cntInject c) 0x0903 c
      (s.b.putEng e { s.b.eng e with silentTo := some (s.b.now + 12000), injected := true }) stDone) ∧
    (egWatched (s.b.egState e) = false → u8 (cArg c) 0 = 1 ∨ u8 (cArg c) 0 = 3 → Completes s (.cntInject c) 0x0903 c s.b stConflict)) ∧
  (∀ (s : State) (e : Fin 40), (s.b.eng e).injected = true →
    Gives s (.injectSilenceEnd e) (s.b.putEng e { s.b.eng e with silentTo := none, injected := false })) ∧
  (∀ (b : Block) (e cause at_ : Nat) (hold : Bool), e < 40 →
    let n := b.egSet e
    let els := b.setElsewhere e n
    let ts := if n = 0xFF then [] else if els then b.onEngine e else b.threadsOf n
    ∃ y x : Block, y.egState e = egFenced ∧ y.stale e = true ∧ y.egEpoch e = (b.egEpoch e + 1) % 65536 ∧ (y.eng e).stores = [] ∧
      (y.eng e).saved = [] ∧ (y.eng e).inReset = hold ∧ (hold = true → (y.eng e).act = none) ∧ (∀ k, k ≠ e → y.eng k = b.eng k) ∧
      (let c := if els then y else ts.foldl (fun (b : Block) t => (b.stagesOf t).foldl (fun (b : Block) k => b.coastStage k) b) y
       let d := ts.foldl (fun (z : Block) t => z.contSuspend t ((b.onEngine e).contains t)) c
       Reports ((((d.count Reg.cntFailovers).wrN Reg.cntLastFault (2 ^ 24 * cause + 0x3F0000 + e)).wr64 Reg.cntLastFaultAt at_).setFlag
         Reg.cntFlags 0) x) ∧
      b.fence e cause at_ hold = (x.swapDrop e).fenceQueue e n)

/-- 10 R256–R263, R268: a continuity restart passes its points in order: accepted and QUEUED, the quiesce's end abandons what still runs and
takes new epochs; the reset clears engines and D-RAM; the image region is verified; the self-test; code sets; service threads; control
threads; then dispatch resumes and the device returns. A point out of order does nothing. -/
def Obligations.ContinuityRestartPassesItsPoints : Prop :=
  (∀ (s : State) (c : Cmd), Sent s.b c (if (u8 (cArg c) 0).testBit 0 then roleMaintainer else roleOperator) devCnt → cObj c = 0 →
    u8 (cArg c) 0 < 2 → ((u8 (cArg c) 0).testBit 0 = true → s.b.stageReady = true) →
    ∃ x y : Block, Gives s (.cntRestart c) y ∧ Reports s.b x ∧ (Owed s.b → Answered s.b.now x 0x0901 c stQueued 0 []) ∧
      y = x.beginRestart (if issuerIsHost c.issuer then 1 else 2) ((u8 (cArg c) 0).testBit 0) (some (opOf c 0x0901))) ∧
  (∀ (s : State) (c : Cmd), Sent s.b c roleMaintainer devCnt → cObj c = 0 → u8 (cArg c) 0 = 1 → s.b.stageReady = false →
    Completes s (.cntRestart c) 0x0901 c s.b stConflict 0x02) ∧
  (∀ s : State, s.b.dev = dsRestart →
    (s.b.phase = 1 → ∃ x, Gives s .quiesceEnd x ∧ x.phase = 2 ∧ (∀ e, e < 40 → x.egEpoch e = (s.b.egEpoch e + 1) % 65536) ∧
      (∀ e, e < 40 → s.b.egState e ≠ egFenced → s.b.egState e ≠ egQuarantined → (x.eng e).act = none ∧ (x.eng e).saved = [])) ∧
    (s.b.phase = 2 → ∃ x, Gives s .restartReset x ∧ x.phase = 3 ∧ ∀ e, e < 40 →
      (x.eng e).dram = [] ∧ (x.eng e).ctx = {} ∧ (x.eng e).act = none ∧ (x.eng e).inReset = true ∧
      (s.b.egState e = egFenced ∨ s.b.egState e = egQuarantined → x.egState e = s.b.egState e) ∧
      (s.b.egState e ≠ egFenced → s.b.egState e ≠ egQuarantined → x.egState e = egOffline)) ∧
    (s.b.phase = 3 → s.b.cont.install = false → Gives s (.imageRegionVerified true) (s.b.setPhase 4)) ∧
    (s.b.phase = 3 → s.b.cont.install = true → Gives s (.imageRegionVerified true) ((s.b.installStaged.emptyStage).setPhase 4)) ∧
    (∀ failed, s.b.phase = 4 → Gives s (.restartSelftestDone failed) (failed.foldl (fun (b : Block) (e : Fin 40) =>
      if b.egState e.val = egOffline then b.fence e.val 4 b.now true else b) (s.b.setPhase 5))) ∧
    (s.b.phase = 5 → ∃ x : Block, Gives s .codeSetsLoaded ((x.assignWaiting s.b.cont.waiting).setPhase 6) ∧ x.cont.waiting = [] ∧
      ∀ e, e < 40 → s.b.egState e = egOffline → x.egState e = (if s.b.egRole e = 1 then egStandin
        else if s.b.egRole e = 3 then egOffline else egIdle)) ∧
    (s.b.phase = 6 → Gives s .serviceInitDone
      (((((entsOf s.b.cfg tThread).map (·.1)).filter fun t => s.b.thUsed t && s.b.isService t).foldl (fun (b : Block) t =>
        ((b.putTh t { b.th t with replay := false }).setFld (Reg.dspThreadState t) 6 1 0).contRestore t) s.b).setPhase 7)) ∧
    (s.b.phase = 7 → let b := ({ s.b with cont := { s.b.cont with swapEngines := [] } } : Block).swapCheck
      let lost := b.cont.waiting.map (·.set)
      Gives s .threadsRestored
        (((((entsOf b.cfg tThread).map (·.1)).filter fun t => b.thUsed t && !b.isService t && !lost.contains (b.thSet t)).foldl
          (fun (b : Block) t => ((b.putTh t { b.th t with replay := false, resumed := true }).setFld (Reg.dspThreadState t) 6 1 0).contRestore t)
          b).setPhase 8)) ∧
    (s.b.phase = 8 → ∃ x : Block, Gives s .dispatchResume x.nextTakeover ∧ x.cont.op = none)) ∧
  (∀ s : State, s.b.dev ≠ dsRestart → exec .quiesceEnd s = .next s ∧ exec .restartReset s = .next s ∧ (∀ ok, exec (.imageRegionVerified ok) s = .next s) ∧
    (∀ l, exec (.restartSelftestDone l) s = .next s) ∧ exec .codeSetsLoaded s = .next s ∧ exec .serviceInitDone s = .next s ∧
    exec .threadsRestored s = .next s ∧ exec .dispatchResume s = .next s)

/-- 11 R279, R286, R288, R289: the recorder's commands: DEST names a port's destination; FILTER keeps the old filter until the next tick and
records the change; QUEUE_BIND sets or clears a binding; REPLAY is answered QUEUED and waits for its port; CONFIG sets the flush and rewind
times. 11 R282, R284, R285, R288: the reel in time: an open segment closes FLUSH_US after its first record; an active port sends its oldest
live segment; a failed port hands over to a spare, from the oldest segment it began within REWIND_US, or raises NO_PATH; a link that comes
up makes a failed port SPARE; a replay ends DONE once all is sent, LOST where a segment was overwritten. -/
def Obligations.RecorderCommandsAndTimesComplete : Prop :=
  (∀ (s : State) (c : Cmd), Sent s.b c roleOperator devLive → cObj c = 0 →
    let a := cArg c
    let p := u8 a 0
    let b := (s.b.setRcd { s.b.rcd with dests := tput s.b.rcd.dests p (padTo 48 a) }).setFld (Reg.recPortState p) 9 1 1
    p ≤ 1 → u8 a 1 < 8 → u8 a 14 ≤ 63 →
    (s.b.port p = ptDown → tget? s.b.rcd.downSince p = none → tget 0 s.b.rcd.roles p = 1 →
      Gives s (.recDest c) ((b.portPrimary p).complete 0x0A01 c stDone)) ∧
    (s.b.port p ≠ ptDown ∨ tget? s.b.rcd.downSince p ≠ none ∨ tget 0 s.b.rcd.roles p ≠ 1 →
      Gives s (.recDest c) (b.complete 0x0A01 c stDone))) ∧
  (∀ (s : State) (c : Cmd), Sent s.b c roleOperator devLive →
    let a := cArg c
    let sid := cObj c
    let f := s.b.askedFilter sid a
    let old := s.b.out.filterOf s.b.ctx sid
    let ns := tput s.b.rcd.newFilters sid (s.b.now, f)
    filterArgsOk sid (u8 a 0) (u32 a 4) (u32 a 8) = true → s.b.sourceExists sid = true →
    (filterCount s.b.cfg s.b.rcd.filters ns ≤ 16384 → ∃ x : Block, Gives s (.recFilter c) (x.complete 0x0A02 c stDone) ∧
      x = (((s.b.setRcd { s.b.rcd with filters := tput s.b.rcd.filters sid old, newFilters := ns }).wrN Reg.recFilters
          (filterCount s.b.cfg (tput s.b.rcd.filters sid old) ns)).recordAt (s.b.now + 4) sidDevice 0x73
        (leBytes 3 sid ++ leBytes 1 old.kind ++ leBytes 1 f.kind ++ zeroBytes 3 ++ slice (padTo 12 a) 4 4 ++ leBytes 4 f.maxGap))) ∧
    (16384 < filterCount s.b.cfg s.b.rcd.filters ns → Completes s (.recFilter c) 0x0A02 c s.b stNoSpace)) ∧
  (∀ (s : State) (c : Cmd), Sent s.b c roleOperator devLive → cObj c = 0 →
    let a := cArg c
    let k := u8 a 0 * 8 + u8 a 1
    48 ≤ u8 a 0 → u8 a 0 ≤ 63 → u8 a 1 ≤ 7 →
    (u8 a 13 = 0 → Gives s (.recQueueBind c) ((s.b.setRcd { s.b.rcd with
      binds := tput s.b.rcd.binds k { sid := u24 a 4, mask := u24 a 8, typ := u8 a 12 } }).complete 0x0A03 c stDone)) ∧
    (u8 a 13 = 1 → Gives s (.recQueueBind c) ((s.b.setRcd { s.b.rcd with binds := tdel s.b.rcd.binds k }).complete 0x0A03 c stDone))) ∧
  (∀ (s : State) (c : Cmd), Sent s.b c roleOperator devLive → cObj c = 0 →
    let a := cArg c
    let p := u8 a 0
    let st := s.b.port p
    p ≤ 1 → u32 a 16 ≠ 0 → u32 a 16 ≤ 65535 →
    (st = ptActive ∨ (st = ptSpare ∧ s.b.portLink p = true ∧ s.b.portDest p = true) → s.b.replayOn p = none →
      (s.b.rcd.segs.any fun g => g.seqNo == u64 a 8) = true →
      let b := s.b.complete 0x0A04 c stQueued
      Gives s (.recReplay c) (b.setRcd { b.rcd with replays := b.rcd.replays ++ [{
        port := p, next := u64 a 8, left := u32 a 16, src := issuerSrc c.issuer, tag := c.tag.toNat, notify := cNotify c }] })) ∧
    (st = ptDown → Completes s (.recReplay c) 0x0A04 c s.b stConflict 0x01) ∧
    (st = ptActive → s.b.replayOn p ≠ none → Completes s (.recReplay c) 0x0A04 c s.b stBusy) ∧
    (st = ptActive → s.b.replayOn p = none → (s.b.rcd.segs.any fun g => g.seqNo == u64 a 8) = false →
      Completes s (.recReplay c) 0x0A04 c s.b stLimit 0x01)) ∧
  (∀ (s : State) (c : Cmd), Sent s.b c roleOperator devLive → cObj c = 0 →
    let f := u32 (cArg c) 0
    let r := u32 (cArg c) 4
    (10 ≤ f → f ≤ 100000 → r ≤ 100000 →
      Gives s (.recConfig c) (((s.b.wrN Reg.recFlushUs f).wrN Reg.recRewindUs r).complete 0x0A05 c stDone)) ∧
    (f < 10 ∨ 100000 < f ∨ 100000 < r → Completes s (.recConfig c) 0x0A05 c s.b stBadArg)) ∧
  (∀ s : State, s.b.rcd.openSeg ≠ [] → s.b.rcd.openedAt + 1000 * s.b.rdN Reg.recFlushUs ≤ s.b.now →
    ∃ x : Block, Gives s .segmentClose x ∧ x = { s.b with out := x.out } ∧ x.out.rcd.openSeg = [] ∧ x.out.rcd.segs = s.b.out.rcd.segs ++
      [{ seqNo := s.b.rd64 Reg.recWriteSeg, recs := s.b.out.rcd.openSeg, openedAt := s.b.out.rcd.openedAt }]) ∧
  (∀ s : State, s.b.rcd.openSeg = [] ∨ s.b.now < s.b.rcd.openedAt + 1000 * s.b.rdN Reg.recFlushUs → exec .segmentClose s = .next s) ∧
  (∀ (s : State) (p : Fin 2) (g : Segment), s.b.port p = ptActive → s.b.nextSeg p = some g →
    Gives s (.segmentSend p) (((s.b.setRcd { s.b.rcd with segs := s.b.rcd.segs.map fun x =>
        if x.seqNo == g.seqNo then { x with sent := x.sent ++ [(p.val, s.b.now)] } else x }).wr64 (Reg.recPortSentSeg p) g.seqNo).count48
      (Reg.recPortDatagrams p) (s.b.datagrams p g))) ∧
  (∀ (s : State) (p : Fin 2) (r : Replay) (g : Segment), s.b.port p = ptActive → s.b.portLink p = true → s.b.nextSeg p = none →
    s.b.replayOn p = some r → r.left ≠ 0 → s.b.rcd.segs.find? (fun x => x.seqNo == r.next) = some g →
    Gives s (.segmentSend p) ((s.b.putReplay { r with next := r.next + 1, left := r.left - 1 }).count48 (Reg.recPortDatagrams p) (s.b.datagrams p g))) ∧
  (∀ (s : State) (p : Fin 2), Gives s (.portDown p) (s.b.portDown p)) ∧
  (∀ (s : State) (p : Fin 2) (t : Nat), tget? s.b.rcd.downSince p = some t → s.b.rcd.handled.contains p.val = false → s.b.port p = ptDown →
    let q := 1 - p.val
    let b := s.b.setRcd { s.b.rcd with handled := s.b.rcd.handled ++ [p.val] }
    (s.b.port q = ptSpare → s.b.portLink q = true → s.b.portDest q = true → ∃ x : Block, Gives s (.pathFailover p)
        ((((x.setPort q ptActive).count (Reg.recPortFailovers p)).count (Reg.recPortFailovers q)).raisePost Reg.recFlags 3) ∧
      (∀ y ∈ x.rcd.segs, y.sent = [] ∨ y ∈ s.b.rcd.segs) ∧ (x.rcd.segs.map (·.seqNo)) = s.b.rcd.segs.map (·.seqNo) ∧
      ((s.b.rcd.segs.map (·.seqNo)).Pairwise (· < ·) → ∀ y ∈ s.b.rcd.segs, (∃ z ∈ y.sent, z.1 = p.val ∧ t - 1000 * s.b.rdN Reg.recRewindUs ≤ z.2) →
        ∃ z ∈ x.rcd.segs, z.seqNo = y.seqNo ∧ z.sent = [])) ∧
    (s.b.port q = ptActive → Gives s (.pathFailover p)
      (((b.count (Reg.recPortFailovers p)).count (Reg.recPortFailovers q)).raisePost Reg.recFlags 3)) ∧
    (s.b.port q = ptDown → Gives s (.pathFailover p) (b.raise Reg.recFlags 4))) ∧
  (∀ (s : State) (p : Fin 2), let b := s.b.setFld (Reg.recPortState p) 8 1 1
    (s.b.port p ≠ ptDown → Gives s (.portLinkUp p) b) ∧
    (s.b.port p = ptDown → tget? s.b.rcd.downSince p = none → Gives s (.portLinkUp p) (b.portPrimary p)) ∧
    (s.b.port p = ptDown → tget? s.b.rcd.downSince p ≠ none → ∃ x : Block, Gives s (.portLinkUp p) x ∧ x.port p = ptSpare ∧
      tget? x.rcd.downSince p = none)) ∧
  (∀ (s : State) (p : Fin 2) (r : Replay), s.b.replayOn p = some r →
    let op : ServiceOp := { src := r.src, tag := r.tag, opcode := 0x0A04, notify := r.notify }
    let b := s.b.setRcd { s.b.rcd with replays := s.b.rcd.replays.filter fun x => x.port != p.val }
    (r.left = 0 → Gives s (.replayEnd p) (b.settle op true stDone)) ∧
    (r.left ≠ 0 → r.next < s.b.rd64 Reg.recOldestSeg → Gives s (.replayEnd p) (b.settle op true stAbandoned 0x07)) ∧
    (r.left ≠ 0 → s.b.rd64 Reg.recOldestSeg ≤ r.next → s.b.portLink p = false → Gives s (.replayEnd p) (b.settle op true stAbandoned 0x08)))

/-- 13 R309, R312, R313, R316, R319, R321–R326: the analog commands and registers: CONFIG keeps an input's new range for the next scan,
starts a stopped converter, and is refused where a loop depends on it or its calibration is sealed; URGENT joins four waiting conversions at
most; BRIDGE takes effect at the next output; WINDOW sets its limits; a staged calibration waits 60 s for its CONFIRM over the link, and
then curve and count apply together. 13 R311, R314–R316, R321: conversions in time. An urgent result ends its command and the next
conversion follows; a scan result advances the scan; an inserted slot ends; a bridge result is clamped to 24 bits, recorded with its tags
and arrives; settling ends after four output periods; a DAC's overload shows while it lasts. -/
def Obligations.AnalogCommandsAndConversionsComplete : Prop :=
  (∀ (s : State) (c : Cmd) (n : Nat), n < 96 → cObj c = sidAin n → Sent s.b c roleOperator devLive →
    let a := cArg c
    let k := n / 16
    let old := s.b.ainCfg n
    let new := u8 a 0 % 4 + 4 * (u8 a 1 % 4)
    let w := s.b.putConv k { s.b.conv k with pend := tput (s.b.conv k).pend (n % 16) new }
    u8 a 0 ≤ 3 →
    (old % 8 = new % 8 ∨ s.b.feedsLoop (sidAin n) = false → old % 4 = new % 4 ∨ isSealed s.b.cfg (sidAin n) = false →
      Completes s (.anaConfig c) 0x0C01 c (if s.b.convState k = cvStopped then w.scanStart k else w) stDone) ∧
    (old % 8 ≠ new % 8 → s.b.feedsLoop (sidAin n) = true → Completes s (.anaConfig c) 0x0C01 c s.b stConflict 0x01) ∧
    (old % 4 ≠ new % 4 → s.b.feedsLoop (sidAin n) = false → isSealed s.b.cfg (sidAin n) = true →
      Completes s (.anaConfig c) 0x0C01 c s.b stSealed)) ∧
  (∀ (s : State) (c : Cmd) (n : Nat), n < 96 → cObj c = sidAin n → Sent s.b c roleOperator devLive →
    ((s.b.conv (n / 16)).urgent.length < 4 →
      Gives s (.anaUrgent c) (s.b.urgentAsk (n / 16) (n % 16) (some (opOf c 0x0C02)))) ∧
    (4 ≤ (s.b.conv (n / 16)).urgent.length → Completes s (.anaUrgent c) 0x0C02 c
      ((s.b.count (Reg.anaConvUrgentDrops (n / 16))).setFlag Reg.anaFlags 1) stBusy)) ∧
  (∀ (s : State) (ini : Ini) (k : Fin 6) (v : Word) (r : RegRow), r.wide = false →
    (Reaches s.b ini (Reg.anaConvUrgent k) r false → Gives s (.anaConvUrgent ini k v) (s.b.urgentAsk k (v.toNat % 16) none)) ∧
    (Reaches s.b ini (Reg.anaConvQPop k) r false → v.toNat.testBit 0 = true →
      Gives s (.qPop ini k v) ((s.b.putConv k { s.b.conv k with queue := (s.b.conv k).queue.drop 1 }).showConvQueue k))) ∧
  (∀ (s : State) (c : Cmd) (n : Nat), n < 8 → cObj c = sidBrg n → Sent s.b c roleOperator devLive →
    let a := cArg c
    let old := (s.b.brg n).pend.getD (s.b.rdN (Reg.anaBrgCfg n))
    let new := brgBits a
    u8 a 0 ≤ 7 → u8 a 1 ≤ 3 →
    ((old &&& 0x730) = (new &&& 0x730) ∨ s.b.feedsLoop (sidBrg n) = false → (old &&& 0x330) = (new &&& 0x330) ∨ isSealed s.b.cfg (sidBrg n) = false →
      Completes s (.anaBridge c) 0x0C03 c (if s.b.bit (Reg.anaBrgCfg n) 10 then s.b.putBrg n { s.b.brg n with pend := some new }
        else s.b.brgApply n new) stDone) ∧
    ((old &&& 0x730) ≠ (new &&& 0x730) → s.b.feedsLoop (sidBrg n) = true → Completes s (.anaBridge c) 0x0C03 c s.b stConflict 0x01)) ∧
  (∀ (s : State) (c : Cmd), Sent s.b c roleOperator devLive → cObj c = 0 →
    let a := cArg c
    (u8 a 0 ≤ 15 → u8 a 1 ≤ 95 → 1 ≤ u8 a 3 → u8 a 3 ≤ 15 → s16 a 4 ≤ s16 a 6 → Completes s (.anaWindow c) 0x0C04 c (s.b.winApply a) stDone) ∧
    (u8 a 3 = 0 ∨ 15 < u8 a 3 ∨ s16 a 6 < s16 a 4 → Completes s (.anaWindow c) 0x0C04 c s.b stBadArg)) ∧
  (∀ (s : State) (c : Cmd), Sent s.b c roleOperator devLive → cExt c = true → curveBad (cArg c) = false → s.b.sealedSignal (cObj c) = true →
    (s.b.cal.pend = none → Completes s (.anaCalStage c) 0x0C05 c
      (((({ s.b with cal := { s.b.cal with pend := some (opOf c 0x0C05 (cArg c)), crc := crc32 (cArg c), confirmed := false } } : Block).wrN
        Reg.anaCalPending (cObj c)).wr64 Reg.anaCalDeadline (s.b.now + 60000000000)).setFld Reg.anaState 16 1 1)
      stQueued 0 (leBytes 4 (crc32 (cArg c)))) ∧
    (s.b.cal.pend ≠ none → Completes s (.anaCalStage c) 0x0C05 c s.b stBusy)) ∧
  (∀ (s : State) (c : Cmd), authCheck c roleMaintainer true = none → devCheck s.b devLive = none → envCheck c = none → cObj c = 0 →
    (s.b.cal.pend ≠ none → s.b.cal.confirmed = false → s.b.now ≤ s.b.rd64 Reg.anaCalDeadline →
      (u32 (cArg c) 0 = s.b.cal.crc → Completes s (.anaCalConfirm c) 0x0C06 c { s.b with cal := { s.b.cal with confirmed := true } } stDone) ∧
      (u32 (cArg c) 0 ≠ s.b.cal.crc → Completes s (.anaCalConfirm c) 0x0C06 c s.b stBadArg 0x02)) ∧
    (s.b.cal.pend = none → Completes s (.anaCalConfirm c) 0x0C06 c s.b stConflict 0x03)) ∧
  (∀ (s : State) (o : ServiceOp), s.b.cal.pend = some o →
    (s.b.cal.confirmed = true → ∃ x : Block, Gives s .calApply (x.calDone.settle o true stDone) ∧ x.cal.count = (s.b.cal.count + 1) % 2 ^ 32 ∧
      x.rdN Reg.anaCalCount = (s.b.cal.count + 1) % 2 ^ 32 ∧ x.bit Reg.anaFlags 6 = true) ∧
    (s.b.cal.confirmed = false → exec .calApply s = .next s) ∧
    (s.b.cal.confirmed = false → s.b.rd64 Reg.anaCalDeadline < s.b.now →
      Gives s .calConfirmTimeout ((s.b.raise Reg.anaFlags 7 o.object).calDone.settle o true stAbandoned 0x09))) ∧
  (∀ (s : State) (k : Fin 6) (code : Int), s.b.convState k = cvScanning →
    Gives s (.sarConversionEnd k code) (((s.b.sarResult k (s.b.conv k).cur code false).1.scanAdvance k).convNext k)) ∧
  (∀ (s : State) (k : Fin 6) (code : Int) (i : Nat) (op : Option ServiceOp) (rest : List (Nat × Option ServiceOp)), s.b.convState k = cvUrgent →
    (s.b.conv k).urgent = (i, op) :: rest →
    let r := ((s.b.putConv k { s.b.conv k with urgent := rest }).showUrgent k).sarResult k i code true
    (op = none → Gives s (.sarConversionEnd k code) (r.1.convNext k)) ∧
    (∀ o, op = some o → Gives s (.sarConversionEnd k code) ((r.1.settle o false stDone 0
      (leBytes 2 (ofSigned 16 r.2.2) ++ leBytes 2 r.2.1 ++ zeroBytes 4 ++ leBytes 8 r.1.now)).convNext k))) ∧
  (∀ (s : State) (k : Fin 6), s.b.convState k = cvDischarge →
    Gives s (.dischargeSlot k) ((s.b.putConv k { s.b.conv k with slots := (s.b.conv k).slots - 1 }).convNext k)) ∧
  (∀ (s : State) (n : Fin 8) (code : Int) (mv : Nat), s.b.bit (Reg.anaBrgCfg n) 10 = true → s.b.absent (sidBrg n) = false →
    -8388608 ≤ code → code ≤ 8388607 →
    let set := if s.b.bit (Reg.anaBrgCfg n) 9 then 2500 else 5000
    100 * (max mv set - min mv set) ≤ set →
    let tags := 4 * b2n (s.b.bit (Reg.anaBrgCfg n) 12) + 32 * b2n (s.b.brg n).ranged
    let b := (s.b.wrN (Reg.anaBrgExc n) (min mv 65535)).putBrg n { s.b.brg n with ranged := false, exc := false }
    ∃ x : Block, Reports b x ∧ let y := x.arrive (sidBrg n) (BitVec.ofInt 64 code) tags
      Gives s (.bridgeOutput n code mv) (match (y.brg n).pend with | some w => y.brgApply n w | none => y)) ∧
  (∀ (s : State) (n : Fin 8) (code : Int) (mv : Nat), s.b.bit (Reg.anaBrgCfg n) 10 = false → exec (.bridgeOutput n code mv) s = .next s) ∧
  (∀ (s : State) (n : Fin 8), s.b.bit (Reg.anaBrgCfg n) 12 = true →
    (4000000000 ≤ (s.b.now - (s.b.brg n).settleAt) * brgRate (s.b.fld (Reg.anaBrgCfg n) 0 3) →
      Gives s (.settlingEnd n) (s.b.setFld (Reg.anaBrgCfg n) 12 1 0)) ∧
    ((s.b.now - (s.b.brg n).settleAt) * brgRate (s.b.fld (Reg.anaBrgCfg n) 0 3) < 4000000000 → exec (.settlingEnd n) s = .next s)) ∧
  (∀ (s : State) (d : Fin 32),
    (s.b.dacOn d = true → Does s (.dacOverload d) ((s.b.setFld (Reg.anaDacState d) 18 1 1).setFlag Reg.anaFlags 5)) ∧
    (s.b.dacOn d = false → exec (.dacOverload d) s = .next s) ∧ Gives s (.dacOverloadClear d) (s.b.setFld (Reg.anaDacState d) 18 1 0))

/-- 14 R329, R331–R335, R337, R338, R341, R345, R346: the acquisition commands: TAKE sets an idle take's descriptor within its share; ARM
queues or disarms it; TRIGGER fires the armed take at the head of its channel, is MISSED while one is triggered or held off, and else
abandoned; COMPARE sets a comparator; CHANNEL switches a channel, off only while nothing waits. 14 R329, R331, R332, R337–R340, R343, R344:
samples and takes in time: a stored sample of an empty queue joins its block; a full block arrives with its last sample and leaves; a
comparator asserts once, trips its source and triggers; TIME triggers at its time; POST samples complete the take; a hand-off starts with
the header and ends with the take idle; a hold-off ends. -/
def Obligations.AcquisitionCommandsAndTakesComplete : Prop :=
  (∀ (s : State) (c : Cmd) (k : Nat), k < 4096 → cObj c = sidTake k → Sent s.b c roleOperator devLive → takeBad (padTo 32 (cArg c)) = false →
    let d := padTo 32 (cArg c)
    (s.b.takeState k = tkIdle → s.b.takeLimit d = none → Completes s (.acqTake c) 0x0D01 c (s.b.setTakeDesc k d) stDone) ∧
    (s.b.takeState k ≠ tkIdle → Completes s (.acqTake c) 0x0D01 c s.b stConflict) ∧
    (∀ r, s.b.takeState k = tkIdle → s.b.takeLimit d = some r → Completes s (.acqTake c) 0x0D01 c s.b r.status r.reason)) ∧
  (∀ (s : State) (c : Cmd) (k : Nat), k < 4096 → cObj c = sidTake k → Sent s.b c roleOperator devLive →
    ((u8 (cArg c) 0).testBit 0 = true → s.b.armRefusal k = none → Completes s (.acqArm c) 0x0D02 c (s.b.armTake k) stDone) ∧
    ((u8 (cArg c) 0).testBit 0 = false → takeBad (s.b.takeDesc k) = false → Completes s (.acqArm c) 0x0D02 c (s.b.disarmTake k) stDone) ∧
    (∀ r, (u8 (cArg c) 0).testBit 0 = true → s.b.armRefusal k = some r → Completes s (.acqArm c) 0x0D02 c s.b r.status r.reason)) ∧
  (∀ (s : State) (c : Cmd) (n : Fin 8), cObj c = sidFch n → Sent s.b c roleOperator devLive →
    (∀ k r, (s.b.fch n).queue = k :: r → s.b.takeState k = tkArmed → s.b.inHoldoff n = false →
      Completes s (.acqTrigger c) 0x0D03 c (s.b.takeTrigger n 0 s.b.now) stDone) ∧
    (∀ k r, (s.b.fch n).queue = k :: r → s.b.takeState k = tkTriggered →
      Completes s (.acqTrigger c) 0x0D03 c (s.b.missTrigger n s.b.now) stAbandoned 0x0B) ∧
    ((s.b.fch n).queue = [] → Completes s (.acqTrigger c) 0x0D03 c s.b stAbandoned 0x0A)) ∧
  (∀ (s : State) (c : Cmd) (n : Fin 8), cObj c = sidFch n → Sent s.b c roleMaintainer devLive →
    let a := cArg c
    field (u8 a 0) 1 2 ≠ 3 → u8 a 1 ≤ 15 → -512 ≤ s16 a 4 → s16 a 4 ≤ s16 a 2 → s16 a 2 ≤ 511 →
    Completes s (.acqCompare c) 0x0D04 c (s.b.cmpApply n a) stDone) ∧
  (∀ (s : State) (c : Cmd) (n : Fin 8), cObj c = sidFch n → Sent s.b c roleOperator devLive →
    let a := cArg c
    1 ≤ u16 a 2 → u16 a 2 ≤ 1000 →
    ((u8 a 0).testBit 0 = true ∨ ((s.b.fch n).queue = [] ∧ (s.b.fch n).handing = []) →
      Completes s (.acqChannel c) 0x0D05 c (s.b.fchApply n a) stDone) ∧
    ((u8 a 0).testBit 0 = false → (s.b.fch n).queue ≠ [] → Completes s (.acqChannel c) 0x0D05 c s.b stConflict 0x03)) ∧
  (∀ (s : State) (n : Fin 8) (codes : List Int), s.b.bit (Reg.acqChCfg n) 16 = true → codes ≠ [] → (s.b.fch n).queue = [] →
    (∀ x ∈ codes, -8192 ≤ x ∧ x ≤ 8191) → ∃ x : Block, Gives s (.fastStoredSample n codes) x ∧
      (x.fch n).block = (s.b.fch n).block ++ codes ∧ (x.fch n).last = some (storedSample codes) ∧ x.bit (Reg.acqChCfg n) 17 = false ∧
      x.out = s.b.out) ∧
  (∀ (s : State) (n : Fin 8) (codes : List Int) (k : Nat) (r : List Nat), s.b.bit (Reg.acqChCfg n) 16 = true → codes ≠ [] →
    (s.b.fch n).queue = k :: r → ∃ x : Block, Gives s (.fastStoredSample n codes)
      (x.takeSample k (storedSample codes) (!(codes.filter fun x => decide (x < -8192) || decide (8191 < x)).isEmpty))) ∧
  (∀ (s : State) (n : Fin 8), s.b.bit (Reg.acqChCfg n) 16 = true → 1 ≤ s.b.fld (Reg.acqChCfg n) 0 10 →
    s.b.fld (Reg.acqChCfg n) 0 10 ≤ (s.b.fch n).block.length →
    let blk := s.b.fld (Reg.acqChCfg n) 0 10
    ∃ x : Block, Gives s (.fastBlockClose n) (x.arrive (sidFch n) (BitVec.ofInt 64 (((s.b.fch n).block.take blk).getLast?.getD 0)) 0) ∧
      (x.fch n).block = (s.b.fch n).block.drop blk ∧ (x.fch n).blockOvr = false ∧ (x.fch n).queue = (s.b.fch n).queue) ∧
  (∀ (s : State) (n : Fin 8), (s.b.fch n).block.length < s.b.fld (Reg.acqChCfg n) 0 10 → exec (.fastBlockClose n) s = .next s) ∧
  (∀ (s : State) (n : Fin 8), s.b.bit (Reg.acqChCmp n) 0 = true → s.b.bit (Reg.acqChCmp n) 15 = false →
    let b := ((((s.b.setFld (Reg.acqChCmp n) 15 1 1).setFld Reg.acqState (8 + n.val) 1 1).count (Reg.acqChCmpFires n)).raise Reg.acqFlags 1 (sidFch n))
    let d := (b.putFch n { b.fch n with blockCmp := true }).driveSrc (16 + n.val) true
    ((d.fch n).queue = [] → Gives s (.fchComparatorAssert n) d) ∧
    (∀ k r, (d.fch n).queue = k :: r → u8 (d.takeDesc k) 2 = 4 → Gives s (.fchComparatorAssert n) (d.takeTrigger n 4 d.now))) ∧
  (∀ (s : State) (n : Fin 8),
    (s.b.bit (Reg.acqChCmp n) 15 = true → Gives s (.fchComparatorRelease n) (s.b.cmpRelease n) ∧ exec (.fchComparatorAssert n) s = .next s) ∧
    (s.b.bit (Reg.acqChCmp n) 15 = false → exec (.fchComparatorRelease n) s = .next s)) ∧
  (∀ (s : State) (n : Fin 8) (k : Nat) (r : List Nat), (s.b.fch n).queue = k :: r →
    (u8 (s.b.takeDesc k) 2 = 6 → u64 (s.b.takeDesc k) 8 ≤ s.b.now → (s.b.take k).lateArm = false →
      Gives s (.timeTrigger n) (s.b.takeTrigger n 6 (u64 (s.b.takeDesc k) 8))) ∧
    (s.b.takeState k = tkTriggered → tdPost (s.b.takeDesc k) ≤ (s.b.take k).post.length → Gives s (.takeComplete n) (s.b.completeTake k)) ∧
    (s.b.takeState k ≠ tkTriggered → exec (.takeComplete n) s = .next s)) ∧
  (∀ (s : State) (k : Fin 4096), s.b.takeState k = tkHandoff → (s.b.take k).started = false →
    Does s (.handoffStart k) (s.b.putTake k { s.b.take k with started := true })) ∧
  (∀ (s : State) (k : Fin 4096), s.b.takeState k = tkHandoff → (s.b.take k).started = true →
    let n := tdChannel (s.b.takeDesc k)
    let b := ((s.b.putFch n { s.b.fch n with handing := (s.b.fch n).handing.filter (· != k.val) }).setTake k tkIdle).count48 Reg.acqTakesDone
    let d := b.arrive (sidTake k) (BitVec.ofNat 64 (s.b.take k).instant)
    Gives s (.handoffEnd k) (if d.bit (Reg.acqTakeState k) 3 || (tdFlag (d.takeDesc k) 1 && !(s.b.take k).noRearm) then d.enqueueTake k
      else d.showQueue n)) ∧
  (∀ (s : State) (n : Fin 8) (t : Nat), (s.b.fch n).holdTo = some t →
    (t ≤ s.b.now → Gives s (.holdoffEnd n) ((s.b.putFch n { s.b.fch n with holdTo := none }).showHold n)) ∧
    (s.b.now < t → exec (.holdoffEnd n) s = .next s))

/-- 15 R349–R358, R369, R370: PWM. CONFIG of a pair that does not run takes effect at once and starts it where enabled; STOP stops a pair at
its boundary; OVERRIDE sets its outputs; COMMIT, COMMIT_MASK and a duty shadow, but for a bound pair; a pair's periods pass their mid-point
and boundaries; a synchronous pair restarts PHASE ticks after its master; an edge not found within 20 ms is placed. 15 R359–R367, R369,
R371, 23 R516, R517: the trip network. A source that becomes active fires once armed and enabled, unless a window blanks it, and then at the
window's end; a pin's change acts at once without a filter, after its count with one; the bank's failure drives every pin source; CLEAR
clears a latched inactive source and is refused while it is active; CONFIG and ASSERT. -/
def Obligations.PwmAndTripsAct : Prop :=
  (∀ (s : State) (c : Cmd), Sent s.b c roleOperator devLive → cObj c = 0 →
    let e := cArg c
    let n := u8 e 0
    let st := s.b.prState n
    n ≤ 47 → pairCfgBad n e = false →
    (st = pwOff → (u8 e 1).testBit 5 = false → Completes s (.pwmConfig c) 0x0E01 c (s.b.applyPairCfg n e) stDone) ∧
    (st = pwOff → (u8 e 1).testBit 5 = true → let b := s.b.applyPairCfg n e
      Completes s (.pwmConfig c) 0x0E01 c (((b.putPr n { start := b.now + 4 }).setPrState n pwRunning).slowStart n) stDone) ∧
    (st = pwRunning ∨ st = pwRestarting → Completes s (.pwmConfig c) 0x0E01 c s.b stConflict 0x01)) ∧
  (∀ (s : State) (c : Cmd), Sent s.b c roleOperator devLive → cObj c = 0 →
    let n := u8 (cArg c) 0
    let st := s.b.prState n
    n ≤ 47 →
    (st ≠ pwOff → Completes s (.pwmStop c) 0x0E02 c
      ((s.b.putPr n { s.b.pr n with stopAt := if st = pwTripped then 2 else 1 }).setFld (Reg.pwmPairState n) 3 1 1) stDone) ∧
    (st = pwOff → Completes s (.pwmStop c) 0x0E02 c s.b stConflict 0x02) ∧
    (let b := (s.b.putPr n { s.b.pr n with ovr := some (u8 (cArg c) 1 % 4) }).setFld (Reg.pwmPairState n) 2 1 1
     Completes s (.pwmOverride c) 0x0E03 c (if st = pwRunning then b else b.applyOverride n) stDone)) ∧
  (∀ (s : State) (ini : Ini) (n : Fin 48) (v : Word) (r : RegRow), r.wide = false →
    (Reaches s.b ini (Reg.pwmPairCommit n) r false →
      (v.toNat.testBit 0 = true → Gives s (.pwmCommit ini n v) (s.b.commitPair n)) ∧
      (v.toNat.testBit 0 = false → exec (.pwmCommit ini n v) s = .next s)) ∧
    (Reaches s.b ini (Reg.pwmPairDutySh n) r false →
      (s.b.prBound n = false → Gives s (.dutyShWrite ini n v) (s.b.writeDutySh n v.toNat)) ∧
      (s.b.prBound n = true → Gives s (.dutyShWrite ini n v) (s.b.prFlag n 2)))) ∧
  (∀ (s : State) (ini : Ini) (lo : Word) (r : RegRow), r.wide = true → Reaches s.b ini Reg.pwmCommitMask r false →
    let hi := (tget? s.b.staging (stageKey ini Reg.pwmCommitMask)).getD (s.b.regNow (Reg.pwmCommitMask + 4))
    let b0 : Block := { s.b with staging := tdel s.b.staging (stageKey ini Reg.pwmCommitMask) }
    Gives s (.commitMaskWrite ini lo) ((List.range 48).foldl (fun (b : Block) n =>
      if (lo.toNat + 2 ^ 32 * hi.toNat).testBit n then b.commitPair n else b) b0)) ∧
  (∀ (s : State) (n : Fin 48), s.b.prState n ≠ pwOff →
    let x := s.b.pr n
    (s.b.prMid n = true → x.half = false → s.b.prSlow n = false → x.start + s.b.rdN (Reg.pwmPairPeriod n) ≤ s.b.now →
      Gives s (.updatePoint n) (s.b.pairMid n)) ∧
    (s.b.prMid n = false ∨ x.half = true ∨ s.b.prSlow n = true → x.start + s.b.prLength n ≤ s.b.now →
      Gives s (.updatePoint n) (s.b.pairBoundary n (x.start + s.b.prLength n))) ∧
    (s.b.prMid n = false → s.b.now < x.start + s.b.prLength n → exec (.updatePoint n) s = .next s)) ∧
  (∀ (s : State) (n : Fin 48), s.b.prState n ≠ pwOff →
    let m := s.b.fld (Reg.pwmPairSync n) 16 8
    m ≤ 47 → s.b.prState m ≠ pwOff → (s.b.pr n).synced ≠ some (s.b.pr m).start →
    (s.b.pr m).start + 4 * s.b.fld (Reg.pwmPairSync n) 0 16 ≤ s.b.now →
      Gives s (.syncRestart n) ((s.b.putPr n { s.b.pr n with synced := some (s.b.pr m).start }).pairBoundary n s.b.now)) ∧
  (∀ (s : State) (n : Fin 48) (t : Nat), s.b.prState n = pwRunning → (s.b.pr n).waitOn = some t →
    (t + 20000000 ≤ s.b.now →
      Gives s (.zcTimeout n) ((s.b.putPr n { s.b.pr n with waitOn := none, slowHigh := true }).prFlag n 3)) ∧
    (s.b.now < t + 20000000 → (s.b.pr n).waitOff = none → exec (.zcTimeout n) s = .next s)) ∧
  (∀ (b : Block) (n : Nat), b.trpBit Reg.trpActive n = false → b.activate n =
    ((b.setTrpBit Reg.trpActive n true).putTrp n { b.trp n with assertAt := b.now }).assertSrc n) ∧
  (∀ (b : Block) (n : Nat), b.trpBit Reg.trpActive n = true → b.activate n = b) ∧
  (∀ (b : Block) (n : Nat), let x := b.tripTriggers n (b.trp n).assertAt
    (x.tripArmed = true → (x.srcCfg n).testBit 0 = true → x.srcBlanked n = false → b.assertSrc n = x.fire n) ∧
    (x.tripArmed = true → (x.srcCfg n).testBit 0 = true → x.srcBlanked n = true →
      b.assertSrc n = x.putTrp n { x.trp n with blanked := true }) ∧
    (x.tripArmed = false ∨ (x.srcCfg n).testBit 0 = false → b.assertSrc n = x)) ∧
  (∀ (s : State) (n : Fin 16) (l : Bool),
    Gives s (.tripPinEdge n l 0) ((s.b.putTrp n { s.b.trp n with pin := l }).pinShow n) ∧
    (∀ w, w ≠ 0 → s.b.srcFilter n ≠ 0 → exec (.tripPinEdge n l w) s = .next s) ∧
    (s.b.srcFilter n ≠ 0 → s.b.trpBit Reg.trpRaw n = true → (s.b.trp n).since + 4 * s.b.srcFilter n ≤ s.b.now →
      Gives s (.tripFilterCount n true) ((s.b.putTrp n { s.b.trp n with own := true }).activate n)) ∧
    (s.b.srcFilter n = 0 ∨ s.b.now < (s.b.trp n).since + 4 * s.b.srcFilter n → exec (.tripFilterCount n l) s = .next s)) ∧
  (∀ (s : State) (n : Fin 64), (s.b.trp n).blanked = true → s.b.trpBit Reg.trpActive n = true → s.b.srcBlanked n = false →
    Gives s (.blankWindowEnd n) (s.b.fire n true)) ∧
  (∀ s : State, Gives s .tripBankFail ((List.range 16).foldl (fun (b : Block) n => b.pinShow n) { s.b with tripBank := true }) ∧
    Gives s .tripBankRecover ((List.range 16).foldl (fun (b : Block) n => b.pinShow n) { s.b with tripBank := false })) ∧
  (∀ (s : State) (c : Cmd) (n : Fin 64), cObj c = sidSource n → Sent s.b c roleOperator devLive →
    (s.b.trpBit Reg.trpLatched n = true → s.b.trpBit Reg.trpActive n = false → Completes s (.trpClear c) 0x0E10 c (s.b.clearSrc n) stDone) ∧
    (s.b.trpBit Reg.trpLatched n = true → s.b.trpBit Reg.trpActive n = true → Completes s (.trpClear c) 0x0E10 c
      ((s.b.count Reg.trpClearsRefused).setFlag Reg.trpFlags 1) stConflict 0x01) ∧
    (s.b.trpBit Reg.trpLatched n = false → Completes s (.trpClear c) 0x0E10 c s.b stConflict 0x02)) ∧
  (∀ (s : State) (c : Cmd) (n : Fin 64), cObj c = sidSource n → Sent s.b c roleMaintainer devLive →
    let v := u32 (cArg c) 0
    (n.val < 16 ∨ 48 ≤ n.val → v.testBit 2 = false → field v 4 7 ≤ 95 → Completes s (.trpConfig c) 0x0E11 c (s.b.configSrc n v) stDone) ∧
    (16 ≤ n.val → n.val < 48 → Completes s (.trpConfig c) 0x0E11 c s.b stBadArg 0x01)) ∧
  (∀ (s : State) (c : Cmd) (n : Fin 64), cObj c = sidSource n → Sent s.b c roleOperator devLive →
    (48 ≤ n.val → Completes s (.trpAssert c) 0x0E12 c (s.b.driveSrc n ((u8 (cArg c) 0).testBit 0)) stDone) ∧
    (n.val < 48 → Completes s (.trpAssert c) 0x0E12 c s.b stBadArg 0x02))

/-- 16 R379, R381, R382, R393, R395, R396: the motion commands: MOVE is checked and carried out; ENABLE and its opposite switch between
DISABLED and STANDSTILL; PROFILE rewrites a set; SET_POSITION sets the commanded position of an axis at rest; LIMITS hold the present
position; POINT stores a point of a group. 16 R377, R380, R384, R385, R390–R392, R394: an axis in time: it comes to rest at its target,
reaches its speed, turns after DIR_SETUP, switches its resolution, deviates, sends its standstill template; encoder edges count and an index
latches; an SSI frame is shown; a DCP frame ends and shows its answer; a periodic record is written. -/
def Obligations.MotionCommandsAndAxesProceed : Prop :=
  (∀ (s : State) (c : Cmd), Sent s.b c roleOperator devWorld →
    let a := cArg c
    (firstRefusal (s.b.moveRefusals (cObj c) (u8 a 0) (u8 a 1) (w32 a 4)) = none →
      Completes s (.motMove c) 0x0F01 c (s.b.moveRun (cObj c) (u8 a 0) (u8 a 1) (w32 a 4)) stDone) ∧
    (∀ r, firstRefusal (s.b.moveRefusals (cObj c) (u8 a 0) (u8 a 1) (w32 a 4)) = some r →
      Completes s (.motMove c) 0x0F01 c s.b r.status r.reason)) ∧
  (∀ (s : State) (c : Cmd) (n : Fin 64), cObj c = sidAxis n → Sent s.b c roleOperator devWorld → s.b.axPresent n = true →
    let st := s.b.axState n
    (st = axDisabled → (u8 (cArg c) 0).testBit 0 = true →
      Completes s (.motEnable c) 0x0F02 c ((s.b.putAx n { s.b.ax n with restAt := s.b.now }).setAx n axStandstill 1) stDone) ∧
    (st = axStandstill → (u8 (cArg c) 0).testBit 0 = false → Completes s (.motEnable c) 0x0F02 c (s.b.setAx n axDisabled 1) stDone) ∧
    (st = axHalted → Completes s (.motEnable c) 0x0F02 c s.b stConflict 0x04) ∧
    (st = axMoving ∨ st = axStopping → (u8 (cArg c) 0).testBit 0 = false → Completes s (.motEnable c) 0x0F02 c s.b stConflict 0x07)) ∧
  (∀ (s : State) (c : Cmd) (n : Fin 64), cObj c = sidAxis n → Sent s.b c roleMaintainer devWorld → s.b.axPresent n = true →
    let a := cArg c
    let p := padTo 40 (slice a 8 40)
    let b : Block := { s.b with cfg := tput s.b.cfg (key tProfile (16 * n.val + u8 a 0)) p }
    u8 a 0 ≤ 15 → profileBad (s.b.axMedium n) (f32Rat (w32 (s.b.axDesc n) 8)) (f32Rat (w32 (s.b.axDesc n) 12)) p = false →
    ((s.b.ax n).set ≠ u8 a 0 → Completes s (.motProfile c) 0x0F03 c b stDone) ∧
    ((s.b.ax n).set = u8 a 0 → s.b.axState n = axMoving → Completes s (.motProfile c) 0x0F03 c (b.setRewritten n p) stDone)) ∧
  (∀ (s : State) (c : Cmd) (n : Fin 64), cObj c = sidAxis n → Sent s.b c roleOperator devWorld → s.b.axPresent n = true →
    s.b.axState n = axStandstill ∨ s.b.axState n = axDisabled →
    let v := s32 (cArg c) 4
    let d := s.b.axDesc n
    let k := toSigned 32 (s.b.rdN (Reg.motAxEncCount n))
    Completes s (.motSetPosition c) 0x0F04 c (((s.b.putAx n { s.b.ax n with
      cmd := v, pos := (v : Rat), offset := v - divOpen (k * (u16 d 32 : Int)) (u16 d 34) }).encShow n k).axShow n) stDone) ∧
  (∀ (s : State) (c : Cmd) (n : Fin 64), cObj c = sidAxis n → Sent s.b c roleMaintainer devWorld → s.b.axPresent n = true →
    let a := cArg c
    let p := toSigned 32 (s.b.rdN (Reg.motAxCmdPos n))
    s32 a 4 < s32 a 8 →
    (s.b.axState n = axStandstill → s32 a 4 ≤ p → p ≤ s32 a 8 → Completes s (.motLimits c) 0x0F05 c
      (((s.b.wr (Reg.motAxLimitLo n) (w32 a 4)).wr (Reg.motAxLimitHi n) (w32 a 8)).setFld (Reg.motAxCfg n) 3 1 (u8 a 12 % 2)) stDone) ∧
    (s.b.axState n = axStandstill → p < s32 a 4 ∨ s32 a 8 < p → Completes s (.motLimits c) 0x0F05 c s.b stConflict 0x08) ∧
    (s.b.axState n = axMoving → Completes s (.motLimits c) 0x0F05 c s.b stConflict 0x07)) ∧
  (∀ (s : State) (c : Cmd) (g : Nat), cObj c = 0x702000 + g → isGroupSid (cObj c) = true → Sent s.b c roleOperator devWorld →
    s.b.groupMembers g ≠ [] → u16 (cArg c) 0 < 1024 → Completes s (.motPoint c) 0x0F06 c
      { s.b with cfg := tput s.b.cfg (key tGroupPoint (1024 * g + u16 (cArg c) 0)) (padTo 32 (slice (cArg c) 4 32)) } stDone) ∧
  (∀ (s : State) (n : Fin 64), (s.b.axState n = axMoving ∨ s.b.axState n = axStopping) → (s.b.ax n).ending = true → (s.b.ax n).next = none →
    Gives s (.axisAtTarget n) (s.b.axRest n)) ∧
  (∀ (s : State) (n : Fin 64), s.b.axState n = axMoving → (s.b.ax n).mode = 2 → (s.b.ax n).s = (s.b.ax n).speed → (s.b.ax n).next = none →
    s.b.bit (Reg.motAxState n) 6 = false → Gives s (.axisAtSpeed n) ((s.b.setFld (Reg.motAxState n) 6 1 1).axShow n)) ∧
  (∀ (s : State) (n : Fin 64) (m set : Nat) (t : Rat), (s.b.ax n).next = some (m, t, set) → (s.b.ax n).ending = true →
    let x := s.b.ax n
    (x.restAt + 4 * u8 (s.b.axDesc n) 42 ≤ s.b.now → Gives s (.reversal n)
      (((s.b.putAx n { x with s := 0, a := 0, next := none, ending := false }).axRaise n 5).axBegin n m set t x.scale x.grp)) ∧
    (s.b.now < x.restAt + 4 * u8 (s.b.axDesc n) 42 → exec (.reversal n) s = .next s)) ∧
  (∀ (s : State) (n : Fin 64), s.b.axPresent n = true → (s.b.ax n).switching = none → (s.b.ax n).atSwitch (s.b.axDesc n) = true →
    let w := wantEntry (s.b.axDesc n) (s.b.ax n).entry (s.b.ax n).s
    Gives s (.resolutionSwitch n) ((s.b.putAx n { s.b.ax n with switching := some w }).dcpSend n (u8 (s.b.axDesc n) (44 + w)))) ∧
  (∀ (s : State) (n : Fin 64) (t : Nat), (s.b.ax n).devSince = some t → s.b.bit (Reg.motAxState n) 9 = false →
    (t + 1000 * u16 (s.b.axDesc n) 28 ≤ s.b.now → ∃ x : Block, Gives s (.deviation n) (x.devAct n) ∧ x.bit (Reg.motAxFlags n) 2 = true ∧
      x.bit Reg.motFlags 2 = true) ∧
    (s.b.now < t + 1000 * u16 (s.b.axDesc n) 28 → exec (.deviation n) s = .next s)) ∧
  (∀ (s : State) (n : Fin 64), s.b.axPresent n = true → s.b.axState n = axStandstill → (s.b.ax n).templ = false →
    let d := s.b.axDesc n
    (s.b.ax n).restAt + 1000000 * u16 d 2 ≤ s.b.now → Gives s (.standstillDelayExpiry n)
      ((s.b.putAx n { s.b.ax n with templ := true }).dcpSend n (if u8 d 1 % 4 = 1 then tmOff else if u8 d 1 % 4 = 2 then tmShort else tmHold))) ∧
  (∀ (s : State) (n : Fin 64) (a z : Bool), s.b.axFlag n 6 = true → s.b.axFlag n 5 = false →
    let x := s.b.ax n
    let d := (quadPhase a z + 4 - quadPhase x.encA x.encB) % 4
    let b := s.b.putAx n { x with encA := a, encB := z, lastEdge := s.b.now }
    let k := toSigned 32 (s.b.rdN (Reg.motAxEncCount n))
    let soon := x.lastEdge ≠ 0 ∧ s.b.now < x.lastEdge + 10
    (d = 1 → ¬soon → Gives s (.encoderEdge n a z) (b.encShow n (k + 1))) ∧ (d = 3 → ¬soon → Gives s (.encoderEdge n a z) (b.encShow n (k - 1))) ∧
    (d = 2 ∨ (d ≠ 0 ∧ soon) → Gives s (.encoderEdge n a z) (b.encError n)) ∧ (d = 0 → exec (.encoderEdge n a z) s = .next s) ∧
    Gives s (.encoderIndex n) (s.b.wr (Reg.motAxIndex n) (s.b.rd (Reg.motAxEncCount n)))) ∧
  (∀ (s : State) (n : Fin 64) (raw : Nat), s.b.axFlag n 6 = true → s.b.axFlag n 5 = true →
    let bits := u8 (s.b.axDesc n) 36
    Gives s (.ssiFrame n false raw) (s.b.encError n) ∧
    ((u8 (s.b.axDesc n) 37).testBit 0 = false → Gives s (.ssiFrame n true raw) (s.b.encShow n (raw % 2 ^ bits))) ∧
    ((u8 (s.b.axDesc n) 37).testBit 0 = true → Gives s (.ssiFrame n true raw) (s.b.encShow n (ungray (bits - 1) (raw % 2 ^ bits))))) ∧
  (∀ (s : State) (p : Fin 8) (miso n k : Nat) (rest : List (Nat × Nat)), tget [] s.b.dcp p = (n, k) :: rest →
    (miso % 2 ^ 40) &&& leNat (slice (s.b.fix tTemplate (16 * p.val + tmMask)) 0 5) = 0 →
    ∃ x : Block, Gives s (.dcpFrameEnd p miso) x ∧ tget [] x.dcp p = rest ∧ x.rd64 (Reg.motDcpLastRx p) = miso % 2 ^ 40 ∧
      x.fld (Reg.motDcpState p) 16 16 = (s.b.fld (Reg.motDcpState p) 16 16 + 1) % 65536 ∧
      (k = tmRun → (x.ax n).hold = false ∧ (x.ax n).startAt = s.b.now + 1000 * u8 (s.b.axDesc n) 61)) ∧
  (∀ (s : State) (n : Fin 64), let p := u16 (s.b.axDesc n) 62
    s.b.axPresent n = true → p ≠ 0 →
    ((s.b.ax n).lastRec + 1000000 * p ≤ s.b.now → Gives s (.motionRecord n) (s.b.motionRec n 0)) ∧
    (s.b.now < (s.b.ax n).lastRec + 1000000 * p → exec (.motionRecord n) s = .next s))

/-- 17 R399, R401, R405, R407, R408, R410, R411, R421, R422: the bus commands: MODE changes a controller, waiting for its own frame; DETECT
is QUEUED and tries its candidates; RECOVER begins recovery of a held BUS_OFF; TX writes data, triggers, or is abandoned for an absent node;
CANCEL; a read of a receive object's snapshot consumes it. 17 R399, R401, R403, R404, R407, R409, R411: frames. A frame received in a
listening mode counts the error counter down and is delivered; at a start of frame the best pending object is committed with its data; a
frame sent leaves SENT, or pending again; an error counts and lets a mode change through; recovery ends active with counters at 0; a cyclic
period triggers; a candidate's dwell and the timeout end. -/
def Obligations.BusCommandsAndFramesProceed : Prop :=
  (∀ (s : State) (c : Cmd) (k : Fin 8), cObj c = sidCan k → Sent s.b c roleOperator devLive →
    let a := cArg c
    let m := s.b.canMode k
    u8 a 0 ≤ 2 → u8 a 1 ≤ 15 → s.b.setUsed k (u8 a 1) = true →
    (m ≠ cnDetect → m ≠ cnBusOff ∨ u8 a 0 = 0 → s.b.committed k = none →
      Completes s (.canMode c) 0x1001 c (s.b.enterMode k (u8 a 0) (u8 a 1) ((u8 a 2).testBit 0)) stDone) ∧
    (m ≠ cnDetect → m ≠ cnBusOff ∨ u8 a 0 = 0 → s.b.committed k ≠ none → Completes s (.canMode c) 0x1001 c
      (s.b.putCan k { s.b.can k with want := some (u8 a 0, u8 a 1, (u8 a 2).testBit 0) }) stDone) ∧
    (m = cnDetect → Completes s (.canMode c) 0x1001 c s.b stConflict 0x01) ∧
    (m = cnBusOff → u8 a 0 ≠ 0 → Completes s (.canMode c) 0x1001 c s.b stConflict 0x02)) ∧
  (∀ (s : State) (c : Cmd) (k : Fin 8), cObj c = sidCan k → Sent s.b c roleOperator devLive →
    let a := cArg c
    let m := s.b.canMode k
    let x : CanSt := { mask := u16 a 0, dwell := u8 a 2, timeoutAt := s.b.now + 1000000 * u32 a 4, op := some (opOf c 0x1002), back := m, backSet := s.b.canSet k }
    u16 a 0 ≠ 0 → u8 a 2 ≠ 0 → u32 a 4 ≠ 0 → u32 a 4 ≤ 600000 → (∀ i, i < 16 → (u16 a 0).testBit i = true → s.b.setUsed k i = true) →
    (m = cnOff ∨ m = cnListen → Completes s (.canDetect c) 0x1002 c (((s.b.putCan k x).setCan k cnDetect).tryCandidate k
      (((List.range 16).find? fun i => (u16 a 0).testBit i).getD 0)) stQueued) ∧
    (m = cnActive ∨ m = cnPassive → Completes s (.canDetect c) 0x1002 c s.b stConflict 0x04)) ∧
  (∀ (s : State) (c : Cmd) (k : Fin 8), cObj c = sidCan k → Sent s.b c roleOperator devLive →
    (s.b.canMode k = cnBusOff → s.b.bit (Reg.canState k) 8 = true →
      Completes s (.canRecover c) 0x1003 c (s.b.setFld (Reg.canState k) 3 1 1) stDone) ∧
    (s.b.canMode k ≠ cnBusOff → Completes s (.canRecover c) 0x1003 c s.b stConflict 0x05) ∧
    (s.b.canMode k = cnBusOff → s.b.bit (Reg.canState k) 8 = false → Completes s (.canRecover c) 0x1003 c s.b stConflict 0x06)) ∧
  (∀ (s : State) (c : Cmd) (i : Fin 4096), cObj c = sidTxo i → Sent s.b c roleOperator devLive → s.b.txoUsed i = true →
    let a := cArg c
    let m := s.b.canMode (i.val / 512)
    let b := if (u8 a 0).testBit 1 then s.b.txData i (u32 a 4) (slice a 8 (u16 a 2)) else s.b
    u16 a 2 ≤ 40 → u32 a 4 + u16 a 2 ≤ s.b.txoLen i →
    ((u8 a 0).testBit 0 = false → Completes s (.canTx c) 0x1004 c b stDone) ∧
    ((u8 a 0).testBit 0 = true → s.b.dev ≠ dsAwaitWorld → m = cnActive ∨ m = cnPassive ∨ m = cnBusOff →
      (b.txoNoNode i = false → Completes s (.canTx c) 0x1004 c (b.txTrigger i) stDone) ∧
      (b.txoNoNode i = true → Completes s (.canTx c) 0x1004 c b stAbandoned 0x0C)) ∧
    ((u8 a 0).testBit 0 = true → s.b.dev = dsAwaitWorld → Completes s (.canTx c) 0x1004 c s.b stConflict 0x03) ∧
    ((u8 a 0).testBit 0 = true → s.b.dev ≠ dsAwaitWorld → m = cnListen → Completes s (.canTx c) 0x1004 c s.b stConflict 0x07) ∧
    Completes s (.canCancel c) 0x1005 c (s.b.txCancel i) stDone) ∧
  (∀ (s : State) (ini : Ini) (k : Fin 4096) (r : RegRow), ReadReaches s.b ini (Reg.canRxoSnap k) r false → r.wide = false → r.acc = .rc →
    Gives s (.canRxoSnapRead ini k) (s.b.snapRead (ini == .host) k)) ∧
  (∀ (s : State) (k : Fin 8) (f : CanFrame), let m := s.b.canMode k
    (m = cnListen ∨ m = cnActive ∨ m = cnPassive → Gives s (.canFrameReceived k f)
      ((s.b.setCounters k (s.b.tec k) (if 128 ≤ s.b.rec' k then 127 else s.b.rec' k - 1)).receive k f)) ∧
    (m = cnDetect → Gives s (.canFrameReceived k f) (s.b.detectFrame k f)) ∧
    (m = cnOff ∨ m = cnBusOff → exec (.canFrameReceived k f) s = .next s)) ∧
  (∀ (s : State) (k : Fin 8), s.b.canSends k = true → s.b.committed k = none →
    (∀ i, s.b.txBest k = some i → Gives s (.startOfFrame k) ((s.b.putTxo i { s.b.txo i with
      frame := some (padTo (s.b.txoLen i) (s.b.txo i).data), cancelled := false }).setTxo i txCommitted)) ∧
    (s.b.txBest k = none → exec (.startOfFrame k) s = .next s)) ∧
  (∀ (s : State) (k : Fin 8) (i : Nat), s.b.committed k = some i → ∃ x : Block, Gives s (.canFrameSent k) (x.canIdle k) ∧
    x.txoState i = (if s.b.bit (Block.txoReg i) 15 then txPending else txSent) ∧ (x.txo i).frame = none ∧ x.bit (Block.txoReg i) 15 = false ∧
    x.bit (Block.txoReg i) 13 = (s.b.txo i).cancelled ∧
    x.rdN (Reg.canTxoSent k (i % 512)) = (s.b.rdN (Reg.canTxoSent k (i % 512)) + 1) % 2 ^ 32) ∧
  (∀ (s : State) (k : Fin 8) (e : Fin 6), let m := s.b.canMode k
    m = cnListen ∨ m = cnActive ∨ m = cnPassive → s.b.committed k = none →
    Gives s (.canError k true e) (s.b.canIdle k) ∧ Gives s (.canError k false e) ((s.b.busError k e.val none).canIdle k)) ∧
  (∀ (s : State) (k : Fin 8) (e : Fin 6) (i : Nat), s.b.canMode k = cnActive → s.b.committed k = some i →
    Gives s (.canError k true e) ((s.b.txFail k i).canIdle k) ∧
    Gives s (.canError k false e) (((s.b.txFail k i).busError k e.val (some i)).canIdle k)) ∧
  (∀ (s : State) (k : Fin 8), s.b.canMode k = cnBusOff → s.b.bit (Reg.canState k) 3 = true → ∃ x, Gives s (.busOffRecoveryEnd k) x ∧
    x.canMode k = cnActive ∧ x.tec k = 0 ∧ x.rec' k = 0) ∧
  (∀ (s : State) (k : Fin 8) (o : Fin 512) (t : Nat), let i := 512 * k.val + o.val
    (s.b.txo i).due = some t →
    let b := s.b.putTxo i { s.b.txo i with due := some (t + 1000 * u32 (s.b.fix tTxo i) 8) }
    (t ≤ s.b.now → b.txoNoNode i = false → Gives s (.cyclicPeriod k o) (b.txTrigger i true)) ∧
    (t ≤ s.b.now → b.txoNoNode i = true → Gives s (.cyclicPeriod k o) b) ∧ (s.b.now < t → exec (.cyclicPeriod k o) s = .next s)) ∧
  (∀ (s : State) (k : Fin 8), s.b.canMode k = cnDetect →
    ((s.b.can k).tryAt + 1000000 * (s.b.can k).dwell ≤ s.b.now →
      Gives s (.detectDwellEnd k) (s.b.tryCandidate k (nextCandidate (s.b.can k).mask (s.b.can k).trying))) ∧
    ((s.b.can k).timeoutAt ≤ s.b.now → Gives s (.detectTimeout k) (s.b.detectEnd k false)) ∧
    (s.b.now < (s.b.can k).timeoutAt → exec (.detectTimeout k) s = .next s))

/-- 17 R415, R417, R421, R423: serial ports. MODE opens a port and closes it once its transaction ends; TRIGGER and SEND join the queue of
eight; an AUTO entry falls due and joins; a request that has been sent awaits its response where it polls; a response is examined, a missing
one times out, and after TURN the next transaction begins. -/
def Obligations.SerialPortsComplete : Prop :=
  (∀ (s : State) (c : Cmd) (p : Fin 4), cObj c = sidSer p → Sent s.b c roleOperator devLive →
    ((u8 (cArg c) 0).testBit 0 = true → s.b.serMode p = srOff →
      Completes s (.serMode c) 0x1011 c ((s.b.setFld (Reg.serState p) 0 2 srIdle).serNext p) stDone) ∧
    ((u8 (cArg c) 0).testBit 0 = true → s.b.serMode p ≠ srOff →
      Completes s (.serMode c) 0x1011 c (s.b.putSer p { s.b.ser p with off := false }) stDone) ∧
    ((u8 (cArg c) 0).testBit 0 = false → s.b.serMode p = srBusy →
      Completes s (.serMode c) 0x1011 c (s.b.putSer p { s.b.ser p with off := true }) stDone) ∧
    ((u8 (cArg c) 0).testBit 0 = false → s.b.serMode p = srIdle → Completes s (.serMode c) 0x1011 c (s.b.serOff p) stDone)) ∧
  (∀ (s : State) (c : Cmd) (p : Fin 4), cObj c = sidSer p → Sent s.b c roleOperator devLive →
    let i := u8 (cArg c) 0
    let join (op : Nat) (r : SerReq) : Block :=
      ((s.b.putSer p { s.b.ser p with queue := (s.b.ser p).queue ++ [{ r with op := some (opOf c op) }] }).showSer p).serNext p
    (i ≤ 63 → u8 (s.b.serEntry p i) 0 ≠ 0 →
      (s.b.serMode p ≠ srOff → (s.b.ser p).queue.length < 8 → Gives s (.serTrigger c) (join 0x1012 { entry := i, bytes := s.b.template p i })) ∧
      (s.b.serMode p = srOff → Completes s (.serTrigger c) 0x1012 c s.b stConflict 0x01) ∧
      (s.b.serMode p ≠ srOff → 8 ≤ (s.b.ser p).queue.length → Completes s (.serTrigger c) 0x1012 c s.b stNoSpace)) ∧
    (1 ≤ i → i ≤ 40 →
      (s.b.serMode p ≠ srOff → (s.b.ser p).queue.length < 8 → Gives s (.serSend c) (join 0x1013 { entry := 64, bytes := slice (cArg c) 8 i })) ∧
      (s.b.serMode p = srOff → Completes s (.serSend c) 0x1013 c s.b stConflict 0x01))) ∧
  (∀ (s : State) (p : Fin 4) (k t : Nat), let x := s.b.ser p
    let e := s.b.serEntry p k
    tget? x.next k = some t → u8 e 0 = 1 → (u8 e 1).testBit 3 = true →
    let y := { x with next := tput x.next k (t + 1000 * u32 e 12) }
    (t ≤ s.b.now → s.b.serMode p ≠ srOff → x.due.contains k = false →
      Gives s (.serEntryDue p k) ((s.b.putSer p { y with due := y.due ++ [k] }).serNext p)) ∧
    (t ≤ s.b.now → s.b.serMode p ≠ srOff → x.due.contains k = true →
      Does s (.serEntryDue p k) (((s.b.putSer p y).count (Reg.serSkipped p)).setFlag (Reg.serFlags p) 2)) ∧
    (s.b.now < t → exec (.serEntryDue p k) s = .next s)) ∧
  (∀ (s : State) (p : Fin 4) (r : SerReq), let x := s.b.ser p
    x.cur = some r → s.b.serMode p = srBusy → x.await = false → x.turnFrom = none → ∃ b : Block, Reports s.b b ∧
    (r.entry < 64 → u8 (b.serEntry p r.entry) 0 = 1 → Gives s (.serRequestSent p) (b.putSer p { x with await := true, sentAt := b.now })) ∧
    (¬(r.entry < 64 ∧ u8 (b.serEntry p r.entry) 0 = 1) → Gives s (.serRequestSent p) (b.serEnd p false))) ∧
  (∀ (s : State) (p : Fin 4) (r : SerReq) (msg : List Byte), let x := s.b.ser p
    x.cur = some r → s.b.serMode p ≠ srOff → x.await = true →
    let v := s.b.serExamine p (s.b.serEntry p r.entry) msg false
    (v.1 = 0 → ∃ b, Reports s.b b ∧ Gives s (.serMessageEnd p msg false) ((b.serUpdate v.2).serEnd p true)) ∧
    (v.1 ≠ 0 → v.1 ≠ 3 → ∃ b, Reports s.b b ∧ Gives s (.serMessageEnd p msg false) (b.serFail p r.entry v.1))) ∧
  (∀ (s : State) (p : Fin 4) (msg : List Byte), s.b.serMode p = srOff → exec (.serMessageEnd p msg false) s = .next s) ∧
  (∀ (s : State) (p : Fin 4) (r : SerReq), let x := s.b.ser p
    x.cur = some r → x.await = true →
    (x.sentAt + 1000 * u32 (s.b.serEntry p r.entry) 20 ≤ s.b.now → Gives s (.respTimeout p) (s.b.serFail p r.entry 1)) ∧
    (s.b.now < x.sentAt + 1000 * u32 (s.b.serEntry p r.entry) 20 → exec (.respTimeout p) s = .next s)) ∧
  (∀ (s : State) (p : Fin 4) (t : Nat), let x := s.b.ser p
    x.turnFrom = some t → let b := s.b.putSer p { x with turnFrom := none, again := false }
    (t + s.b.turnNs p ≤ s.b.now → x.again = false → Gives s (.serTurnEnd p) (b.serNext p)) ∧
    (t + s.b.turnNs p ≤ s.b.now → x.again = true → Gives s (.serTurnEnd p) b) ∧
    (s.b.now < t + s.b.turnNs p → exec (.serTurnEnd p) s = .next s))

/-- 17 R419, R420: digital lines. A changed input level shows, arrives and has its record, merged ones within 4 µs of the one before are
recorded together with EDGE_MERGED; an output line or an unchanged level does nothing; a bank whose supply differs from its declaration
shows MISMATCH and its lines fall to their reset state. -/
def Obligations.DigitalLinesFollowTheirEdges : Prop :=
  (∀ (s : State) (n : Fin 192) (l : Bool), s.b.dioIsOut n = false → s.b.bankBad n = false →
    (s.b.bit (Reg.dioIn (n.val / 32)) (n.val % 32) ≠ l → Gives s (.dioEdge n l)
      (((s.b.setFld (Reg.dioIn (n.val / 32)) (n.val % 32) 1 (b2n l)).arrive (sidDio n) (BitVec.ofNat 64 (b2n l))).dioEdge n l)) ∧
    (s.b.bit (Reg.dioIn (n.val / 32)) (n.val % 32) = l → exec (.dioEdge n l) s = .next s)) ∧
  (∀ (s : State) (n : Fin 192) (l : Bool), s.b.dioIsOut n = true ∨ s.b.bankBad n = true → exec (.dioEdge n l) s = .next s) ∧
  (∀ (s : State) (n : Fin 192) (t : Nat), let x := s.b.dioSt n
    let l := if s.b.dioIsOut n then s.b.dioOut n else s.b.bit (Reg.dioIn (n.val / 32)) (n.val % 32)
    x.lastRec = some t →
    (t + 4000 ≤ s.b.now → x.edges ≠ 0 → Gives s (.dioEdgeMergeEnd n) ((s.b.dioRecord n x.edges l).raise Reg.dioFlags 0 (sidDio n))) ∧
    (s.b.now < t + 4000 ∨ x.edges = 0 → exec (.dioEdgeMergeEnd n) s = .next s)) ∧
  (∀ (s : State) (k : Fin 12), ∃ x, Gives s (.dioBankMismatch k) x ∧ x.bit (Reg.dioBankState k) 2 = true ∧
    x.bit (Reg.dioBankState k) 1 = !s.b.bit (Reg.dioBankState k) 0 ∧ x.fld (Reg.dioOut (k.val / 2)) (16 * (k.val % 2)) 16 = 0 ∧
    x.fld (Reg.dioDir (k.val / 2)) (16 * (k.val % 2)) 16 = 0 ∧ x.bit Reg.dioFlags 1 = true)

/-- 18 R426, R427, R443, R449, R453: each event of the safety island runs in the island's own state and time and leaves it at a cycle's end
(siTo: demands to trip sources 40..43, the log, the mirror); a cycle does so too and there brings a checked new set into force, or ends its
stage INTERNAL. An island that has not been started, or is held, does nothing. -/
def Obligations.SafetyIslandEventsComplete : Prop :=
  (∀ (s : State) (inp : Fin 12) (out brk : Fin 4) (fn conn : Fin 16) (net : Fin 2) (fr : CanFrame) (ok l m : Bool),
    ∀ q, SiEvent inp out brk fn conn net fr ok l m q →
      (s.b.islandUp = true → exec q.1 s = .next (s.siTo (q.2 s.b.elapsed s.si) false)) ∧ (s.b.islandUp = false → exec q.1 s = .next s)) ∧
  (∀ (s : State) (inp : SafetyInputs),
    let t := s.b.elapsed
    let x := s.si.cycle t (s.b.refclk || s.b.mgmt.refRestored.isSome) inp
    (s.b.islandUp = false → exec (.safetyCycle inp) s = .next s) ∧
    (s.b.islandUp = true → x.next = none → exec (.safetyCycle inp) s = .next (s.siTo x true)) ∧
    (∀ q, s.b.islandUp = true → x.next = some q → x.state = siRun →
      let u := s.siTo (x.applySet t q s.b.saf.count) true
      exec (.safetyCycle inp) s = .next { u with b := u.b.stageEnds stDone 0 }) ∧
    (∀ q, s.b.islandUp = true → x.next = some q → x.state ≠ siRun →
      let u := s.siTo { x with next := none } true
      exec (.safetyCycle inp) s = .next { u with b := u.b.stageEnds stInternal 0 })) ∧
  (∀ (s : State) (x : SiSt) (all : Bool),
    (s.siTo x all).pending = s.pending ∧ (s.siTo x all).fuses = s.fuses ∧ (s.siTo x all).si.state = x.state ∧
    (s.siTo x all).si.sd = x.sd ∧ (s.siTo x all).si.outs = x.outs ∧ (s.siTo x all).si.fns = x.fns ∧
    (s.siTo x all).si.conns = x.conns ∧ (s.siTo x all).si.ins = x.ins ∧
    (s.b.started = true → (s.siTo x all).si.notes = [] ∧ (s.siTo x all).si.flags = []))

/-- 18 R427, R428: RUN is left only to SAFE_STATE, and no event or cycle of the island leaves SAFE_STATE or changes what is driven there;
entering it de-energises every output, applies every brake, asserts SD0 to SD3 and holds the cause. 18 R432, R438, R441, R446, R447: what
the island decides in RUN. A discrepancy held for DISCREPANCY becomes FAULT; a silent connection and an ended grace are LOST with data 0; a
demanded RELEASED function stops; a demanded function is not released; a brake test passes within SLIP_MAX and fails otherwise; a brake past
its interval is overdue. -/
def Obligations.SafetyIslandDecidesAndItsSafeStateIsFinal : Prop :=
  (∀ (x : SiSt) (c : Nat), x.state ≠ siSafe →
    (x.toSafe c).state = siSafe ∧ (x.toSafe c).fault = c ∧ (x.toSafe c).sd = 0xF ∧ (∀ o, ((x.toSafe c).outp o).state ≠ 1) ∧
    ∀ k, ((x.toSafe c).brk k).state = bkApplied ∨ ((x.toSafe c).brk k).state = bkFault) ∧
  (∀ (inp : Fin 12) (out brk : Fin 4) (fn conn : Fin 16) (net : Fin 2) (fr : CanFrame) (ok l m : Bool),
    ∀ (q : Instr × (Nat → SiSt → SiSt)) (x : SiSt) (t : Nat),
      SiEvent inp out brk fn conn net fr ok l m q → (x.state = siSafe → q.2 t x = x) ∧ (x.state = siRun → (q.2 t x).state = siRun ∨ (q.2 t x).state = siSafe)) ∧
  (∀ (x : SiSt) (t : Nat) (r : Bool) (inp : SafetyInputs),
    (x.state = siSafe → x.cycle t r inp = x) ∧
    (x.state = siRun → (x.cycle t r inp).state = siRun ∨ (x.cycle t r inp).state = siSafe)) ∧
  (∀ (x : SiSt) (t i s : Nat), x.state = siRun → (x.inp i).split = some s → (x.inp i).state = 2 → s + 1000000 * u16 (prmIn x.params i) 2 ≤ t →
    ((x.discrepancy t i).inp i).state = 3 ∧ ∀ j, j ≠ i → (x.discrepancy t i).inp j = x.inp j) ∧
  (∀ (x : SiSt) (t c : Nat), x.state = siRun → flagUsed (prmConn x.params c) = true →
    (x.conn c).accepted + 1000000 * u16 (prmConn x.params c) 8 ≤ t →
    ((x.connTimeout t c).conn c).state = cnLost ∧ ((x.connTimeout t c).conn c).data = 0) ∧
  (∀ (x : SiSt) (t c : Nat), x.state = siRun → (x.conn c).state = cnGrace → (x.conn c).graceEnd ≤ t →
    ((x.graceEnds t c).conn c).state = cnLost ∧ ((x.graceEnds t c).conn c).data = 0 ∧ ((x.graceEnds t c).conn c).graceUsed = true) ∧
  (∀ (x : SiSt) (t f : Nat), flagUsed (prmFn x.params f) = true → x.demanded f = true →
    ((x.fn f).state = fnReleased → (u8 (prmFn x.params f) 0).testBit 1 = true → ((x.fnCycle t f).fn f).state = fnStopping) ∧
    ((x.fn f).state = fnReleased → (u8 (prmFn x.params f) 0).testBit 1 = false → ((x.fnCycle t f).fn f).state = fnStopped) ∧
    ((x.fn f).state = fnAwait → ((x.fnCycle t f).fn f).state = fnStopped) ∧ ((x.fnCycle t f).fn f).state ≠ fnReleased) ∧
  (∀ (x : SiSt) (t k : Nat), x.state = siRun → (x.brk k).state = bkTestWindow →
    (x.brk k).phase + 1000000 * u16 (prmBrk x.params k) 8 ≤ t →
    ((x.testDone t k).brk k).state = bkApplied ∧
    ((x.brk k).slip ≤ u16 (prmBrk x.params k) 10 → ((x.testDone t k).brk k).result = 1 ∧ ((x.testDone t k).brk k).overdue = false) ∧
    (u16 (prmBrk x.params k) 10 < (x.brk k).slip → ((x.testDone t k).brk k).result = 2 ∧ ((x.testDone t k).brk k).lockedOut = true)) ∧
  (∀ (x : SiSt) (k n : Nat), x.state = siRun → flagUsed (prmBrk x.params k) = true → u16 (prmBrk x.params k) 12 ≠ 0 →
    (x.brk k).overdue = false → (x.brk k).passed = some n →
    (n + u16 (prmBrk x.params k) 12 * 7200000 < x.cycles → ((x.overdue k).brk k).overdue = true ∧ 4 ∈ (x.overdue k).flags) ∧
    (x.cycles ≤ n + u16 (prmBrk x.params k) 12 * 7200000 → x.overdue k = x))

/-- 18 R449, R454, R455: the parameter commands. SAF.PARAM_STAGE stages a checked set for 60 s and answers its CRC-32 (QUEUED);
PARAM_CONFIRM from a maintainer over the link confirms it; the MI then writes it and counts it; without a confirmation in time the stage
ends ABANDONED 0x09 and PARAM_EXPIRED is set; PARAM_READ writes the set in force; what fails a check is refused with its reason. -/
def Obligations.SafetyParametersChangeByTwoHands : Prop :=
  (∀ (s : State) (c : Cmd), let b := s.b
    authCheck c roleOperator = none → devCheck b devRun = none → envCheck c = none → cObj c = 0 →
    let p := cArg c
    let k := crc32 p
    (cExt c = true → s.si.state = siRun → b.saf.pend = none → prmReason p = 0 → b.nodeMissing p = false →
      let a := b.complete 0x1201 c stQueued 0 (leBytes 4 k)
      let d : Block := { a with saf := { a.saf with pend := some (opOf c 0x1201 p), crc := k, deadline := b.now + 60000000000, confirmed := false } }
      Gives s (.safParamStage c) (((d.wrN Reg.safStage 1).wrN Reg.safStageCrc k).wr64 Reg.safStageDeadline (b.now + 60000000000))) ∧
    (cExt c = true → s.si.state = siRun → b.saf.pend = none → prmReason p ≠ 0 →
      Completes s (.safParamStage c) 0x1201 c b stBadArg (prmReason p)) ∧
    (cExt c = true → s.si.state = siRun → b.saf.pend = none → prmReason p = 0 → b.nodeMissing p = true →
      Completes s (.safParamStage c) 0x1201 c b stLimit 0x0C) ∧
    (cExt c = true → s.si.state = siRun → b.saf.pend.isSome = true → Completes s (.safParamStage c) 0x1201 c b stBusy) ∧
    (cExt c = true → s.si.state = siSafe → Completes s (.safParamStage c) 0x1201 c b stConflict 0x04)) ∧
  (∀ (s : State) (c : Cmd), let b := s.b
    devCheck b devRun = none → envCheck c = none → cObj c = 0 →
    (authCheck c roleMaintainer true = none → s.si.state = siRun → b.stagePending = true → u32 (cArg c) 0 = b.saf.crc →
      Completes s (.safParamConfirm c) 0x1202 c { b with saf := { b.saf with confirmed := true } } stDone) ∧
    (authCheck c roleMaintainer true = none → s.si.state = siRun → b.stagePending = true → u32 (cArg c) 0 ≠ b.saf.crc →
      Completes s (.safParamConfirm c) 0x1202 c b stBadArg 0x02) ∧
    (authCheck c roleMaintainer true = none → s.si.state = siRun → b.stagePending = false →
      Completes s (.safParamConfirm c) 0x1202 c b stConflict 0x03) ∧
    (∀ q, c.issuer = .host q → Completes s (.safParamConfirm c) 0x1202 c b stAuth) ∧
    (∀ q, c.issuer = .host q → authCheck c roleObserver = none → 736 ≤ u32 (cArg c) 8 →
      Completes s (.safParamRead c) 0x1203 c
        { b with out := { b.out with mem := mwrite b.out.mem (u64 (cArg c) 0) (padTo 736 b.saf.inForce) } } stDone) ∧
    (∀ q, c.issuer = .host q → authCheck c roleObserver = none → u32 (cArg c) 8 < 736 →
      Completes s (.safParamRead c) 0x1203 c b stNoSpace)) ∧
  (∀ (s : State) (o : ServiceOp), s.b.saf.pend = some o →
    (s.b.saf.confirmed = true → s.si.next = none → s.b.started = true → s.si.state = siRun → prmReason o.data = 0 →
      let n := (s.b.saf.count + 1) % 2 ^ 32
      let b : Block := { s.b with saf := { s.b.saf with inForce := o.data, count := n } }
      exec .safParamApply s = .next { s with b := (b.log 1 0x0A (leBytes 4 n)).wrN Reg.safParamCount n, si := { s.si with next := some o.data } }) ∧
    (s.b.saf.confirmed = true → s.si.next = none → s.b.started = true → s.si.state ≠ siRun ∨ prmReason o.data ≠ 0 →
      Gives s .safParamApply (s.b.stageEnds stInternal 0)) ∧
    (s.b.saf.confirmed = false → s.b.saf.deadline < s.b.now →
      Gives s .paramConfirmTimeout ((s.b.stageEnds stAbandoned 0x09).raise Reg.safFlags 6)) ∧
    (s.b.saf.confirmed = true ∨ s.b.now ≤ s.b.saf.deadline → Gives s .paramConfirmTimeout s.b))

/-- 19 R461, R473, R474: HST.QUEUE_CREATE, QUEUE_DELETE and EVENT_ROUTE, on Q0 or from the management core: a queue is made empty with its
size, vector, base and coalescing, READY or in a restart RESTARTING; one is deleted, with what it holds counted; a block's events take a
queue; a command naming Q0 or Q16, an existing or missing queue, a missing or active pair or arguments outside the table are refused. -/
def Obligations.HostQueueCommandsComplete : Prop :=
  (∀ (s : State) (c : Cmd), let b := s.b
    let a := cArg c
    let q := u8 a 0
    Sent b c roleOperator [dsAwaitWorld, dsOperational, dsRestart, dsSafeStop] → cObj c = 0 → notAdmin c = false →
    (q ≠ 0 → q ≠ 16 → createArgsOk a = true → b.out.qState q = qDisabled → (16 ≤ q ∨ b.out.qUp (q + 16) = true) →
      Gives s (.hstQueueCreate c) ((b.onOut fun o => o.makeQ q (u32 a 4) (u8 a 2) (decide (16 ≤ q) && (u8 a 1).testBit 0) (u64 a 8)
        (if q < 16 then 0 else u8 a 16) (if q < 16 then 0 else u16 a 18) (b.dev == dsRestart)).complete 0x1301 c stDone)) ∧
    (q = 0 ∨ q = 16 → Completes s (.hstQueueCreate c) 0x1301 c b stBadArg 0x01 ∧ Completes s (.hstQueueDelete c) 0x1302 c b stBadArg 0x01) ∧
    (q ≠ 0 → q ≠ 16 → createArgsOk a = false → Completes s (.hstQueueCreate c) 0x1301 c b stBadArg) ∧
    (q ≠ 0 → q < 16 → createArgsOk a = true → b.out.qState q = qDisabled → b.out.qUp (q + 16) = false →
      Completes s (.hstQueueCreate c) 0x1301 c b stConflict 0x02) ∧
    (q ≠ 0 → q ≠ 16 → q < 64 → b.out.qState q ≠ qDisabled → (q < 16 ∨ 32 ≤ q ∨ b.out.qState (q - 16) = qDisabled) →
      Gives s (.hstQueueDelete c) ((b.onOut (·.deleteQ q)).complete 0x1302 c stDone)) ∧
    (16 < q → q < 32 → b.out.qState q ≠ qDisabled → b.out.qState (q - 16) ≠ qDisabled →
      Completes s (.hstQueueDelete c) 0x1302 c b stConflict 0x03) ∧
    (u8 a 0 ≤ 0x15 → 32 ≤ u8 a 1 → u8 a 1 ≤ 47 →
      Gives s (.hstEventRoute c) ((b.wrN (Reg.hstEvtRoute (u8 a 0)) (u8 a 1)).complete 0x1303 c stDone)) ∧
    (0x15 < u8 a 0 ∨ u8 a 1 < 32 ∨ 47 < u8 a 1 → Completes s (.hstEventRoute c) 0x1303 c b stBadArg)) ∧
  (∀ (s : State) (c : Cmd) (q : Fin 16), c.issuer = .host q → q.val ≠ 0 →
    Sent s.b c roleOperator [dsAwaitWorld, dsOperational, dsRestart, dsSafeStop] → cObj c = 0 →
    Completes s (.hstQueueCreate c) 0x1301 c s.b stBadArg ∧ Completes s (.hstQueueDelete c) 0x1302 c s.b stBadArg ∧
    Completes s (.hstEventRoute c) 0x1303 c s.b stBadArg) ∧
  (∀ (o : OutSt) (q size vec base coal us : Nat) (ie r : Bool), q < 64 → size ≤ 4096 →
    let o' := o.makeQ q size vec ie base coal us r
    o'.qState q = (if r then qRestarting else qReady) ∧ o'.qSize q = size ∧ o'.qHead q = 0 ∧ o'.qTail q = 0 ∧
    ∀ k, k < 64 → k ≠ q → o'.qState k = o.qState k ∧ o'.qHead k = o.qHead k ∧ o'.qTail k = o.qTail k)

/-- 19 R458, R460, R462–R464, R466, R468–R470, R472: doorbells move a tail or a head, and are counted where invalid or ignored; the admin
pair is enabled, refused or cleared; a fetched command takes the head entry and reserves room, an undefined opcode completes BAD_ARG 0x20;
completions, LOSS entries and coalesced signals are written; a PCIe reset clears the queues; a DMA error stops one; a received frame is
counted. -/
def Obligations.HostQueuesProceed : Prop :=
  (∀ (s : State) (q : Fin 64) (v : Word), let i := v.toNat % 4096
    let o := s.b.out
    (o.qUp q.val = false → Gives s (.doorbellWrite q v) (s.b.count Reg.hstDbIgnored)) ∧
    (o.qUp q.val = true → o.dbValid q.val i = false →
      Gives s (.doorbellWrite q v) ((s.b.count Reg.hstDbInvalid).emit (.flag Reg.hstFlags 1 false []))) ∧
    (o.qUp q.val = true → o.dbValid q.val i = true → q.val < 16 →
      Gives s (.doorbellWrite q v) (s.b.setFld (Reg.hstQIndex q.val) 16 12 i)) ∧
    (o.qUp q.val = true → o.dbValid q.val i = true → 16 ≤ q.val → q.val < 48 → i ≠ o.qTail q.val →
      Gives s (.doorbellWrite q v) (s.b.setFld (Reg.hstQIndex q.val) 0 12 i))) ∧
  (∀ (s : State) (v : Word), v.toNat.testBit 0 = true → s.b.bit Reg.adminCtrl 0 = false → s.b.out.adminOk = false →
    Gives s (.adminCtrlWrite v) ((s.b.wrN Reg.adminCtrl (256 * field v.toNat 8 6 + 2 * b2n (v.toNat.testBit 1))).emit
      (.flag Reg.hstFlags 4 false []))) ∧
  (∀ (s : State) (v : Word), ∃ x : Block, Gives s (.adminCtrlWrite v) x ∧
    (v.toNat.testBit 0 = true → s.b.bit Reg.adminCtrl 0 = false → s.b.out.adminOk = true → s.b.dev ≠ dsRestart →
      x.out.qState 0 = qReady ∧ x.out.qState 16 = qReady ∧ x.bit Reg.adminCtrl 0 = true) ∧
    (v.toNat.testBit 0 = false → s.b.bit Reg.adminCtrl 0 = true → x.out.qState 0 = qDisabled ∧ x.out.qState 16 = qDisabled)) ∧
  (∀ (s : State) (q : Fin 16) (env : List Byte), let b := s.b
    let op := u16 env 0
    let o := b.out
    (b.started = false ∨ o.nextFetch ≠ some q.val ∨ o.mayFetch q.val (entriesFor op) = false → Gives s (.commandFetch q env) b) ∧
    (b.started = true → o.nextFetch = some q.val → o.mayFetch q.val (entriesFor op) = true → (u8 env 4).testBit 1 = false →
      let h := if o.qHead q.val + 1 = o.qSize q.val then 0 else o.qHead q.val + 1
      let again := decide (o.rrTaken < 8) && o.rrAt == q.val
      let x : Slot := { src := q.val, opcode := op, tag := u16 env 2, notify := false, cmdHead := h, two := queuedOpcodes.contains op }
      let o' : OutSt := { o with
        slots := o.slots ++ [x], rrAt := if q.val = 0 then o.rrAt else q.val, rrTaken := if q.val = 0 then o.rrTaken else if again then o.rrTaken + 1 else 1 }
      let b' := ((({ b with out := o' } : Block).setFld (Reg.hstQIndex q.val) 0 12 h).count48 Reg.hstFetched).blkCount 0x28
      (opcodeDefined op = true → Gives s (.commandFetch q env) b') ∧
      (opcodeDefined op = false →
        Gives s (.commandFetch q env) (b'.answer q.val op (u16 env 2) false { status := stBadArg, reason := 0x20, time := b'.now })))) ∧
  (∀ (s : State) (q : Fin 16), ∃ x : Block, Gives s (.completionWrite q) x ∧ Reports s.b x ∧
    (s.b.out.qUp (q.val + 16) = false → x = s.b) ∧
    (∀ y c, s.b.out.qUp (q.val + 16) = true → s.b.out.slots = [y] → y.src = q.val → y.lost = 0 → y.two = false → y.firstWritten = false →
      y.first = some c → x = (s.b.onOut fun o => { (o.pushCpl s.b.now q.val y c) with slots := [] }).blkCount 0x29 1)) ∧
  (∀ (s : State) (q : Fin 16), let k := 32 + q.val
    ∃ x : Block, Gives s (.eventLossEntry q) x ∧
    ((tget ({} : QueueSt) s.b.out.q k).lost = 0 ∨ s.b.out.qUp k = false ∨ s.b.out.qRoom k = 0 → x = s.b) ∧
    ((tget ({} : QueueSt) s.b.out.q k).lost ≠ 0 → s.b.out.qUp k = true → s.b.out.qRoom k ≠ 0 → Reports s.b x)) ∧
  (∀ (s : State) (q : Fin 64), let o := s.b.out
    let st := tget ({} : QueueSt) o.q q.val
    let us := fldR o.regs (Reg.hstQCoal q.val) 16 10
    (st.unsig ≠ 0 → us ≠ 0 → st.since + 1000 * us ≤ s.b.now → o.qUp q.val = true → o.qHead q.val ≠ o.qTail q.val →
      Gives s (.coalesceTimeout q) (s.b.onOut (·.signal q.val))) ∧
    (st.unsig = 0 ∨ us = 0 ∨ s.b.now < st.since + 1000 * us ∨ o.qUp q.val = false ∨ o.qHead q.val = o.qTail q.val →
      Gives s (.coalesceTimeout q) s.b)) ∧
  (∀ (s : State) (k : Fin 4), Gives s (.pcieReset k) ((s.b.onOut (·.pcieReset)).emit (.flag Reg.hstFlags 0 false []))) ∧
  (∀ (o : OutSt) (q : Nat), q < 64 → (o.pcieReset).qState q = qDisabled) ∧
  (∀ (s : State) (q : Fin 64), (s.b.out.qUp q.val = false → Gives s (.dmaError q) s.b) ∧
    (s.b.out.qUp q.val = true → q.val < 16 → Gives s (.dmaError q) ((s.b.onOut (·.setQ q.val qFault)).emit (.flag Reg.hstFlags 3 true []))) ∧
    (s.b.out.qUp q.val = true → 32 ≤ q.val →
      Gives s (.dmaError q) (((s.b.onOut (·.setQ q.val qFault)).count (Reg.hstQDrops q.val)).emit (.flag Reg.hstFlags 3 true [])))) ∧
  (∀ (s : State) (p : Fin 2), Gives s (.ethFrameRx p true) s.b ∧ (s.b.started = true → Gives s (.ethFrameRx p false) (s.b.count (Reg.hstEthDiscards p.val))))

/-- 20 R480, R482, R486, R487: the MGT commands, each answered by a frame: HELLO opens a session with a fresh nonce, POLL delivers the
oldest held completion, then events, then DONE; READ, WRITE, LOG_READ, HEALTH, UNLOCK, LINK_CONFIG and MI_RESTART act as their rows say,
with their refusals; an MI in reset or restarting answers nothing. -/
def Obligations.ManagementCommandsComplete : Prop :=
  (∀ (s : State) (c : Cmd) (r : Fin 4), let b := s.b
    let a := cArg c
    let reply (x : Block) (op : Nat) : Block := x.respond s.fuses r.val b.mgmt.reqCounter op c.tag.toNat
    b.linkUp = true → c.issuer = .mgmt r → envCheck c = none → cObj c = 0 →
    (∀ nonce, Gives s (.mgtHello c nonce)
      (reply ((({ b with mgmt := { b.mgmt with nonce := some nonce, counters := [], authRun := 0 } } : Block).showMgt).complete 0x1401 c stDone 0
        (padTo 16 nonce)) 0x1401)) ∧
    (∀ l x cpl, 1 ≤ r.val → heldFrom true b.out.slots = some (l, x, cpl) →
      Gives s (.mgtPoll c) (((b.onOut fun o => { o with slots := l }).sendFrame s.fuses 2 r.val b.mgmt.reqCounter
        (linkCpl x cpl b.mgmt.reqCounter)).settleAlert)) ∧
    (1 ≤ r.val → heldFrom true b.out.slots = none → b.mgmt.events = [] →
      Gives s (.mgtPoll c) (reply (b.complete 0x1402 c stDone) 0x1402)) ∧
    (r.val = 0 → Gives s (.mgtPoll c) (reply (b.complete 0x1402 c stAuth) 0x1402)) ∧
    (let n := u8 a 4
     let w := b.mgtWords (u32 a 0) n
     1 ≤ r.val → b.romService = false → u32 a 0 % 4 = 0 → 1 ≤ n → n ≤ 10 → u32 a 0 + 4 * n ≤ 0x4000000 →
      Gives s (.mgtRead c) (reply (w.2.complete 0x1403 c stDone 0 w.1) 0x1403)) ∧
    (2 ≤ r.val → b.romService = false → u32 a 0 % 4 = 0 → u32 a 0 < 0x4000000 →
      Gives s (.mgtWrite c) (reply ((b.regWrite .mgmt (u32 a 0) (w32 a 4)).complete 0x1404 c stDone) 0x1404)) ∧
    (2 ≤ r.val → b.romService = false → u32 a 0 % 4 ≠ 0 ∨ 0x4000000 ≤ u32 a 0 →
      Gives s (.mgtWrite c) (reply (b.complete 0x1404 c stBadArg) 0x1404)) ∧
    (1 ≤ r.val → ∀ e, b.mgmt.entry (u32 a 0) = some e →
      Gives s (.mgtLogRead c) (reply (b.complete 0x1405 c stDone 0 e.bytes) 0x1405)) ∧
    (1 ≤ r.val → b.mgmt.entry (u32 a 0) = none → Gives s (.mgtLogRead c) (reply (b.complete 0x1405 c stBadRef) 0x1405)) ∧
    (1 ≤ r.val → u8 a 0 < 6 → Gives s (.mgtHealth c) (reply (b.complete 0x1406 c stDone 0 (leBytes 4 (b.rdN (Reg.mgtTemp (u8 a 0))))) 0x1406)) ∧
    (1 ≤ r.val → 6 ≤ u8 a 0 → Gives s (.mgtHealth c) (reply (b.complete 0x1406 c stBadRef) 0x1406)) ∧
    (r.val = 3 → b.romService = false → u8 a 0 ≤ 0x15 →
      Gives s (.mgtUnlock c) (reply (((b.wrN (0x100000 * u8 a 0 + 0xFFFF0) 0).log 6 0x0E (leBytes 1 (u8 a 0))).complete 0x1407 c stDone) 0x1407)) ∧
    (r.val = 3 → b.romService = false → u8 a 0 ≤ 1 → b.firmwareReason s.fuses (u8 a 0) = 0 →
      ∃ x : Block, Gives s (.mgtMiRestart c) x ∧ x.mgmt.restarting = true ∧ x.mgmt.nonce = none ∧ x.mgmt.counters = [] ∧
        x.mgmt.miSlot = some (u8 a 0) ∧ x.mgmt.alert = false) ∧
    (r.val = 3 → b.romService = false → u8 a 0 ≤ 1 → b.firmwareReason s.fuses (u8 a 0) ≠ 0 →
      Gives s (.mgtMiRestart c) (reply (b.complete 0x1408 c stImage (b.firmwareReason s.fuses (u8 a 0))) 0x1408)) ∧
    (r.val = 3 → b.romService = false → u8 a 0 ≤ 4 → 1 ≤ u8 a 1 → u8 a 1 ≤ 254 → u8 a 2 ≤ 0x7F →
      Gives s (.mgtLinkConfig c)
        (reply (({ b with mgmt := { b.mgmt with newLink := some (u8 a 0, u8 a 1, u8 a 2) } } : Block).complete 0x1409 c stDone) 0x1409))) ∧
  (∀ (s : State) (c : Cmd), s.b.linkUp = false →
    (∀ nonce, Gives s (.mgtHello c nonce) s.b) ∧ Gives s (.mgtPoll c) s.b ∧ Gives s (.mgtRead c) s.b ∧ Gives s (.mgtWrite c) s.b ∧
    Gives s (.mgtLogRead c) s.b ∧ Gives s (.mgtHealth c) s.b ∧ Gives s (.mgtUnlock c) s.b ∧ Gives s (.mgtMiRestart c) s.b ∧
    Gives s (.mgtLinkConfig c) s.b)

/-- 20 R478–R482: a request over the link. Over either layer a frame with a gap, a wrong CRC or another address is discarded and counted;
one whose MAC or counter fails is answered AUTH 0x01 and counted, and after 16 in a row the link backs off with AUTH 0x02; an authentic one
that is not refused runs its command; SMBus pieces gather to a frame, a wrong PEC discards them. 20 R478, R480, R482, R484, R485, R488: the
link in time. A response read to its last byte awaits no more; an alert response read takes the alert back; back-off ends after 1 s; the log
is copied to NVM; a restart of the MI ends the session, loses what is held and is noted once it ends; the mirror shows temperatures and
supplies. -/
def Obligations.ManagementLinkProceeds : Prop :=
  (∀ (s : State) (fr : List Byte), s.b.linkUp = true →
    exec (.shavorRequest fr true) s = .next (s.linkFrame fr) ∧
    Gives s (.shavorRequest fr false) (s.b.applyLink.count Reg.mgtFrameErrors)) ∧
  (∀ (s : State) (piece : List Byte), s.b.linkUp = true →
    let put (l : List Byte) : State := { s with b := { s.b with mgmt := { s.b.mgmt with partialFrame := l } } }
    (∀ last, exec (.smbusBlockWrite last piece false) s = .next (put [])) ∧
    exec (.smbusBlockWrite false piece true) s = .next (put (s.b.mgmt.partialFrame ++ piece)) ∧
    exec (.smbusBlockWrite true piece true) s = .next ((put []).linkFrame (s.b.mgmt.partialFrame ++ piece))) ∧
  (∀ (s : State) (fr piece : List Byte) (g l p : Bool), s.b.linkUp = false →
    exec (.shavorRequest fr g) s = .next s ∧ exec (.smbusBlockWrite l piece p) s = .next s) ∧
  (∀ (s : State) (fr : List Byte), let b := s.b
    let f := s.fuses
    let body := slice fr 12 (u16 fr 4)
    let role := u8 fr 6
    let op := u16 body 0
    b.mgmt.newLink = none →
    (b.frameOk fr = false ∨ u16 fr 4 < 64 → s.linkFrame fr = { s with b := b.count Reg.mgtFrameErrors }) ∧
    (b.frameOk fr = true → 64 ≤ u16 fr 4 → u8 fr 3 = 1 →
      (b.mgmt.backoff = true → op ≠ 0x1401 →
        s.linkFrame fr = { s with b := b.linkRefuse f role (u32 fr 8) op (u16 body 2) stAuth 0x02 }) ∧
      (b.mgmt.backoff = false ∨ op = 0x1401 → b.authentic f fr = false →
        s.linkFrame fr = { s with b := b.authFails f role (u32 fr 8) op (u16 body 2) }) ∧
      (b.mgmt.backoff = false → b.authentic f fr = true → 16 ≤ b.heldCount → op ≠ 0x1402 →
        s.linkFrame fr = { s with b := b.linkRefuse f role (u32 fr 8) op (u16 body 2) stBusy 0 }) ∧
      (b.mgmt.backoff = false → b.authentic f fr = true → b.heldCount < 16 → linkArgsOk body = true →
        let m := { b.mgmt with authRun := 0, reqRole := role, reqCounter := u32 fr 8, counters := (if role = 0 then b.mgmt.counters else tput b.mgmt.counters role (u32 fr 8)) }
        s.linkFrame fr = State.linkRun { s with b := { b with mgmt := m } } role (u32 fr 8) op body))) ∧
  (∀ (b : Block) (f : Fuses) (fr : List Byte) (role : Nat), role = u8 fr 6 → role ≠ 0 → b.authentic f fr = true →
    ∃ n, b.mgmt.nonce = some n ∧ role ≤ 3 ∧ tget 0 b.mgmt.counters role < u32 fr 8) ∧
  (∀ (b : Block) (f : Fuses) (role k op tag : Nat), let x := b.authFails f role k op tag
    x.mgmt.authRun = b.mgmt.authRun + 1 ∧ (b.mgmt.authRun = 15 → x.mgmt.backoff = true) ∧ (b.mgmt.authRun ≠ 15 → x.mgmt.backoff = b.mgmt.backoff)) ∧
  (∀ (s : State) (n : Nat), let m := s.b.mgmt
    (m.respRead + min n 255 < m.response.length →
      Gives s (.smbusBlockRead n) { s.b with mgmt := { m with respRead := m.respRead + min n 255 } }) ∧
    (m.response.length ≤ m.respRead + min n 255 →
      Gives s (.smbusBlockRead n) (({ s.b with mgmt := { m with response := [], respRead := 0 } } : Block).settleAlert))) ∧
  (∀ s : State, Gives s .alertResponseRead { s.b with mgmt := { s.b.mgmt with alert := false } }) ∧
  (∀ s : State, (s.b.mgmt.backoff = true → s.b.mgmt.backoffSince + 1000000000 ≤ s.b.elapsed →
      Gives s .backoffEnd { s.b with mgmt := { s.b.mgmt with backoff := false, authRun := 0 } }) ∧
    (s.b.mgmt.backoff = false ∨ s.b.elapsed < s.b.mgmt.backoffSince + 1000000000 → exec .backoffEnd s = .next s)) ∧
  (∀ s : State, (s.b.linkUp = true → Gives s .logNvmCopy { s.b with mgmt := { s.b.mgmt with nvmLog := s.b.mgmt.log } }) ∧
    (s.b.linkUp = false → exec .logNvmCopy s = .next s)) ∧
  (∀ s : State, s.b.linkUp = true → ∃ x : Block, Gives s .miSelfFault x ∧ x.mgmt.restarting = true ∧ x.mgmt.nonce = none ∧
    x.mgmt.counters = [] ∧ x.mgmt.response = [] ∧ x.mgmt.alert = false ∧ x.mgmt.log = s.b.mgmt.log ∧
    x.rdN Reg.mgtLostCompletions = (s.b.rdN Reg.mgtLostCompletions + s.b.heldCount) % 2 ^ 32) ∧
  (∀ s : State, s.b.boot.por = false → s.b.mgmt.restarting = true →
    Gives s .miRestartEnd (((({ s.b with mgmt := { s.b.mgmt with restarting := false } } : Block).log 1 0x0D).showMgt).raise Reg.mgtFlags 1)) ∧
  (∀ (s : State) (ts : List Int) (vs : List Nat), s.b.linkUp = true → s.b.mgmt.newLink = none → ∃ x : Block, Gives s (.mirrorRefresh ts vs) x ∧
    (∀ i, i < 6 → x.rdN (Reg.mgtTemp i) = ofSigned 32 (ts.getD i 0) % 2 ^ 32) ∧
    (∀ v, v < 11 → x.rdN (Reg.mgtSupply v) = vs.getD v 0 % 2 ^ 32) ∧ x.rdN Reg.mgtLogSeq = (s.b.mgmt.nextSeq - 1) % 2 ^ 32)

/-- A step runs the command at the front of the queue on the state that holds the queue's rest; with none waiting a tick of the timebase
passes and nothing else of the state moves (log 1). -/
def Obligations.AStepRunsTheFrontCommand : Prop :=
  (∀ (s : State) (c : Instr) (rest : List Instr), s.pending = c :: rest → step s = exec c { s with pending := rest }) ∧
  (∀ s : State, s.pending = [] → ∃ b, step s = .next { s with b := b })

/-- Every command and every event has an effect in every state: a step never faults, never is refused, and takes exactly the front command
off the queue. -/
def Obligations.EveryStepAnswersANextState : Prop :=
  ∀ s : State, ∃ t, step s = .next t ∧ t.pending = s.pending.tail

/-- 03 R66, R81: fuses only ever go from unprogrammed to programmed, whatever step is taken: the rollback count grows and stays within 64,
and a programmed key hash keeps its value. -/
def Obligations.FusesOnlyGrow : Prop :=
  ∀ s t : State, FusesOk s.fuses → step s = .next t → FusesOk t.fuses ∧ FusesGrow s.fuses t.fuses

/-- 18 R426–R429: the safety island is separate from the rest: a command or event that is none of its own, no reset, no loss or return of
REFCLK, no supply event and no hand-over of parameters leaves every part of its state as it was; so does a tick. -/
def Obligations.TheSafetyIslandIsIsolated : Prop :=
  (∀ (s t : State) (c : Instr) (rest : List Instr), s.pending = c :: rest → reachesIsland c = false → step s = .next t → t.si = s.si) ∧
  (∀ s t : State, s.pending = [] → step s = .next t → t.si = s.si)

/-- 18 R427: once the island is in SAFE_STATE it stays there with every step that is not one of its resets, which put it into SELF_TEST. -/
def Obligations.SafeStateIsLeftOnlyByAReset : Prop :=
  ∀ s t : State, s.si.state = siSafe → step s = .next t →
    t.si.state = siSafe ∨ (t.si.state = siSelfTest ∧ ∃ c rest, s.pending = c :: rest ∧ resetsIsland c = true)

/-- 02 R43, R46, 03 R51, 20 R486: in BOOT every command that the CP takes is refused STATE_CONFLICT reason 0x10 with no effect but its
completion and what reports it, for a maintainer on the link as for the host; a host command that only the link may send is refused AUTH. -/
def Obligations.BootRefusesEveryCommand : Prop :=
  ∀ (s : State) (i : Instr) (op : Nat) (c : Cmd), opcodeOf i = some (op, c) → s.b.dev = dsBoot →
    (c.issuer = .mgmt 3 → Completes s i op c s.b stConflict 0x10) ∧
    (∀ q, c.issuer = .host q → linkOnly op = false → Completes s i op c s.b stConflict 0x10) ∧
    (∀ q, c.issuer = .host q → linkOnly op = true → Completes s i op c s.b stAuth)

/-- 02 R27, R33, 03 R49, 18 R427, R456, 22 R509, R510: at reset no command waits, the device is in BOOT, the island in SELF_TEST with its
demands asserted, nothing is owed and every register reads its reset value, named ones among them. -/
def Obligations.ResetHoldsTheStatedValues : Prop :=
  State.reset.pending = [] ∧ FusesOk State.reset.fuses ∧ State.reset.b.dev = dsBoot ∧ State.reset.si.state = siSelfTest ∧
  State.reset.si.sd = 0xF ∧ State.reset.b.out.slots = [] ∧ (∀ off, State.reset.b.rd off = regReset off) ∧
  State.reset.b.rdN Reg.sysId = 0x80644200 ∧ State.reset.b.rdN Reg.clkTempCfg = 0x007D6903 ∧ State.reset.b.rdN Reg.safState = 0xF0 ∧
  State.reset.b.rdN Reg.recFlushUs = 1000 ∧ State.reset.b.rdN (Reg.trpSrcCfg 40) = 1 ∧ State.reset.b.rdN (Reg.motAxLimitHi 63) = 0x7FFFFFFF

/-- 01 R25: in CONTINUITY_RESTART a command that asks for a continuity restart, whatever its arguments, is refused with STATE_CONFLICT and
has no effect but its completion and what reports it. -/
def Obligations.ARestartDuringARestartIsRefused : Prop :=
  ∀ (s : State) (c : Cmd), s.b.dev = dsRestart →
    authCheck c (if (u8 (cArg c) 0).testBit 0 then roleMaintainer else roleOperator) = none →
    ∃ rs, Completes s (.cntRestart c) 0x0901 c s.b stConflict rs

/-- 08 R213: a DONE that retires makes its activation one that commits, whatever is left of its budget; from then on an expiry of the budget
changes nothing, so the commit proceeds. -/
def Obligations.DoneWinsOverTheBudget : Prop :=
  (∀ (s : State) (e : Fin 40) (a : ActSt) (f : FormJ), Runs s.b e a → f.imm = 0 →
    ∃ t, exec (.insDone e f) s = .next t ∧ (∃ x, (t.b.eng e).act = some x ∧ x.committing = true ∧ x.budget = a.budget - 1) ∧
      exec (.budgetExpiry e) t = .next t) ∧
  (∀ (s : State) (e : Fin 40) (a : ActSt), (s.b.eng e).act = some a → a.committing = true → exec (.budgetExpiry e) s = .next s)

/-- 03 R83: with the inactive bank SWAP_PENDING, BANK_COPY and BANK_SWAP are refused STATE_CONFLICT, and with it OPEN so is BANK_SWAP; while
a SLOT_WRITE, SLOT_VERIFY or STAGE is running, a second one completes BUSY; none of these has any other effect. -/
def Obligations.BankAndSlotCommandsWaitTheirTurn : Prop :=
  (∀ (s : State) (c : Cmd), Sent s.b c roleOperator devRun → cObj c = 0 →
    (s.b.bankState = bkPending → Completes s (.imgBankCopy c) 0x0206 c s.b stConflict ∧ Completes s (.imgBankSwap c) 0x0209 c s.b stConflict) ∧
    (s.b.bankState = bkOpen → Completes s (.imgBankSwap c) 0x0209 c s.b stConflict)) ∧
  (∀ (s : State) (c : Cmd), s.b.boot.op.isSome = true → cObj c = 0 → u8 (cArg c) 0 ≤ 1 →
    (Sent s.b c roleMaintainer devAll → cExt c = true → u32 (cArg c) 8 = ((cArg c).drop 12).length →
      u32 (cArg c) 4 + u32 (cArg c) 8 ≤ slotSize → s.b.runningSlot ≠ some (u8 (cArg c) 0) →
      Completes s (.imgSlotWrite c) 0x0201 c s.b stBusy) ∧
    (Sent s.b c roleObserver devAll → Completes s (.imgSlotVerify c) 0x0202 c s.b stBusy) ∧
    (Sent s.b c roleMaintainer [dsAwaitWorld, dsOperational, dsSafeStop] → Completes s (.imgStage c) 0x0205 c s.b stBusy))
end

