-- ==== Sys2Proof/Laws/Table.lean ====
section
/-! SUPPORT. Laws/Table.lean: what tables and memories do: read after write, writes elsewhere, the canonical form kept. -/

namespace Sys2Proof.Machine

@[simp] theorem tget?_tput_same {α : Type} (t : Tab α) (k : Nat) (v : α) : tget? (tput t k v) k = some v := by
  induction t with
  | nil => simp [tput, tget?]
  | cons p r ih =>
    obtain ⟨i, w⟩ := p
    unfold tput
    split
    · simp [tget?]
    · split
      · simp [tget?]
      · simp [tget?, *]

theorem tget?_tput_ne {α : Type} (t : Tab α) {k j : Nat} (v : α) (h : j ≠ k) : tget? (tput t k v) j = tget? t j := by
  induction t with
  | nil => simp [tput, tget?, h]
  | cons p r ih =>
    obtain ⟨i, w⟩ := p
    unfold tput
    split
    · rename_i e; subst e; simp [tget?, h]
    · split
      · simp [tget?, h]
      · simp only [tget?, ih]

theorem tget?_tput {α : Type} (t : Tab α) (k j : Nat) (v : α) :
    tget? (tput t k v) j = if j = k then some v else tget? t j := by
  split
  · next h => subst h; simp
  · next h => exact tget?_tput_ne t v h

@[simp] theorem tget_tput_same {α : Type} (d : α) (t : Tab α) (k : Nat) (v : α) : tget d (tput t k v) k = v := by
  simp [tget]

theorem tget_tput_ne {α : Type} (d : α) (t : Tab α) {k j : Nat} (v : α) (h : j ≠ k) :
    tget d (tput t k v) j = tget d t j := by simp [tget, tget?_tput_ne t v h]

theorem tget_tput {α : Type} (d : α) (t : Tab α) (k j : Nat) (v : α) :
    tget d (tput t k v) j = if j = k then v else tget d t j := by
  split
  · next h => subst h; simp
  · next h => exact tget_tput_ne d t v h

@[simp] theorem tput_tput {α : Type} (t : Tab α) (k : Nat) (v w : α) : tput (tput t k v) k w = tput t k w := by
  induction t with
  | nil => simp [tput]
  | cons p r ih =>
    obtain ⟨i, x⟩ := p
    by_cases h : k = i
    · simp [tput, h]
    · by_cases g : k < i
      · simp [tput, h, g]
      · simp [tput, h, g, ih]

theorem tget?_tdel_ne {α : Type} (t : Tab α) {k j : Nat} (h : j ≠ k) : tget? (tdel t k) j = tget? t j := by
  induction t with
  | nil => rfl
  | cons p r ih =>
    obtain ⟨i, w⟩ := p
    by_cases e : k = i
    · subst e; simp [tdel, tget?, h]
    · simp [tdel, e, tget?, ih]

/-- A memory in canonical form lists no address below its first one. -/
theorem memWf_lt {m : Mem} {a : Nat} {v : Byte} (h : Memory.wf ((a, v) :: m) = true) {k : Nat} (hk : k ≤ a) :
    tget? m k = none := by
  induction m generalizing a v with
  | nil => rfl
  | cons p r ih =>
    obtain ⟨b, w⟩ := p
    simp only [Memory.wf, Bool.and_eq_true, decide_eq_true_eq] at h
    have hb : k ≠ b := by omega
    simp only [tget?, hb, if_false]
    exact ih h.2 (by omega)

theorem memWf_tail {m : Mem} {p : Nat × Byte} (h : Memory.wf (p :: m) = true) : Memory.wf m = true := by
  obtain ⟨a, v⟩ := p
  cases m with
  | nil => rfl
  | cons q r => obtain ⟨b, w⟩ := q; simp only [Memory.wf, Bool.and_eq_true] at h; exact h.2

/-- What makes a list with one more cell in front canonical. -/
theorem memWf_cons {a : Nat} {v : Byte} {m : Mem} :
    Memory.wf ((a, v) :: m) = true ↔ v ≠ 0#8 ∧ Memory.wf m = true ∧ ∀ p, m.head? = some p → a < p.1 := by
  cases m with
  | nil => simp [Memory.wf]
  | cons q r =>
    obtain ⟨b, w⟩ := q
    simp only [Memory.wf, Bool.and_eq_true, decide_eq_true_eq, bne_iff_ne, List.head?_cons, Option.some.injEq]
    constructor
    · rintro ⟨⟨h1, h2⟩, h3⟩; exact ⟨h2, h3, by rintro p rfl; exact h1⟩
    · rintro ⟨h2, h3, h1⟩; exact ⟨⟨h1 _ rfl, h2⟩, h3⟩

theorem tput_head {m : Mem} {k a : Nat} {v : Byte} (hk : a < k) (h : ∀ p, m.head? = some p → a < p.1) :
    ∀ p, (tput m k v).head? = some p → a < p.1 := by
  cases m with
  | nil => intro p hp; simp [tput] at hp; subst hp; exact hk
  | cons q r =>
    obtain ⟨b, w⟩ := q
    intro p hp
    have hb : a < b := h (b, w) rfl
    unfold tput at hp
    split at hp
    · simp at hp; subst hp; exact hk
    · split at hp
      · simp at hp; subst hp; exact hk
      · simp at hp; subst hp; exact hb

/-- Putting a cell that is not 0 keeps the canonical form. -/
theorem memWf_tput {m : Mem} (k : Nat) {v : Byte} (hv : v ≠ 0#8) (h : Memory.wf m = true) : Memory.wf (tput m k v) = true := by
  induction m with
  | nil => simpa [tput, Memory.wf] using hv
  | cons p r ih =>
    obtain ⟨i, w⟩ := p
    obtain ⟨hw, hr, hh⟩ := memWf_cons.1 h
    unfold tput
    split
    · next e => subst e; exact memWf_cons.2 ⟨hv, hr, hh⟩
    · next e =>
      split
      · next g => exact memWf_cons.2 ⟨hv, h, by rintro q hq; simp at hq; subst hq; exact g⟩
      · next g => exact memWf_cons.2 ⟨hw, ih hr, tput_head (by omega) hh⟩

/-- Deleting a cell keeps the canonical form. -/
theorem memWf_tdel {m : Mem} (k : Nat) (h : Memory.wf m = true) : Memory.wf (tdel m k) = true := by
  induction m with
  | nil => rfl
  | cons p r ih =>
    obtain ⟨i, w⟩ := p
    obtain ⟨hw, hr, hh⟩ := memWf_cons.1 h
    unfold tdel
    split
    · exact hr
    · refine memWf_cons.2 ⟨hw, ih hr, ?_⟩
      intro q hq
      cases r with
      | nil => simp [tdel] at hq
      | cons p2 r2 =>
        obtain ⟨j, x⟩ := p2
        have hj : i < j := hh (j, x) rfl
        unfold tdel at hq
        split at hq
        · -- the second cell goes: the third one follows it
          obtain ⟨_, _, h2⟩ := memWf_cons.1 hr
          exact Nat.lt_trans hj (h2 q hq)
        · simp at hq; subst hq; exact hj

/-- Every byte write keeps the canonical form. -/
theorem memWf_mput {m : Mem} (a : Nat) (v : Byte) (h : Memory.wf m = true) : Memory.wf (mput m a v) = true := by
  unfold mput
  split
  · exact memWf_tdel a h
  · next hv => exact memWf_tput a hv h

/-- Every write of bytes keeps the canonical form. -/
theorem memWf_mwrite {m : Mem} (a : Nat) (l : List Byte) (h : Memory.wf m = true) : Memory.wf (mwrite m a l) = true := by
  induction l generalizing m a with
  | nil => exact h
  | cons v r ih => exact ih (a + 1) (memWf_mput a v h)

/-- A byte reads as it was written. -/
theorem mget_mput_same {m : Mem} (a : Nat) (v : Byte) (h : Memory.wf m = true) : mget (mput m a v) a = v := by
  unfold mput mget
  split
  · next hv =>
    subst hv
    have : tget? (tdel m a) a = none := by
      induction m with
      | nil => rfl
      | cons p r ih =>
        obtain ⟨i, w⟩ := p
        by_cases e : a = i
        · subst e; simpa [tdel] using memWf_lt h (Nat.le_refl a)
        · simpa [tdel, e, tget?] using ih (memWf_tail h)
    simp [tget, this]
  · simp

/-- A write leaves every other byte alone. -/
theorem mget_mput_ne (m : Mem) {a k : Nat} (v : Byte) (h : k ≠ a) : mget (mput m a v) k = mget m k := by
  unfold mput mget
  split
  · simp [tget, tget?_tdel_ne m h]
  · simp [tget, tget?_tput_ne m v h]

/-- Bytes outside a write are as before. -/
theorem mget_mwrite_out (m : Mem) (a : Nat) (l : List Byte) {k : Nat} (h : k < a ∨ a + l.length ≤ k) :
    mget (mwrite m a l) k = mget m k := by
  induction l generalizing m a with
  | nil => rfl
  | cons v r ih =>
    simp only [List.length_cons] at h
    rw [mwrite, ih (mput m a v) (a + 1) (by omega), mget_mput_ne m v (by omega)]

/-- Bytes read as they were written. -/
theorem mread_mwrite {m : Mem} (a : Nat) (l : List Byte) (h : Memory.wf m = true) : mread (mwrite m a l) a l.length = l := by
  induction l generalizing m a with
  | nil => rfl
  | cons v r ih =>
    have h' := memWf_mput a v h
    rw [List.length_cons, mread, mwrite, ih (a + 1) h', mget_mwrite_out _ _ _ (Or.inl (Nat.lt_succ_self a)), mget_mput_same a v h]

end Sys2Proof.Machine
end

