-- ==== Sys2Proof/Laws/Emit.lean ====
section
/-! SUPPORT. Laws/Emit.lean: what emitting records, events and flags can change: the outward side and the performance counters,
never a completion slot and nothing else of the block. -/

namespace Sys2Proof.Machine

@[simp] theorem OutSt.signal_slots (o : OutSt) (q : Nat) : (o.signal q).slots = o.slots := by
  unfold OutSt.signal; simp only; split
  · rfl
  · split <;> rfl

@[simp] theorem OutSt.push_slots (o : OutSt) (now q : Nat) (body mech : List Byte) : (o.push now q body mech).slots = o.slots := by
  unfold OutSt.push; simp only; repeat' split
  all_goals simp

@[simp] theorem OutSt.closeSeg_slots (o : OutSt) : o.closeSeg.slots = o.slots := by
  unfold OutSt.closeSeg; split <;> rfl

@[simp] theorem OutSt.putFilter_slots (cx : Ctx) (o : OutSt) (sid : Nat) (f : Filter) : (o.putFilter cx sid f).slots = o.slots := rfl

@[simp] theorem OutSt.takeLoss_slots (o : OutSt) (now : Nat) (p : Nat × (Nat × Nat)) : (o.takeLoss now p).1.slots = o.slots := by
  unfold OutSt.takeLoss; simp only; split <;> simp

/-- A property of the outward side that each step of a fold keeps is kept by the fold. -/
theorem foldl_keeps {α β γ : Type} (P : α → γ) (f : α → β → α) (h : ∀ a x, P (f a x) = P a) (l : List β) (a : α) :
    P (l.foldl f a) = P a := by
  induction l generalizing a with
  | nil => rfl
  | cons x r ih => simp [ih, h]

@[simp] theorem OutSt.copyRec_slots (now : Nat) (r : Rec) (l : List Nat) (o : OutSt) : (o.copyRec now r l).1.slots = o.slots := by
  induction l generalizing o with
  | nil => rfl
  | cons q qs ih =>
    unfold OutSt.copyRec
    simp only
    split
    · exact ih o
    · split
      · rw [ih]; exact foldl_keeps OutSt.slots _ (fun a x => by simp) _ _
      · simp [ih]

/-- Each way of emitting keeps the slots if what it emits in turn does. -/
theorem OutSt.emitStep_slots {em : OutSt → Job → OutSt} (ih : ∀ o j, (em o j).slots = o.slots) (cx : Ctx) (o : OutSt) (j : Job) :
    (OutSt.emitStep em cx o j).slots = o.slots := by
  cases j with
  | flag off bit always detail =>
    simp only [OutSt.emitStep, OutSt.emitFlag]
    split <;> simp [ih]
  | event blk sid kind status reason source wher bit detail =>
    simp only [OutSt.emitStep, OutSt.emitEvent]
    split
    · exact ih _ _
    · split
      · exact (ih _ _).trans (ih _ _)
      · exact (OutSt.push_slots _ _ _ _ _).trans (ih _ _)
  | losses =>
    simp only [OutSt.emitStep, OutSt.emitLosses]
    refine foldl_keeps OutSt.slots _ (fun a x => ?_) _ _
    split <;> simp [ih]
  | record time sid typ payload pass val =>
    simp only [OutSt.emitStep, OutSt.emitRecord]
    repeat' split
    all_goals simp [ih]
  | write r =>
    simp only [OutSt.emitStep, OutSt.emitWrite]
    repeat' split
    all_goals simp [ih]

/-- Emitting owes no completion and settles none. -/
@[simp] theorem OutSt.emit_slots (cx : Ctx) (n : Nat) (o : OutSt) (j : Job) : (OutSt.emit cx n o j).slots = o.slots := by
  induction n generalizing o j with
  | zero => rfl
  | succ n ih => exact OutSt.emitStep_slots ih cx o j

end Sys2Proof.Machine
end

