-- ==== Sys2Proof/Laws/Report.lean ====
section
/-! SUPPORT. Laws/Report.lean: what emitting, logging and completing a command change: nothing that `Reports` does not allow; and
that a completion is recorded. -/

namespace Sys2Proof

open Sys2Proof.Machine

@[simp] theorem rdR_tput_same (rs : Tab Word) (off : Nat) (v : Word) : rdR (tput rs off v) off = v := by simp [rdR]

theorem rdR_tput_ne (rs : Tab Word) {off k : Nat} (v : Word) (h : k ≠ off) : rdR (tput rs off v) k = rdR rs k := by
  simp [rdR, tget?_tput_ne rs v h]

theorem rdR_tput (rs : Tab Word) (off k : Nat) (v : Word) : rdR (tput rs off v) k = if k = off then v else rdR rs k := by
  split
  · next h => subst h; simp
  · next h => exact rdR_tput_ne rs v h

/-- A word reads as it was stored. -/
@[simp] theorem rd_wr_same (b : Block) (off : Nat) (v : Word) : (b.wr off v).rd off = v := by
  unfold Block.rd Block.wr; split <;> simp

/-- A store leaves every other word alone. -/
theorem rd_wr_ne (b : Block) {off k : Nat} (v : Word) (h : k ≠ off) : (b.wr off v).rd k = b.rd k := by
  unfold Block.rd Block.wr; split
  · split <;> simp [rdR_tput_ne, h]
  · split <;> simp [rdR_tput_ne, h]

theorem rd_wr (b : Block) (off k : Nat) (v : Word) : (b.wr off v).rd k = if k = off then v else b.rd k := by
  split
  · next h => subst h; simp
  · next h => exact rd_wr_ne b v h

/-- `t` is `b` but for the outward side, whose slots stay, and the performance counters. -/
def Quiet (b t : Block) : Prop :=
  ∃ o rs, t = { b with out := o, regs := rs } ∧ o.slots = b.out.slots ∧
    ∀ off, off / 0x100000 ≠ 0x15 → rdR rs off = rdR b.regs off

theorem Quiet.refl (b : Block) : Quiet b b := ⟨b.out, b.regs, rfl, rfl, fun _ _ => rfl⟩

theorem Quiet.trans {a b c : Block} (h : Quiet a b) (g : Quiet b c) : Quiet a c := by
  obtain ⟨o, rs, rfl, h1, h2⟩ := h
  obtain ⟨o', rs', rfl, g1, g2⟩ := g
  exact ⟨o', rs', rfl, g1.trans h1, fun off ho => (g2 off ho).trans (h2 off ho)⟩

/-- A store to a register of block 0x15 is quiet. -/
theorem quiet_wr (b : Block) (off : Nat) (v : Word) (h : off / 0x100000 = 0x15) : Quiet b (b.wr off v) := by
  unfold Block.wr
  have hi : isOut off = false := by simp [isOut, h]
  rw [hi]
  exact ⟨b.out, _, rfl, rfl, fun k hk => rdR_tput_ne _ _ (by rintro rfl; exact hk h)⟩

theorem quiet_wrN (b : Block) (off v : Nat) (h : off / 0x100000 = 0x15) : Quiet b (b.wrN off v) := quiet_wr b off _ h
theorem quiet_setFld (b : Block) (off lo n x : Nat) (h : off / 0x100000 = 0x15) : Quiet b (b.setFld off lo n x) := quiet_wr b off _ h
theorem quiet_count (b : Block) (off n : Nat) (h : off / 0x100000 = 0x15) : Quiet b (b.count off n) := quiet_wr b off _ h
theorem quiet_wr64 (b : Block) (off v : Nat) (h : off / 0x100000 = 0x15) (h4 : (off + 4) / 0x100000 = 0x15) :
    Quiet b (b.wr64 off v) := (quiet_wrN b off v h).trans (quiet_wrN _ (off + 4) _ h4)

theorem quiet_emitRaw (b : Block) (j : Job) : Quiet b (b.emitRaw j) :=
  ⟨_, b.regs, rfl, OutSt.emit_slots _ _ _ _, fun _ _ => rfl⟩

theorem quiet_prfWrap {em : Block → Job → Block} (hem : ∀ b j, Quiet b (em b j)) (cfg wraps sid n : Nat) (hc : cfg / 0x100000 = 0x15)
    (hw : wraps / 0x100000 = 0x15) (b : Block) : Quiet b (Block.prfWrap em b cfg wraps sid n) := by
  induction n generalizing b with
  | zero => exact Quiet.refl b
  | succ n ih =>
    rw [Block.prfWrap]
    refine Quiet.trans ?_ (ih _)
    have h1 := ((quiet_setFld b cfg 31 1 1 hc).trans (quiet_count _ wraps 1 hw)).trans
      (hem _ (.event 0x15 sid 1 0 0 0xFFFD cfg 31 []))
    have h2 : ∀ x : Block, Quiet x ((x.wrN Reg.prfFlags (x.rdN Reg.prfFlags ||| 1)).count Reg.prfFlagsSets) := fun x =>
      (quiet_wrN x Reg.prfFlags _ (by decide)).trans (quiet_count _ Reg.prfFlagsSets 1 (by decide))
    split
    · exact h1.trans (h2 _)
    · exact (h1.trans (h2 _)).trans (hem _ _)

/-- Block counters are 32 (21 R489). -/
theorem blkCounters_lt (b : Block) (ev k : Nat) (h : k ∈ b.blkCounters ev) : k < 32 := by
  unfold Block.blkCounters at h
  split at h
  · simp at h; exact h.1
  · simp only [List.mem_map, List.mem_filter, Bool.and_eq_true, decide_eq_true_eq] at h
    obtain ⟨p, ⟨_, h⟩, rfl⟩ := h
    omega

theorem quiet_fold {β : Type} (f : Block → β → Block) (l : List β) (h : ∀ x ∈ l, ∀ b, Quiet b (f b x)) (b : Block) :
    Quiet b (l.foldl f b) := by
  induction l generalizing b with
  | nil => exact Quiet.refl b
  | cons x r ih => exact (h x (by simp) b).trans (ih (fun y hy => h y (by simp [hy])) _)

theorem quiet_blkCountWith {em : Block → Job → Block} (hem : ∀ b j, Quiet b (em b j)) (b : Block) (ev n : Nat) :
    Quiet b (b.blkCountWith em ev n) := by
  unfold Block.blkCountWith
  split
  · exact Quiet.refl b
  · refine quiet_fold _ _ (fun k hk b => ?_) b
    have hk : k < 32 := blkCounters_lt _ _ _ hk
    have e1 : Reg.prfBlkCtr k / 0x100000 = 0x15 := by unfold Reg.prfBlkCtr; omega
    have e2 : (Reg.prfBlkCtr k + 4) / 0x100000 = 0x15 := by unfold Reg.prfBlkCtr; omega
    have e3 : Reg.prfBlkCfg k / 0x100000 = 0x15 := by unfold Reg.prfBlkCfg; omega
    have e4 : Reg.prfBlkWraps k / 0x100000 = 0x15 := by unfold Reg.prfBlkWraps; omega
    exact (quiet_wr64 b _ _ e1 e2).trans (quiet_prfWrap hem _ _ _ _ e3 e4 _)

theorem quiet_emitN (n : Nat) (b : Block) (j : Job) : Quiet b (b.emitN n j) := by
  induction n generalizing b j with
  | zero => exact quiet_emitRaw b j
  | succ n ih =>
    rw [Block.emitN]
    exact (((quiet_emitRaw b j).trans (quiet_blkCountWith ih _ _ _)).trans (quiet_blkCountWith ih _ _ _)).trans
      (quiet_blkCountWith ih _ _ _)

/-- Emitting is quiet. -/
theorem quiet_emit (b : Block) (j : Job) : Quiet b (b.emit j) := quiet_emitN 3 b j

theorem quiet_event (b : Block) (blk sid kind status reason source wher bit : Nat) (detail : List Byte) :
    Quiet b (b.event blk sid kind status reason source wher bit detail) := quiet_emit b _

theorem quiet_record (b : Block) (sid typ : Nat) (payload : List Byte) (pass : Bool) (val : Option Rat) :
    Quiet b (b.record sid typ payload pass val) := quiet_emit b _

theorem quiet_recordAt (b : Block) (time sid typ : Nat) (payload : List Byte) (pass : Bool) (val : Option Rat) :
    Quiet b (b.recordAt time sid typ payload pass val) := quiet_emit b _

theorem quiet_blkCount (b : Block) (ev n : Nat) : Quiet b (b.blkCount ev n) := quiet_blkCountWith quiet_emit b ev n

/-! ### Reports -/

theorem Reports.refl (b : Block) : Reports b b := ⟨_, _, _, _, _, _, _, rfl, fun _ _ _ => rfl⟩

theorem Reports.trans {a b c : Block} (h : Reports a b) (g : Reports b c) : Reports a c := by
  obtain ⟨_, _, _, _, _, _, _, rfl, h⟩ := h
  obtain ⟨_, _, _, _, _, _, _, rfl, g⟩ := g
  exact ⟨_, _, _, _, _, _, _, rfl, fun off h1 h2 => (g off h1 h2).trans (h off h1 h2)⟩

theorem Quiet.reports {b t : Block} (h : Quiet b t) : Reports b t := by
  obtain ⟨o, rs, rfl, -, hr⟩ := h
  exact ⟨o, rs, b.free, b.mgmt.alert, b.mgmt.log, b.mgmt.events, b.mgmt.nextSeq, rfl, fun off h1 _ => hr off h1⟩

theorem reports_free (b : Block) (n : Nat) : Reports b { b with free := n } :=
  ⟨b.out, b.regs, n, b.mgmt.alert, b.mgmt.log, b.mgmt.events, b.mgmt.nextSeq, rfl, fun _ _ _ => rfl⟩

theorem reports_out (b : Block) (o : OutSt) : Reports b { b with out := o } :=
  ⟨o, b.regs, b.free, b.mgmt.alert, b.mgmt.log, b.mgmt.events, b.mgmt.nextSeq, rfl, fun _ _ _ => rfl⟩

theorem reports_log (b : Block) (source code : Nat) (detail : List Byte) : Reports b (b.log source code detail) :=
  ⟨b.out, b.regs, b.free, _, _, _, _, rfl, fun _ _ _ => rfl⟩

theorem reports_conflicts (b : Block) (n : Nat) : Reports b (b.count Reg.sysStateConflicts n) := by
  refine ⟨b.out, _, b.free, b.mgmt.alert, b.mgmt.log, b.mgmt.events, b.mgmt.nextSeq, rfl, fun off _ h => ?_⟩
  exact rdR_tput_ne _ _ h

theorem reports_answer (b : Block) (src opcode tag : Nat) (notify : Bool) (cpl : Completion) :
    Reports b (b.answer src opcode tag notify cpl) := by
  unfold Block.answer
  split
  · exact ⟨_, b.regs, b.free, true, b.mgmt.log, b.mgmt.events, b.mgmt.nextSeq, rfl, fun _ _ _ => rfl⟩
  · exact reports_out b _

theorem reports_answerFinal (b : Block) (src opcode tag : Nat) (cpl : Completion) : Reports b (b.answerFinal src opcode tag cpl) := by
  unfold Block.answerFinal
  split
  · exact ⟨_, b.regs, b.free, true, b.mgmt.log, b.mgmt.events, b.mgmt.nextSeq, rfl, fun _ _ _ => rfl⟩
  · exact reports_out b _

/-- Completing a command only reports. -/
theorem reports_complete (b : Block) (op : Nat) (c : Cmd) (st rs : Nat) (res : List Byte) (code : Nat) :
    Reports b (b.complete op c st rs res code) := by
  unfold Block.complete
  extract_lets cpl b1 b2
  have h1 : Reports b b1 := reports_answer b _ _ _ _ _
  have h2 : Reports b b2 := by
    simp only [b2]
    split
    · split
      · exact h1.trans ((reports_free b1 _).trans (reports_log _ _ _ _))
      · exact h1.trans ((reports_conflicts b1 1).trans (quiet_event _ _ _ _ _ _ _ _ _ _).reports)
    · exact h1
  split
  · exact h2.trans (quiet_event _ _ _ _ _ _ _ _ _ _).reports
  · exact h2

/-- Settling a command only reports. -/
theorem reports_settle (b : Block) (o : ServiceOp) (queued : Bool) (st rs : Nat) (res : List Byte) (code : Nat) :
    Reports b (b.settle o queued st rs res code) := by
  unfold Block.settle
  extract_lets status cpl b1 b2
  have h1 : Reports b b1 := by
    simp only [b1]; split
    · exact reports_answerFinal b _ _ _ _
    · exact reports_answer b _ _ _ _ _
  have h2 : Reports b b2 := by
    simp only [b2]
    split
    · exact h1.trans ((reports_conflicts b1 1).trans (quiet_event _ _ _ _ _ _ _ _ _ _).reports)
    · exact h1
  split
  · exact h2.trans (quiet_event _ _ _ _ _ _ _ _ _ _).reports
  · exact h2

/-! ### Completions are recorded -/

theorem mem_updFirst {α : Type} (p : α → Bool) (f : α → α) (d : α) (l : List α) :
    f d ∈ updFirst p f d l ∨ ∃ x ∈ l, p x = true ∧ f x ∈ updFirst p f d l := by
  induction l with
  | nil => simp [updFirst]
  | cons x r ih =>
    by_cases h : p x = true
    · exact Or.inr ⟨x, by simp, h, by simp [updFirst, h]⟩
    · rcases ih with ih | ⟨y, hy, hp, hm⟩
      · exact Or.inl (by simp [updFirst, h, ih])
      · exact Or.inr ⟨y, by simp [hy], hp, by simp [updFirst, h, hm]⟩

theorem dropLost_fold_slots (l : List Slot) (o : OutSt) :
    (l.foldl (fun (o : OutSt) x =>
      if x.lost = 2 then { o with regs := addR o.regs Reg.hstLostCompletions x.known }
      else if x.lost = 3 then { o with regs := addR o.regs (Reg.hstQDrops (x.src + 16)) x.known }
      else o) o).slots = o.slots := by
  refine foldl_keeps OutSt.slots _ (fun a x => ?_) _ _
  split
  · rfl
  · split <;> rfl

/-- A slot whose queue is there stays. -/
theorem mem_dropLost {o : OutSt} {x : Slot} (h : x ∈ o.slots) (hl : x.lost = 0) : x ∈ o.dropLost.slots := by
  unfold OutSt.dropLost
  simp only [dropLost_fold_slots, List.mem_map, List.mem_filter]
  exact ⟨x, ⟨h, by simp [hl]⟩, by simp [hl]⟩

theorem answer_answered (b : Block) (src op tag : Nat) (notify : Bool) (cpl : Completion) (h : Owed b) :
    ∃ x ∈ (b.answer src op tag notify cpl).out.slots, x.src = src ∧ x.opcode = op ∧ x.tag = tag ∧ x.first = some cpl ∧ x.lost = 0 := by
  unfold Block.answer
  extract_lets d slots b1
  have key : ∃ x ∈ slots, x.src = src ∧ x.opcode = op ∧ x.tag = tag ∧ x.first = some cpl ∧ x.lost = 0 := by
    rcases mem_updFirst (fun s : Slot => s.src == src && s.opcode == op && s.tag == tag && s.first.isNone)
      (fun s => { s with executed := true, first := some cpl, notify := notify, two := cpl.status == stQueued }) d b.out.slots with
      hm | ⟨x, hx, hp, hm⟩
    · exact ⟨_, hm, rfl, rfl, rfl, rfl, rfl⟩
    · simp only [Bool.and_eq_true, beq_iff_eq] at hp
      exact ⟨_, hm, hp.1.1.1, hp.1.1.2, hp.1.2, rfl, h x hx⟩
  obtain ⟨x, hx, h1, h2, h3, h4, h5⟩ := key
  exact ⟨x, mem_dropLost hx h5, h1, h2, h3, h4, h5⟩

theorem Quiet.answered {now : Nat} {b t : Block} {op : Nat} {c : Cmd} {st rs : Nat} {res : List Byte} (q : Quiet b t)
    (h : Answered now b op c st rs res) : Answered now t op c st rs res := by
  obtain ⟨o, r, rfl, hs, -⟩ := q
  unfold Answered at *
  simpa only [hs] using h

/-- Completing a command records its completion. -/
theorem complete_answered (b : Block) (op : Nat) (c : Cmd) (st rs : Nat) (res : List Byte) (code : Nat) (h : Owed b) :
    Answered b.now (b.complete op c st rs res code) op c st rs res := by
  unfold Block.complete
  extract_lets cpl b1 b2
  have h1 : Answered b.now b1 op c st rs res := by
    obtain ⟨x, hx, e1, e2, e3, e4, -⟩ := answer_answered b (issuerSrc c.issuer) op c.tag.toNat (cNotify c) cpl h
    exact ⟨x, hx, e1, e2, e3, e4⟩
  have h2 : Answered b.now b2 op c st rs res := by
    simp only [b2]
    split
    · split
      · exact h1
      · refine (quiet_event _ _ _ _ _ _ _ _ _ _).answered ?_
        exact h1
    · exact h1
  split
  · exact (quiet_event _ _ _ _ _ _ _ _ _ _).answered h2
  · exact h2

/-! ### Running a command -/

theorem firstRefusal_none {l : List (Option Refuse)} : firstRefusal l = none ↔ ∀ r ∈ l, r = none := by
  induction l with
  | nil => simp [firstRefusal]
  | cons x r ih => cases x <;> simp [firstRefusal, ih]

/-- A command that nothing refuses has its effect and completes. -/
theorem run_eff (b : Block) (op : Nat) (c : Cmd) (l : List (Option Refuse)) (eff : Block → Block × Nat × Nat × List Byte)
    (h : firstRefusal l = none) : b.run op c l eff = (eff b).1.complete op c (eff b).2.1 (eff b).2.2.1 (eff b).2.2.2 := by
  simp [Block.run, h]

theorem runDone_eff (b : Block) (op : Nat) (c : Cmd) (l : List (Option Refuse)) (eff : Block → Block)
    (h : firstRefusal l = none) : b.runDone op c l eff = (eff b).complete op c stDone := by
  simp [Block.runDone, Block.run, h]

theorem accept_eff (b : Block) (op : Nat) (c : Cmd) (l : List (Option Refuse)) (eff : Block → Block)
    (h : firstRefusal l = none) : b.accept op c l eff = eff b := by
  simp [Block.accept, h]

/-- A refused command only reports: its refusal is its completion. -/
theorem run_refused (b : Block) (op : Nat) (c : Cmd) (l : List (Option Refuse)) (eff : Block → Block × Nat × Nat × List Byte)
    (r : Refuse) (h : firstRefusal l = some r) : b.run op c l eff = b.complete op c r.status r.reason [] r.code := by
  simp [Block.run, h]

theorem does_of {s : State} {i : Instr} {b' t : Block} (h : exec i s = .next { s with b := t }) (r : Reports b' t) : Does s i b' :=
  ⟨t, h, r⟩

/-- What completes with `Block.complete` at its end completes. -/
theorem completes_of {s : State} {i : Instr} {op : Nat} {c : Cmd} {b' : Block} {st rs : Nat} {res : List Byte} {code : Nat}
    (h : exec i s = .next { s with b := b'.complete op c st rs res code }) : Completes s i op c b' st rs res :=
  ⟨_, h, reports_complete _ _ _ _ _ _ _, complete_answered _ _ _ _ _ _ _⟩

/-- A store carries a report along. -/
theorem Reports.wr {b t : Block} (h : Reports b t) (off : Nat) (v : Word) : Reports (b.wr off v) (t.wr off v) := by
  obtain ⟨o, rs, fr, al, lg, ev, ns, rfl, hr⟩ := h
  unfold Block.wr
  split
  · exact ⟨_, _, fr, al, lg, ev, ns, rfl, hr⟩
  · refine ⟨o, _, fr, al, lg, ev, ns, rfl, fun k h1 h2 => ?_⟩
    by_cases e : k = off
    · subst e; simp
    · simp only [rdR_tput_ne _ v e]; exact hr k h1 h2

end Sys2Proof
end

