-- ==== Sys2Proof/Laws/Engine.lean ====
section
/-! SUPPORT. Laws/Engine.lean: an instruction that completes on an engine retires: what its retirement changes beside its own
effect. -/

namespace Sys2Proof

open Sys2Proof.Machine

@[simp] theorem eng_putEng_same (b : Block) (e : Nat) (x : EngSt) : (b.putEng e x).eng e = x := by
  simp [Block.eng, Block.putEng]

theorem eng_putEng_ne (b : Block) {e k : Nat} (x : EngSt) (h : k ≠ e) : (b.putEng e x).eng k = b.eng k := by
  simp [Block.eng, Block.putEng, tget_tput_ne _ _ x h]

/-- `t` is `b` but for the outward side, the performance counters and the samples that engine `e` owes. -/
def EngQuiet (e : Nat) (b t : Block) : Prop :=
  ∃ o rs es,
    t = { b with out := o, regs := rs, engs := es } ∧
    (∀ k, k ≠ e → t.eng k = b.eng k) ∧
    { t.eng e with skids := (b.eng e).skids } = b.eng e ∧
    ∀ off, off / 0x100000 ≠ 0x15 → rdR rs off = rdR b.regs off

theorem EngQuiet.refl (e : Nat) (b : Block) : EngQuiet e b b := ⟨b.out, b.regs, b.engs, rfl, fun _ _ => rfl, rfl, fun _ _ => rfl⟩

theorem EngQuiet.trans {e : Nat} {a b c : Block} (h : EngQuiet e a b) (g : EngQuiet e b c) : EngQuiet e a c := by
  obtain ⟨o, rs, es, hb, h1, h2, h3⟩ := h
  obtain ⟨o', rs', es', hc, g1, g2, g3⟩ := g
  refine ⟨o', rs', es', ?_, fun k hk => (g1 k hk).trans (h1 k hk), ?_, fun off ho => ?_⟩
  · rw [hc, hb]
  · rw [← h2]
    have : { c.eng e with skids := (a.eng e).skids } = { { c.eng e with skids := (b.eng e).skids } with skids := (a.eng e).skids } := rfl
    rw [this, g2]
  · rw [g3 off ho, hb]; exact h3 off ho

theorem Quiet.engQuiet {b t : Block} (h : Quiet b t) (e : Nat) : EngQuiet e b t := by
  obtain ⟨o, rs, rfl, -, hr⟩ := h
  exact ⟨o, rs, b.engs, rfl, fun _ _ => rfl, rfl, hr⟩

theorem engQuiet_skids (b : Block) (e : Nat) (sk : Tab Nat) : EngQuiet e b (b.putEng e { b.eng e with skids := sk }) := by
  refine ⟨b.out, b.regs, _, rfl, fun k hk => eng_putEng_ne b _ hk, ?_, fun _ _ => rfl⟩
  simp

theorem quiet_count48 (b : Block) (off n : Nat) (h : off / 0x100000 = 0x15) (h4 : (off + 4) / 0x100000 = 0x15) :
    Quiet b (b.count48 off n) := quiet_wr64 b off _ h h4

theorem quiet_setFlag (b : Block) (off bit : Nat) (h : off / 0x100000 = 0x15) (h4 : (off + 4) / 0x100000 = 0x15) :
    Quiet b (b.setFlag off bit) := (quiet_wrN b off _ h).trans (quiet_count _ (off + 4) 1 h4)

theorem quiet_raise (b : Block) (off bit sid : Nat) (d : List Byte) (h : off / 0x100000 = 0x15) (h4 : (off + 4) / 0x100000 = 0x15) :
    Quiet b (b.raise off bit sid d) := by
  unfold Block.raise
  simp only
  split
  · exact quiet_setFlag b off bit h h4
  · exact (quiet_setFlag b off bit h h4).trans (quiet_event _ _ _ _ _ _ _ _ _ _)

theorem quiet_prfSample (b : Block) (e i : Nat) (p : PrfAt) (skid : Bool) (dist : Nat) : Quiet b (b.prfSample e i p skid dist) := by
  unfold Block.prfSample
  extract_lets ev b1 b2
  have h1 : Quiet b b1 := quiet_count48 b _ 1 (by decide) (by decide)
  have h2 : Quiet b b2 := by
    simp only [b2]
    split
    · exact h1.trans ((quiet_count48 _ _ 1 (by decide) (by decide)).trans (quiet_raise _ _ _ _ _ (by decide) (by decide)))
    · exact h1
  exact h2.trans (quiet_record _ _ _ _ _ _)

theorem quiet_prfOne (b : Block) (e i n : Nat) (he : e < 40) (hi : i < 8) : Quiet b (b.prfOne e i n).1 := by
  have e1 : Reg.prfEngCtr e i / 0x100000 = 0x15 := by unfold Reg.prfEngCtr; omega
  have e2 : (Reg.prfEngCtr e i + 4) / 0x100000 = 0x15 := by unfold Reg.prfEngCtr; omega
  have e3 : Reg.prfEngCfg e i / 0x100000 = 0x15 := by unfold Reg.prfEngCfg; omega
  have e4 : Reg.prfEngWraps e i / 0x100000 = 0x15 := by unfold Reg.prfEngWraps; omega
  unfold Block.prfOne
  extract_lets cfg v r b1
  have h1 : Quiet b b1 := quiet_wr64 b _ _ e1 e2
  split
  · exact h1
  · exact h1.trans (quiet_prfWrap quiet_emit _ _ _ _ e3 e4 _)

theorem engQuiet_prfSkid (b : Block) (e i past : Nat) (p : PrfAt) : EngQuiet e b (b.prfSkid e i past p) := by
  unfold Block.prfSkid
  split
  · exact (quiet_prfSample _ _ _ _ _ _).engQuiet e
  · exact engQuiet_skids b e _

theorem engQuiet_fold {β : Type} {e : Nat} (f : Block → β → Block) (l : List β) (h : ∀ x ∈ l, ∀ b, EngQuiet e b (f b x)) (b : Block) :
    EngQuiet e b (l.foldl f b) := by
  induction l generalizing b with
  | nil => exact EngQuiet.refl e b
  | cons x r ih => exact (h x (by simp) b).trans (ih (fun y hy => h y (by simp [hy])) _)

theorem engQuiet_foldP {β : Type} {e : Nat} (f : Block × Bool → β → Block × Bool) (l : List β)
    (h : ∀ x ∈ l, ∀ b, EngQuiet e b.1 (f b x).1) (b : Block × Bool) : EngQuiet e b.1 (l.foldl f b).1 := by
  induction l generalizing b with
  | nil => exact EngQuiet.refl e b.1
  | cons x r ih => exact (h x (by simp) b).trans (ih (fun y hy => h y (by simp [hy])) _)

theorem engQuiet_prfSettle (b : Block) (e cyc : Nat) (p : PrfAt) : EngQuiet e b (b.prfSettle e cyc p) := by
  unfold Block.prfSettle
  refine (engQuiet_skids b e []).trans (engQuiet_fold _ _ (fun s _ b => ?_) _)
  split
  · exact (quiet_prfSample _ _ _ _ _ _).engQuiet e
  · exact (quiet_prfSample _ _ _ _ _ _).engQuiet e

theorem engQuiet_prfEvent (b : Block) (taken : Bool) (e ev n : Nat) (p : PrfAt) (he : e < 40) :
    EngQuiet e b (b.prfEvent taken e ev n p).1 := by
  unfold Block.prfEvent
  refine engQuiet_foldP _ _ (fun i hi acc => ?_) (b, taken)
  have hi : i < 8 := by simpa using hi
  split
  · exact EngQuiet.refl e _
  · have h1 := (quiet_prfOne acc.1 e i n he hi).engQuiet e
    dsimp only
    split
    · exact h1
    · refine h1.trans ?_
      split
      · exact (quiet_prfSample _ _ _ _ _ _).engQuiet e
      · split
        · dsimp only
          split
          · exact engQuiet_prfSkid _ _ _ _ _
          · exact (quiet_prfSample _ _ _ _ _ _).engQuiet e
        · dsimp only
          exact engQuiet_prfSkid _ _ _ _ _

theorem engQuiet_prfRetire (b : Block) (e cyc : Nat) (evs : List Nat) (p : PrfAt) (he : e < 40) :
    EngQuiet e b (b.prfRetire e cyc evs p) := by
  unfold Block.prfRetire
  extract_lets waiting b1 r
  refine (engQuiet_prfSettle b e cyc p).trans ((engQuiet_prfEvent b1 waiting e 0 cyc p he).trans ?_)
  exact engQuiet_foldP _ _ (fun ev _ acc => engQuiet_prfEvent _ _ _ _ _ _ he) _

/-! ### Retirement -/

theorem EngFrame.refl (e : Nat) (b : Block) : EngFrame e b b :=
  ⟨b.out, b.regs, b.free, b.engs, rfl, fun _ _ => rfl, rfl, fun _ _ _ => rfl⟩

theorem EngFrame.trans {e : Nat} {a b c : Block} (h : EngFrame e a b) (g : EngFrame e b c) : EngFrame e a c := by
  obtain ⟨o, rs, fr, es, hb, h1, h2, h3⟩ := h
  obtain ⟨o', rs', fr', es', hc, g1, g2, g3⟩ := g
  refine ⟨o', rs', fr', es', ?_, fun k hk => (g1 k hk).trans (h1 k hk), ?_, fun off ho hn => ?_⟩
  · rw [hc, hb]
  · have : { c.eng e with ctx := (a.eng e).ctx, act := (a.eng e).act, skids := (a.eng e).skids } =
        { { c.eng e with ctx := (b.eng e).ctx, act := (b.eng e).act, skids := (b.eng e).skids } with
            ctx := (a.eng e).ctx, act := (a.eng e).act, skids := (a.eng e).skids } := rfl
    rw [this, g2, h2]
  · rw [g3 off ho hn, hb]; exact h3 off ho hn

theorem EngQuiet.frame {e : Nat} {b t : Block} (h : EngQuiet e b t) : EngFrame e b t := by
  obtain ⟨o, rs, es, hb, h1, h2, h3⟩ := h
  refine ⟨o, rs, b.free, es, hb, h1, ?_, fun off ho _ => h3 off ho⟩
  rw [← h2]

theorem EngQuiet.act {e : Nat} {b t : Block} (h : EngQuiet e b t) : (t.eng e).act = (b.eng e).act := by
  obtain ⟨o, rs, es, hb, h1, h2, h3⟩ := h
  rw [← h2]

theorem EngQuiet.ctx {e : Nat} {b t : Block} (h : EngQuiet e b t) : (t.eng e).ctx = (b.eng e).ctx := by
  obtain ⟨o, rs, es, hb, h1, h2, h3⟩ := h
  rw [← h2]

theorem engFrame_put (b : Block) (e : Nat) (c : EngCtx) (a : Option ActSt) :
    EngFrame e b (b.putEng e { b.eng e with ctx := c, act := a }) := by
  refine ⟨b.out, b.regs, b.free, _, rfl, fun k hk => eng_putEng_ne b _ hk, ?_, fun _ _ _ => rfl⟩
  simp

theorem engFrame_wr (b : Block) (e off : Nat) (v : Word) (h : off ∈ engShown e) (hn : isOut off = false) : EngFrame e b (b.wr off v) := by
  unfold Block.wr
  rw [hn]
  exact ⟨b.out, _, b.free, b.engs, rfl, fun _ _ => rfl, rfl, fun k _ hk => rdR_tput_ne _ _ (by rintro rfl; exact hk h)⟩

@[simp] theorem eng_wr (b : Block) (off : Nat) (v : Word) (e : Nat) : (b.wr off v).eng e = b.eng e := by
  unfold Block.wr; split <;> rfl

@[simp] theorem eng_wrN (b : Block) (off v : Nat) (e : Nat) : (b.wrN off v).eng e = b.eng e := eng_wr b off _ e
@[simp] theorem eng_setFld (b : Block) (off lo n x : Nat) (e : Nat) : (b.setFld off lo n x).eng e = b.eng e := eng_wr b off _ e
@[simp] theorem eng_count48 (b : Block) (off n : Nat) (e : Nat) : (b.count48 off n).eng e = b.eng e := by
  simp [Block.count48, Block.wr64]

theorem setEg_frame (b : Block) (e st : Nat) (he : e < 40) : EngFrame e b (b.setEg e st) ∧ (b.setEg e st).eng e = b.eng e := by
  have hs : isOut (Reg.engState e) = false := by unfold isOut Reg.engState; simp; omega
  unfold Block.setEg
  extract_lets x b1
  have h1 : EngFrame e b b1 ∧ b1.eng e = b.eng e := by
    simp only [b1]
    split
    · exact ⟨engFrame_wr b e _ _ (by simp [engShown]) hs, by simp⟩
    · exact ⟨engFrame_wr b e _ _ (by simp [engShown]) hs, by simp⟩
  exact ⟨h1.1.trans (engFrame_wr b1 e Reg.cntState _ (by simp [engShown]) (by decide)), by simp [h1.2]⟩

theorem charge_frame (b : Block) (e cyc : Nat) (a : ActSt) (ha : (b.eng e).act = some a) (he : e < 40) :
    EngFrame e b (b.charge e cyc) ∧ ((b.charge e cyc).eng e).ctx = (b.eng e).ctx ∧
      ((b.charge e cyc).eng e).act = some (spend a cyc) := by
  have h0 : isOut (Reg.engBusyCycles e) = false := by unfold isOut Reg.engBusyCycles; simp; omega
  have h4 : isOut (Reg.engBusyCycles e + 4) = false := by unfold isOut Reg.engBusyCycles; simp; omega
  have hp : EngFrame e b (b.putEng e { b.eng e with act := some (spend a cyc) }) :=
    engFrame_put b e (b.eng e).ctx (some (spend a cyc))
  unfold Block.charge
  simp only [ha]
  split
  · refine ⟨hp.trans ?_, by simp, by simp [spend]⟩
    unfold Block.count48 Block.wr64
    exact (engFrame_wr _ e _ _ (by simp [engShown]) h0).trans (engFrame_wr _ e _ _ (by simp [engShown]) h4)
  · exact ⟨hp, by simp, by simp [spend]⟩

/-- An instruction whose operation completes retires with its registers, activation and cycles. -/
theorem issue_retires (b : Block) (e : Nat) (op : EngOp) (a : ActSt) (r : EngStep) (he : e < 40) (h : Runs b e a)
    (hop : op b e (b.eng e).ctx a = .ok r) (hq : r.quit = false) :
    ((b.issue e op).eng e).ctx = { r.c with pc := (r.npc.getD ((b.eng e).ctx.pc + 4)) % 2 ^ 32 } ∧
      ((b.issue e op).eng e).act = some (spend r.a r.cyc) ∧ EngFrame e r.b (b.issue e op) := by
  obtain ⟨hi, hpc, hlt⟩ := h
  unfold Block.issue
  simp only [hi, hop]
  rw [if_neg (by omega), if_neg (by omega)]
  simp only [hq, Bool.false_eq_true, if_false]
  set c' : EngCtx := { r.c with pc := (r.npc.getD ((b.eng e).ctx.pc + 4)) % 2 ^ 32 } with hc'
  set b1 := r.b.putEng e { r.b.eng e with ctx := c', act := some r.a } with hb1
  have f1 : EngFrame e r.b b1 := engFrame_put r.b e c' (some r.a)
  have x1 : (b1.eng e).ctx = c' := by simp [hb1]
  have y1 : (b1.eng e).act = some r.a := by simp [hb1]
  set b2 := if b1.known e then b1.prfRetire e r.cyc (0x01 :: r.evs) (prfOf (b.eng e).ctx a r.cyc r.addr) else b1 with hb2
  have q2 : EngQuiet e b1 b2 := by
    rw [hb2]; split
    · exact engQuiet_prfRetire _ _ _ _ _ he
    · exact EngQuiet.refl e b1
  obtain ⟨f3, x3, y3⟩ := charge_frame b2 e r.cyc r.a (q2.act.trans y1) he
  obtain ⟨f4, x4⟩ := setEg_frame (b2.charge e r.cyc) e (b2.egState e) he
  exact ⟨by rw [x4, x3, q2.ctx, x1], by rw [x4, y3], f1.trans (q2.frame.trans (f3.trans f4))⟩

/-- The same, said of a command. -/
theorem retires_of {s : State} {i : Instr} {e : Nat} {op : EngOp} {a : ActSt} {r : EngStep} {c' : EngCtx}
    (hx : exec i s = .next { s with b := s.b.issue e op }) (he : e < 40) (h : Runs s.b e a)
    (hop : op s.b e (s.b.eng e).ctx a = .ok r) (hq : r.quit = false)
    (hc : c' = { r.c with pc := (r.npc.getD ((s.b.eng e).ctx.pc + 4)) % 2 ^ 32 }) :
    Retires s i e r.b c' (spend r.a r.cyc) := by
  obtain ⟨h1, h2, h3⟩ := issue_retires s.b e op a r he h hop hq
  exact ⟨_, hx, h1.trans hc.symm, h2, h3⟩

end Sys2Proof
end

