-- ==== Sys2Proof/Laws/State.lean ====
section
/-! SUPPORT. Laws/State.lean: one lemma for each field and each update of the state's tables: an update changes its own field and no
other. -/

namespace Sys2Proof.Machine

variable (b : Block)

/-! `Block.putEng` -/

@[simp] theorem putEng_regs (e : Nat) (x : EngSt) : (b.putEng e x).regs = b.regs := rfl
@[simp] theorem putEng_latch (e : Nat) (x : EngSt) : (b.putEng e x).latch = b.latch := rfl
@[simp] theorem putEng_staging (e : Nat) (x : EngSt) : (b.putEng e x).staging = b.staging := rfl
@[simp] theorem putEng_out (e : Nat) (x : EngSt) : (b.putEng e x).out = b.out := rfl
@[simp] theorem putEng_now (e : Nat) (x : EngSt) : (b.putEng e x).now = b.now := rfl
@[simp] theorem putEng_frac (e : Nat) (x : EngSt) : (b.putEng e x).frac = b.frac := rfl
@[simp] theorem putEng_elapsed (e : Nat) (x : EngSt) : (b.putEng e x).elapsed = b.elapsed := rfl
@[simp] theorem putEng_refclk (e : Nat) (x : EngSt) : (b.putEng e x).refclk = b.refclk := rfl
@[simp] theorem putEng_free (e : Nat) (x : EngSt) : (b.putEng e x).free = b.free := rfl
@[simp] theorem putEng_boot (e : Nat) (x : EngSt) : (b.putEng e x).boot = b.boot := rfl
@[simp] theorem putEng_cfg (e : Nat) (x : EngSt) : (b.putEng e x).cfg = b.cfg := rfl
@[simp] theorem putEng_bankA (e : Nat) (x : EngSt) : (b.putEng e x).bankA = b.bankA := rfl
@[simp] theorem putEng_bankB (e : Nat) (x : EngSt) : (b.putEng e x).bankB = b.bankB := rfl
@[simp] theorem putEng_img (e : Nat) (x : EngSt) : (b.putEng e x).img = b.img := rfl
@[simp] theorem putEng_sram (e : Nat) (x : EngSt) : (b.putEng e x).sram = b.sram := rfl
@[simp] theorem putEng_cairn (e : Nat) (x : EngSt) : (b.putEng e x).cairn = b.cairn := rfl
@[simp] theorem putEng_acqMem (e : Nat) (x : EngSt) : (b.putEng e x).acqMem = b.acqMem := rfl
@[simp] theorem putEng_mgmt (e : Nat) (x : EngSt) : (b.putEng e x).mgmt = b.mgmt := rfl
@[simp] theorem putEng_world (e : Nat) (x : EngSt) : (b.putEng e x).world = b.world := rfl
@[simp] theorem putEng_seq (e : Nat) (x : EngSt) : (b.putEng e x).seq = b.seq := rfl
@[simp] theorem putEng_lgr (e : Nat) (x : EngSt) : (b.putEng e x).lgr = b.lgr := rfl
@[simp] theorem putEng_heldOps (e : Nat) (x : EngSt) : (b.putEng e x).heldOps = b.heldOps := rfl
@[simp] theorem putEng_stages (e : Nat) (x : EngSt) : (b.putEng e x).stages = b.stages := rfl
@[simp] theorem putEng_routes (e : Nat) (x : EngSt) : (b.putEng e x).routes = b.routes := rfl
@[simp] theorem putEng_loops (e : Nat) (x : EngSt) : (b.putEng e x).loops = b.loops := rfl
@[simp] theorem putEng_sigs (e : Nat) (x : EngSt) : (b.putEng e x).sigs = b.sigs := rfl
@[simp] theorem putEng_threads (e : Nat) (x : EngSt) : (b.putEng e x).threads = b.threads := rfl
@[simp] theorem putEng_pairs (e : Nat) (x : EngSt) : (b.putEng e x).pairs = b.pairs := rfl
@[simp] theorem putEng_trips (e : Nat) (x : EngSt) : (b.putEng e x).trips = b.trips := rfl
@[simp] theorem putEng_tripForced (e : Nat) (x : EngSt) : (b.putEng e x).tripForced = b.tripForced := rfl
@[simp] theorem putEng_tripBank (e : Nat) (x : EngSt) : (b.putEng e x).tripBank = b.tripBank := rfl
@[simp] theorem putEng_axes (e : Nat) (x : EngSt) : (b.putEng e x).axes = b.axes := rfl
@[simp] theorem putEng_dcp (e : Nat) (x : EngSt) : (b.putEng e x).dcp = b.dcp := rfl
@[simp] theorem putEng_dio (e : Nat) (x : EngSt) : (b.putEng e x).dio = b.dio := rfl
@[simp] theorem putEng_rxos (e : Nat) (x : EngSt) : (b.putEng e x).rxos = b.rxos := rfl
@[simp] theorem putEng_txos (e : Nat) (x : EngSt) : (b.putEng e x).txos = b.txos := rfl
@[simp] theorem putEng_cans (e : Nat) (x : EngSt) : (b.putEng e x).cans = b.cans := rfl
@[simp] theorem putEng_sers (e : Nat) (x : EngSt) : (b.putEng e x).sers = b.sers := rfl
@[simp] theorem putEng_convs (e : Nat) (x : EngSt) : (b.putEng e x).convs = b.convs := rfl
@[simp] theorem putEng_brgs (e : Nat) (x : EngSt) : (b.putEng e x).brgs = b.brgs := rfl
@[simp] theorem putEng_dacs (e : Nat) (x : EngSt) : (b.putEng e x).dacs = b.dacs := rfl
@[simp] theorem putEng_winCount (e : Nat) (x : EngSt) : (b.putEng e x).winCount = b.winCount := rfl
@[simp] theorem putEng_cal (e : Nat) (x : EngSt) : (b.putEng e x).cal = b.cal := rfl
@[simp] theorem putEng_takes (e : Nat) (x : EngSt) : (b.putEng e x).takes = b.takes := rfl
@[simp] theorem putEng_fchs (e : Nat) (x : EngSt) : (b.putEng e x).fchs = b.fchs := rfl
@[simp] theorem putEng_cont (e : Nat) (x : EngSt) : (b.putEng e x).cont = b.cont := rfl
@[simp] theorem putEng_tim (e : Nat) (x : EngSt) : (b.putEng e x).tim = b.tim := rfl
@[simp] theorem putEng_saf (e : Nat) (x : EngSt) : (b.putEng e x).saf = b.saf := rfl
@[simp] theorem putEng_rd (e : Nat) (x : EngSt) (o : Nat) : (b.putEng e x).rd o = b.rd o := rfl

/-! `Block.putTh` -/

@[simp] theorem putTh_regs (t : Nat) (x : ThreadSt) : (b.putTh t x).regs = b.regs := rfl
@[simp] theorem putTh_latch (t : Nat) (x : ThreadSt) : (b.putTh t x).latch = b.latch := rfl
@[simp] theorem putTh_staging (t : Nat) (x : ThreadSt) : (b.putTh t x).staging = b.staging := rfl
@[simp] theorem putTh_out (t : Nat) (x : ThreadSt) : (b.putTh t x).out = b.out := rfl
@[simp] theorem putTh_now (t : Nat) (x : ThreadSt) : (b.putTh t x).now = b.now := rfl
@[simp] theorem putTh_frac (t : Nat) (x : ThreadSt) : (b.putTh t x).frac = b.frac := rfl
@[simp] theorem putTh_elapsed (t : Nat) (x : ThreadSt) : (b.putTh t x).elapsed = b.elapsed := rfl
@[simp] theorem putTh_refclk (t : Nat) (x : ThreadSt) : (b.putTh t x).refclk = b.refclk := rfl
@[simp] theorem putTh_free (t : Nat) (x : ThreadSt) : (b.putTh t x).free = b.free := rfl
@[simp] theorem putTh_boot (t : Nat) (x : ThreadSt) : (b.putTh t x).boot = b.boot := rfl
@[simp] theorem putTh_cfg (t : Nat) (x : ThreadSt) : (b.putTh t x).cfg = b.cfg := rfl
@[simp] theorem putTh_bankA (t : Nat) (x : ThreadSt) : (b.putTh t x).bankA = b.bankA := rfl
@[simp] theorem putTh_bankB (t : Nat) (x : ThreadSt) : (b.putTh t x).bankB = b.bankB := rfl
@[simp] theorem putTh_img (t : Nat) (x : ThreadSt) : (b.putTh t x).img = b.img := rfl
@[simp] theorem putTh_sram (t : Nat) (x : ThreadSt) : (b.putTh t x).sram = b.sram := rfl
@[simp] theorem putTh_cairn (t : Nat) (x : ThreadSt) : (b.putTh t x).cairn = b.cairn := rfl
@[simp] theorem putTh_acqMem (t : Nat) (x : ThreadSt) : (b.putTh t x).acqMem = b.acqMem := rfl
@[simp] theorem putTh_mgmt (t : Nat) (x : ThreadSt) : (b.putTh t x).mgmt = b.mgmt := rfl
@[simp] theorem putTh_world (t : Nat) (x : ThreadSt) : (b.putTh t x).world = b.world := rfl
@[simp] theorem putTh_seq (t : Nat) (x : ThreadSt) : (b.putTh t x).seq = b.seq := rfl
@[simp] theorem putTh_lgr (t : Nat) (x : ThreadSt) : (b.putTh t x).lgr = b.lgr := rfl
@[simp] theorem putTh_heldOps (t : Nat) (x : ThreadSt) : (b.putTh t x).heldOps = b.heldOps := rfl
@[simp] theorem putTh_stages (t : Nat) (x : ThreadSt) : (b.putTh t x).stages = b.stages := rfl
@[simp] theorem putTh_routes (t : Nat) (x : ThreadSt) : (b.putTh t x).routes = b.routes := rfl
@[simp] theorem putTh_loops (t : Nat) (x : ThreadSt) : (b.putTh t x).loops = b.loops := rfl
@[simp] theorem putTh_sigs (t : Nat) (x : ThreadSt) : (b.putTh t x).sigs = b.sigs := rfl
@[simp] theorem putTh_pairs (t : Nat) (x : ThreadSt) : (b.putTh t x).pairs = b.pairs := rfl
@[simp] theorem putTh_trips (t : Nat) (x : ThreadSt) : (b.putTh t x).trips = b.trips := rfl
@[simp] theorem putTh_tripForced (t : Nat) (x : ThreadSt) : (b.putTh t x).tripForced = b.tripForced := rfl
@[simp] theorem putTh_tripBank (t : Nat) (x : ThreadSt) : (b.putTh t x).tripBank = b.tripBank := rfl
@[simp] theorem putTh_axes (t : Nat) (x : ThreadSt) : (b.putTh t x).axes = b.axes := rfl
@[simp] theorem putTh_dcp (t : Nat) (x : ThreadSt) : (b.putTh t x).dcp = b.dcp := rfl
@[simp] theorem putTh_dio (t : Nat) (x : ThreadSt) : (b.putTh t x).dio = b.dio := rfl
@[simp] theorem putTh_rxos (t : Nat) (x : ThreadSt) : (b.putTh t x).rxos = b.rxos := rfl
@[simp] theorem putTh_txos (t : Nat) (x : ThreadSt) : (b.putTh t x).txos = b.txos := rfl
@[simp] theorem putTh_cans (t : Nat) (x : ThreadSt) : (b.putTh t x).cans = b.cans := rfl
@[simp] theorem putTh_sers (t : Nat) (x : ThreadSt) : (b.putTh t x).sers = b.sers := rfl
@[simp] theorem putTh_convs (t : Nat) (x : ThreadSt) : (b.putTh t x).convs = b.convs := rfl
@[simp] theorem putTh_brgs (t : Nat) (x : ThreadSt) : (b.putTh t x).brgs = b.brgs := rfl
@[simp] theorem putTh_dacs (t : Nat) (x : ThreadSt) : (b.putTh t x).dacs = b.dacs := rfl
@[simp] theorem putTh_winCount (t : Nat) (x : ThreadSt) : (b.putTh t x).winCount = b.winCount := rfl
@[simp] theorem putTh_cal (t : Nat) (x : ThreadSt) : (b.putTh t x).cal = b.cal := rfl
@[simp] theorem putTh_takes (t : Nat) (x : ThreadSt) : (b.putTh t x).takes = b.takes := rfl
@[simp] theorem putTh_fchs (t : Nat) (x : ThreadSt) : (b.putTh t x).fchs = b.fchs := rfl
@[simp] theorem putTh_engs (t : Nat) (x : ThreadSt) : (b.putTh t x).engs = b.engs := rfl
@[simp] theorem putTh_cont (t : Nat) (x : ThreadSt) : (b.putTh t x).cont = b.cont := rfl
@[simp] theorem putTh_tim (t : Nat) (x : ThreadSt) : (b.putTh t x).tim = b.tim := rfl
@[simp] theorem putTh_saf (t : Nat) (x : ThreadSt) : (b.putTh t x).saf = b.saf := rfl
@[simp] theorem putTh_rd (t : Nat) (x : ThreadSt) (o : Nat) : (b.putTh t x).rd o = b.rd o := rfl

/-! `Block.putSg` -/

@[simp] theorem putSg_regs (n : Nat) (x : StageSt) : (b.putSg n x).regs = b.regs := rfl
@[simp] theorem putSg_latch (n : Nat) (x : StageSt) : (b.putSg n x).latch = b.latch := rfl
@[simp] theorem putSg_staging (n : Nat) (x : StageSt) : (b.putSg n x).staging = b.staging := rfl
@[simp] theorem putSg_out (n : Nat) (x : StageSt) : (b.putSg n x).out = b.out := rfl
@[simp] theorem putSg_now (n : Nat) (x : StageSt) : (b.putSg n x).now = b.now := rfl
@[simp] theorem putSg_frac (n : Nat) (x : StageSt) : (b.putSg n x).frac = b.frac := rfl
@[simp] theorem putSg_elapsed (n : Nat) (x : StageSt) : (b.putSg n x).elapsed = b.elapsed := rfl
@[simp] theorem putSg_refclk (n : Nat) (x : StageSt) : (b.putSg n x).refclk = b.refclk := rfl
@[simp] theorem putSg_free (n : Nat) (x : StageSt) : (b.putSg n x).free = b.free := rfl
@[simp] theorem putSg_boot (n : Nat) (x : StageSt) : (b.putSg n x).boot = b.boot := rfl
@[simp] theorem putSg_cfg (n : Nat) (x : StageSt) : (b.putSg n x).cfg = b.cfg := rfl
@[simp] theorem putSg_bankA (n : Nat) (x : StageSt) : (b.putSg n x).bankA = b.bankA := rfl
@[simp] theorem putSg_bankB (n : Nat) (x : StageSt) : (b.putSg n x).bankB = b.bankB := rfl
@[simp] theorem putSg_img (n : Nat) (x : StageSt) : (b.putSg n x).img = b.img := rfl
@[simp] theorem putSg_sram (n : Nat) (x : StageSt) : (b.putSg n x).sram = b.sram := rfl
@[simp] theorem putSg_cairn (n : Nat) (x : StageSt) : (b.putSg n x).cairn = b.cairn := rfl
@[simp] theorem putSg_acqMem (n : Nat) (x : StageSt) : (b.putSg n x).acqMem = b.acqMem := rfl
@[simp] theorem putSg_mgmt (n : Nat) (x : StageSt) : (b.putSg n x).mgmt = b.mgmt := rfl
@[simp] theorem putSg_world (n : Nat) (x : StageSt) : (b.putSg n x).world = b.world := rfl
@[simp] theorem putSg_seq (n : Nat) (x : StageSt) : (b.putSg n x).seq = b.seq := rfl
@[simp] theorem putSg_lgr (n : Nat) (x : StageSt) : (b.putSg n x).lgr = b.lgr := rfl
@[simp] theorem putSg_heldOps (n : Nat) (x : StageSt) : (b.putSg n x).heldOps = b.heldOps := rfl
@[simp] theorem putSg_routes (n : Nat) (x : StageSt) : (b.putSg n x).routes = b.routes := rfl
@[simp] theorem putSg_loops (n : Nat) (x : StageSt) : (b.putSg n x).loops = b.loops := rfl
@[simp] theorem putSg_sigs (n : Nat) (x : StageSt) : (b.putSg n x).sigs = b.sigs := rfl
@[simp] theorem putSg_threads (n : Nat) (x : StageSt) : (b.putSg n x).threads = b.threads := rfl
@[simp] theorem putSg_pairs (n : Nat) (x : StageSt) : (b.putSg n x).pairs = b.pairs := rfl
@[simp] theorem putSg_trips (n : Nat) (x : StageSt) : (b.putSg n x).trips = b.trips := rfl
@[simp] theorem putSg_tripForced (n : Nat) (x : StageSt) : (b.putSg n x).tripForced = b.tripForced := rfl
@[simp] theorem putSg_tripBank (n : Nat) (x : StageSt) : (b.putSg n x).tripBank = b.tripBank := rfl
@[simp] theorem putSg_axes (n : Nat) (x : StageSt) : (b.putSg n x).axes = b.axes := rfl
@[simp] theorem putSg_dcp (n : Nat) (x : StageSt) : (b.putSg n x).dcp = b.dcp := rfl
@[simp] theorem putSg_dio (n : Nat) (x : StageSt) : (b.putSg n x).dio = b.dio := rfl
@[simp] theorem putSg_rxos (n : Nat) (x : StageSt) : (b.putSg n x).rxos = b.rxos := rfl
@[simp] theorem putSg_txos (n : Nat) (x : StageSt) : (b.putSg n x).txos = b.txos := rfl
@[simp] theorem putSg_cans (n : Nat) (x : StageSt) : (b.putSg n x).cans = b.cans := rfl
@[simp] theorem putSg_sers (n : Nat) (x : StageSt) : (b.putSg n x).sers = b.sers := rfl
@[simp] theorem putSg_convs (n : Nat) (x : StageSt) : (b.putSg n x).convs = b.convs := rfl
@[simp] theorem putSg_brgs (n : Nat) (x : StageSt) : (b.putSg n x).brgs = b.brgs := rfl
@[simp] theorem putSg_dacs (n : Nat) (x : StageSt) : (b.putSg n x).dacs = b.dacs := rfl
@[simp] theorem putSg_winCount (n : Nat) (x : StageSt) : (b.putSg n x).winCount = b.winCount := rfl
@[simp] theorem putSg_cal (n : Nat) (x : StageSt) : (b.putSg n x).cal = b.cal := rfl
@[simp] theorem putSg_takes (n : Nat) (x : StageSt) : (b.putSg n x).takes = b.takes := rfl
@[simp] theorem putSg_fchs (n : Nat) (x : StageSt) : (b.putSg n x).fchs = b.fchs := rfl
@[simp] theorem putSg_engs (n : Nat) (x : StageSt) : (b.putSg n x).engs = b.engs := rfl
@[simp] theorem putSg_cont (n : Nat) (x : StageSt) : (b.putSg n x).cont = b.cont := rfl
@[simp] theorem putSg_tim (n : Nat) (x : StageSt) : (b.putSg n x).tim = b.tim := rfl
@[simp] theorem putSg_saf (n : Nat) (x : StageSt) : (b.putSg n x).saf = b.saf := rfl
@[simp] theorem putSg_rd (n : Nat) (x : StageSt) (o : Nat) : (b.putSg n x).rd o = b.rd o := rfl

/-! `Block.putLp` -/

@[simp] theorem putLp_regs (l : Nat) (x : LoopSt) : (b.putLp l x).regs = b.regs := rfl
@[simp] theorem putLp_latch (l : Nat) (x : LoopSt) : (b.putLp l x).latch = b.latch := rfl
@[simp] theorem putLp_staging (l : Nat) (x : LoopSt) : (b.putLp l x).staging = b.staging := rfl
@[simp] theorem putLp_out (l : Nat) (x : LoopSt) : (b.putLp l x).out = b.out := rfl
@[simp] theorem putLp_now (l : Nat) (x : LoopSt) : (b.putLp l x).now = b.now := rfl
@[simp] theorem putLp_frac (l : Nat) (x : LoopSt) : (b.putLp l x).frac = b.frac := rfl
@[simp] theorem putLp_elapsed (l : Nat) (x : LoopSt) : (b.putLp l x).elapsed = b.elapsed := rfl
@[simp] theorem putLp_refclk (l : Nat) (x : LoopSt) : (b.putLp l x).refclk = b.refclk := rfl
@[simp] theorem putLp_free (l : Nat) (x : LoopSt) : (b.putLp l x).free = b.free := rfl
@[simp] theorem putLp_boot (l : Nat) (x : LoopSt) : (b.putLp l x).boot = b.boot := rfl
@[simp] theorem putLp_cfg (l : Nat) (x : LoopSt) : (b.putLp l x).cfg = b.cfg := rfl
@[simp] theorem putLp_bankA (l : Nat) (x : LoopSt) : (b.putLp l x).bankA = b.bankA := rfl
@[simp] theorem putLp_bankB (l : Nat) (x : LoopSt) : (b.putLp l x).bankB = b.bankB := rfl
@[simp] theorem putLp_img (l : Nat) (x : LoopSt) : (b.putLp l x).img = b.img := rfl
@[simp] theorem putLp_sram (l : Nat) (x : LoopSt) : (b.putLp l x).sram = b.sram := rfl
@[simp] theorem putLp_cairn (l : Nat) (x : LoopSt) : (b.putLp l x).cairn = b.cairn := rfl
@[simp] theorem putLp_acqMem (l : Nat) (x : LoopSt) : (b.putLp l x).acqMem = b.acqMem := rfl
@[simp] theorem putLp_mgmt (l : Nat) (x : LoopSt) : (b.putLp l x).mgmt = b.mgmt := rfl
@[simp] theorem putLp_world (l : Nat) (x : LoopSt) : (b.putLp l x).world = b.world := rfl
@[simp] theorem putLp_seq (l : Nat) (x : LoopSt) : (b.putLp l x).seq = b.seq := rfl
@[simp] theorem putLp_lgr (l : Nat) (x : LoopSt) : (b.putLp l x).lgr = b.lgr := rfl
@[simp] theorem putLp_heldOps (l : Nat) (x : LoopSt) : (b.putLp l x).heldOps = b.heldOps := rfl
@[simp] theorem putLp_stages (l : Nat) (x : LoopSt) : (b.putLp l x).stages = b.stages := rfl
@[simp] theorem putLp_routes (l : Nat) (x : LoopSt) : (b.putLp l x).routes = b.routes := rfl
@[simp] theorem putLp_sigs (l : Nat) (x : LoopSt) : (b.putLp l x).sigs = b.sigs := rfl
@[simp] theorem putLp_threads (l : Nat) (x : LoopSt) : (b.putLp l x).threads = b.threads := rfl
@[simp] theorem putLp_pairs (l : Nat) (x : LoopSt) : (b.putLp l x).pairs = b.pairs := rfl
@[simp] theorem putLp_trips (l : Nat) (x : LoopSt) : (b.putLp l x).trips = b.trips := rfl
@[simp] theorem putLp_tripForced (l : Nat) (x : LoopSt) : (b.putLp l x).tripForced = b.tripForced := rfl
@[simp] theorem putLp_tripBank (l : Nat) (x : LoopSt) : (b.putLp l x).tripBank = b.tripBank := rfl
@[simp] theorem putLp_axes (l : Nat) (x : LoopSt) : (b.putLp l x).axes = b.axes := rfl
@[simp] theorem putLp_dcp (l : Nat) (x : LoopSt) : (b.putLp l x).dcp = b.dcp := rfl
@[simp] theorem putLp_dio (l : Nat) (x : LoopSt) : (b.putLp l x).dio = b.dio := rfl
@[simp] theorem putLp_rxos (l : Nat) (x : LoopSt) : (b.putLp l x).rxos = b.rxos := rfl
@[simp] theorem putLp_txos (l : Nat) (x : LoopSt) : (b.putLp l x).txos = b.txos := rfl
@[simp] theorem putLp_cans (l : Nat) (x : LoopSt) : (b.putLp l x).cans = b.cans := rfl
@[simp] theorem putLp_sers (l : Nat) (x : LoopSt) : (b.putLp l x).sers = b.sers := rfl
@[simp] theorem putLp_convs (l : Nat) (x : LoopSt) : (b.putLp l x).convs = b.convs := rfl
@[simp] theorem putLp_brgs (l : Nat) (x : LoopSt) : (b.putLp l x).brgs = b.brgs := rfl
@[simp] theorem putLp_dacs (l : Nat) (x : LoopSt) : (b.putLp l x).dacs = b.dacs := rfl
@[simp] theorem putLp_winCount (l : Nat) (x : LoopSt) : (b.putLp l x).winCount = b.winCount := rfl
@[simp] theorem putLp_cal (l : Nat) (x : LoopSt) : (b.putLp l x).cal = b.cal := rfl
@[simp] theorem putLp_takes (l : Nat) (x : LoopSt) : (b.putLp l x).takes = b.takes := rfl
@[simp] theorem putLp_fchs (l : Nat) (x : LoopSt) : (b.putLp l x).fchs = b.fchs := rfl
@[simp] theorem putLp_engs (l : Nat) (x : LoopSt) : (b.putLp l x).engs = b.engs := rfl
@[simp] theorem putLp_cont (l : Nat) (x : LoopSt) : (b.putLp l x).cont = b.cont := rfl
@[simp] theorem putLp_tim (l : Nat) (x : LoopSt) : (b.putLp l x).tim = b.tim := rfl
@[simp] theorem putLp_saf (l : Nat) (x : LoopSt) : (b.putLp l x).saf = b.saf := rfl
@[simp] theorem putLp_rd (l : Nat) (x : LoopSt) (o : Nat) : (b.putLp l x).rd o = b.rd o := rfl

/-! `Block.putPr` -/

@[simp] theorem putPr_regs (n : Nat) (x : PairSt) : (b.putPr n x).regs = b.regs := rfl
@[simp] theorem putPr_latch (n : Nat) (x : PairSt) : (b.putPr n x).latch = b.latch := rfl
@[simp] theorem putPr_staging (n : Nat) (x : PairSt) : (b.putPr n x).staging = b.staging := rfl
@[simp] theorem putPr_out (n : Nat) (x : PairSt) : (b.putPr n x).out = b.out := rfl
@[simp] theorem putPr_now (n : Nat) (x : PairSt) : (b.putPr n x).now = b.now := rfl
@[simp] theorem putPr_frac (n : Nat) (x : PairSt) : (b.putPr n x).frac = b.frac := rfl
@[simp] theorem putPr_elapsed (n : Nat) (x : PairSt) : (b.putPr n x).elapsed = b.elapsed := rfl
@[simp] theorem putPr_refclk (n : Nat) (x : PairSt) : (b.putPr n x).refclk = b.refclk := rfl
@[simp] theorem putPr_free (n : Nat) (x : PairSt) : (b.putPr n x).free = b.free := rfl
@[simp] theorem putPr_boot (n : Nat) (x : PairSt) : (b.putPr n x).boot = b.boot := rfl
@[simp] theorem putPr_cfg (n : Nat) (x : PairSt) : (b.putPr n x).cfg = b.cfg := rfl
@[simp] theorem putPr_bankA (n : Nat) (x : PairSt) : (b.putPr n x).bankA = b.bankA := rfl
@[simp] theorem putPr_bankB (n : Nat) (x : PairSt) : (b.putPr n x).bankB = b.bankB := rfl
@[simp] theorem putPr_img (n : Nat) (x : PairSt) : (b.putPr n x).img = b.img := rfl
@[simp] theorem putPr_sram (n : Nat) (x : PairSt) : (b.putPr n x).sram = b.sram := rfl
@[simp] theorem putPr_cairn (n : Nat) (x : PairSt) : (b.putPr n x).cairn = b.cairn := rfl
@[simp] theorem putPr_acqMem (n : Nat) (x : PairSt) : (b.putPr n x).acqMem = b.acqMem := rfl
@[simp] theorem putPr_mgmt (n : Nat) (x : PairSt) : (b.putPr n x).mgmt = b.mgmt := rfl
@[simp] theorem putPr_world (n : Nat) (x : PairSt) : (b.putPr n x).world = b.world := rfl
@[simp] theorem putPr_seq (n : Nat) (x : PairSt) : (b.putPr n x).seq = b.seq := rfl
@[simp] theorem putPr_lgr (n : Nat) (x : PairSt) : (b.putPr n x).lgr = b.lgr := rfl
@[simp] theorem putPr_heldOps (n : Nat) (x : PairSt) : (b.putPr n x).heldOps = b.heldOps := rfl
@[simp] theorem putPr_stages (n : Nat) (x : PairSt) : (b.putPr n x).stages = b.stages := rfl
@[simp] theorem putPr_routes (n : Nat) (x : PairSt) : (b.putPr n x).routes = b.routes := rfl
@[simp] theorem putPr_loops (n : Nat) (x : PairSt) : (b.putPr n x).loops = b.loops := rfl
@[simp] theorem putPr_sigs (n : Nat) (x : PairSt) : (b.putPr n x).sigs = b.sigs := rfl
@[simp] theorem putPr_threads (n : Nat) (x : PairSt) : (b.putPr n x).threads = b.threads := rfl
@[simp] theorem putPr_trips (n : Nat) (x : PairSt) : (b.putPr n x).trips = b.trips := rfl
@[simp] theorem putPr_tripForced (n : Nat) (x : PairSt) : (b.putPr n x).tripForced = b.tripForced := rfl
@[simp] theorem putPr_tripBank (n : Nat) (x : PairSt) : (b.putPr n x).tripBank = b.tripBank := rfl
@[simp] theorem putPr_axes (n : Nat) (x : PairSt) : (b.putPr n x).axes = b.axes := rfl
@[simp] theorem putPr_dcp (n : Nat) (x : PairSt) : (b.putPr n x).dcp = b.dcp := rfl
@[simp] theorem putPr_dio (n : Nat) (x : PairSt) : (b.putPr n x).dio = b.dio := rfl
@[simp] theorem putPr_rxos (n : Nat) (x : PairSt) : (b.putPr n x).rxos = b.rxos := rfl
@[simp] theorem putPr_txos (n : Nat) (x : PairSt) : (b.putPr n x).txos = b.txos := rfl
@[simp] theorem putPr_cans (n : Nat) (x : PairSt) : (b.putPr n x).cans = b.cans := rfl
@[simp] theorem putPr_sers (n : Nat) (x : PairSt) : (b.putPr n x).sers = b.sers := rfl
@[simp] theorem putPr_convs (n : Nat) (x : PairSt) : (b.putPr n x).convs = b.convs := rfl
@[simp] theorem putPr_brgs (n : Nat) (x : PairSt) : (b.putPr n x).brgs = b.brgs := rfl
@[simp] theorem putPr_dacs (n : Nat) (x : PairSt) : (b.putPr n x).dacs = b.dacs := rfl
@[simp] theorem putPr_winCount (n : Nat) (x : PairSt) : (b.putPr n x).winCount = b.winCount := rfl
@[simp] theorem putPr_cal (n : Nat) (x : PairSt) : (b.putPr n x).cal = b.cal := rfl
@[simp] theorem putPr_takes (n : Nat) (x : PairSt) : (b.putPr n x).takes = b.takes := rfl
@[simp] theorem putPr_fchs (n : Nat) (x : PairSt) : (b.putPr n x).fchs = b.fchs := rfl
@[simp] theorem putPr_engs (n : Nat) (x : PairSt) : (b.putPr n x).engs = b.engs := rfl
@[simp] theorem putPr_cont (n : Nat) (x : PairSt) : (b.putPr n x).cont = b.cont := rfl
@[simp] theorem putPr_tim (n : Nat) (x : PairSt) : (b.putPr n x).tim = b.tim := rfl
@[simp] theorem putPr_saf (n : Nat) (x : PairSt) : (b.putPr n x).saf = b.saf := rfl
@[simp] theorem putPr_rd (n : Nat) (x : PairSt) (o : Nat) : (b.putPr n x).rd o = b.rd o := rfl

/-! `Block.putTrp` -/

@[simp] theorem putTrp_regs (s : Nat) (x : TripSt) : (b.putTrp s x).regs = b.regs := rfl
@[simp] theorem putTrp_latch (s : Nat) (x : TripSt) : (b.putTrp s x).latch = b.latch := rfl
@[simp] theorem putTrp_staging (s : Nat) (x : TripSt) : (b.putTrp s x).staging = b.staging := rfl
@[simp] theorem putTrp_out (s : Nat) (x : TripSt) : (b.putTrp s x).out = b.out := rfl
@[simp] theorem putTrp_now (s : Nat) (x : TripSt) : (b.putTrp s x).now = b.now := rfl
@[simp] theorem putTrp_frac (s : Nat) (x : TripSt) : (b.putTrp s x).frac = b.frac := rfl
@[simp] theorem putTrp_elapsed (s : Nat) (x : TripSt) : (b.putTrp s x).elapsed = b.elapsed := rfl
@[simp] theorem putTrp_refclk (s : Nat) (x : TripSt) : (b.putTrp s x).refclk = b.refclk := rfl
@[simp] theorem putTrp_free (s : Nat) (x : TripSt) : (b.putTrp s x).free = b.free := rfl
@[simp] theorem putTrp_boot (s : Nat) (x : TripSt) : (b.putTrp s x).boot = b.boot := rfl
@[simp] theorem putTrp_cfg (s : Nat) (x : TripSt) : (b.putTrp s x).cfg = b.cfg := rfl
@[simp] theorem putTrp_bankA (s : Nat) (x : TripSt) : (b.putTrp s x).bankA = b.bankA := rfl
@[simp] theorem putTrp_bankB (s : Nat) (x : TripSt) : (b.putTrp s x).bankB = b.bankB := rfl
@[simp] theorem putTrp_img (s : Nat) (x : TripSt) : (b.putTrp s x).img = b.img := rfl
@[simp] theorem putTrp_sram (s : Nat) (x : TripSt) : (b.putTrp s x).sram = b.sram := rfl
@[simp] theorem putTrp_cairn (s : Nat) (x : TripSt) : (b.putTrp s x).cairn = b.cairn := rfl
@[simp] theorem putTrp_acqMem (s : Nat) (x : TripSt) : (b.putTrp s x).acqMem = b.acqMem := rfl
@[simp] theorem putTrp_mgmt (s : Nat) (x : TripSt) : (b.putTrp s x).mgmt = b.mgmt := rfl
@[simp] theorem putTrp_world (s : Nat) (x : TripSt) : (b.putTrp s x).world = b.world := rfl
@[simp] theorem putTrp_seq (s : Nat) (x : TripSt) : (b.putTrp s x).seq = b.seq := rfl
@[simp] theorem putTrp_lgr (s : Nat) (x : TripSt) : (b.putTrp s x).lgr = b.lgr := rfl
@[simp] theorem putTrp_heldOps (s : Nat) (x : TripSt) : (b.putTrp s x).heldOps = b.heldOps := rfl
@[simp] theorem putTrp_stages (s : Nat) (x : TripSt) : (b.putTrp s x).stages = b.stages := rfl
@[simp] theorem putTrp_routes (s : Nat) (x : TripSt) : (b.putTrp s x).routes = b.routes := rfl
@[simp] theorem putTrp_loops (s : Nat) (x : TripSt) : (b.putTrp s x).loops = b.loops := rfl
@[simp] theorem putTrp_sigs (s : Nat) (x : TripSt) : (b.putTrp s x).sigs = b.sigs := rfl
@[simp] theorem putTrp_threads (s : Nat) (x : TripSt) : (b.putTrp s x).threads = b.threads := rfl
@[simp] theorem putTrp_pairs (s : Nat) (x : TripSt) : (b.putTrp s x).pairs = b.pairs := rfl
@[simp] theorem putTrp_tripForced (s : Nat) (x : TripSt) : (b.putTrp s x).tripForced = b.tripForced := rfl
@[simp] theorem putTrp_tripBank (s : Nat) (x : TripSt) : (b.putTrp s x).tripBank = b.tripBank := rfl
@[simp] theorem putTrp_axes (s : Nat) (x : TripSt) : (b.putTrp s x).axes = b.axes := rfl
@[simp] theorem putTrp_dcp (s : Nat) (x : TripSt) : (b.putTrp s x).dcp = b.dcp := rfl
@[simp] theorem putTrp_dio (s : Nat) (x : TripSt) : (b.putTrp s x).dio = b.dio := rfl
@[simp] theorem putTrp_rxos (s : Nat) (x : TripSt) : (b.putTrp s x).rxos = b.rxos := rfl
@[simp] theorem putTrp_txos (s : Nat) (x : TripSt) : (b.putTrp s x).txos = b.txos := rfl
@[simp] theorem putTrp_cans (s : Nat) (x : TripSt) : (b.putTrp s x).cans = b.cans := rfl
@[simp] theorem putTrp_sers (s : Nat) (x : TripSt) : (b.putTrp s x).sers = b.sers := rfl
@[simp] theorem putTrp_convs (s : Nat) (x : TripSt) : (b.putTrp s x).convs = b.convs := rfl
@[simp] theorem putTrp_brgs (s : Nat) (x : TripSt) : (b.putTrp s x).brgs = b.brgs := rfl
@[simp] theorem putTrp_dacs (s : Nat) (x : TripSt) : (b.putTrp s x).dacs = b.dacs := rfl
@[simp] theorem putTrp_winCount (s : Nat) (x : TripSt) : (b.putTrp s x).winCount = b.winCount := rfl
@[simp] theorem putTrp_cal (s : Nat) (x : TripSt) : (b.putTrp s x).cal = b.cal := rfl
@[simp] theorem putTrp_takes (s : Nat) (x : TripSt) : (b.putTrp s x).takes = b.takes := rfl
@[simp] theorem putTrp_fchs (s : Nat) (x : TripSt) : (b.putTrp s x).fchs = b.fchs := rfl
@[simp] theorem putTrp_engs (s : Nat) (x : TripSt) : (b.putTrp s x).engs = b.engs := rfl
@[simp] theorem putTrp_cont (s : Nat) (x : TripSt) : (b.putTrp s x).cont = b.cont := rfl
@[simp] theorem putTrp_tim (s : Nat) (x : TripSt) : (b.putTrp s x).tim = b.tim := rfl
@[simp] theorem putTrp_saf (s : Nat) (x : TripSt) : (b.putTrp s x).saf = b.saf := rfl
@[simp] theorem putTrp_rd (s : Nat) (x : TripSt) (o : Nat) : (b.putTrp s x).rd o = b.rd o := rfl

/-! `Block.putAx` -/

@[simp] theorem putAx_regs (n : Nat) (x : AxisSt) : (b.putAx n x).regs = b.regs := rfl
@[simp] theorem putAx_latch (n : Nat) (x : AxisSt) : (b.putAx n x).latch = b.latch := rfl
@[simp] theorem putAx_staging (n : Nat) (x : AxisSt) : (b.putAx n x).staging = b.staging := rfl
@[simp] theorem putAx_out (n : Nat) (x : AxisSt) : (b.putAx n x).out = b.out := rfl
@[simp] theorem putAx_now (n : Nat) (x : AxisSt) : (b.putAx n x).now = b.now := rfl
@[simp] theorem putAx_frac (n : Nat) (x : AxisSt) : (b.putAx n x).frac = b.frac := rfl
@[simp] theorem putAx_elapsed (n : Nat) (x : AxisSt) : (b.putAx n x).elapsed = b.elapsed := rfl
@[simp] theorem putAx_refclk (n : Nat) (x : AxisSt) : (b.putAx n x).refclk = b.refclk := rfl
@[simp] theorem putAx_free (n : Nat) (x : AxisSt) : (b.putAx n x).free = b.free := rfl
@[simp] theorem putAx_boot (n : Nat) (x : AxisSt) : (b.putAx n x).boot = b.boot := rfl
@[simp] theorem putAx_cfg (n : Nat) (x : AxisSt) : (b.putAx n x).cfg = b.cfg := rfl
@[simp] theorem putAx_bankA (n : Nat) (x : AxisSt) : (b.putAx n x).bankA = b.bankA := rfl
@[simp] theorem putAx_bankB (n : Nat) (x : AxisSt) : (b.putAx n x).bankB = b.bankB := rfl
@[simp] theorem putAx_img (n : Nat) (x : AxisSt) : (b.putAx n x).img = b.img := rfl
@[simp] theorem putAx_sram (n : Nat) (x : AxisSt) : (b.putAx n x).sram = b.sram := rfl
@[simp] theorem putAx_cairn (n : Nat) (x : AxisSt) : (b.putAx n x).cairn = b.cairn := rfl
@[simp] theorem putAx_acqMem (n : Nat) (x : AxisSt) : (b.putAx n x).acqMem = b.acqMem := rfl
@[simp] theorem putAx_mgmt (n : Nat) (x : AxisSt) : (b.putAx n x).mgmt = b.mgmt := rfl
@[simp] theorem putAx_world (n : Nat) (x : AxisSt) : (b.putAx n x).world = b.world := rfl
@[simp] theorem putAx_seq (n : Nat) (x : AxisSt) : (b.putAx n x).seq = b.seq := rfl
@[simp] theorem putAx_lgr (n : Nat) (x : AxisSt) : (b.putAx n x).lgr = b.lgr := rfl
@[simp] theorem putAx_heldOps (n : Nat) (x : AxisSt) : (b.putAx n x).heldOps = b.heldOps := rfl
@[simp] theorem putAx_stages (n : Nat) (x : AxisSt) : (b.putAx n x).stages = b.stages := rfl
@[simp] theorem putAx_routes (n : Nat) (x : AxisSt) : (b.putAx n x).routes = b.routes := rfl
@[simp] theorem putAx_loops (n : Nat) (x : AxisSt) : (b.putAx n x).loops = b.loops := rfl
@[simp] theorem putAx_sigs (n : Nat) (x : AxisSt) : (b.putAx n x).sigs = b.sigs := rfl
@[simp] theorem putAx_threads (n : Nat) (x : AxisSt) : (b.putAx n x).threads = b.threads := rfl
@[simp] theorem putAx_pairs (n : Nat) (x : AxisSt) : (b.putAx n x).pairs = b.pairs := rfl
@[simp] theorem putAx_trips (n : Nat) (x : AxisSt) : (b.putAx n x).trips = b.trips := rfl
@[simp] theorem putAx_tripForced (n : Nat) (x : AxisSt) : (b.putAx n x).tripForced = b.tripForced := rfl
@[simp] theorem putAx_tripBank (n : Nat) (x : AxisSt) : (b.putAx n x).tripBank = b.tripBank := rfl
@[simp] theorem putAx_dcp (n : Nat) (x : AxisSt) : (b.putAx n x).dcp = b.dcp := rfl
@[simp] theorem putAx_dio (n : Nat) (x : AxisSt) : (b.putAx n x).dio = b.dio := rfl
@[simp] theorem putAx_rxos (n : Nat) (x : AxisSt) : (b.putAx n x).rxos = b.rxos := rfl
@[simp] theorem putAx_txos (n : Nat) (x : AxisSt) : (b.putAx n x).txos = b.txos := rfl
@[simp] theorem putAx_cans (n : Nat) (x : AxisSt) : (b.putAx n x).cans = b.cans := rfl
@[simp] theorem putAx_sers (n : Nat) (x : AxisSt) : (b.putAx n x).sers = b.sers := rfl
@[simp] theorem putAx_convs (n : Nat) (x : AxisSt) : (b.putAx n x).convs = b.convs := rfl
@[simp] theorem putAx_brgs (n : Nat) (x : AxisSt) : (b.putAx n x).brgs = b.brgs := rfl
@[simp] theorem putAx_dacs (n : Nat) (x : AxisSt) : (b.putAx n x).dacs = b.dacs := rfl
@[simp] theorem putAx_winCount (n : Nat) (x : AxisSt) : (b.putAx n x).winCount = b.winCount := rfl
@[simp] theorem putAx_cal (n : Nat) (x : AxisSt) : (b.putAx n x).cal = b.cal := rfl
@[simp] theorem putAx_takes (n : Nat) (x : AxisSt) : (b.putAx n x).takes = b.takes := rfl
@[simp] theorem putAx_fchs (n : Nat) (x : AxisSt) : (b.putAx n x).fchs = b.fchs := rfl
@[simp] theorem putAx_engs (n : Nat) (x : AxisSt) : (b.putAx n x).engs = b.engs := rfl
@[simp] theorem putAx_cont (n : Nat) (x : AxisSt) : (b.putAx n x).cont = b.cont := rfl
@[simp] theorem putAx_tim (n : Nat) (x : AxisSt) : (b.putAx n x).tim = b.tim := rfl
@[simp] theorem putAx_saf (n : Nat) (x : AxisSt) : (b.putAx n x).saf = b.saf := rfl
@[simp] theorem putAx_rd (n : Nat) (x : AxisSt) (o : Nat) : (b.putAx n x).rd o = b.rd o := rfl

/-! `Block.putDio` -/

@[simp] theorem putDio_regs (n : Nat) (x : DioSt) : (b.putDio n x).regs = b.regs := rfl
@[simp] theorem putDio_latch (n : Nat) (x : DioSt) : (b.putDio n x).latch = b.latch := rfl
@[simp] theorem putDio_staging (n : Nat) (x : DioSt) : (b.putDio n x).staging = b.staging := rfl
@[simp] theorem putDio_out (n : Nat) (x : DioSt) : (b.putDio n x).out = b.out := rfl
@[simp] theorem putDio_now (n : Nat) (x : DioSt) : (b.putDio n x).now = b.now := rfl
@[simp] theorem putDio_frac (n : Nat) (x : DioSt) : (b.putDio n x).frac = b.frac := rfl
@[simp] theorem putDio_elapsed (n : Nat) (x : DioSt) : (b.putDio n x).elapsed = b.elapsed := rfl
@[simp] theorem putDio_refclk (n : Nat) (x : DioSt) : (b.putDio n x).refclk = b.refclk := rfl
@[simp] theorem putDio_free (n : Nat) (x : DioSt) : (b.putDio n x).free = b.free := rfl
@[simp] theorem putDio_boot (n : Nat) (x : DioSt) : (b.putDio n x).boot = b.boot := rfl
@[simp] theorem putDio_cfg (n : Nat) (x : DioSt) : (b.putDio n x).cfg = b.cfg := rfl
@[simp] theorem putDio_bankA (n : Nat) (x : DioSt) : (b.putDio n x).bankA = b.bankA := rfl
@[simp] theorem putDio_bankB (n : Nat) (x : DioSt) : (b.putDio n x).bankB = b.bankB := rfl
@[simp] theorem putDio_img (n : Nat) (x : DioSt) : (b.putDio n x).img = b.img := rfl
@[simp] theorem putDio_sram (n : Nat) (x : DioSt) : (b.putDio n x).sram = b.sram := rfl
@[simp] theorem putDio_cairn (n : Nat) (x : DioSt) : (b.putDio n x).cairn = b.cairn := rfl
@[simp] theorem putDio_acqMem (n : Nat) (x : DioSt) : (b.putDio n x).acqMem = b.acqMem := rfl
@[simp] theorem putDio_mgmt (n : Nat) (x : DioSt) : (b.putDio n x).mgmt = b.mgmt := rfl
@[simp] theorem putDio_world (n : Nat) (x : DioSt) : (b.putDio n x).world = b.world := rfl
@[simp] theorem putDio_seq (n : Nat) (x : DioSt) : (b.putDio n x).seq = b.seq := rfl
@[simp] theorem putDio_lgr (n : Nat) (x : DioSt) : (b.putDio n x).lgr = b.lgr := rfl
@[simp] theorem putDio_heldOps (n : Nat) (x : DioSt) : (b.putDio n x).heldOps = b.heldOps := rfl
@[simp] theorem putDio_stages (n : Nat) (x : DioSt) : (b.putDio n x).stages = b.stages := rfl
@[simp] theorem putDio_routes (n : Nat) (x : DioSt) : (b.putDio n x).routes = b.routes := rfl
@[simp] theorem putDio_loops (n : Nat) (x : DioSt) : (b.putDio n x).loops = b.loops := rfl
@[simp] theorem putDio_sigs (n : Nat) (x : DioSt) : (b.putDio n x).sigs = b.sigs := rfl
@[simp] theorem putDio_threads (n : Nat) (x : DioSt) : (b.putDio n x).threads = b.threads := rfl
@[simp] theorem putDio_pairs (n : Nat) (x : DioSt) : (b.putDio n x).pairs = b.pairs := rfl
@[simp] theorem putDio_trips (n : Nat) (x : DioSt) : (b.putDio n x).trips = b.trips := rfl
@[simp] theorem putDio_tripForced (n : Nat) (x : DioSt) : (b.putDio n x).tripForced = b.tripForced := rfl
@[simp] theorem putDio_tripBank (n : Nat) (x : DioSt) : (b.putDio n x).tripBank = b.tripBank := rfl
@[simp] theorem putDio_axes (n : Nat) (x : DioSt) : (b.putDio n x).axes = b.axes := rfl
@[simp] theorem putDio_dcp (n : Nat) (x : DioSt) : (b.putDio n x).dcp = b.dcp := rfl
@[simp] theorem putDio_rxos (n : Nat) (x : DioSt) : (b.putDio n x).rxos = b.rxos := rfl
@[simp] theorem putDio_txos (n : Nat) (x : DioSt) : (b.putDio n x).txos = b.txos := rfl
@[simp] theorem putDio_cans (n : Nat) (x : DioSt) : (b.putDio n x).cans = b.cans := rfl
@[simp] theorem putDio_sers (n : Nat) (x : DioSt) : (b.putDio n x).sers = b.sers := rfl
@[simp] theorem putDio_convs (n : Nat) (x : DioSt) : (b.putDio n x).convs = b.convs := rfl
@[simp] theorem putDio_brgs (n : Nat) (x : DioSt) : (b.putDio n x).brgs = b.brgs := rfl
@[simp] theorem putDio_dacs (n : Nat) (x : DioSt) : (b.putDio n x).dacs = b.dacs := rfl
@[simp] theorem putDio_winCount (n : Nat) (x : DioSt) : (b.putDio n x).winCount = b.winCount := rfl
@[simp] theorem putDio_cal (n : Nat) (x : DioSt) : (b.putDio n x).cal = b.cal := rfl
@[simp] theorem putDio_takes (n : Nat) (x : DioSt) : (b.putDio n x).takes = b.takes := rfl
@[simp] theorem putDio_fchs (n : Nat) (x : DioSt) : (b.putDio n x).fchs = b.fchs := rfl
@[simp] theorem putDio_engs (n : Nat) (x : DioSt) : (b.putDio n x).engs = b.engs := rfl
@[simp] theorem putDio_cont (n : Nat) (x : DioSt) : (b.putDio n x).cont = b.cont := rfl
@[simp] theorem putDio_tim (n : Nat) (x : DioSt) : (b.putDio n x).tim = b.tim := rfl
@[simp] theorem putDio_saf (n : Nat) (x : DioSt) : (b.putDio n x).saf = b.saf := rfl
@[simp] theorem putDio_rd (n : Nat) (x : DioSt) (o : Nat) : (b.putDio n x).rd o = b.rd o := rfl

/-! `Block.putRxo` -/

@[simp] theorem putRxo_regs (k : Nat) (x : RxoSt) : (b.putRxo k x).regs = b.regs := rfl
@[simp] theorem putRxo_latch (k : Nat) (x : RxoSt) : (b.putRxo k x).latch = b.latch := rfl
@[simp] theorem putRxo_staging (k : Nat) (x : RxoSt) : (b.putRxo k x).staging = b.staging := rfl
@[simp] theorem putRxo_out (k : Nat) (x : RxoSt) : (b.putRxo k x).out = b.out := rfl
@[simp] theorem putRxo_now (k : Nat) (x : RxoSt) : (b.putRxo k x).now = b.now := rfl
@[simp] theorem putRxo_frac (k : Nat) (x : RxoSt) : (b.putRxo k x).frac = b.frac := rfl
@[simp] theorem putRxo_elapsed (k : Nat) (x : RxoSt) : (b.putRxo k x).elapsed = b.elapsed := rfl
@[simp] theorem putRxo_refclk (k : Nat) (x : RxoSt) : (b.putRxo k x).refclk = b.refclk := rfl
@[simp] theorem putRxo_free (k : Nat) (x : RxoSt) : (b.putRxo k x).free = b.free := rfl
@[simp] theorem putRxo_boot (k : Nat) (x : RxoSt) : (b.putRxo k x).boot = b.boot := rfl
@[simp] theorem putRxo_cfg (k : Nat) (x : RxoSt) : (b.putRxo k x).cfg = b.cfg := rfl
@[simp] theorem putRxo_bankA (k : Nat) (x : RxoSt) : (b.putRxo k x).bankA = b.bankA := rfl
@[simp] theorem putRxo_bankB (k : Nat) (x : RxoSt) : (b.putRxo k x).bankB = b.bankB := rfl
@[simp] theorem putRxo_img (k : Nat) (x : RxoSt) : (b.putRxo k x).img = b.img := rfl
@[simp] theorem putRxo_sram (k : Nat) (x : RxoSt) : (b.putRxo k x).sram = b.sram := rfl
@[simp] theorem putRxo_cairn (k : Nat) (x : RxoSt) : (b.putRxo k x).cairn = b.cairn := rfl
@[simp] theorem putRxo_acqMem (k : Nat) (x : RxoSt) : (b.putRxo k x).acqMem = b.acqMem := rfl
@[simp] theorem putRxo_mgmt (k : Nat) (x : RxoSt) : (b.putRxo k x).mgmt = b.mgmt := rfl
@[simp] theorem putRxo_world (k : Nat) (x : RxoSt) : (b.putRxo k x).world = b.world := rfl
@[simp] theorem putRxo_seq (k : Nat) (x : RxoSt) : (b.putRxo k x).seq = b.seq := rfl
@[simp] theorem putRxo_lgr (k : Nat) (x : RxoSt) : (b.putRxo k x).lgr = b.lgr := rfl
@[simp] theorem putRxo_heldOps (k : Nat) (x : RxoSt) : (b.putRxo k x).heldOps = b.heldOps := rfl
@[simp] theorem putRxo_stages (k : Nat) (x : RxoSt) : (b.putRxo k x).stages = b.stages := rfl
@[simp] theorem putRxo_routes (k : Nat) (x : RxoSt) : (b.putRxo k x).routes = b.routes := rfl
@[simp] theorem putRxo_loops (k : Nat) (x : RxoSt) : (b.putRxo k x).loops = b.loops := rfl
@[simp] theorem putRxo_sigs (k : Nat) (x : RxoSt) : (b.putRxo k x).sigs = b.sigs := rfl
@[simp] theorem putRxo_threads (k : Nat) (x : RxoSt) : (b.putRxo k x).threads = b.threads := rfl
@[simp] theorem putRxo_pairs (k : Nat) (x : RxoSt) : (b.putRxo k x).pairs = b.pairs := rfl
@[simp] theorem putRxo_trips (k : Nat) (x : RxoSt) : (b.putRxo k x).trips = b.trips := rfl
@[simp] theorem putRxo_tripForced (k : Nat) (x : RxoSt) : (b.putRxo k x).tripForced = b.tripForced := rfl
@[simp] theorem putRxo_tripBank (k : Nat) (x : RxoSt) : (b.putRxo k x).tripBank = b.tripBank := rfl
@[simp] theorem putRxo_axes (k : Nat) (x : RxoSt) : (b.putRxo k x).axes = b.axes := rfl
@[simp] theorem putRxo_dcp (k : Nat) (x : RxoSt) : (b.putRxo k x).dcp = b.dcp := rfl
@[simp] theorem putRxo_dio (k : Nat) (x : RxoSt) : (b.putRxo k x).dio = b.dio := rfl
@[simp] theorem putRxo_txos (k : Nat) (x : RxoSt) : (b.putRxo k x).txos = b.txos := rfl
@[simp] theorem putRxo_cans (k : Nat) (x : RxoSt) : (b.putRxo k x).cans = b.cans := rfl
@[simp] theorem putRxo_sers (k : Nat) (x : RxoSt) : (b.putRxo k x).sers = b.sers := rfl
@[simp] theorem putRxo_convs (k : Nat) (x : RxoSt) : (b.putRxo k x).convs = b.convs := rfl
@[simp] theorem putRxo_brgs (k : Nat) (x : RxoSt) : (b.putRxo k x).brgs = b.brgs := rfl
@[simp] theorem putRxo_dacs (k : Nat) (x : RxoSt) : (b.putRxo k x).dacs = b.dacs := rfl
@[simp] theorem putRxo_winCount (k : Nat) (x : RxoSt) : (b.putRxo k x).winCount = b.winCount := rfl
@[simp] theorem putRxo_cal (k : Nat) (x : RxoSt) : (b.putRxo k x).cal = b.cal := rfl
@[simp] theorem putRxo_takes (k : Nat) (x : RxoSt) : (b.putRxo k x).takes = b.takes := rfl
@[simp] theorem putRxo_fchs (k : Nat) (x : RxoSt) : (b.putRxo k x).fchs = b.fchs := rfl
@[simp] theorem putRxo_engs (k : Nat) (x : RxoSt) : (b.putRxo k x).engs = b.engs := rfl
@[simp] theorem putRxo_cont (k : Nat) (x : RxoSt) : (b.putRxo k x).cont = b.cont := rfl
@[simp] theorem putRxo_tim (k : Nat) (x : RxoSt) : (b.putRxo k x).tim = b.tim := rfl
@[simp] theorem putRxo_saf (k : Nat) (x : RxoSt) : (b.putRxo k x).saf = b.saf := rfl
@[simp] theorem putRxo_rd (k : Nat) (x : RxoSt) (o : Nat) : (b.putRxo k x).rd o = b.rd o := rfl

/-! `Block.putTxo` -/

@[simp] theorem putTxo_regs (i : Nat) (x : TxoSt) : (b.putTxo i x).regs = b.regs := rfl
@[simp] theorem putTxo_latch (i : Nat) (x : TxoSt) : (b.putTxo i x).latch = b.latch := rfl
@[simp] theorem putTxo_staging (i : Nat) (x : TxoSt) : (b.putTxo i x).staging = b.staging := rfl
@[simp] theorem putTxo_out (i : Nat) (x : TxoSt) : (b.putTxo i x).out = b.out := rfl
@[simp] theorem putTxo_now (i : Nat) (x : TxoSt) : (b.putTxo i x).now = b.now := rfl
@[simp] theorem putTxo_frac (i : Nat) (x : TxoSt) : (b.putTxo i x).frac = b.frac := rfl
@[simp] theorem putTxo_elapsed (i : Nat) (x : TxoSt) : (b.putTxo i x).elapsed = b.elapsed := rfl
@[simp] theorem putTxo_refclk (i : Nat) (x : TxoSt) : (b.putTxo i x).refclk = b.refclk := rfl
@[simp] theorem putTxo_free (i : Nat) (x : TxoSt) : (b.putTxo i x).free = b.free := rfl
@[simp] theorem putTxo_boot (i : Nat) (x : TxoSt) : (b.putTxo i x).boot = b.boot := rfl
@[simp] theorem putTxo_cfg (i : Nat) (x : TxoSt) : (b.putTxo i x).cfg = b.cfg := rfl
@[simp] theorem putTxo_bankA (i : Nat) (x : TxoSt) : (b.putTxo i x).bankA = b.bankA := rfl
@[simp] theorem putTxo_bankB (i : Nat) (x : TxoSt) : (b.putTxo i x).bankB = b.bankB := rfl
@[simp] theorem putTxo_img (i : Nat) (x : TxoSt) : (b.putTxo i x).img = b.img := rfl
@[simp] theorem putTxo_sram (i : Nat) (x : TxoSt) : (b.putTxo i x).sram = b.sram := rfl
@[simp] theorem putTxo_cairn (i : Nat) (x : TxoSt) : (b.putTxo i x).cairn = b.cairn := rfl
@[simp] theorem putTxo_acqMem (i : Nat) (x : TxoSt) : (b.putTxo i x).acqMem = b.acqMem := rfl
@[simp] theorem putTxo_mgmt (i : Nat) (x : TxoSt) : (b.putTxo i x).mgmt = b.mgmt := rfl
@[simp] theorem putTxo_world (i : Nat) (x : TxoSt) : (b.putTxo i x).world = b.world := rfl
@[simp] theorem putTxo_seq (i : Nat) (x : TxoSt) : (b.putTxo i x).seq = b.seq := rfl
@[simp] theorem putTxo_lgr (i : Nat) (x : TxoSt) : (b.putTxo i x).lgr = b.lgr := rfl
@[simp] theorem putTxo_heldOps (i : Nat) (x : TxoSt) : (b.putTxo i x).heldOps = b.heldOps := rfl
@[simp] theorem putTxo_stages (i : Nat) (x : TxoSt) : (b.putTxo i x).stages = b.stages := rfl
@[simp] theorem putTxo_routes (i : Nat) (x : TxoSt) : (b.putTxo i x).routes = b.routes := rfl
@[simp] theorem putTxo_loops (i : Nat) (x : TxoSt) : (b.putTxo i x).loops = b.loops := rfl
@[simp] theorem putTxo_sigs (i : Nat) (x : TxoSt) : (b.putTxo i x).sigs = b.sigs := rfl
@[simp] theorem putTxo_threads (i : Nat) (x : TxoSt) : (b.putTxo i x).threads = b.threads := rfl
@[simp] theorem putTxo_pairs (i : Nat) (x : TxoSt) : (b.putTxo i x).pairs = b.pairs := rfl
@[simp] theorem putTxo_trips (i : Nat) (x : TxoSt) : (b.putTxo i x).trips = b.trips := rfl
@[simp] theorem putTxo_tripForced (i : Nat) (x : TxoSt) : (b.putTxo i x).tripForced = b.tripForced := rfl
@[simp] theorem putTxo_tripBank (i : Nat) (x : TxoSt) : (b.putTxo i x).tripBank = b.tripBank := rfl
@[simp] theorem putTxo_axes (i : Nat) (x : TxoSt) : (b.putTxo i x).axes = b.axes := rfl
@[simp] theorem putTxo_dcp (i : Nat) (x : TxoSt) : (b.putTxo i x).dcp = b.dcp := rfl
@[simp] theorem putTxo_dio (i : Nat) (x : TxoSt) : (b.putTxo i x).dio = b.dio := rfl
@[simp] theorem putTxo_rxos (i : Nat) (x : TxoSt) : (b.putTxo i x).rxos = b.rxos := rfl
@[simp] theorem putTxo_cans (i : Nat) (x : TxoSt) : (b.putTxo i x).cans = b.cans := rfl
@[simp] theorem putTxo_sers (i : Nat) (x : TxoSt) : (b.putTxo i x).sers = b.sers := rfl
@[simp] theorem putTxo_convs (i : Nat) (x : TxoSt) : (b.putTxo i x).convs = b.convs := rfl
@[simp] theorem putTxo_brgs (i : Nat) (x : TxoSt) : (b.putTxo i x).brgs = b.brgs := rfl
@[simp] theorem putTxo_dacs (i : Nat) (x : TxoSt) : (b.putTxo i x).dacs = b.dacs := rfl
@[simp] theorem putTxo_winCount (i : Nat) (x : TxoSt) : (b.putTxo i x).winCount = b.winCount := rfl
@[simp] theorem putTxo_cal (i : Nat) (x : TxoSt) : (b.putTxo i x).cal = b.cal := rfl
@[simp] theorem putTxo_takes (i : Nat) (x : TxoSt) : (b.putTxo i x).takes = b.takes := rfl
@[simp] theorem putTxo_fchs (i : Nat) (x : TxoSt) : (b.putTxo i x).fchs = b.fchs := rfl
@[simp] theorem putTxo_engs (i : Nat) (x : TxoSt) : (b.putTxo i x).engs = b.engs := rfl
@[simp] theorem putTxo_cont (i : Nat) (x : TxoSt) : (b.putTxo i x).cont = b.cont := rfl
@[simp] theorem putTxo_tim (i : Nat) (x : TxoSt) : (b.putTxo i x).tim = b.tim := rfl
@[simp] theorem putTxo_saf (i : Nat) (x : TxoSt) : (b.putTxo i x).saf = b.saf := rfl
@[simp] theorem putTxo_rd (i : Nat) (x : TxoSt) (o : Nat) : (b.putTxo i x).rd o = b.rd o := rfl

/-! `Block.putCan` -/

@[simp] theorem putCan_regs (c : Nat) (x : CanSt) : (b.putCan c x).regs = b.regs := rfl
@[simp] theorem putCan_latch (c : Nat) (x : CanSt) : (b.putCan c x).latch = b.latch := rfl
@[simp] theorem putCan_staging (c : Nat) (x : CanSt) : (b.putCan c x).staging = b.staging := rfl
@[simp] theorem putCan_out (c : Nat) (x : CanSt) : (b.putCan c x).out = b.out := rfl
@[simp] theorem putCan_now (c : Nat) (x : CanSt) : (b.putCan c x).now = b.now := rfl
@[simp] theorem putCan_frac (c : Nat) (x : CanSt) : (b.putCan c x).frac = b.frac := rfl
@[simp] theorem putCan_elapsed (c : Nat) (x : CanSt) : (b.putCan c x).elapsed = b.elapsed := rfl
@[simp] theorem putCan_refclk (c : Nat) (x : CanSt) : (b.putCan c x).refclk = b.refclk := rfl
@[simp] theorem putCan_free (c : Nat) (x : CanSt) : (b.putCan c x).free = b.free := rfl
@[simp] theorem putCan_boot (c : Nat) (x : CanSt) : (b.putCan c x).boot = b.boot := rfl
@[simp] theorem putCan_cfg (c : Nat) (x : CanSt) : (b.putCan c x).cfg = b.cfg := rfl
@[simp] theorem putCan_bankA (c : Nat) (x : CanSt) : (b.putCan c x).bankA = b.bankA := rfl
@[simp] theorem putCan_bankB (c : Nat) (x : CanSt) : (b.putCan c x).bankB = b.bankB := rfl
@[simp] theorem putCan_img (c : Nat) (x : CanSt) : (b.putCan c x).img = b.img := rfl
@[simp] theorem putCan_sram (c : Nat) (x : CanSt) : (b.putCan c x).sram = b.sram := rfl
@[simp] theorem putCan_cairn (c : Nat) (x : CanSt) : (b.putCan c x).cairn = b.cairn := rfl
@[simp] theorem putCan_acqMem (c : Nat) (x : CanSt) : (b.putCan c x).acqMem = b.acqMem := rfl
@[simp] theorem putCan_mgmt (c : Nat) (x : CanSt) : (b.putCan c x).mgmt = b.mgmt := rfl
@[simp] theorem putCan_world (c : Nat) (x : CanSt) : (b.putCan c x).world = b.world := rfl
@[simp] theorem putCan_seq (c : Nat) (x : CanSt) : (b.putCan c x).seq = b.seq := rfl
@[simp] theorem putCan_lgr (c : Nat) (x : CanSt) : (b.putCan c x).lgr = b.lgr := rfl
@[simp] theorem putCan_heldOps (c : Nat) (x : CanSt) : (b.putCan c x).heldOps = b.heldOps := rfl
@[simp] theorem putCan_stages (c : Nat) (x : CanSt) : (b.putCan c x).stages = b.stages := rfl
@[simp] theorem putCan_routes (c : Nat) (x : CanSt) : (b.putCan c x).routes = b.routes := rfl
@[simp] theorem putCan_loops (c : Nat) (x : CanSt) : (b.putCan c x).loops = b.loops := rfl
@[simp] theorem putCan_sigs (c : Nat) (x : CanSt) : (b.putCan c x).sigs = b.sigs := rfl
@[simp] theorem putCan_threads (c : Nat) (x : CanSt) : (b.putCan c x).threads = b.threads := rfl
@[simp] theorem putCan_pairs (c : Nat) (x : CanSt) : (b.putCan c x).pairs = b.pairs := rfl
@[simp] theorem putCan_trips (c : Nat) (x : CanSt) : (b.putCan c x).trips = b.trips := rfl
@[simp] theorem putCan_tripForced (c : Nat) (x : CanSt) : (b.putCan c x).tripForced = b.tripForced := rfl
@[simp] theorem putCan_tripBank (c : Nat) (x : CanSt) : (b.putCan c x).tripBank = b.tripBank := rfl
@[simp] theorem putCan_axes (c : Nat) (x : CanSt) : (b.putCan c x).axes = b.axes := rfl
@[simp] theorem putCan_dcp (c : Nat) (x : CanSt) : (b.putCan c x).dcp = b.dcp := rfl
@[simp] theorem putCan_dio (c : Nat) (x : CanSt) : (b.putCan c x).dio = b.dio := rfl
@[simp] theorem putCan_rxos (c : Nat) (x : CanSt) : (b.putCan c x).rxos = b.rxos := rfl
@[simp] theorem putCan_txos (c : Nat) (x : CanSt) : (b.putCan c x).txos = b.txos := rfl
@[simp] theorem putCan_sers (c : Nat) (x : CanSt) : (b.putCan c x).sers = b.sers := rfl
@[simp] theorem putCan_convs (c : Nat) (x : CanSt) : (b.putCan c x).convs = b.convs := rfl
@[simp] theorem putCan_brgs (c : Nat) (x : CanSt) : (b.putCan c x).brgs = b.brgs := rfl
@[simp] theorem putCan_dacs (c : Nat) (x : CanSt) : (b.putCan c x).dacs = b.dacs := rfl
@[simp] theorem putCan_winCount (c : Nat) (x : CanSt) : (b.putCan c x).winCount = b.winCount := rfl
@[simp] theorem putCan_cal (c : Nat) (x : CanSt) : (b.putCan c x).cal = b.cal := rfl
@[simp] theorem putCan_takes (c : Nat) (x : CanSt) : (b.putCan c x).takes = b.takes := rfl
@[simp] theorem putCan_fchs (c : Nat) (x : CanSt) : (b.putCan c x).fchs = b.fchs := rfl
@[simp] theorem putCan_engs (c : Nat) (x : CanSt) : (b.putCan c x).engs = b.engs := rfl
@[simp] theorem putCan_cont (c : Nat) (x : CanSt) : (b.putCan c x).cont = b.cont := rfl
@[simp] theorem putCan_tim (c : Nat) (x : CanSt) : (b.putCan c x).tim = b.tim := rfl
@[simp] theorem putCan_saf (c : Nat) (x : CanSt) : (b.putCan c x).saf = b.saf := rfl
@[simp] theorem putCan_rd (c : Nat) (x : CanSt) (o : Nat) : (b.putCan c x).rd o = b.rd o := rfl

/-! `Block.putSer` -/

@[simp] theorem putSer_regs (p : Nat) (x : SerSt) : (b.putSer p x).regs = b.regs := rfl
@[simp] theorem putSer_latch (p : Nat) (x : SerSt) : (b.putSer p x).latch = b.latch := rfl
@[simp] theorem putSer_staging (p : Nat) (x : SerSt) : (b.putSer p x).staging = b.staging := rfl
@[simp] theorem putSer_out (p : Nat) (x : SerSt) : (b.putSer p x).out = b.out := rfl
@[simp] theorem putSer_now (p : Nat) (x : SerSt) : (b.putSer p x).now = b.now := rfl
@[simp] theorem putSer_frac (p : Nat) (x : SerSt) : (b.putSer p x).frac = b.frac := rfl
@[simp] theorem putSer_elapsed (p : Nat) (x : SerSt) : (b.putSer p x).elapsed = b.elapsed := rfl
@[simp] theorem putSer_refclk (p : Nat) (x : SerSt) : (b.putSer p x).refclk = b.refclk := rfl
@[simp] theorem putSer_free (p : Nat) (x : SerSt) : (b.putSer p x).free = b.free := rfl
@[simp] theorem putSer_boot (p : Nat) (x : SerSt) : (b.putSer p x).boot = b.boot := rfl
@[simp] theorem putSer_cfg (p : Nat) (x : SerSt) : (b.putSer p x).cfg = b.cfg := rfl
@[simp] theorem putSer_bankA (p : Nat) (x : SerSt) : (b.putSer p x).bankA = b.bankA := rfl
@[simp] theorem putSer_bankB (p : Nat) (x : SerSt) : (b.putSer p x).bankB = b.bankB := rfl
@[simp] theorem putSer_img (p : Nat) (x : SerSt) : (b.putSer p x).img = b.img := rfl
@[simp] theorem putSer_sram (p : Nat) (x : SerSt) : (b.putSer p x).sram = b.sram := rfl
@[simp] theorem putSer_cairn (p : Nat) (x : SerSt) : (b.putSer p x).cairn = b.cairn := rfl
@[simp] theorem putSer_acqMem (p : Nat) (x : SerSt) : (b.putSer p x).acqMem = b.acqMem := rfl
@[simp] theorem putSer_mgmt (p : Nat) (x : SerSt) : (b.putSer p x).mgmt = b.mgmt := rfl
@[simp] theorem putSer_world (p : Nat) (x : SerSt) : (b.putSer p x).world = b.world := rfl
@[simp] theorem putSer_seq (p : Nat) (x : SerSt) : (b.putSer p x).seq = b.seq := rfl
@[simp] theorem putSer_lgr (p : Nat) (x : SerSt) : (b.putSer p x).lgr = b.lgr := rfl
@[simp] theorem putSer_heldOps (p : Nat) (x : SerSt) : (b.putSer p x).heldOps = b.heldOps := rfl
@[simp] theorem putSer_stages (p : Nat) (x : SerSt) : (b.putSer p x).stages = b.stages := rfl
@[simp] theorem putSer_routes (p : Nat) (x : SerSt) : (b.putSer p x).routes = b.routes := rfl
@[simp] theorem putSer_loops (p : Nat) (x : SerSt) : (b.putSer p x).loops = b.loops := rfl
@[simp] theorem putSer_sigs (p : Nat) (x : SerSt) : (b.putSer p x).sigs = b.sigs := rfl
@[simp] theorem putSer_threads (p : Nat) (x : SerSt) : (b.putSer p x).threads = b.threads := rfl
@[simp] theorem putSer_pairs (p : Nat) (x : SerSt) : (b.putSer p x).pairs = b.pairs := rfl
@[simp] theorem putSer_trips (p : Nat) (x : SerSt) : (b.putSer p x).trips = b.trips := rfl
@[simp] theorem putSer_tripForced (p : Nat) (x : SerSt) : (b.putSer p x).tripForced = b.tripForced := rfl
@[simp] theorem putSer_tripBank (p : Nat) (x : SerSt) : (b.putSer p x).tripBank = b.tripBank := rfl
@[simp] theorem putSer_axes (p : Nat) (x : SerSt) : (b.putSer p x).axes = b.axes := rfl
@[simp] theorem putSer_dcp (p : Nat) (x : SerSt) : (b.putSer p x).dcp = b.dcp := rfl
@[simp] theorem putSer_dio (p : Nat) (x : SerSt) : (b.putSer p x).dio = b.dio := rfl
@[simp] theorem putSer_rxos (p : Nat) (x : SerSt) : (b.putSer p x).rxos = b.rxos := rfl
@[simp] theorem putSer_txos (p : Nat) (x : SerSt) : (b.putSer p x).txos = b.txos := rfl
@[simp] theorem putSer_cans (p : Nat) (x : SerSt) : (b.putSer p x).cans = b.cans := rfl
@[simp] theorem putSer_convs (p : Nat) (x : SerSt) : (b.putSer p x).convs = b.convs := rfl
@[simp] theorem putSer_brgs (p : Nat) (x : SerSt) : (b.putSer p x).brgs = b.brgs := rfl
@[simp] theorem putSer_dacs (p : Nat) (x : SerSt) : (b.putSer p x).dacs = b.dacs := rfl
@[simp] theorem putSer_winCount (p : Nat) (x : SerSt) : (b.putSer p x).winCount = b.winCount := rfl
@[simp] theorem putSer_cal (p : Nat) (x : SerSt) : (b.putSer p x).cal = b.cal := rfl
@[simp] theorem putSer_takes (p : Nat) (x : SerSt) : (b.putSer p x).takes = b.takes := rfl
@[simp] theorem putSer_fchs (p : Nat) (x : SerSt) : (b.putSer p x).fchs = b.fchs := rfl
@[simp] theorem putSer_engs (p : Nat) (x : SerSt) : (b.putSer p x).engs = b.engs := rfl
@[simp] theorem putSer_cont (p : Nat) (x : SerSt) : (b.putSer p x).cont = b.cont := rfl
@[simp] theorem putSer_tim (p : Nat) (x : SerSt) : (b.putSer p x).tim = b.tim := rfl
@[simp] theorem putSer_saf (p : Nat) (x : SerSt) : (b.putSer p x).saf = b.saf := rfl
@[simp] theorem putSer_rd (p : Nat) (x : SerSt) (o : Nat) : (b.putSer p x).rd o = b.rd o := rfl

/-! `Block.putConv` -/

@[simp] theorem putConv_regs (c : Nat) (x : ConvSt) : (b.putConv c x).regs = b.regs := rfl
@[simp] theorem putConv_latch (c : Nat) (x : ConvSt) : (b.putConv c x).latch = b.latch := rfl
@[simp] theorem putConv_staging (c : Nat) (x : ConvSt) : (b.putConv c x).staging = b.staging := rfl
@[simp] theorem putConv_out (c : Nat) (x : ConvSt) : (b.putConv c x).out = b.out := rfl
@[simp] theorem putConv_now (c : Nat) (x : ConvSt) : (b.putConv c x).now = b.now := rfl
@[simp] theorem putConv_frac (c : Nat) (x : ConvSt) : (b.putConv c x).frac = b.frac := rfl
@[simp] theorem putConv_elapsed (c : Nat) (x : ConvSt) : (b.putConv c x).elapsed = b.elapsed := rfl
@[simp] theorem putConv_refclk (c : Nat) (x : ConvSt) : (b.putConv c x).refclk = b.refclk := rfl
@[simp] theorem putConv_free (c : Nat) (x : ConvSt) : (b.putConv c x).free = b.free := rfl
@[simp] theorem putConv_boot (c : Nat) (x : ConvSt) : (b.putConv c x).boot = b.boot := rfl
@[simp] theorem putConv_cfg (c : Nat) (x : ConvSt) : (b.putConv c x).cfg = b.cfg := rfl
@[simp] theorem putConv_bankA (c : Nat) (x : ConvSt) : (b.putConv c x).bankA = b.bankA := rfl
@[simp] theorem putConv_bankB (c : Nat) (x : ConvSt) : (b.putConv c x).bankB = b.bankB := rfl
@[simp] theorem putConv_img (c : Nat) (x : ConvSt) : (b.putConv c x).img = b.img := rfl
@[simp] theorem putConv_sram (c : Nat) (x : ConvSt) : (b.putConv c x).sram = b.sram := rfl
@[simp] theorem putConv_cairn (c : Nat) (x : ConvSt) : (b.putConv c x).cairn = b.cairn := rfl
@[simp] theorem putConv_acqMem (c : Nat) (x : ConvSt) : (b.putConv c x).acqMem = b.acqMem := rfl
@[simp] theorem putConv_mgmt (c : Nat) (x : ConvSt) : (b.putConv c x).mgmt = b.mgmt := rfl
@[simp] theorem putConv_world (c : Nat) (x : ConvSt) : (b.putConv c x).world = b.world := rfl
@[simp] theorem putConv_seq (c : Nat) (x : ConvSt) : (b.putConv c x).seq = b.seq := rfl
@[simp] theorem putConv_lgr (c : Nat) (x : ConvSt) : (b.putConv c x).lgr = b.lgr := rfl
@[simp] theorem putConv_heldOps (c : Nat) (x : ConvSt) : (b.putConv c x).heldOps = b.heldOps := rfl
@[simp] theorem putConv_stages (c : Nat) (x : ConvSt) : (b.putConv c x).stages = b.stages := rfl
@[simp] theorem putConv_routes (c : Nat) (x : ConvSt) : (b.putConv c x).routes = b.routes := rfl
@[simp] theorem putConv_loops (c : Nat) (x : ConvSt) : (b.putConv c x).loops = b.loops := rfl
@[simp] theorem putConv_sigs (c : Nat) (x : ConvSt) : (b.putConv c x).sigs = b.sigs := rfl
@[simp] theorem putConv_threads (c : Nat) (x : ConvSt) : (b.putConv c x).threads = b.threads := rfl
@[simp] theorem putConv_pairs (c : Nat) (x : ConvSt) : (b.putConv c x).pairs = b.pairs := rfl
@[simp] theorem putConv_trips (c : Nat) (x : ConvSt) : (b.putConv c x).trips = b.trips := rfl
@[simp] theorem putConv_tripForced (c : Nat) (x : ConvSt) : (b.putConv c x).tripForced = b.tripForced := rfl
@[simp] theorem putConv_tripBank (c : Nat) (x : ConvSt) : (b.putConv c x).tripBank = b.tripBank := rfl
@[simp] theorem putConv_axes (c : Nat) (x : ConvSt) : (b.putConv c x).axes = b.axes := rfl
@[simp] theorem putConv_dcp (c : Nat) (x : ConvSt) : (b.putConv c x).dcp = b.dcp := rfl
@[simp] theorem putConv_dio (c : Nat) (x : ConvSt) : (b.putConv c x).dio = b.dio := rfl
@[simp] theorem putConv_rxos (c : Nat) (x : ConvSt) : (b.putConv c x).rxos = b.rxos := rfl
@[simp] theorem putConv_txos (c : Nat) (x : ConvSt) : (b.putConv c x).txos = b.txos := rfl
@[simp] theorem putConv_cans (c : Nat) (x : ConvSt) : (b.putConv c x).cans = b.cans := rfl
@[simp] theorem putConv_sers (c : Nat) (x : ConvSt) : (b.putConv c x).sers = b.sers := rfl
@[simp] theorem putConv_brgs (c : Nat) (x : ConvSt) : (b.putConv c x).brgs = b.brgs := rfl
@[simp] theorem putConv_dacs (c : Nat) (x : ConvSt) : (b.putConv c x).dacs = b.dacs := rfl
@[simp] theorem putConv_winCount (c : Nat) (x : ConvSt) : (b.putConv c x).winCount = b.winCount := rfl
@[simp] theorem putConv_cal (c : Nat) (x : ConvSt) : (b.putConv c x).cal = b.cal := rfl
@[simp] theorem putConv_takes (c : Nat) (x : ConvSt) : (b.putConv c x).takes = b.takes := rfl
@[simp] theorem putConv_fchs (c : Nat) (x : ConvSt) : (b.putConv c x).fchs = b.fchs := rfl
@[simp] theorem putConv_engs (c : Nat) (x : ConvSt) : (b.putConv c x).engs = b.engs := rfl
@[simp] theorem putConv_cont (c : Nat) (x : ConvSt) : (b.putConv c x).cont = b.cont := rfl
@[simp] theorem putConv_tim (c : Nat) (x : ConvSt) : (b.putConv c x).tim = b.tim := rfl
@[simp] theorem putConv_saf (c : Nat) (x : ConvSt) : (b.putConv c x).saf = b.saf := rfl
@[simp] theorem putConv_rd (c : Nat) (x : ConvSt) (o : Nat) : (b.putConv c x).rd o = b.rd o := rfl

/-! `Block.putBrg` -/

@[simp] theorem putBrg_regs (n : Nat) (x : BrgSt) : (b.putBrg n x).regs = b.regs := rfl
@[simp] theorem putBrg_latch (n : Nat) (x : BrgSt) : (b.putBrg n x).latch = b.latch := rfl
@[simp] theorem putBrg_staging (n : Nat) (x : BrgSt) : (b.putBrg n x).staging = b.staging := rfl
@[simp] theorem putBrg_out (n : Nat) (x : BrgSt) : (b.putBrg n x).out = b.out := rfl
@[simp] theorem putBrg_now (n : Nat) (x : BrgSt) : (b.putBrg n x).now = b.now := rfl
@[simp] theorem putBrg_frac (n : Nat) (x : BrgSt) : (b.putBrg n x).frac = b.frac := rfl
@[simp] theorem putBrg_elapsed (n : Nat) (x : BrgSt) : (b.putBrg n x).elapsed = b.elapsed := rfl
@[simp] theorem putBrg_refclk (n : Nat) (x : BrgSt) : (b.putBrg n x).refclk = b.refclk := rfl
@[simp] theorem putBrg_free (n : Nat) (x : BrgSt) : (b.putBrg n x).free = b.free := rfl
@[simp] theorem putBrg_boot (n : Nat) (x : BrgSt) : (b.putBrg n x).boot = b.boot := rfl
@[simp] theorem putBrg_cfg (n : Nat) (x : BrgSt) : (b.putBrg n x).cfg = b.cfg := rfl
@[simp] theorem putBrg_bankA (n : Nat) (x : BrgSt) : (b.putBrg n x).bankA = b.bankA := rfl
@[simp] theorem putBrg_bankB (n : Nat) (x : BrgSt) : (b.putBrg n x).bankB = b.bankB := rfl
@[simp] theorem putBrg_img (n : Nat) (x : BrgSt) : (b.putBrg n x).img = b.img := rfl
@[simp] theorem putBrg_sram (n : Nat) (x : BrgSt) : (b.putBrg n x).sram = b.sram := rfl
@[simp] theorem putBrg_cairn (n : Nat) (x : BrgSt) : (b.putBrg n x).cairn = b.cairn := rfl
@[simp] theorem putBrg_acqMem (n : Nat) (x : BrgSt) : (b.putBrg n x).acqMem = b.acqMem := rfl
@[simp] theorem putBrg_mgmt (n : Nat) (x : BrgSt) : (b.putBrg n x).mgmt = b.mgmt := rfl
@[simp] theorem putBrg_world (n : Nat) (x : BrgSt) : (b.putBrg n x).world = b.world := rfl
@[simp] theorem putBrg_seq (n : Nat) (x : BrgSt) : (b.putBrg n x).seq = b.seq := rfl
@[simp] theorem putBrg_lgr (n : Nat) (x : BrgSt) : (b.putBrg n x).lgr = b.lgr := rfl
@[simp] theorem putBrg_heldOps (n : Nat) (x : BrgSt) : (b.putBrg n x).heldOps = b.heldOps := rfl
@[simp] theorem putBrg_stages (n : Nat) (x : BrgSt) : (b.putBrg n x).stages = b.stages := rfl
@[simp] theorem putBrg_routes (n : Nat) (x : BrgSt) : (b.putBrg n x).routes = b.routes := rfl
@[simp] theorem putBrg_loops (n : Nat) (x : BrgSt) : (b.putBrg n x).loops = b.loops := rfl
@[simp] theorem putBrg_sigs (n : Nat) (x : BrgSt) : (b.putBrg n x).sigs = b.sigs := rfl
@[simp] theorem putBrg_threads (n : Nat) (x : BrgSt) : (b.putBrg n x).threads = b.threads := rfl
@[simp] theorem putBrg_pairs (n : Nat) (x : BrgSt) : (b.putBrg n x).pairs = b.pairs := rfl
@[simp] theorem putBrg_trips (n : Nat) (x : BrgSt) : (b.putBrg n x).trips = b.trips := rfl
@[simp] theorem putBrg_tripForced (n : Nat) (x : BrgSt) : (b.putBrg n x).tripForced = b.tripForced := rfl
@[simp] theorem putBrg_tripBank (n : Nat) (x : BrgSt) : (b.putBrg n x).tripBank = b.tripBank := rfl
@[simp] theorem putBrg_axes (n : Nat) (x : BrgSt) : (b.putBrg n x).axes = b.axes := rfl
@[simp] theorem putBrg_dcp (n : Nat) (x : BrgSt) : (b.putBrg n x).dcp = b.dcp := rfl
@[simp] theorem putBrg_dio (n : Nat) (x : BrgSt) : (b.putBrg n x).dio = b.dio := rfl
@[simp] theorem putBrg_rxos (n : Nat) (x : BrgSt) : (b.putBrg n x).rxos = b.rxos := rfl
@[simp] theorem putBrg_txos (n : Nat) (x : BrgSt) : (b.putBrg n x).txos = b.txos := rfl
@[simp] theorem putBrg_cans (n : Nat) (x : BrgSt) : (b.putBrg n x).cans = b.cans := rfl
@[simp] theorem putBrg_sers (n : Nat) (x : BrgSt) : (b.putBrg n x).sers = b.sers := rfl
@[simp] theorem putBrg_convs (n : Nat) (x : BrgSt) : (b.putBrg n x).convs = b.convs := rfl
@[simp] theorem putBrg_dacs (n : Nat) (x : BrgSt) : (b.putBrg n x).dacs = b.dacs := rfl
@[simp] theorem putBrg_winCount (n : Nat) (x : BrgSt) : (b.putBrg n x).winCount = b.winCount := rfl
@[simp] theorem putBrg_cal (n : Nat) (x : BrgSt) : (b.putBrg n x).cal = b.cal := rfl
@[simp] theorem putBrg_takes (n : Nat) (x : BrgSt) : (b.putBrg n x).takes = b.takes := rfl
@[simp] theorem putBrg_fchs (n : Nat) (x : BrgSt) : (b.putBrg n x).fchs = b.fchs := rfl
@[simp] theorem putBrg_engs (n : Nat) (x : BrgSt) : (b.putBrg n x).engs = b.engs := rfl
@[simp] theorem putBrg_cont (n : Nat) (x : BrgSt) : (b.putBrg n x).cont = b.cont := rfl
@[simp] theorem putBrg_tim (n : Nat) (x : BrgSt) : (b.putBrg n x).tim = b.tim := rfl
@[simp] theorem putBrg_saf (n : Nat) (x : BrgSt) : (b.putBrg n x).saf = b.saf := rfl
@[simp] theorem putBrg_rd (n : Nat) (x : BrgSt) (o : Nat) : (b.putBrg n x).rd o = b.rd o := rfl

/-! `Block.putDac` -/

@[simp] theorem putDac_regs (n : Nat) (x : DacSt) : (b.putDac n x).regs = b.regs := rfl
@[simp] theorem putDac_latch (n : Nat) (x : DacSt) : (b.putDac n x).latch = b.latch := rfl
@[simp] theorem putDac_staging (n : Nat) (x : DacSt) : (b.putDac n x).staging = b.staging := rfl
@[simp] theorem putDac_out (n : Nat) (x : DacSt) : (b.putDac n x).out = b.out := rfl
@[simp] theorem putDac_now (n : Nat) (x : DacSt) : (b.putDac n x).now = b.now := rfl
@[simp] theorem putDac_frac (n : Nat) (x : DacSt) : (b.putDac n x).frac = b.frac := rfl
@[simp] theorem putDac_elapsed (n : Nat) (x : DacSt) : (b.putDac n x).elapsed = b.elapsed := rfl
@[simp] theorem putDac_refclk (n : Nat) (x : DacSt) : (b.putDac n x).refclk = b.refclk := rfl
@[simp] theorem putDac_free (n : Nat) (x : DacSt) : (b.putDac n x).free = b.free := rfl
@[simp] theorem putDac_boot (n : Nat) (x : DacSt) : (b.putDac n x).boot = b.boot := rfl
@[simp] theorem putDac_cfg (n : Nat) (x : DacSt) : (b.putDac n x).cfg = b.cfg := rfl
@[simp] theorem putDac_bankA (n : Nat) (x : DacSt) : (b.putDac n x).bankA = b.bankA := rfl
@[simp] theorem putDac_bankB (n : Nat) (x : DacSt) : (b.putDac n x).bankB = b.bankB := rfl
@[simp] theorem putDac_img (n : Nat) (x : DacSt) : (b.putDac n x).img = b.img := rfl
@[simp] theorem putDac_sram (n : Nat) (x : DacSt) : (b.putDac n x).sram = b.sram := rfl
@[simp] theorem putDac_cairn (n : Nat) (x : DacSt) : (b.putDac n x).cairn = b.cairn := rfl
@[simp] theorem putDac_acqMem (n : Nat) (x : DacSt) : (b.putDac n x).acqMem = b.acqMem := rfl
@[simp] theorem putDac_mgmt (n : Nat) (x : DacSt) : (b.putDac n x).mgmt = b.mgmt := rfl
@[simp] theorem putDac_world (n : Nat) (x : DacSt) : (b.putDac n x).world = b.world := rfl
@[simp] theorem putDac_seq (n : Nat) (x : DacSt) : (b.putDac n x).seq = b.seq := rfl
@[simp] theorem putDac_lgr (n : Nat) (x : DacSt) : (b.putDac n x).lgr = b.lgr := rfl
@[simp] theorem putDac_heldOps (n : Nat) (x : DacSt) : (b.putDac n x).heldOps = b.heldOps := rfl
@[simp] theorem putDac_stages (n : Nat) (x : DacSt) : (b.putDac n x).stages = b.stages := rfl
@[simp] theorem putDac_routes (n : Nat) (x : DacSt) : (b.putDac n x).routes = b.routes := rfl
@[simp] theorem putDac_loops (n : Nat) (x : DacSt) : (b.putDac n x).loops = b.loops := rfl
@[simp] theorem putDac_sigs (n : Nat) (x : DacSt) : (b.putDac n x).sigs = b.sigs := rfl
@[simp] theorem putDac_threads (n : Nat) (x : DacSt) : (b.putDac n x).threads = b.threads := rfl
@[simp] theorem putDac_pairs (n : Nat) (x : DacSt) : (b.putDac n x).pairs = b.pairs := rfl
@[simp] theorem putDac_trips (n : Nat) (x : DacSt) : (b.putDac n x).trips = b.trips := rfl
@[simp] theorem putDac_tripForced (n : Nat) (x : DacSt) : (b.putDac n x).tripForced = b.tripForced := rfl
@[simp] theorem putDac_tripBank (n : Nat) (x : DacSt) : (b.putDac n x).tripBank = b.tripBank := rfl
@[simp] theorem putDac_axes (n : Nat) (x : DacSt) : (b.putDac n x).axes = b.axes := rfl
@[simp] theorem putDac_dcp (n : Nat) (x : DacSt) : (b.putDac n x).dcp = b.dcp := rfl
@[simp] theorem putDac_dio (n : Nat) (x : DacSt) : (b.putDac n x).dio = b.dio := rfl
@[simp] theorem putDac_rxos (n : Nat) (x : DacSt) : (b.putDac n x).rxos = b.rxos := rfl
@[simp] theorem putDac_txos (n : Nat) (x : DacSt) : (b.putDac n x).txos = b.txos := rfl
@[simp] theorem putDac_cans (n : Nat) (x : DacSt) : (b.putDac n x).cans = b.cans := rfl
@[simp] theorem putDac_sers (n : Nat) (x : DacSt) : (b.putDac n x).sers = b.sers := rfl
@[simp] theorem putDac_convs (n : Nat) (x : DacSt) : (b.putDac n x).convs = b.convs := rfl
@[simp] theorem putDac_brgs (n : Nat) (x : DacSt) : (b.putDac n x).brgs = b.brgs := rfl
@[simp] theorem putDac_winCount (n : Nat) (x : DacSt) : (b.putDac n x).winCount = b.winCount := rfl
@[simp] theorem putDac_cal (n : Nat) (x : DacSt) : (b.putDac n x).cal = b.cal := rfl
@[simp] theorem putDac_takes (n : Nat) (x : DacSt) : (b.putDac n x).takes = b.takes := rfl
@[simp] theorem putDac_fchs (n : Nat) (x : DacSt) : (b.putDac n x).fchs = b.fchs := rfl
@[simp] theorem putDac_engs (n : Nat) (x : DacSt) : (b.putDac n x).engs = b.engs := rfl
@[simp] theorem putDac_cont (n : Nat) (x : DacSt) : (b.putDac n x).cont = b.cont := rfl
@[simp] theorem putDac_tim (n : Nat) (x : DacSt) : (b.putDac n x).tim = b.tim := rfl
@[simp] theorem putDac_saf (n : Nat) (x : DacSt) : (b.putDac n x).saf = b.saf := rfl
@[simp] theorem putDac_rd (n : Nat) (x : DacSt) (o : Nat) : (b.putDac n x).rd o = b.rd o := rfl

/-! `Block.putFch` -/

@[simp] theorem putFch_regs (n : Nat) (x : FchSt) : (b.putFch n x).regs = b.regs := rfl
@[simp] theorem putFch_latch (n : Nat) (x : FchSt) : (b.putFch n x).latch = b.latch := rfl
@[simp] theorem putFch_staging (n : Nat) (x : FchSt) : (b.putFch n x).staging = b.staging := rfl
@[simp] theorem putFch_out (n : Nat) (x : FchSt) : (b.putFch n x).out = b.out := rfl
@[simp] theorem putFch_now (n : Nat) (x : FchSt) : (b.putFch n x).now = b.now := rfl
@[simp] theorem putFch_frac (n : Nat) (x : FchSt) : (b.putFch n x).frac = b.frac := rfl
@[simp] theorem putFch_elapsed (n : Nat) (x : FchSt) : (b.putFch n x).elapsed = b.elapsed := rfl
@[simp] theorem putFch_refclk (n : Nat) (x : FchSt) : (b.putFch n x).refclk = b.refclk := rfl
@[simp] theorem putFch_free (n : Nat) (x : FchSt) : (b.putFch n x).free = b.free := rfl
@[simp] theorem putFch_boot (n : Nat) (x : FchSt) : (b.putFch n x).boot = b.boot := rfl
@[simp] theorem putFch_cfg (n : Nat) (x : FchSt) : (b.putFch n x).cfg = b.cfg := rfl
@[simp] theorem putFch_bankA (n : Nat) (x : FchSt) : (b.putFch n x).bankA = b.bankA := rfl
@[simp] theorem putFch_bankB (n : Nat) (x : FchSt) : (b.putFch n x).bankB = b.bankB := rfl
@[simp] theorem putFch_img (n : Nat) (x : FchSt) : (b.putFch n x).img = b.img := rfl
@[simp] theorem putFch_sram (n : Nat) (x : FchSt) : (b.putFch n x).sram = b.sram := rfl
@[simp] theorem putFch_cairn (n : Nat) (x : FchSt) : (b.putFch n x).cairn = b.cairn := rfl
@[simp] theorem putFch_acqMem (n : Nat) (x : FchSt) : (b.putFch n x).acqMem = b.acqMem := rfl
@[simp] theorem putFch_mgmt (n : Nat) (x : FchSt) : (b.putFch n x).mgmt = b.mgmt := rfl
@[simp] theorem putFch_world (n : Nat) (x : FchSt) : (b.putFch n x).world = b.world := rfl
@[simp] theorem putFch_seq (n : Nat) (x : FchSt) : (b.putFch n x).seq = b.seq := rfl
@[simp] theorem putFch_lgr (n : Nat) (x : FchSt) : (b.putFch n x).lgr = b.lgr := rfl
@[simp] theorem putFch_heldOps (n : Nat) (x : FchSt) : (b.putFch n x).heldOps = b.heldOps := rfl
@[simp] theorem putFch_stages (n : Nat) (x : FchSt) : (b.putFch n x).stages = b.stages := rfl
@[simp] theorem putFch_routes (n : Nat) (x : FchSt) : (b.putFch n x).routes = b.routes := rfl
@[simp] theorem putFch_loops (n : Nat) (x : FchSt) : (b.putFch n x).loops = b.loops := rfl
@[simp] theorem putFch_sigs (n : Nat) (x : FchSt) : (b.putFch n x).sigs = b.sigs := rfl
@[simp] theorem putFch_threads (n : Nat) (x : FchSt) : (b.putFch n x).threads = b.threads := rfl
@[simp] theorem putFch_pairs (n : Nat) (x : FchSt) : (b.putFch n x).pairs = b.pairs := rfl
@[simp] theorem putFch_trips (n : Nat) (x : FchSt) : (b.putFch n x).trips = b.trips := rfl
@[simp] theorem putFch_tripForced (n : Nat) (x : FchSt) : (b.putFch n x).tripForced = b.tripForced := rfl
@[simp] theorem putFch_tripBank (n : Nat) (x : FchSt) : (b.putFch n x).tripBank = b.tripBank := rfl
@[simp] theorem putFch_axes (n : Nat) (x : FchSt) : (b.putFch n x).axes = b.axes := rfl
@[simp] theorem putFch_dcp (n : Nat) (x : FchSt) : (b.putFch n x).dcp = b.dcp := rfl
@[simp] theorem putFch_dio (n : Nat) (x : FchSt) : (b.putFch n x).dio = b.dio := rfl
@[simp] theorem putFch_rxos (n : Nat) (x : FchSt) : (b.putFch n x).rxos = b.rxos := rfl
@[simp] theorem putFch_txos (n : Nat) (x : FchSt) : (b.putFch n x).txos = b.txos := rfl
@[simp] theorem putFch_cans (n : Nat) (x : FchSt) : (b.putFch n x).cans = b.cans := rfl
@[simp] theorem putFch_sers (n : Nat) (x : FchSt) : (b.putFch n x).sers = b.sers := rfl
@[simp] theorem putFch_convs (n : Nat) (x : FchSt) : (b.putFch n x).convs = b.convs := rfl
@[simp] theorem putFch_brgs (n : Nat) (x : FchSt) : (b.putFch n x).brgs = b.brgs := rfl
@[simp] theorem putFch_dacs (n : Nat) (x : FchSt) : (b.putFch n x).dacs = b.dacs := rfl
@[simp] theorem putFch_winCount (n : Nat) (x : FchSt) : (b.putFch n x).winCount = b.winCount := rfl
@[simp] theorem putFch_cal (n : Nat) (x : FchSt) : (b.putFch n x).cal = b.cal := rfl
@[simp] theorem putFch_takes (n : Nat) (x : FchSt) : (b.putFch n x).takes = b.takes := rfl
@[simp] theorem putFch_engs (n : Nat) (x : FchSt) : (b.putFch n x).engs = b.engs := rfl
@[simp] theorem putFch_cont (n : Nat) (x : FchSt) : (b.putFch n x).cont = b.cont := rfl
@[simp] theorem putFch_tim (n : Nat) (x : FchSt) : (b.putFch n x).tim = b.tim := rfl
@[simp] theorem putFch_saf (n : Nat) (x : FchSt) : (b.putFch n x).saf = b.saf := rfl
@[simp] theorem putFch_rd (n : Nat) (x : FchSt) (o : Nat) : (b.putFch n x).rd o = b.rd o := rfl

/-! `Block.putTake` -/

@[simp] theorem putTake_regs (k : Nat) (x : TakeSt) : (b.putTake k x).regs = b.regs := rfl
@[simp] theorem putTake_latch (k : Nat) (x : TakeSt) : (b.putTake k x).latch = b.latch := rfl
@[simp] theorem putTake_staging (k : Nat) (x : TakeSt) : (b.putTake k x).staging = b.staging := rfl
@[simp] theorem putTake_out (k : Nat) (x : TakeSt) : (b.putTake k x).out = b.out := rfl
@[simp] theorem putTake_now (k : Nat) (x : TakeSt) : (b.putTake k x).now = b.now := rfl
@[simp] theorem putTake_frac (k : Nat) (x : TakeSt) : (b.putTake k x).frac = b.frac := rfl
@[simp] theorem putTake_elapsed (k : Nat) (x : TakeSt) : (b.putTake k x).elapsed = b.elapsed := rfl
@[simp] theorem putTake_refclk (k : Nat) (x : TakeSt) : (b.putTake k x).refclk = b.refclk := rfl
@[simp] theorem putTake_free (k : Nat) (x : TakeSt) : (b.putTake k x).free = b.free := rfl
@[simp] theorem putTake_boot (k : Nat) (x : TakeSt) : (b.putTake k x).boot = b.boot := rfl
@[simp] theorem putTake_cfg (k : Nat) (x : TakeSt) : (b.putTake k x).cfg = b.cfg := rfl
@[simp] theorem putTake_bankA (k : Nat) (x : TakeSt) : (b.putTake k x).bankA = b.bankA := rfl
@[simp] theorem putTake_bankB (k : Nat) (x : TakeSt) : (b.putTake k x).bankB = b.bankB := rfl
@[simp] theorem putTake_img (k : Nat) (x : TakeSt) : (b.putTake k x).img = b.img := rfl
@[simp] theorem putTake_sram (k : Nat) (x : TakeSt) : (b.putTake k x).sram = b.sram := rfl
@[simp] theorem putTake_cairn (k : Nat) (x : TakeSt) : (b.putTake k x).cairn = b.cairn := rfl
@[simp] theorem putTake_acqMem (k : Nat) (x : TakeSt) : (b.putTake k x).acqMem = b.acqMem := rfl
@[simp] theorem putTake_mgmt (k : Nat) (x : TakeSt) : (b.putTake k x).mgmt = b.mgmt := rfl
@[simp] theorem putTake_world (k : Nat) (x : TakeSt) : (b.putTake k x).world = b.world := rfl
@[simp] theorem putTake_seq (k : Nat) (x : TakeSt) : (b.putTake k x).seq = b.seq := rfl
@[simp] theorem putTake_lgr (k : Nat) (x : TakeSt) : (b.putTake k x).lgr = b.lgr := rfl
@[simp] theorem putTake_heldOps (k : Nat) (x : TakeSt) : (b.putTake k x).heldOps = b.heldOps := rfl
@[simp] theorem putTake_stages (k : Nat) (x : TakeSt) : (b.putTake k x).stages = b.stages := rfl
@[simp] theorem putTake_routes (k : Nat) (x : TakeSt) : (b.putTake k x).routes = b.routes := rfl
@[simp] theorem putTake_loops (k : Nat) (x : TakeSt) : (b.putTake k x).loops = b.loops := rfl
@[simp] theorem putTake_sigs (k : Nat) (x : TakeSt) : (b.putTake k x).sigs = b.sigs := rfl
@[simp] theorem putTake_threads (k : Nat) (x : TakeSt) : (b.putTake k x).threads = b.threads := rfl
@[simp] theorem putTake_pairs (k : Nat) (x : TakeSt) : (b.putTake k x).pairs = b.pairs := rfl
@[simp] theorem putTake_trips (k : Nat) (x : TakeSt) : (b.putTake k x).trips = b.trips := rfl
@[simp] theorem putTake_tripForced (k : Nat) (x : TakeSt) : (b.putTake k x).tripForced = b.tripForced := rfl
@[simp] theorem putTake_tripBank (k : Nat) (x : TakeSt) : (b.putTake k x).tripBank = b.tripBank := rfl
@[simp] theorem putTake_axes (k : Nat) (x : TakeSt) : (b.putTake k x).axes = b.axes := rfl
@[simp] theorem putTake_dcp (k : Nat) (x : TakeSt) : (b.putTake k x).dcp = b.dcp := rfl
@[simp] theorem putTake_dio (k : Nat) (x : TakeSt) : (b.putTake k x).dio = b.dio := rfl
@[simp] theorem putTake_rxos (k : Nat) (x : TakeSt) : (b.putTake k x).rxos = b.rxos := rfl
@[simp] theorem putTake_txos (k : Nat) (x : TakeSt) : (b.putTake k x).txos = b.txos := rfl
@[simp] theorem putTake_cans (k : Nat) (x : TakeSt) : (b.putTake k x).cans = b.cans := rfl
@[simp] theorem putTake_sers (k : Nat) (x : TakeSt) : (b.putTake k x).sers = b.sers := rfl
@[simp] theorem putTake_convs (k : Nat) (x : TakeSt) : (b.putTake k x).convs = b.convs := rfl
@[simp] theorem putTake_brgs (k : Nat) (x : TakeSt) : (b.putTake k x).brgs = b.brgs := rfl
@[simp] theorem putTake_dacs (k : Nat) (x : TakeSt) : (b.putTake k x).dacs = b.dacs := rfl
@[simp] theorem putTake_winCount (k : Nat) (x : TakeSt) : (b.putTake k x).winCount = b.winCount := rfl
@[simp] theorem putTake_cal (k : Nat) (x : TakeSt) : (b.putTake k x).cal = b.cal := rfl
@[simp] theorem putTake_fchs (k : Nat) (x : TakeSt) : (b.putTake k x).fchs = b.fchs := rfl
@[simp] theorem putTake_engs (k : Nat) (x : TakeSt) : (b.putTake k x).engs = b.engs := rfl
@[simp] theorem putTake_cont (k : Nat) (x : TakeSt) : (b.putTake k x).cont = b.cont := rfl
@[simp] theorem putTake_tim (k : Nat) (x : TakeSt) : (b.putTake k x).tim = b.tim := rfl
@[simp] theorem putTake_saf (k : Nat) (x : TakeSt) : (b.putTake k x).saf = b.saf := rfl
@[simp] theorem putTake_rd (k : Nat) (x : TakeSt) (o : Nat) : (b.putTake k x).rd o = b.rd o := rfl

/-! `Block.putLn` -/

@[simp] theorem putLn_regs (n : Nat) (x : LaneSt) : (b.putLn n x).regs = b.regs := rfl
@[simp] theorem putLn_latch (n : Nat) (x : LaneSt) : (b.putLn n x).latch = b.latch := rfl
@[simp] theorem putLn_staging (n : Nat) (x : LaneSt) : (b.putLn n x).staging = b.staging := rfl
@[simp] theorem putLn_out (n : Nat) (x : LaneSt) : (b.putLn n x).out = b.out := rfl
@[simp] theorem putLn_now (n : Nat) (x : LaneSt) : (b.putLn n x).now = b.now := rfl
@[simp] theorem putLn_frac (n : Nat) (x : LaneSt) : (b.putLn n x).frac = b.frac := rfl
@[simp] theorem putLn_elapsed (n : Nat) (x : LaneSt) : (b.putLn n x).elapsed = b.elapsed := rfl
@[simp] theorem putLn_refclk (n : Nat) (x : LaneSt) : (b.putLn n x).refclk = b.refclk := rfl
@[simp] theorem putLn_free (n : Nat) (x : LaneSt) : (b.putLn n x).free = b.free := rfl
@[simp] theorem putLn_boot (n : Nat) (x : LaneSt) : (b.putLn n x).boot = b.boot := rfl
@[simp] theorem putLn_cfg (n : Nat) (x : LaneSt) : (b.putLn n x).cfg = b.cfg := rfl
@[simp] theorem putLn_bankA (n : Nat) (x : LaneSt) : (b.putLn n x).bankA = b.bankA := rfl
@[simp] theorem putLn_bankB (n : Nat) (x : LaneSt) : (b.putLn n x).bankB = b.bankB := rfl
@[simp] theorem putLn_img (n : Nat) (x : LaneSt) : (b.putLn n x).img = b.img := rfl
@[simp] theorem putLn_sram (n : Nat) (x : LaneSt) : (b.putLn n x).sram = b.sram := rfl
@[simp] theorem putLn_cairn (n : Nat) (x : LaneSt) : (b.putLn n x).cairn = b.cairn := rfl
@[simp] theorem putLn_acqMem (n : Nat) (x : LaneSt) : (b.putLn n x).acqMem = b.acqMem := rfl
@[simp] theorem putLn_mgmt (n : Nat) (x : LaneSt) : (b.putLn n x).mgmt = b.mgmt := rfl
@[simp] theorem putLn_world (n : Nat) (x : LaneSt) : (b.putLn n x).world = b.world := rfl
@[simp] theorem putLn_lgr (n : Nat) (x : LaneSt) : (b.putLn n x).lgr = b.lgr := rfl
@[simp] theorem putLn_heldOps (n : Nat) (x : LaneSt) : (b.putLn n x).heldOps = b.heldOps := rfl
@[simp] theorem putLn_stages (n : Nat) (x : LaneSt) : (b.putLn n x).stages = b.stages := rfl
@[simp] theorem putLn_routes (n : Nat) (x : LaneSt) : (b.putLn n x).routes = b.routes := rfl
@[simp] theorem putLn_loops (n : Nat) (x : LaneSt) : (b.putLn n x).loops = b.loops := rfl
@[simp] theorem putLn_sigs (n : Nat) (x : LaneSt) : (b.putLn n x).sigs = b.sigs := rfl
@[simp] theorem putLn_threads (n : Nat) (x : LaneSt) : (b.putLn n x).threads = b.threads := rfl
@[simp] theorem putLn_pairs (n : Nat) (x : LaneSt) : (b.putLn n x).pairs = b.pairs := rfl
@[simp] theorem putLn_trips (n : Nat) (x : LaneSt) : (b.putLn n x).trips = b.trips := rfl
@[simp] theorem putLn_tripForced (n : Nat) (x : LaneSt) : (b.putLn n x).tripForced = b.tripForced := rfl
@[simp] theorem putLn_tripBank (n : Nat) (x : LaneSt) : (b.putLn n x).tripBank = b.tripBank := rfl
@[simp] theorem putLn_axes (n : Nat) (x : LaneSt) : (b.putLn n x).axes = b.axes := rfl
@[simp] theorem putLn_dcp (n : Nat) (x : LaneSt) : (b.putLn n x).dcp = b.dcp := rfl
@[simp] theorem putLn_dio (n : Nat) (x : LaneSt) : (b.putLn n x).dio = b.dio := rfl
@[simp] theorem putLn_rxos (n : Nat) (x : LaneSt) : (b.putLn n x).rxos = b.rxos := rfl
@[simp] theorem putLn_txos (n : Nat) (x : LaneSt) : (b.putLn n x).txos = b.txos := rfl
@[simp] theorem putLn_cans (n : Nat) (x : LaneSt) : (b.putLn n x).cans = b.cans := rfl
@[simp] theorem putLn_sers (n : Nat) (x : LaneSt) : (b.putLn n x).sers = b.sers := rfl
@[simp] theorem putLn_convs (n : Nat) (x : LaneSt) : (b.putLn n x).convs = b.convs := rfl
@[simp] theorem putLn_brgs (n : Nat) (x : LaneSt) : (b.putLn n x).brgs = b.brgs := rfl
@[simp] theorem putLn_dacs (n : Nat) (x : LaneSt) : (b.putLn n x).dacs = b.dacs := rfl
@[simp] theorem putLn_winCount (n : Nat) (x : LaneSt) : (b.putLn n x).winCount = b.winCount := rfl
@[simp] theorem putLn_cal (n : Nat) (x : LaneSt) : (b.putLn n x).cal = b.cal := rfl
@[simp] theorem putLn_takes (n : Nat) (x : LaneSt) : (b.putLn n x).takes = b.takes := rfl
@[simp] theorem putLn_fchs (n : Nat) (x : LaneSt) : (b.putLn n x).fchs = b.fchs := rfl
@[simp] theorem putLn_engs (n : Nat) (x : LaneSt) : (b.putLn n x).engs = b.engs := rfl
@[simp] theorem putLn_cont (n : Nat) (x : LaneSt) : (b.putLn n x).cont = b.cont := rfl
@[simp] theorem putLn_tim (n : Nat) (x : LaneSt) : (b.putLn n x).tim = b.tim := rfl
@[simp] theorem putLn_saf (n : Nat) (x : LaneSt) : (b.putLn n x).saf = b.saf := rfl
@[simp] theorem putLn_rd (n : Nat) (x : LaneSt) (o : Nat) : (b.putLn n x).rd o = b.rd o := rfl

/-! `Block.putSm` -/

@[simp] theorem putSm_regs (m : Nat) (x : SmSt) : (b.putSm m x).regs = b.regs := rfl
@[simp] theorem putSm_latch (m : Nat) (x : SmSt) : (b.putSm m x).latch = b.latch := rfl
@[simp] theorem putSm_staging (m : Nat) (x : SmSt) : (b.putSm m x).staging = b.staging := rfl
@[simp] theorem putSm_out (m : Nat) (x : SmSt) : (b.putSm m x).out = b.out := rfl
@[simp] theorem putSm_now (m : Nat) (x : SmSt) : (b.putSm m x).now = b.now := rfl
@[simp] theorem putSm_frac (m : Nat) (x : SmSt) : (b.putSm m x).frac = b.frac := rfl
@[simp] theorem putSm_elapsed (m : Nat) (x : SmSt) : (b.putSm m x).elapsed = b.elapsed := rfl
@[simp] theorem putSm_refclk (m : Nat) (x : SmSt) : (b.putSm m x).refclk = b.refclk := rfl
@[simp] theorem putSm_free (m : Nat) (x : SmSt) : (b.putSm m x).free = b.free := rfl
@[simp] theorem putSm_boot (m : Nat) (x : SmSt) : (b.putSm m x).boot = b.boot := rfl
@[simp] theorem putSm_cfg (m : Nat) (x : SmSt) : (b.putSm m x).cfg = b.cfg := rfl
@[simp] theorem putSm_bankA (m : Nat) (x : SmSt) : (b.putSm m x).bankA = b.bankA := rfl
@[simp] theorem putSm_bankB (m : Nat) (x : SmSt) : (b.putSm m x).bankB = b.bankB := rfl
@[simp] theorem putSm_img (m : Nat) (x : SmSt) : (b.putSm m x).img = b.img := rfl
@[simp] theorem putSm_sram (m : Nat) (x : SmSt) : (b.putSm m x).sram = b.sram := rfl
@[simp] theorem putSm_cairn (m : Nat) (x : SmSt) : (b.putSm m x).cairn = b.cairn := rfl
@[simp] theorem putSm_acqMem (m : Nat) (x : SmSt) : (b.putSm m x).acqMem = b.acqMem := rfl
@[simp] theorem putSm_mgmt (m : Nat) (x : SmSt) : (b.putSm m x).mgmt = b.mgmt := rfl
@[simp] theorem putSm_world (m : Nat) (x : SmSt) : (b.putSm m x).world = b.world := rfl
@[simp] theorem putSm_lgr (m : Nat) (x : SmSt) : (b.putSm m x).lgr = b.lgr := rfl
@[simp] theorem putSm_heldOps (m : Nat) (x : SmSt) : (b.putSm m x).heldOps = b.heldOps := rfl
@[simp] theorem putSm_stages (m : Nat) (x : SmSt) : (b.putSm m x).stages = b.stages := rfl
@[simp] theorem putSm_routes (m : Nat) (x : SmSt) : (b.putSm m x).routes = b.routes := rfl
@[simp] theorem putSm_loops (m : Nat) (x : SmSt) : (b.putSm m x).loops = b.loops := rfl
@[simp] theorem putSm_sigs (m : Nat) (x : SmSt) : (b.putSm m x).sigs = b.sigs := rfl
@[simp] theorem putSm_threads (m : Nat) (x : SmSt) : (b.putSm m x).threads = b.threads := rfl
@[simp] theorem putSm_pairs (m : Nat) (x : SmSt) : (b.putSm m x).pairs = b.pairs := rfl
@[simp] theorem putSm_trips (m : Nat) (x : SmSt) : (b.putSm m x).trips = b.trips := rfl
@[simp] theorem putSm_tripForced (m : Nat) (x : SmSt) : (b.putSm m x).tripForced = b.tripForced := rfl
@[simp] theorem putSm_tripBank (m : Nat) (x : SmSt) : (b.putSm m x).tripBank = b.tripBank := rfl
@[simp] theorem putSm_axes (m : Nat) (x : SmSt) : (b.putSm m x).axes = b.axes := rfl
@[simp] theorem putSm_dcp (m : Nat) (x : SmSt) : (b.putSm m x).dcp = b.dcp := rfl
@[simp] theorem putSm_dio (m : Nat) (x : SmSt) : (b.putSm m x).dio = b.dio := rfl
@[simp] theorem putSm_rxos (m : Nat) (x : SmSt) : (b.putSm m x).rxos = b.rxos := rfl
@[simp] theorem putSm_txos (m : Nat) (x : SmSt) : (b.putSm m x).txos = b.txos := rfl
@[simp] theorem putSm_cans (m : Nat) (x : SmSt) : (b.putSm m x).cans = b.cans := rfl
@[simp] theorem putSm_sers (m : Nat) (x : SmSt) : (b.putSm m x).sers = b.sers := rfl
@[simp] theorem putSm_convs (m : Nat) (x : SmSt) : (b.putSm m x).convs = b.convs := rfl
@[simp] theorem putSm_brgs (m : Nat) (x : SmSt) : (b.putSm m x).brgs = b.brgs := rfl
@[simp] theorem putSm_dacs (m : Nat) (x : SmSt) : (b.putSm m x).dacs = b.dacs := rfl
@[simp] theorem putSm_winCount (m : Nat) (x : SmSt) : (b.putSm m x).winCount = b.winCount := rfl
@[simp] theorem putSm_cal (m : Nat) (x : SmSt) : (b.putSm m x).cal = b.cal := rfl
@[simp] theorem putSm_takes (m : Nat) (x : SmSt) : (b.putSm m x).takes = b.takes := rfl
@[simp] theorem putSm_fchs (m : Nat) (x : SmSt) : (b.putSm m x).fchs = b.fchs := rfl
@[simp] theorem putSm_engs (m : Nat) (x : SmSt) : (b.putSm m x).engs = b.engs := rfl
@[simp] theorem putSm_cont (m : Nat) (x : SmSt) : (b.putSm m x).cont = b.cont := rfl
@[simp] theorem putSm_tim (m : Nat) (x : SmSt) : (b.putSm m x).tim = b.tim := rfl
@[simp] theorem putSm_saf (m : Nat) (x : SmSt) : (b.putSm m x).saf = b.saf := rfl
@[simp] theorem putSm_rd (m : Nat) (x : SmSt) (o : Nat) : (b.putSm m x).rd o = b.rd o := rfl

/-! `Block.putCons` -/

@[simp] theorem putCons_regs (c : Nat) (x : ConsSt) : (b.putCons c x).regs = b.regs := rfl
@[simp] theorem putCons_latch (c : Nat) (x : ConsSt) : (b.putCons c x).latch = b.latch := rfl
@[simp] theorem putCons_staging (c : Nat) (x : ConsSt) : (b.putCons c x).staging = b.staging := rfl
@[simp] theorem putCons_out (c : Nat) (x : ConsSt) : (b.putCons c x).out = b.out := rfl
@[simp] theorem putCons_now (c : Nat) (x : ConsSt) : (b.putCons c x).now = b.now := rfl
@[simp] theorem putCons_frac (c : Nat) (x : ConsSt) : (b.putCons c x).frac = b.frac := rfl
@[simp] theorem putCons_elapsed (c : Nat) (x : ConsSt) : (b.putCons c x).elapsed = b.elapsed := rfl
@[simp] theorem putCons_refclk (c : Nat) (x : ConsSt) : (b.putCons c x).refclk = b.refclk := rfl
@[simp] theorem putCons_free (c : Nat) (x : ConsSt) : (b.putCons c x).free = b.free := rfl
@[simp] theorem putCons_boot (c : Nat) (x : ConsSt) : (b.putCons c x).boot = b.boot := rfl
@[simp] theorem putCons_cfg (c : Nat) (x : ConsSt) : (b.putCons c x).cfg = b.cfg := rfl
@[simp] theorem putCons_bankA (c : Nat) (x : ConsSt) : (b.putCons c x).bankA = b.bankA := rfl
@[simp] theorem putCons_bankB (c : Nat) (x : ConsSt) : (b.putCons c x).bankB = b.bankB := rfl
@[simp] theorem putCons_img (c : Nat) (x : ConsSt) : (b.putCons c x).img = b.img := rfl
@[simp] theorem putCons_sram (c : Nat) (x : ConsSt) : (b.putCons c x).sram = b.sram := rfl
@[simp] theorem putCons_cairn (c : Nat) (x : ConsSt) : (b.putCons c x).cairn = b.cairn := rfl
@[simp] theorem putCons_acqMem (c : Nat) (x : ConsSt) : (b.putCons c x).acqMem = b.acqMem := rfl
@[simp] theorem putCons_mgmt (c : Nat) (x : ConsSt) : (b.putCons c x).mgmt = b.mgmt := rfl
@[simp] theorem putCons_world (c : Nat) (x : ConsSt) : (b.putCons c x).world = b.world := rfl
@[simp] theorem putCons_seq (c : Nat) (x : ConsSt) : (b.putCons c x).seq = b.seq := rfl
@[simp] theorem putCons_heldOps (c : Nat) (x : ConsSt) : (b.putCons c x).heldOps = b.heldOps := rfl
@[simp] theorem putCons_stages (c : Nat) (x : ConsSt) : (b.putCons c x).stages = b.stages := rfl
@[simp] theorem putCons_routes (c : Nat) (x : ConsSt) : (b.putCons c x).routes = b.routes := rfl
@[simp] theorem putCons_loops (c : Nat) (x : ConsSt) : (b.putCons c x).loops = b.loops := rfl
@[simp] theorem putCons_sigs (c : Nat) (x : ConsSt) : (b.putCons c x).sigs = b.sigs := rfl
@[simp] theorem putCons_threads (c : Nat) (x : ConsSt) : (b.putCons c x).threads = b.threads := rfl
@[simp] theorem putCons_pairs (c : Nat) (x : ConsSt) : (b.putCons c x).pairs = b.pairs := rfl
@[simp] theorem putCons_trips (c : Nat) (x : ConsSt) : (b.putCons c x).trips = b.trips := rfl
@[simp] theorem putCons_tripForced (c : Nat) (x : ConsSt) : (b.putCons c x).tripForced = b.tripForced := rfl
@[simp] theorem putCons_tripBank (c : Nat) (x : ConsSt) : (b.putCons c x).tripBank = b.tripBank := rfl
@[simp] theorem putCons_axes (c : Nat) (x : ConsSt) : (b.putCons c x).axes = b.axes := rfl
@[simp] theorem putCons_dcp (c : Nat) (x : ConsSt) : (b.putCons c x).dcp = b.dcp := rfl
@[simp] theorem putCons_dio (c : Nat) (x : ConsSt) : (b.putCons c x).dio = b.dio := rfl
@[simp] theorem putCons_rxos (c : Nat) (x : ConsSt) : (b.putCons c x).rxos = b.rxos := rfl
@[simp] theorem putCons_txos (c : Nat) (x : ConsSt) : (b.putCons c x).txos = b.txos := rfl
@[simp] theorem putCons_cans (c : Nat) (x : ConsSt) : (b.putCons c x).cans = b.cans := rfl
@[simp] theorem putCons_sers (c : Nat) (x : ConsSt) : (b.putCons c x).sers = b.sers := rfl
@[simp] theorem putCons_convs (c : Nat) (x : ConsSt) : (b.putCons c x).convs = b.convs := rfl
@[simp] theorem putCons_brgs (c : Nat) (x : ConsSt) : (b.putCons c x).brgs = b.brgs := rfl
@[simp] theorem putCons_dacs (c : Nat) (x : ConsSt) : (b.putCons c x).dacs = b.dacs := rfl
@[simp] theorem putCons_winCount (c : Nat) (x : ConsSt) : (b.putCons c x).winCount = b.winCount := rfl
@[simp] theorem putCons_cal (c : Nat) (x : ConsSt) : (b.putCons c x).cal = b.cal := rfl
@[simp] theorem putCons_takes (c : Nat) (x : ConsSt) : (b.putCons c x).takes = b.takes := rfl
@[simp] theorem putCons_fchs (c : Nat) (x : ConsSt) : (b.putCons c x).fchs = b.fchs := rfl
@[simp] theorem putCons_engs (c : Nat) (x : ConsSt) : (b.putCons c x).engs = b.engs := rfl
@[simp] theorem putCons_cont (c : Nat) (x : ConsSt) : (b.putCons c x).cont = b.cont := rfl
@[simp] theorem putCons_tim (c : Nat) (x : ConsSt) : (b.putCons c x).tim = b.tim := rfl
@[simp] theorem putCons_saf (c : Nat) (x : ConsSt) : (b.putCons c x).saf = b.saf := rfl
@[simp] theorem putCons_rd (c : Nat) (x : ConsSt) (o : Nat) : (b.putCons c x).rd o = b.rd o := rfl

/-! `Block.putRes` -/

@[simp] theorem putRes_regs (r : Nat) (x : ResSt) : (b.putRes r x).regs = b.regs := rfl
@[simp] theorem putRes_latch (r : Nat) (x : ResSt) : (b.putRes r x).latch = b.latch := rfl
@[simp] theorem putRes_staging (r : Nat) (x : ResSt) : (b.putRes r x).staging = b.staging := rfl
@[simp] theorem putRes_out (r : Nat) (x : ResSt) : (b.putRes r x).out = b.out := rfl
@[simp] theorem putRes_now (r : Nat) (x : ResSt) : (b.putRes r x).now = b.now := rfl
@[simp] theorem putRes_frac (r : Nat) (x : ResSt) : (b.putRes r x).frac = b.frac := rfl
@[simp] theorem putRes_elapsed (r : Nat) (x : ResSt) : (b.putRes r x).elapsed = b.elapsed := rfl
@[simp] theorem putRes_refclk (r : Nat) (x : ResSt) : (b.putRes r x).refclk = b.refclk := rfl
@[simp] theorem putRes_free (r : Nat) (x : ResSt) : (b.putRes r x).free = b.free := rfl
@[simp] theorem putRes_boot (r : Nat) (x : ResSt) : (b.putRes r x).boot = b.boot := rfl
@[simp] theorem putRes_cfg (r : Nat) (x : ResSt) : (b.putRes r x).cfg = b.cfg := rfl
@[simp] theorem putRes_bankA (r : Nat) (x : ResSt) : (b.putRes r x).bankA = b.bankA := rfl
@[simp] theorem putRes_bankB (r : Nat) (x : ResSt) : (b.putRes r x).bankB = b.bankB := rfl
@[simp] theorem putRes_img (r : Nat) (x : ResSt) : (b.putRes r x).img = b.img := rfl
@[simp] theorem putRes_sram (r : Nat) (x : ResSt) : (b.putRes r x).sram = b.sram := rfl
@[simp] theorem putRes_cairn (r : Nat) (x : ResSt) : (b.putRes r x).cairn = b.cairn := rfl
@[simp] theorem putRes_acqMem (r : Nat) (x : ResSt) : (b.putRes r x).acqMem = b.acqMem := rfl
@[simp] theorem putRes_mgmt (r : Nat) (x : ResSt) : (b.putRes r x).mgmt = b.mgmt := rfl
@[simp] theorem putRes_world (r : Nat) (x : ResSt) : (b.putRes r x).world = b.world := rfl
@[simp] theorem putRes_seq (r : Nat) (x : ResSt) : (b.putRes r x).seq = b.seq := rfl
@[simp] theorem putRes_heldOps (r : Nat) (x : ResSt) : (b.putRes r x).heldOps = b.heldOps := rfl
@[simp] theorem putRes_stages (r : Nat) (x : ResSt) : (b.putRes r x).stages = b.stages := rfl
@[simp] theorem putRes_routes (r : Nat) (x : ResSt) : (b.putRes r x).routes = b.routes := rfl
@[simp] theorem putRes_loops (r : Nat) (x : ResSt) : (b.putRes r x).loops = b.loops := rfl
@[simp] theorem putRes_sigs (r : Nat) (x : ResSt) : (b.putRes r x).sigs = b.sigs := rfl
@[simp] theorem putRes_threads (r : Nat) (x : ResSt) : (b.putRes r x).threads = b.threads := rfl
@[simp] theorem putRes_pairs (r : Nat) (x : ResSt) : (b.putRes r x).pairs = b.pairs := rfl
@[simp] theorem putRes_trips (r : Nat) (x : ResSt) : (b.putRes r x).trips = b.trips := rfl
@[simp] theorem putRes_tripForced (r : Nat) (x : ResSt) : (b.putRes r x).tripForced = b.tripForced := rfl
@[simp] theorem putRes_tripBank (r : Nat) (x : ResSt) : (b.putRes r x).tripBank = b.tripBank := rfl
@[simp] theorem putRes_axes (r : Nat) (x : ResSt) : (b.putRes r x).axes = b.axes := rfl
@[simp] theorem putRes_dcp (r : Nat) (x : ResSt) : (b.putRes r x).dcp = b.dcp := rfl
@[simp] theorem putRes_dio (r : Nat) (x : ResSt) : (b.putRes r x).dio = b.dio := rfl
@[simp] theorem putRes_rxos (r : Nat) (x : ResSt) : (b.putRes r x).rxos = b.rxos := rfl
@[simp] theorem putRes_txos (r : Nat) (x : ResSt) : (b.putRes r x).txos = b.txos := rfl
@[simp] theorem putRes_cans (r : Nat) (x : ResSt) : (b.putRes r x).cans = b.cans := rfl
@[simp] theorem putRes_sers (r : Nat) (x : ResSt) : (b.putRes r x).sers = b.sers := rfl
@[simp] theorem putRes_convs (r : Nat) (x : ResSt) : (b.putRes r x).convs = b.convs := rfl
@[simp] theorem putRes_brgs (r : Nat) (x : ResSt) : (b.putRes r x).brgs = b.brgs := rfl
@[simp] theorem putRes_dacs (r : Nat) (x : ResSt) : (b.putRes r x).dacs = b.dacs := rfl
@[simp] theorem putRes_winCount (r : Nat) (x : ResSt) : (b.putRes r x).winCount = b.winCount := rfl
@[simp] theorem putRes_cal (r : Nat) (x : ResSt) : (b.putRes r x).cal = b.cal := rfl
@[simp] theorem putRes_takes (r : Nat) (x : ResSt) : (b.putRes r x).takes = b.takes := rfl
@[simp] theorem putRes_fchs (r : Nat) (x : ResSt) : (b.putRes r x).fchs = b.fchs := rfl
@[simp] theorem putRes_engs (r : Nat) (x : ResSt) : (b.putRes r x).engs = b.engs := rfl
@[simp] theorem putRes_cont (r : Nat) (x : ResSt) : (b.putRes r x).cont = b.cont := rfl
@[simp] theorem putRes_tim (r : Nat) (x : ResSt) : (b.putRes r x).tim = b.tim := rfl
@[simp] theorem putRes_saf (r : Nat) (x : ResSt) : (b.putRes r x).saf = b.saf := rfl
@[simp] theorem putRes_rd (r : Nat) (x : ResSt) (o : Nat) : (b.putRes r x).rd o = b.rd o := rfl

/-! `Block.putSet` -/

@[simp] theorem putSet_regs (n : Nat) (x : ClaimSet) : (b.putSet n x).regs = b.regs := rfl
@[simp] theorem putSet_latch (n : Nat) (x : ClaimSet) : (b.putSet n x).latch = b.latch := rfl
@[simp] theorem putSet_staging (n : Nat) (x : ClaimSet) : (b.putSet n x).staging = b.staging := rfl
@[simp] theorem putSet_out (n : Nat) (x : ClaimSet) : (b.putSet n x).out = b.out := rfl
@[simp] theorem putSet_now (n : Nat) (x : ClaimSet) : (b.putSet n x).now = b.now := rfl
@[simp] theorem putSet_frac (n : Nat) (x : ClaimSet) : (b.putSet n x).frac = b.frac := rfl
@[simp] theorem putSet_elapsed (n : Nat) (x : ClaimSet) : (b.putSet n x).elapsed = b.elapsed := rfl
@[simp] theorem putSet_refclk (n : Nat) (x : ClaimSet) : (b.putSet n x).refclk = b.refclk := rfl
@[simp] theorem putSet_free (n : Nat) (x : ClaimSet) : (b.putSet n x).free = b.free := rfl
@[simp] theorem putSet_boot (n : Nat) (x : ClaimSet) : (b.putSet n x).boot = b.boot := rfl
@[simp] theorem putSet_cfg (n : Nat) (x : ClaimSet) : (b.putSet n x).cfg = b.cfg := rfl
@[simp] theorem putSet_bankA (n : Nat) (x : ClaimSet) : (b.putSet n x).bankA = b.bankA := rfl
@[simp] theorem putSet_bankB (n : Nat) (x : ClaimSet) : (b.putSet n x).bankB = b.bankB := rfl
@[simp] theorem putSet_img (n : Nat) (x : ClaimSet) : (b.putSet n x).img = b.img := rfl
@[simp] theorem putSet_sram (n : Nat) (x : ClaimSet) : (b.putSet n x).sram = b.sram := rfl
@[simp] theorem putSet_cairn (n : Nat) (x : ClaimSet) : (b.putSet n x).cairn = b.cairn := rfl
@[simp] theorem putSet_acqMem (n : Nat) (x : ClaimSet) : (b.putSet n x).acqMem = b.acqMem := rfl
@[simp] theorem putSet_mgmt (n : Nat) (x : ClaimSet) : (b.putSet n x).mgmt = b.mgmt := rfl
@[simp] theorem putSet_world (n : Nat) (x : ClaimSet) : (b.putSet n x).world = b.world := rfl
@[simp] theorem putSet_seq (n : Nat) (x : ClaimSet) : (b.putSet n x).seq = b.seq := rfl
@[simp] theorem putSet_heldOps (n : Nat) (x : ClaimSet) : (b.putSet n x).heldOps = b.heldOps := rfl
@[simp] theorem putSet_stages (n : Nat) (x : ClaimSet) : (b.putSet n x).stages = b.stages := rfl
@[simp] theorem putSet_routes (n : Nat) (x : ClaimSet) : (b.putSet n x).routes = b.routes := rfl
@[simp] theorem putSet_loops (n : Nat) (x : ClaimSet) : (b.putSet n x).loops = b.loops := rfl
@[simp] theorem putSet_sigs (n : Nat) (x : ClaimSet) : (b.putSet n x).sigs = b.sigs := rfl
@[simp] theorem putSet_threads (n : Nat) (x : ClaimSet) : (b.putSet n x).threads = b.threads := rfl
@[simp] theorem putSet_pairs (n : Nat) (x : ClaimSet) : (b.putSet n x).pairs = b.pairs := rfl
@[simp] theorem putSet_trips (n : Nat) (x : ClaimSet) : (b.putSet n x).trips = b.trips := rfl
@[simp] theorem putSet_tripForced (n : Nat) (x : ClaimSet) : (b.putSet n x).tripForced = b.tripForced := rfl
@[simp] theorem putSet_tripBank (n : Nat) (x : ClaimSet) : (b.putSet n x).tripBank = b.tripBank := rfl
@[simp] theorem putSet_axes (n : Nat) (x : ClaimSet) : (b.putSet n x).axes = b.axes := rfl
@[simp] theorem putSet_dcp (n : Nat) (x : ClaimSet) : (b.putSet n x).dcp = b.dcp := rfl
@[simp] theorem putSet_dio (n : Nat) (x : ClaimSet) : (b.putSet n x).dio = b.dio := rfl
@[simp] theorem putSet_rxos (n : Nat) (x : ClaimSet) : (b.putSet n x).rxos = b.rxos := rfl
@[simp] theorem putSet_txos (n : Nat) (x : ClaimSet) : (b.putSet n x).txos = b.txos := rfl
@[simp] theorem putSet_cans (n : Nat) (x : ClaimSet) : (b.putSet n x).cans = b.cans := rfl
@[simp] theorem putSet_sers (n : Nat) (x : ClaimSet) : (b.putSet n x).sers = b.sers := rfl
@[simp] theorem putSet_convs (n : Nat) (x : ClaimSet) : (b.putSet n x).convs = b.convs := rfl
@[simp] theorem putSet_brgs (n : Nat) (x : ClaimSet) : (b.putSet n x).brgs = b.brgs := rfl
@[simp] theorem putSet_dacs (n : Nat) (x : ClaimSet) : (b.putSet n x).dacs = b.dacs := rfl
@[simp] theorem putSet_winCount (n : Nat) (x : ClaimSet) : (b.putSet n x).winCount = b.winCount := rfl
@[simp] theorem putSet_cal (n : Nat) (x : ClaimSet) : (b.putSet n x).cal = b.cal := rfl
@[simp] theorem putSet_takes (n : Nat) (x : ClaimSet) : (b.putSet n x).takes = b.takes := rfl
@[simp] theorem putSet_fchs (n : Nat) (x : ClaimSet) : (b.putSet n x).fchs = b.fchs := rfl
@[simp] theorem putSet_engs (n : Nat) (x : ClaimSet) : (b.putSet n x).engs = b.engs := rfl
@[simp] theorem putSet_cont (n : Nat) (x : ClaimSet) : (b.putSet n x).cont = b.cont := rfl
@[simp] theorem putSet_tim (n : Nat) (x : ClaimSet) : (b.putSet n x).tim = b.tim := rfl
@[simp] theorem putSet_saf (n : Nat) (x : ClaimSet) : (b.putSet n x).saf = b.saf := rfl
@[simp] theorem putSet_rd (n : Nat) (x : ClaimSet) (o : Nat) : (b.putSet n x).rd o = b.rd o := rfl

/-! `Block.wr`: a register word -/

@[simp] theorem wr_latch (o : Nat) (v : Word) : (b.wr o v).latch = b.latch := by unfold Block.wr; split <;> rfl
@[simp] theorem wr_staging (o : Nat) (v : Word) : (b.wr o v).staging = b.staging := by unfold Block.wr; split <;> rfl
@[simp] theorem wr_now (o : Nat) (v : Word) : (b.wr o v).now = b.now := by unfold Block.wr; split <;> rfl
@[simp] theorem wr_frac (o : Nat) (v : Word) : (b.wr o v).frac = b.frac := by unfold Block.wr; split <;> rfl
@[simp] theorem wr_elapsed (o : Nat) (v : Word) : (b.wr o v).elapsed = b.elapsed := by unfold Block.wr; split <;> rfl
@[simp] theorem wr_refclk (o : Nat) (v : Word) : (b.wr o v).refclk = b.refclk := by unfold Block.wr; split <;> rfl
@[simp] theorem wr_free (o : Nat) (v : Word) : (b.wr o v).free = b.free := by unfold Block.wr; split <;> rfl
@[simp] theorem wr_boot (o : Nat) (v : Word) : (b.wr o v).boot = b.boot := by unfold Block.wr; split <;> rfl
@[simp] theorem wr_cfg (o : Nat) (v : Word) : (b.wr o v).cfg = b.cfg := by unfold Block.wr; split <;> rfl
@[simp] theorem wr_bankA (o : Nat) (v : Word) : (b.wr o v).bankA = b.bankA := by unfold Block.wr; split <;> rfl
@[simp] theorem wr_bankB (o : Nat) (v : Word) : (b.wr o v).bankB = b.bankB := by unfold Block.wr; split <;> rfl
@[simp] theorem wr_img (o : Nat) (v : Word) : (b.wr o v).img = b.img := by unfold Block.wr; split <;> rfl
@[simp] theorem wr_sram (o : Nat) (v : Word) : (b.wr o v).sram = b.sram := by unfold Block.wr; split <;> rfl
@[simp] theorem wr_cairn (o : Nat) (v : Word) : (b.wr o v).cairn = b.cairn := by unfold Block.wr; split <;> rfl
@[simp] theorem wr_acqMem (o : Nat) (v : Word) : (b.wr o v).acqMem = b.acqMem := by unfold Block.wr; split <;> rfl
@[simp] theorem wr_mgmt (o : Nat) (v : Word) : (b.wr o v).mgmt = b.mgmt := by unfold Block.wr; split <;> rfl
@[simp] theorem wr_world (o : Nat) (v : Word) : (b.wr o v).world = b.world := by unfold Block.wr; split <;> rfl
@[simp] theorem wr_seq (o : Nat) (v : Word) : (b.wr o v).seq = b.seq := by unfold Block.wr; split <;> rfl
@[simp] theorem wr_lgr (o : Nat) (v : Word) : (b.wr o v).lgr = b.lgr := by unfold Block.wr; split <;> rfl
@[simp] theorem wr_heldOps (o : Nat) (v : Word) : (b.wr o v).heldOps = b.heldOps := by unfold Block.wr; split <;> rfl
@[simp] theorem wr_stages (o : Nat) (v : Word) : (b.wr o v).stages = b.stages := by unfold Block.wr; split <;> rfl
@[simp] theorem wr_routes (o : Nat) (v : Word) : (b.wr o v).routes = b.routes := by unfold Block.wr; split <;> rfl
@[simp] theorem wr_loops (o : Nat) (v : Word) : (b.wr o v).loops = b.loops := by unfold Block.wr; split <;> rfl
@[simp] theorem wr_sigs (o : Nat) (v : Word) : (b.wr o v).sigs = b.sigs := by unfold Block.wr; split <;> rfl
@[simp] theorem wr_threads (o : Nat) (v : Word) : (b.wr o v).threads = b.threads := by unfold Block.wr; split <;> rfl
@[simp] theorem wr_pairs (o : Nat) (v : Word) : (b.wr o v).pairs = b.pairs := by unfold Block.wr; split <;> rfl
@[simp] theorem wr_trips (o : Nat) (v : Word) : (b.wr o v).trips = b.trips := by unfold Block.wr; split <;> rfl
@[simp] theorem wr_tripForced (o : Nat) (v : Word) : (b.wr o v).tripForced = b.tripForced := by unfold Block.wr; split <;> rfl
@[simp] theorem wr_tripBank (o : Nat) (v : Word) : (b.wr o v).tripBank = b.tripBank := by unfold Block.wr; split <;> rfl
@[simp] theorem wr_axes (o : Nat) (v : Word) : (b.wr o v).axes = b.axes := by unfold Block.wr; split <;> rfl
@[simp] theorem wr_dcp (o : Nat) (v : Word) : (b.wr o v).dcp = b.dcp := by unfold Block.wr; split <;> rfl
@[simp] theorem wr_dio (o : Nat) (v : Word) : (b.wr o v).dio = b.dio := by unfold Block.wr; split <;> rfl
@[simp] theorem wr_rxos (o : Nat) (v : Word) : (b.wr o v).rxos = b.rxos := by unfold Block.wr; split <;> rfl
@[simp] theorem wr_txos (o : Nat) (v : Word) : (b.wr o v).txos = b.txos := by unfold Block.wr; split <;> rfl
@[simp] theorem wr_cans (o : Nat) (v : Word) : (b.wr o v).cans = b.cans := by unfold Block.wr; split <;> rfl
@[simp] theorem wr_sers (o : Nat) (v : Word) : (b.wr o v).sers = b.sers := by unfold Block.wr; split <;> rfl
@[simp] theorem wr_convs (o : Nat) (v : Word) : (b.wr o v).convs = b.convs := by unfold Block.wr; split <;> rfl
@[simp] theorem wr_brgs (o : Nat) (v : Word) : (b.wr o v).brgs = b.brgs := by unfold Block.wr; split <;> rfl
@[simp] theorem wr_dacs (o : Nat) (v : Word) : (b.wr o v).dacs = b.dacs := by unfold Block.wr; split <;> rfl
@[simp] theorem wr_winCount (o : Nat) (v : Word) : (b.wr o v).winCount = b.winCount := by unfold Block.wr; split <;> rfl
@[simp] theorem wr_cal (o : Nat) (v : Word) : (b.wr o v).cal = b.cal := by unfold Block.wr; split <;> rfl
@[simp] theorem wr_takes (o : Nat) (v : Word) : (b.wr o v).takes = b.takes := by unfold Block.wr; split <;> rfl
@[simp] theorem wr_fchs (o : Nat) (v : Word) : (b.wr o v).fchs = b.fchs := by unfold Block.wr; split <;> rfl
@[simp] theorem wr_engs (o : Nat) (v : Word) : (b.wr o v).engs = b.engs := by unfold Block.wr; split <;> rfl
@[simp] theorem wr_cont (o : Nat) (v : Word) : (b.wr o v).cont = b.cont := by unfold Block.wr; split <;> rfl
@[simp] theorem wr_tim (o : Nat) (v : Word) : (b.wr o v).tim = b.tim := by unfold Block.wr; split <;> rfl
@[simp] theorem wr_saf (o : Nat) (v : Word) : (b.wr o v).saf = b.saf := by unfold Block.wr; split <;> rfl

/-! `Block.setTim`, `Block.setPoint`, `nextB` -/

@[simp] theorem setTim_regs (x : TimeSt) : (b.setTim x).regs = b.regs := rfl
@[simp] theorem setTim_latch (x : TimeSt) : (b.setTim x).latch = b.latch := rfl
@[simp] theorem setTim_staging (x : TimeSt) : (b.setTim x).staging = b.staging := rfl
@[simp] theorem setTim_out (x : TimeSt) : (b.setTim x).out = b.out := rfl
@[simp] theorem setTim_now (x : TimeSt) : (b.setTim x).now = b.now := rfl
@[simp] theorem setTim_frac (x : TimeSt) : (b.setTim x).frac = b.frac := rfl
@[simp] theorem setTim_elapsed (x : TimeSt) : (b.setTim x).elapsed = b.elapsed := rfl
@[simp] theorem setTim_refclk (x : TimeSt) : (b.setTim x).refclk = b.refclk := rfl
@[simp] theorem setTim_free (x : TimeSt) : (b.setTim x).free = b.free := rfl
@[simp] theorem setTim_boot (x : TimeSt) : (b.setTim x).boot = b.boot := rfl
@[simp] theorem setTim_cfg (x : TimeSt) : (b.setTim x).cfg = b.cfg := rfl
@[simp] theorem setTim_bankA (x : TimeSt) : (b.setTim x).bankA = b.bankA := rfl
@[simp] theorem setTim_bankB (x : TimeSt) : (b.setTim x).bankB = b.bankB := rfl
@[simp] theorem setTim_img (x : TimeSt) : (b.setTim x).img = b.img := rfl
@[simp] theorem setTim_sram (x : TimeSt) : (b.setTim x).sram = b.sram := rfl
@[simp] theorem setTim_cairn (x : TimeSt) : (b.setTim x).cairn = b.cairn := rfl
@[simp] theorem setTim_acqMem (x : TimeSt) : (b.setTim x).acqMem = b.acqMem := rfl
@[simp] theorem setTim_mgmt (x : TimeSt) : (b.setTim x).mgmt = b.mgmt := rfl
@[simp] theorem setTim_world (x : TimeSt) : (b.setTim x).world = b.world := rfl
@[simp] theorem setTim_seq (x : TimeSt) : (b.setTim x).seq = b.seq := rfl
@[simp] theorem setTim_lgr (x : TimeSt) : (b.setTim x).lgr = b.lgr := rfl
@[simp] theorem setTim_heldOps (x : TimeSt) : (b.setTim x).heldOps = b.heldOps := rfl
@[simp] theorem setTim_stages (x : TimeSt) : (b.setTim x).stages = b.stages := rfl
@[simp] theorem setTim_routes (x : TimeSt) : (b.setTim x).routes = b.routes := rfl
@[simp] theorem setTim_loops (x : TimeSt) : (b.setTim x).loops = b.loops := rfl
@[simp] theorem setTim_sigs (x : TimeSt) : (b.setTim x).sigs = b.sigs := rfl
@[simp] theorem setTim_threads (x : TimeSt) : (b.setTim x).threads = b.threads := rfl
@[simp] theorem setTim_pairs (x : TimeSt) : (b.setTim x).pairs = b.pairs := rfl
@[simp] theorem setTim_trips (x : TimeSt) : (b.setTim x).trips = b.trips := rfl
@[simp] theorem setTim_tripForced (x : TimeSt) : (b.setTim x).tripForced = b.tripForced := rfl
@[simp] theorem setTim_tripBank (x : TimeSt) : (b.setTim x).tripBank = b.tripBank := rfl
@[simp] theorem setTim_axes (x : TimeSt) : (b.setTim x).axes = b.axes := rfl
@[simp] theorem setTim_dcp (x : TimeSt) : (b.setTim x).dcp = b.dcp := rfl
@[simp] theorem setTim_dio (x : TimeSt) : (b.setTim x).dio = b.dio := rfl
@[simp] theorem setTim_rxos (x : TimeSt) : (b.setTim x).rxos = b.rxos := rfl
@[simp] theorem setTim_txos (x : TimeSt) : (b.setTim x).txos = b.txos := rfl
@[simp] theorem setTim_cans (x : TimeSt) : (b.setTim x).cans = b.cans := rfl
@[simp] theorem setTim_sers (x : TimeSt) : (b.setTim x).sers = b.sers := rfl
@[simp] theorem setTim_convs (x : TimeSt) : (b.setTim x).convs = b.convs := rfl
@[simp] theorem setTim_brgs (x : TimeSt) : (b.setTim x).brgs = b.brgs := rfl
@[simp] theorem setTim_dacs (x : TimeSt) : (b.setTim x).dacs = b.dacs := rfl
@[simp] theorem setTim_winCount (x : TimeSt) : (b.setTim x).winCount = b.winCount := rfl
@[simp] theorem setTim_cal (x : TimeSt) : (b.setTim x).cal = b.cal := rfl
@[simp] theorem setTim_takes (x : TimeSt) : (b.setTim x).takes = b.takes := rfl
@[simp] theorem setTim_fchs (x : TimeSt) : (b.setTim x).fchs = b.fchs := rfl
@[simp] theorem setTim_engs (x : TimeSt) : (b.setTim x).engs = b.engs := rfl
@[simp] theorem setTim_cont (x : TimeSt) : (b.setTim x).cont = b.cont := rfl
@[simp] theorem setTim_saf (x : TimeSt) : (b.setTim x).saf = b.saf := rfl
@[simp] theorem setPoint_regs (x : Nat) : (b.setPoint x).regs = b.regs := rfl
@[simp] theorem setPoint_latch (x : Nat) : (b.setPoint x).latch = b.latch := rfl
@[simp] theorem setPoint_staging (x : Nat) : (b.setPoint x).staging = b.staging := rfl
@[simp] theorem setPoint_out (x : Nat) : (b.setPoint x).out = b.out := rfl
@[simp] theorem setPoint_now (x : Nat) : (b.setPoint x).now = b.now := rfl
@[simp] theorem setPoint_frac (x : Nat) : (b.setPoint x).frac = b.frac := rfl
@[simp] theorem setPoint_elapsed (x : Nat) : (b.setPoint x).elapsed = b.elapsed := rfl
@[simp] theorem setPoint_refclk (x : Nat) : (b.setPoint x).refclk = b.refclk := rfl
@[simp] theorem setPoint_free (x : Nat) : (b.setPoint x).free = b.free := rfl
@[simp] theorem setPoint_cfg (x : Nat) : (b.setPoint x).cfg = b.cfg := rfl
@[simp] theorem setPoint_bankA (x : Nat) : (b.setPoint x).bankA = b.bankA := rfl
@[simp] theorem setPoint_bankB (x : Nat) : (b.setPoint x).bankB = b.bankB := rfl
@[simp] theorem setPoint_img (x : Nat) : (b.setPoint x).img = b.img := rfl
@[simp] theorem setPoint_sram (x : Nat) : (b.setPoint x).sram = b.sram := rfl
@[simp] theorem setPoint_cairn (x : Nat) : (b.setPoint x).cairn = b.cairn := rfl
@[simp] theorem setPoint_acqMem (x : Nat) : (b.setPoint x).acqMem = b.acqMem := rfl
@[simp] theorem setPoint_mgmt (x : Nat) : (b.setPoint x).mgmt = b.mgmt := rfl
@[simp] theorem setPoint_world (x : Nat) : (b.setPoint x).world = b.world := rfl
@[simp] theorem setPoint_seq (x : Nat) : (b.setPoint x).seq = b.seq := rfl
@[simp] theorem setPoint_lgr (x : Nat) : (b.setPoint x).lgr = b.lgr := rfl
@[simp] theorem setPoint_heldOps (x : Nat) : (b.setPoint x).heldOps = b.heldOps := rfl
@[simp] theorem setPoint_stages (x : Nat) : (b.setPoint x).stages = b.stages := rfl
@[simp] theorem setPoint_routes (x : Nat) : (b.setPoint x).routes = b.routes := rfl
@[simp] theorem setPoint_loops (x : Nat) : (b.setPoint x).loops = b.loops := rfl
@[simp] theorem setPoint_sigs (x : Nat) : (b.setPoint x).sigs = b.sigs := rfl
@[simp] theorem setPoint_threads (x : Nat) : (b.setPoint x).threads = b.threads := rfl
@[simp] theorem setPoint_pairs (x : Nat) : (b.setPoint x).pairs = b.pairs := rfl
@[simp] theorem setPoint_trips (x : Nat) : (b.setPoint x).trips = b.trips := rfl
@[simp] theorem setPoint_tripForced (x : Nat) : (b.setPoint x).tripForced = b.tripForced := rfl
@[simp] theorem setPoint_tripBank (x : Nat) : (b.setPoint x).tripBank = b.tripBank := rfl
@[simp] theorem setPoint_axes (x : Nat) : (b.setPoint x).axes = b.axes := rfl
@[simp] theorem setPoint_dcp (x : Nat) : (b.setPoint x).dcp = b.dcp := rfl
@[simp] theorem setPoint_dio (x : Nat) : (b.setPoint x).dio = b.dio := rfl
@[simp] theorem setPoint_rxos (x : Nat) : (b.setPoint x).rxos = b.rxos := rfl
@[simp] theorem setPoint_txos (x : Nat) : (b.setPoint x).txos = b.txos := rfl
@[simp] theorem setPoint_cans (x : Nat) : (b.setPoint x).cans = b.cans := rfl
@[simp] theorem setPoint_sers (x : Nat) : (b.setPoint x).sers = b.sers := rfl
@[simp] theorem setPoint_convs (x : Nat) : (b.setPoint x).convs = b.convs := rfl
@[simp] theorem setPoint_brgs (x : Nat) : (b.setPoint x).brgs = b.brgs := rfl
@[simp] theorem setPoint_dacs (x : Nat) : (b.setPoint x).dacs = b.dacs := rfl
@[simp] theorem setPoint_winCount (x : Nat) : (b.setPoint x).winCount = b.winCount := rfl
@[simp] theorem setPoint_cal (x : Nat) : (b.setPoint x).cal = b.cal := rfl
@[simp] theorem setPoint_takes (x : Nat) : (b.setPoint x).takes = b.takes := rfl
@[simp] theorem setPoint_fchs (x : Nat) : (b.setPoint x).fchs = b.fchs := rfl
@[simp] theorem setPoint_engs (x : Nat) : (b.setPoint x).engs = b.engs := rfl
@[simp] theorem setPoint_cont (x : Nat) : (b.setPoint x).cont = b.cont := rfl
@[simp] theorem setPoint_tim (x : Nat) : (b.setPoint x).tim = b.tim := rfl
@[simp] theorem setPoint_saf (x : Nat) : (b.setPoint x).saf = b.saf := rfl

theorem nextB_eq (s : State) (f : Block → Block) : nextB s f = .next { s with b := f s.b } := rfl

end Sys2Proof.Machine
end

