-- ==== Sys2Proof/Tests/Slice0.lean ====
section
/-! SUPPORT. Tests/Slice0.lean: small tests of single steps, terms that the well-formedness checks refuse, and for every statement a
state and operands that meet the hypotheses of its clauses. -/

namespace Sys2Proof.Tests

set_option Elab.async false

open Sys2Proof.Machine

/-! ### Small states -/

/-- A table from its entries. -/
def tbl {α : Type} (l : List (Nat × α)) : Tab α := l.foldl (fun t p => tput t p.1 p.2) []
/-- Registers from offsets and values. -/
def rg (l : List (Nat × Nat)) : Tab Word := tbl (l.map fun p => (p.1, BitVec.ofNat 32 p.2))
/-- Bytes from numbers. -/
def by8 (l : List Nat) : List Byte := l.map fun n => BitVec.ofNat 8 n
/-- Bytes of words, the low byte first. -/
def by32 (l : List Nat) : List Byte := l.flatMap fun n => leBytes 4 n
/-- A controller in a device state, with registers and fixed tables. -/
def mkB (dev : Nat) (regs : List (Nat × Nat) := []) (cfg : List (Nat × List Byte) := []) : Block :=
  { regs := rg ((Reg.sysState, dev) :: regs), refclk := true, cfg := tbl cfg, boot := { por := false, milestone := 10 } }
/-- The state with that block. -/
def st (b : Block) : State := { b := b }
/-- A command from a maintainer over the link. -/
def mt (obj : Nat := 0) (args : List Byte := []) : Cmd :=
  { issuer := .mgmt 3, object := BitVec.ofNat 32 obj, args := padTo 48 args, arglen := BitVec.ofNat 16 args.length }
/-- A command from a host queue. -/
def ho (q : Fin 16) (args : List Byte := []) (obj : Nat := 0) : Cmd :=
  { issuer := .host q, object := BitVec.ofNat 32 obj, args := padTo 48 args, arglen := BitVec.ofNat 16 args.length }

/-! ### Witnesses: engines (08) -/

/-- An activation of thread 7. -/
def actW : ActSt := { thread := 7, act := 5, start := 1, disp := 100, budget := 1000 }
/-- Engine 39 runs it; v1 = −2³¹, v2 = −1, v4 = 7, v5 an address in D-RAM, v6 one in the work region, v8 a misaligned one. -/
def engB (c : EngCtx := {}) (regs : List (Nat × Nat) := []) (cfg : List (Nat × List Byte) := []) (a : ActSt := actW) : Block :=
  { mkB dsOperational ((Reg.engState 39, egRunning) :: (Reg.engSramSplit, 0x800000) :: regs) cfg with
    engs := [(39, { act := some a, inReset := false, ctx := { c with
      v := tbl [(1, 0x80000000), (2, 0xFFFFFFFF), (4, 7), (5, 0x10000), (6, 0x10FFFFFC), (8, 0x1DFDE), (9, 0x1DFD8), (10, 0x10800000)] } })] }

/-- The small engine state runs, with its pc in its I-RAM. -/
theorem witness_engine : (engB).issuer 39 = some actW ∧ ((engB).eng 39).ctx.pc % 4 = 0 ∧ ((engB).eng 39).ctx.pc < 0x10000 := by
  decide +kernel

/-- States and operands that meet hypotheses of `Obligations.IntegerInstructionsRetire`, clause by clause. -/
theorem witness_IntegerInstructionsRetire :
    let g := ((engB).eng 39).ctx.get
    Runs (engB) 39 actW ∧ g 1 = 0x80000000 ∧ g 2 = 0xFFFFFFFF ∧ g 3 = 0 ∧ g 4 ≠ 0 ∧ ¬(g 1 = 0x80000000 ∧ g 4 = 0xFFFFFFFF) ∧
      (⟨31, 1, 4, 0x018⟩ : FormA).fn = 0x018 ∧ (⟨3, 0, 0⟩ : FormI).a = 0 := by
  simp only [Runs]; decide +kernel

/-- States and operands that meet the hypotheses of `Obligations.FloatInstructionsRetire`, clause by clause. -/
theorem witness_FloatInstructionsRetire : Runs (engB) 39 actW ∧ (⟨0, 1, 0, 0x011⟩ : FormA).b = 0 := by
  simp only [Runs]; decide +kernel

/-- States and operands that meet the hypotheses of `Obligations.FloatOperationsFollowIeee`, clause by clause. -/
theorem witness_FloatOperationsFollowIeee :
    F32.decode 0x3F800000 = .fin false 1 ∧ F32.decode 0x80000000 = .fin true 0 ∧ F32.decode 0xFF800000 = .inf true ∧
      F32.decode 0x7F800000 = .inf false ∧ F32.decode 0xBF800000 = .fin true (-1) ∧ isNaN32 0x7FC00000 = true ∧ isNaN32 1 = false ∧
      F32.decode 0xCF000001 = .fin true (-2147483904) ∧ rneInt (-2147483904) < -2147483648 ∧
      F32.decode 0x4F000000 = .fin false 2147483648 ∧ 2147483647 < rneInt 2147483648 ∧
      F32.decode 0xCF000000 = .fin true (-2147483648) ∧ -2147483648 ≤ rneInt (-2147483648) ∧ rneInt (-2147483648) ≤ 2147483647 := by
  decide +kernel

/-- States and operands that meet the hypotheses of `Obligations.BranchesAndJumpsRetire`, clause by clause. -/
theorem witness_BranchesAndJumpsRetire :
    let g := ((engB).eng 39).ctx.get
    Runs (engB) 39 actW ∧ g 0 = g 3 ∧ g 1 ≠ g 2 ∧ (g 1).toInt < (g 2).toInt ∧ (g 1).toNat < (g 2).toNat ∧ ¬ (g 2).toInt < (g 1).toInt ∧
      ¬ (g 2).toNat < (g 1).toNat := by
  simp only [Runs]; decide +kernel

/-- States and operands that meet hypotheses of `Obligations.LoadsAndStoresRetire`, clause by clause. -/
theorem witness_LoadsAndStoresRetire :
    let c := ((engB).eng 39).ctx
    let ad (r : Nat) (imm : BitVec 16) := (c.get r + imm.signExtend 32).toNat
    Runs (engB) 39 actW ∧ (ad 5 0 % 8 = 0 ∧ ad 5 0 = 0x10000) ∧ (ad 8 1 % 1 = 0 ∧ ad 8 1 = 0x1DFDF) ∧ (ad 9 0 % 8 = 0 ∧ ad 9 0 < 0x1DFE0) ∧
      (ad 10 0 % 4 = 0 ∧ 0x10000000 + (engB).sramSplit ≤ ad 10 0) ∧ (ad 6 0 % 4 = 0 ∧ ad 6 0 < 0x11000000) ∧
      (⟨30, 5, 0⟩ : FormI).d.val % 2 = 0 := by
  simp only [Runs]; decide +kernel

/-- More for `Obligations.LoadsAndStoresRetire`: loads and stores that complete. -/
theorem witness_engLoad_engStore :
    let c := ((engB).eng 39).ctx
    (engB).engLoad 39 c actW 0x1DFDE 4 = .trap 4 0x1DFDE ∧ (engB).engStore 39 c 0x1DFDE [0, 0, 0, 0] = .trap 4 0x1DFDE ∧
      (engB).engLoad 39 c actW 0x10000 1 = .val (engB) [0] 2 [] ∧
      (engB).engStore 39 c 0x1DFDC [0, 0, 0, 0] = .done ((engB).putEng 39 { (engB).eng 39 with dram := mwrite [] 0xDFDC [0, 0, 0, 0] }) 2 :=
  ⟨rfl, rfl, rfl, rfl⟩

/-- States and operands that meet the hypotheses of `Obligations.EngineMapIsEnforced`, clause by clause. -/
theorem witness_EngineMapIsEnforced :
    let c := ((engB).eng 39).ctx
    c.kernel = false ∧ ({ c with kernel := true } : EngCtx).kernel = true ∧ ([0, 0] : List Byte).length = 2 ∧ 0x1DFDF % 2 ≠ 0 ∧ 0xFFFE % 2 = 0 ∧
      0x1DFE0 % 4 = 0 ∧ 0x1FFFC % 4 = 0 ∧ 0x10000000 < 0x10000000 + (engB).sramSplit ∧
      (engB {} [] [(key tThread 7, by8 [3, 1, 0, 0, 0, 0, 0x00, 0x10])]).cairnSize actW.thread = 4096 ∧ (engB).cairnSize actW.thread < 4 ∧
      ((engB).th actW.thread).cairned = false ∧ (({ engB with threads := [(7, { cairned := true })] } : Block).th 7).cairned = true := by
  decide +kernel

/-- States and operands that meet the hypotheses of `Obligations.AtomicsAndFenceRetire`, clause by clause. -/
theorem witness_AtomicsAndFenceRetire :
    let c := ((engB).eng 39).ctx
    Runs (engB) 39 actW ∧ ((c.get 10).toNat % 4 = 0 ∧ (c.get 10).toNat = 0x10000000 + (engB).sramSplit) ∧ (c.get 6).toNat = 0x10FFFFFC ∧
      (c.get 8).toNat % 4 ≠ 0 ∧ (c.get 5).toNat < 0x10000000 + (engB).sramSplit ∧ 0x11000000 ≤ (c.get 2).toNat := by
  simp only [Runs]; decide +kernel

/-- Operands of the continuity instructions: v1 a writable signal of type int16, v2 an unknown SID, v4 a receive object, v5 output stage 1,023, v6 a
plan in D-RAM, v7 a misaligned plan, v8 machine 255, v9 a lane, v10 the first transmit object, v11 a thread, v12 an int64 signal, v13 a float one. -/
def cpB (c : EngCtx := {}) (a : ActSt := actW) : Block :=
  { engB c [] [(key tThread 7, by8 [3, 1, 0, 0, 0, 0, 8, 0]), (key tSignal 0, by8 [1, 0, 0xD2, 1, 0, 0, 0, 4]),
      (key tSignal 1, by8 [2, 0, 0xD2, 6, 0, 0, 0, 4]), (key tSignal 2, by8 [3, 0, 0xD2, 4, 0, 0, 0, 4])] with
    latch := [(41, 0x12345678)]
    bankA := tbl [(key tCurve 1023, by8 [1, 0, 0, 0])]
    engs := [(39, { act := some a, inReset := false, dram := tbl [(0xDFE1, 1), (0xDFE5, 1)], ctx := { c with
      v := tbl [(1, 0xD20001), (2, 0xD2FFFF), (4, 0x820FFF), (5, 0x5003FF), (6, 0x10008), (7, 0x1000C), (8, 0x9200FF), (9, 0x900000),
        (10, 0x830000), (11, 0xB00FFF), (12, 0xD20002), (13, 0xD20003), (14, 1023), (15, 1024), (16, 0x821000), (17, 0x81FFFF)] } })] }

/-- States and operands that meet the hypotheses of `Obligations.ControlWordInstructionsRetire`, clause by clause. -/
theorem witness_ControlWordInstructionsRetire :
    Runs cpB 39 actW ∧ (⟨0, 0, 0x0020⟩ : FormI).imm.toNat % 256 = 0x20 ∧ (cpB { kernel := true }).issuer 39 = some actW ∧
      ((cpB { kernel := true }).eng 39).ctx.kernel = true ∧ (cpB.eng 39).ctx.kernel = false ∧ tget? cpB.latch (2 + 39) = some 0x12345678 ∧
      (⟨0, 1, 0x21⟩ : FormI).a ≠ 0 ∧ (⟨1, 0, 0x21⟩ : FormI).d ≠ 0 ∧ (0x03 : Nat) = 0x03 ∧ cpB.now = cpB.now := by
  simp only [Runs]; decide +kernel

/-- States and operands that meet the hypotheses of `Obligations.TrapAndEndInstructionsComplete`, clause by clause. -/
theorem witness_TrapAndEndInstructionsComplete :
    Runs (cpB { kernel := true, pc := 0xFFFC }) 39 actW ∧ ((cpB { kernel := true }).eng 39).ctx.kernel = true ∧
      u32 (mread ((cpB { kernel := true }).eng 39).dram 0xDFE0 32) 0 % 4 = 0 ∧ u32 (mread (cpB.eng 39).dram 0xDFE0 32) 0 = 0x100 ∧
      Runs cpB 39 actW ∧ (cpB.eng 39).ctx.kernel = false ∧ (⟨0⟩ : FormJ).imm = 0 ∧ (⟨1⟩ : FormJ).imm ≠ 0 := by
  simp only [Runs]; decide +kernel

/-- States and operands that meet the hypotheses of `Obligations.TrapEntrySavesAndEntersTheHandler`, clause by clause. -/
theorem witness_TrapEntrySavesAndEntersTheHandler :
    let x := { cpB.eng 39 with iram := zeroBytes 0x40 ++ by32 [0x200, 0, 0x300], ctx := { (cpB.eng 39).ctx with htable := 0x40 } }
    let b := cpB.putEng 39 x
    (b.eng 39).act = some actW ∧ actW.thread < 4096 ∧ 12 < 256 ∧ 0xFFFFFFFF < 2 ^ 32 ∧ (b.eng 39).ctx.pc < 2 ^ 32 ∧
      (b.eng 39).ctx.handler = false ∧ (b.eng 39).handlerFor 2 = 0x300 ∧ (b.eng 39).handlerFor 1 = 0x200 := by
  decide +kernel

/-- States and operands that meet hypotheses of `Obligations.SignalObjectCurveAndStagingInstructionsRetire`, clause by clause. -/
theorem witness_SignalObjectCurveAndStagingInstructionsRetire :
    let c := (cpB.eng 39).ctx
    let sid (r : Nat) := (c.get r).toNat % 0x1000000
    Runs cpB 39 actW ∧
      (cpB.isSignal (sid 1) = true ∧ cpB.ldType (sid 1) ≠ 6 ∧ (⟨4, 1, 0x0F⟩ : FormI).imm.toNat.testBit 4 = false) ∧
      ((⟨4, 12, 0x1F⟩ : FormI).imm.toNat.testBit 4 = true ∧ (4 : Fin 32).val % 2 = 0 ∧ cpB.isSignal (sid 12) = true ∧ cpB.ldType (sid 12) = 6) ∧
      cpB.isSignal (sid 2) = false ∧ (sid 4 = 0x820FFF ∧ (⟨0, 4, 0x8000⟩ : FormI).imm.toNat.testBit 15 = true) ∧ sid 16 = 0x821000 ∧
      sid 17 < 0x820000 ∧ ((c.get 14).toNat ≤ 1023 ∧ u16 (ent cpB.bank tCurve 1023) 0 ≠ 0) ∧ 1023 < (c.get 15).toNat ∧
      u16 (ent cpB.bank tCurve 0) 0 = 0 := by
  simp only [Runs]; decide +kernel

/-- More for `Obligations.SignalObjectCurveAndStagingInstructionsRetire`. -/
theorem witness_StagingInstructions :
    let c := (cpB.eng 39).ctx
    let sid (r : Nat) := (c.get r).toNat % 0x1000000
    let full : ActSt := { actW with sigs := List.replicate 64 (0, 0), outs := List.replicate 64 (0, 0, []), posts := List.replicate 32 ⟨0, 0, 0, []⟩ }
    Runs cpB 39 actW ∧ Runs (cpB {} full) 39 full ∧
      (∃ x, cpB.sigEntry (sid 1) = some x ∧ (u8 x 7).testBit 2 = true) ∧ cpB.sigType (sid 1) ∈ [1, 2, 3, 6] ∧ cpB.sigType (sid 13) ∉ [1, 2, 3, 6] ∧
      (∃ x, cpB.sigEntry (sid 13) = some x ∧ (u8 x 7).testBit 2 = true) ∧ cpB.sigEntry (sid 2) = none ∧ actW.sigs.length < 64 ∧
      64 ≤ full.sigs.length ∧ 64 ≤ full.outs.length ∧ 32 ≤ full.posts.length ∧ (sid 5 = 0x5003FF ∧ c.get 0 = 0) ∧ sid 1 > 0x500400 ∧
      (c.get 7).toNat % 8 ≠ 0 ∧ u16 (cpB.thDesc actW.thread) 6 = 8 ∧ (c.get 0 + (4 : BitVec 16).signExtend 32).toNat % 4 = 0 ∧
      (c.get 0 + (8 : BitVec 16).signExtend 32).toNat = 8 ∧ sid 8 / 0x10000 = 0x92 ∧ sid 9 / 0x10000 = 0x90 ∧ sid 10 / 0x10000 = 0x83 ∧
      sid 11 = 0xB00FFF ∧ (⟨0, 11, 4⟩ : FormI).imm.toNat % 2048 = 4 ∧ (⟨0, 11, 4⟩ : FormI).imm.toNat / 2048 = 0 ∧
      (cpB.copyFrom 39 c (c.get 6).toNat 32).isSome = true ∧ c.get 6 ≠ 0 ∧ (cpB.copyPlan 39 c (c.get 6).toNat).isSome = true := by
  refine ⟨by simp only [Runs]; decide +kernel, by simp only [Runs]; decide +kernel, ⟨_, rfl, by decide +kernel⟩, by decide +kernel, by decide +kernel,
    ⟨_, rfl, by decide +kernel⟩, ?_⟩
  decide +kernel

/-! ### Witnesses: dispatch (09), registers (02) -/

/-- Thread 4,095, priority 3, counter 2, code set 1, in a state with register `v`; a loop names it where `loop` says so. -/
def thB (v : Nat) (loop : Bool := false) (dev : Nat := dsOperational) : Block :=
  mkB dev [(Reg.dspThreadState 4095, v), (Reg.engState 39, egIdle), (Reg.engRole 39, 0x100)] ((if loop then [(key tLoop 0, by8 [0xFF, 0x0F])] else []) ++
    [(key tThread 4095, by8 [3, 1, 2, 0, 1, 0, 0, 1] ++ by32 [1000]),
     (key tCodeSet 1, zeroBytes 8 ++ by8 [1, 0] ++ zeroBytes 54 ++ by8 [0xFF, 0x0F, 0, 0, 16, 0, 4, 0])])

/-- States and operands that meet the hypotheses of `Obligations.ThreadCommandsComplete`, clause by clause. -/
theorem witness_ThreadCommandsComplete :
    let c := mt (sidThread 4095)
    (∀ v ∈ [0, 0x1001, 0x2001, 2, 3, 4, 0x100005, 0x300005, 0x100045], ThreadCmd (thB v) c 4095 ∧ (thB v).loopOf 4095 = none) ∧
      ThreadCmd (thB 5 false dsSafeStop) c 4095 ∧ (ThreadCmd (thB 1 true) c 4095 ∧ (thB 1 true).loopOf 4095 ≠ none) ∧
      (thB 0).thState 4095 = thDormant ∧ (thB 0x1001).thState 4095 = thWaiting ∧ (thB 2).thState 4095 = thReady ∧
      (({ thB 2 with now := 5 } : Block).th 4095).readyAt ≠ 5 ∧ (thB 3).thState 4095 = thRunning ∧ (thB 4).thState 4095 = thPreempted ∧
      ((thB 0x100005).thState 4095 = thSuspended ∧ (thB 0x100005).thCause 4095 ≠ 3 ∧ (thB 0x100005).bit (Reg.dspThreadState 4095) 6 = false) ∧
      ((thB 0x300005).thState 4095 = thSuspended ∧ (thB 0x300005).thCause 4095 = 3) ∧ (thB 0x100045).bit (Reg.dspThreadState 4095) 6 = true ∧
      1 < (thB 0x2001).thCounter 4095 ∧ (thB 0x1001).thCounter 4095 = 1 ∧ (thB 0x300005).thState 4095 ≤ 5 := by
  simp only [ThreadCmd]; decide +kernel

/-- States and operands that meet the hypotheses of `Obligations.DispatchStartsAnActivation`, clause by clause. -/
theorem witness_DispatchStartsAnActivation :
    (thB 2).mayDispatch = true ∧ 4095 ∈ (thB 2).offered ∧ (thB 2).egSet 39 = (thB 2).thSet 4095 ∧ (thB 2).placeFor 4095 = some 39 ∧
      ((thB 2).eng 39).act = none ∧ (∀ u ∈ (thB 2).offered, (thB 2).before u 4095 = true → (thB 2).placeFor u = none) ∧
      (thB 2).thState 4095 = thReady := by
  decide +kernel

/-- Engine 39 commits `a`, in the state `eg`. -/
def coB (eg : Nat) (a : ActSt) : Block :=
  { mkB dsOperational [(Reg.engState 39, eg), (Reg.dspThreadAct 7, 0xFFFFFFFF)] with engs := [(39, { act := some a, inReset := false })] }

/-- States and operands that meet the hypotheses of `Obligations.CommitIsWholeOrNothing`, clause by clause. -/
theorem witness_CommitIsWholeOrNothing :
    let a : ActSt := { actW with act := 0, committing := true, cairn := [(0, 1), (4, 2)] }
    ((coB egRunning a).eng 39).act = some a ∧ a.committing = true ∧ (coB egRunning a).stale 39 = false ∧
      a.act = ((coB egRunning a).rdN (Reg.dspThreadAct a.thread) + 1) % 2 ^ 32 ∧ a.outs = [] ∧ a.sigs = [] ∧ a.posts = [] ∧
      ((coB egFenced a).eng 39).act = some a ∧ (coB egFenced a).stale 39 = true ∧ (coB egFenced a).known 39 = false ∧ actW.committing = false := by
  decide +kernel

/-- States and operands that meet hypotheses of `Obligations.CommitIsWholeOrNothing`, clause by clause. -/
theorem witness_CodeSwapProceeds :
    let set := zeroBytes 8 ++ by8 [1, 0] ++ zeroBytes 54 ++ by8 [0xFF, 0x0F, 0, 0, 16, 0, 3, 0]
    let im : ImageTables := { fixed := [(key tCodeSet 1, set)] }
    let b : Block := { thB 1 with regs := rg [(Reg.sysState, dsOperational), (Reg.imgStage, 2)], boot := { por := false, staged := some im } }
    let c := mt (sidThread 4095) (by8 [1])
    (authCheck c roleMaintainer = none ∧ devCheck b [dsAwaitWorld, dsOperational, dsSafeStop] = none ∧ envCheck c = none ∧ u8 (cArg c) 0 < 2 ∧
        cObj c = sidThread 4095 ∧ b.thUsed 4095 = true ∧ slotOf (b.codeSet (b.thSet 4095)) 4095 = some (16, 4) ∧ b.stageReady = true ∧
        b.stagedSlot 4095 = some (set, (16, 3)) ∧ b.cont.swapOp = none) ∧
      (let b2 : Block := { b with cont := { swapOp := some (opOf c 0x0801), swapThread := 4095, swapEngines := [39] } }
       b2.cont.swapOp ≠ none ∧ 39 ∈ b2.cont.swapEngines ∧ ¬((b2.thState 4095 = thRunning ∨ b2.thState 4095 = thPreempted) ∧ b2.thEngine 4095 = 39) ∧
         slotOf (b2.codeSet (b2.thSet b2.cont.swapThread)) b2.cont.swapThread = some (16, 4)) := by
  decide +kernel

/-! Registers: a row of each access code, an undefined offset, a locked block, an engine in kernel mode. -/

/-- States and operands that meet the hypotheses of `Obligations.RegisterWritesFollowTheirAccessCode`, clause by clause. -/
theorem witness_RegisterWritesFollowTheirAccessCode :
    let k := engB { kernel := true }
    (∃ r, Reaches (mkB dsOperational) .host Reg.tbLimits r false ∧ r.wide = false ∧ (mkB dsOperational).writeOp .host Reg.tbLimits 5 = none ∧ r.acc = .rwl) ∧
      (∃ r, Reaches (mkB dsOperational) .host Reg.sysPanelFlags r false ∧ r.wide = false ∧
        (mkB dsOperational).writeOp .host Reg.sysPanelFlags 5 = none ∧ r.acc = .w1c) ∧
      (∃ r, Reaches (mkB dsOperational) .mgmt 0xFFFF0 r false ∧ r.wide = false ∧ (mkB dsOperational).writeOp .mgmt 0xFFFF0 1 = none ∧ r.acc = .w1s) ∧
      (∃ r, Reaches k (.engine 39) (Reg.prfEngCfg 39 7) r false ∧ r.wide = false) := by
  simp only [Reaches]
  refine ⟨⟨_, ⟨rfl, ?_⟩, ?_⟩, ⟨_, ⟨rfl, ?_⟩, ?_⟩, ⟨_, ⟨rfl, ?_⟩, ?_⟩, ⟨_, ⟨rfl, ?_⟩, ?_⟩⟩ <;> decide +kernel

/-- States and operands that meet hypotheses of `Obligations.RegisterWritesFollowTheirAccessCode`, clause by clause. -/
theorem witness_RefusedAccessesAreCountedOrTrap :
    (∃ r, regAt Reg.sysId = some (r, false) ∧ (mkB dsOperational).memWindow Reg.sysId = none ∧ r.allows .host = false) ∧
      (∃ r, regAt Reg.tbLimits = some (r, false) ∧ r.acc = .rwl ∧ (mkB dsOperational [(0xBFFFF0, 1)]).lockedAt Reg.tbLimits = true) ∧
      ((engB).issuer 39).isSome = true ∧ regAt 0x000FFFF4 = none ∧ (engB).memWindow 0x000FFFF4 = none ∧ regAt 0x03FFFFFC = none ∧
      (engB).memWindow 0x03FFFFFC = none ∧ (engB).silent 0x000FFFF4 = false ∧ iniCounts .host = true ∧ iniCounts .mgmt = true := by
  refine ⟨⟨_, rfl, ?_⟩, ⟨_, rfl, ?_⟩, ?_⟩ <;> decide +kernel

/-- States and operands that meet the hypotheses of `Obligations.WideAccessesStageAndLatch`, clause by clause. -/
theorem witness_WideAccessesStageAndLatch :
    let k := engB { kernel := true }
    let e : Block := { k with out := { k.out with regs := rg [(Reg.adminCtrl, 1)] } }
    (∃ r, Reaches k (.engine 39) (Reg.prfEngCtr 39 7 + 4) r true ∧ r.wide = true) ∧ k.bit Reg.adminCtrl 0 = false ∧ e.bit Reg.adminCtrl 0 = true ∧
      (∃ r, ReadReaches k (.engine 39) Reg.tbTime r false ∧ r.wide = true) ∧ (∃ r, ReadReaches k .island Reg.tbTime r false ∧ r.wide = true) ∧
      (∃ r, ReadReaches k .host Reg.clkTempMax r false ∧ r.wide = false ∧ r.acc = .rc) ∧ ¬(0x1010000 ≤ Reg.clkTempMax ∧ Reg.clkTempMax < 0x1030000) := by
  simp only [Reaches, ReadReaches]
  refine ⟨⟨_, ⟨rfl, ?_⟩, ?_⟩, ?_, ?_, ⟨_, ⟨rfl, ?_⟩, ?_⟩, ⟨_, ⟨rfl, ?_⟩, ?_⟩, ⟨_, ⟨rfl, ?_⟩, ?_⟩, ?_⟩ <;> decide +kernel

/-! ### Witnesses: time (12), start (03) -/

/-- States and operands that meet the hypotheses of `Obligations.EmptyQueueTicksTheTimebase`, clause by clause. -/
theorem witness_EmptyQueueTicksTheTimebase :
    (st (mkB dsOperational)).pending = [] ∧ (mkB dsOperational).started = true ∧ State.reset.pending = [] ∧ State.reset.b.started = false := by
  decide +kernel

/-- Source `src` selected, the timebase at `now`, an engine in kernel mode. -/
def tbB (src now : Nat) (stg : Nat := 62500) : Block :=
  { engB { kernel := true } [(Reg.tbState, 256 * src)] with now := now, staging := [(stageKey (.engine 39) Reg.tbSample, BitVec.ofNat 32 stg)] }

/-- States and operands that meet the hypotheses of `Obligations.ServoTakesSamples`, clause by clause. -/
theorem witness_ServoTakesSamples :
    (∃ r, Reaches (tbB 1 0) (.engine 39) Reg.tbSample r false ∧ r.wide = true) ∧ (tbB 1 0).tbSource = 1 ∧
      ((tget? (tbB 1 0 16000000).staging (stageKey (.engine 39) Reg.tbSample)).getD 0).toNat = 16000000 ∧
      ((tget? (tbB 1 0 0).staging (stageKey (.engine 39) Reg.tbSample)).getD 1).toNat = 0 ∧ (tbB 2 0).tbSource ≠ 1 ∧
      (tbB 2 1499999999).tbSource = 2 ∧ (tbB 2 1499999999).now % 1000000000 = 499999999 ∧ 500000000 < (tbB 2 1500000001).now % 1000000000 ∧
      (tbB 1 0).tbSource ≠ 2 ∧ (1000000 : Int).natAbs ≤ 1000 * (tbB 1 0).rdN Reg.tbStepUs ∧ (tbB 1 0).fld Reg.tbLimits 0 16 ≤ 2000 ∧
      10 * (tbB 1 0).fld Reg.tbLockCfg 12 12 < (1000000 : Int).natAbs ∧ 1000 * (tbB 1 0).rdN Reg.tbStepUs < (1000001 : Int).natAbs ∧
      (tbB 1 0).stepAllowed = true := by
  simp only [Reaches]
  refine ⟨⟨_, ⟨rfl, ?_⟩, ?_⟩, ?_⟩ <;> decide +kernel

/-- States and operands that meet hypotheses of `Obligations.TimeEventsAndCommandsComplete`, clause by clause. -/
theorem witness_TimeEventsAndCommandsComplete :
    let full : List TxStamp := List.replicate 64 { time := 0, kind := 0, seqId := 0, lost := false }
    let m : TimeSt := { slewEnd := some 1000000000, touts := [(7, { next := some 999999999 })], tinAt := [(7, 999999984)], txts := [(1, full)] }
    let b : Block := { tbB 1 1000000000 with tim := m }
    let q := b.setTb tbLocked
    b.tim.slewEnd = some 1000000000 ∧ q.tbSt = tbLocked ∧ q.tim.last + 1000000 * q.rdN Reg.tbHoldoverMs ≤ q.now ∧ (tget [] b.tim.txts 0).length < 64 ∧
      64 ≤ (tget [] b.tim.txts 1).length ∧ b.bit (Reg.tbPortCtrl 1) 2 = false ∧
      (∃ r, Reaches b (.engine 39) (Reg.tbPortTxtsPop 1) r false ∧ r.wide = false) ∧ (b.tout 7).next = some 999999999 ∧ (b.tout 7).level = false ∧
      ((b.wrN (Reg.tbTinCtrl 7) 3).fld (Reg.tbTinCtrl 7) 0 2).testBit 1 = true ∧ tget? b.tim.tinAt 7 = some (b.now - 16) ∧
      tget? b.tim.tinAt 6 = none ∧ ¬(4 = 1 ∨ 4 = 2 ∨ (4 = 3 ∧ b.bit (Reg.tbPortCtrl 1) 2 = false)) := by
  simp only [Reaches]
  refine ⟨?_, ?_, ?_, ?_, ?_, ?_, ⟨_, ⟨rfl, ?_⟩, ?_⟩, ?_⟩ <;> decide +kernel

/-- More for `Obligations.TimeEventsAndCommandsComplete`. -/
theorem witness_TimebaseCommands :
    let z (n : Nat) := zeroBytes n
    let b := mkB dsOperational
    (Sent b (mt 0 (by8 [2])) roleMaintainer devLive ∧ u8 (cArg (mt 0 (by8 [2]))) 0 ≤ 2) ∧
      (Sent b (mt 0 (z 8)) roleMaintainer devLive ∧ u64 (cArg (mt 0 (z 8))) 0 % 4 = 0 ∧ b.tbSource = 0 ∧ b.stepAllowed = true ∧
        (mkB dsOperational [(Reg.seqLaneState 15, lsHeld)]).stepAllowed = false ∧
        Sent (mkB dsOperational [(Reg.seqLaneState 15, lsHeld)]) (mt 0 (z 8)) roleMaintainer devLive) ∧
      (let c := mt 0 (leBytes 8 1000000000)
       Sent b c roleOperator devLive ∧ cObj c = 0 ∧ toSigned 64 (u64 (cArg c) 0) = 1000000000 ∧ b.fld Reg.tbLimits 0 16 ≠ 0) ∧
      (let c := mt (sidTout 7) (by8 [1, 2] ++ z 6 ++ leBytes 8 1999 ++ leBytes 4 8 ++ leBytes 4 7)
       Sent b c roleOperator devLive ∧ cObj c = sidTout 7 ∧ u8 (cArg c) 0 = 1 ∧ u8 (cArg c) 1 = 2 ∧ u32 (cArg c) 16 = 8 ∧ u32 (cArg c) 20 < 8 ∧
         u64 (cArg c) 8 < b.now + 2000) ∧
      (let c := mt (sidTout 0) (by8 [1, 1] ++ z 6 ++ leBytes 8 2000 ++ leBytes 4 8 ++ leBytes 4 7)
       Sent b c roleOperator devLive ∧ u8 (cArg c) 0 = 1 ∧ u8 (cArg c) 1 ≠ 2 ∧ b.now + 2000 ≤ u64 (cArg c) 8 ∧ u64 (cArg c) 8 < (tbB 1 1).now + 2000) ∧
      (Sent b (mt (sidTin 7) (by8 [3])) roleOperator devLive ∧ u8 (cArg (mt (sidTin 7) (by8 [3]))) 0 ≤ 3) := by
  simp only [Sent]; decide +kernel

/-- A controller at a point of the cold start. -/
def bootB (dev t : Nat) (boot : Boot := {}) : Block :=
  { mkB dev with boot := { boot with por := false, milestone := t } }

/-- States and operands that meet the hypotheses of `Obligations.ResetsReturnTheControllerToItsResetState`, clause by clause. -/
theorem witness_ResetsReturnTheControllerToItsResetState :
    (99 < 100 ∧ 1000 ≤ 1000) ∧ (bootB dsOperational 10).boot.op = none ∧
      (bootB dsOperational 10 { restartBy := some 2 }).boot.restartBy = some 2 ∧ (bootB dsOperational 10).mgmt.refRestored = none ∧
      (bootB dsOperational 10).boot.restartBy = none ∧ State.reset.b.boot.por = true ∧
      (bootB dsBoot 0 { waitRefclk := true }).boot.waitRefclk = true ∧ (bootB dsBoot 0 { waitRefclk := true }).boot.por = false ∧
      isOut Reg.sysId = false ∧ Reg.sysId ∉ [Reg.clkRefclkLosses, Reg.clkSupplyState, Reg.clkFlags, Reg.clkState] ∧
      Reg.sysId / 0x20 ≠ Reg.dioIn 0 / 0x20 := by
  decide +kernel

/-- States and operands that meet the hypotheses of `Obligations.ColdStartPassesItsPoints`, clause by clause. -/
theorem witness_ColdStartPassesItsPoints :
    let i := dsImageCheck
    (bootB dsBoot 0).atPoint dsBoot 0 = true ∧ (bootB dsBoot 1).atPoint dsBoot 1 = true ∧ (bootB i 2).checkingAt 2 = true ∧
      (bootB i 3 { checking := 1 }).checkingAt 3 = true ∧ (bootB i 5).checkingAt 5 = true ∧ (bootB i 6).checkingAt 6 = true ∧
      (bootB i 7).checkingAt 7 = true ∧ (bootB i 9).checkingAt 9 = true ∧
      (bootB i 2 { checking := 1 }).boot.checking < 2 ∧ rsMismatch < 256 ∧ (bootB i 2).boot.other = false ∧
      (bootB i 2 { other := true, firstReason := rsNoKey }).boot.other = true ∧
      (bootB i 2 { other := true, firstReason := rsNoKey }).boot.firstReason = rsNoKey ∧
      ¬((bootB i 2 { other := true }).boot.firstReason = rsNoKey ∧ rsNoKey = rsNoKey) := by
  decide +kernel

/-- Whether a signature verifies is `Config.ecdsaVerify`, which has no value: a slot whose signature block ends in 32 zeros passes where it says
so, and one with another end fails whatever it says. -/
theorem witness_signature :
    (∀ _h : Config.ecdsaVerify (hdPubkey ((bootB dsImageCheck 5).slotHeader 0))
        (Config.sha384 ((bootB dsImageCheck 5).slotBytes 0 0 (hdLen ((bootB dsImageCheck 5).slotHeader 0))))
        (((bootB dsImageCheck 5).slotBytes 0 (hdLen ((bootB dsImageCheck 5).slotHeader 0)) 128).take 96) = true,
      (bootB dsImageCheck 5).signatureReason 0 = 0) ∧
    (bootB dsImageCheck 5 { nvm := [(slotBase 0 + 100, 1)] }).signatureReason 0 ≠ 0 := by
  constructor
  · intro h
    have z : zeros ((bootB dsImageCheck 5).slotBytes 0 (hdLen ((bootB dsImageCheck 5).slotHeader 0)) 128) 96 32 = true := by decide +kernel
    unfold Block.signatureReason
    simp only [z, h]; rfl
  · have z : zeros ((bootB dsImageCheck 5 { nvm := [(slotBase 0 + 100, 1)] }).slotBytes 0
        (hdLen ((bootB dsImageCheck 5 { nvm := [(slotBase 0 + 100, 1)] }).slotHeader 0)) 128) 96 32 = false := by decide +kernel
    unfold Block.signatureReason
    simp only [z]; decide

/-- States and operands that meet the hypotheses of `Obligations.SystemCommandsAndPanelComplete`, clause by clause. -/
theorem witness_SystemCommandsAndPanelComplete :
    let f := mt 0 (by8 [1])
    let n := mt 0 (by8 [0])
    let lane (d v : Nat) := mkB d [(Reg.seqLaneState 15, v)]
    let p (d v : Nat) (low : Nat) (l : Bool) : Block := { mkB d [(Reg.sysPanel, v)] with elapsed := 10000000000, boot := { por := false, panelLow := low, panelLong := l } }
    (Sent (lane dsOperational lsRunning) f roleOperator devAll ∧ (u8 (cArg f) 0).testBit 0 = true ∧ (lane dsOperational lsRunning).lanesIn [lsRunning, lsHeld] = true ∧
        (u8 (cArg n) 0).testBit 0 = false ∧ Sent (lane dsFailed 0) n roleOperator devAll ∧ (lane dsFailed 0).lanesIn [lsRunning, lsHeld] = false) ∧
      (Sent (mkB dsRestart) (mt) roleOperator [dsOperational, dsRestart] ∧ Sent (mkB dsOperational) (mt) roleOperator [dsOperational, dsRestart]) ∧
      (Sent (lane dsSafeStop lsSafe) (mt) roleOperator [dsSafeStop] ∧ (lane dsSafeStop lsSafe).lanesIn [lsAborting, lsRunning, lsHeld] = false ∧
        (lane dsSafeStop lsAborting).lanesIn [lsAborting, lsRunning, lsHeld] = true ∧ Sent (lane dsSafeStop lsAborting) (mt) roleOperator [dsSafeStop]) ∧
      (let b := p dsOperational 0 0 false
       b.boot.por = false ∧ b.bit Reg.sysPanel 0 = false ∧ b.bit Reg.sysPanel 1 = false) ∧
      (∀ d ∈ [dsBoot, dsAwaitWorld, dsOperational, dsRestart, dsSafeStop],
        (p d 1 8000000000 false).pressed = true ∧ (p d 1 8000000000 false).boot.panelLong = false ∧
          (p d 1 8000000000 false).boot.panelLow + 2000000000 = (p d 1 8000000000 false).elapsed) ∧
      (p dsBoot 1 0 false).panelIgnored = true ∧ (p dsOperational 1 0 false).panelIgnored = false ∧ (p dsOperational 1 0 false).dev ≠ dsRestart ∧
      ((p dsOperational 1 0 true).pressed = true ∧ (p dsOperational 1 0 true).boot.panelLow + 10000000000 = (p dsOperational 1 0 true).elapsed) ∧
      (p dsOperational 3 0 true).bit Reg.sysPanel 1 = true := by
  simp only [Sent]; decide +kernel

/-! ### Witnesses: clocks and supplies (22), counters (21), image (03) -/

/-- States and operands that meet hypotheses of `Obligations.ClockSupplyAndThermalEventsComplete`, clause by clause. -/
theorem witness_ClockSupplyAndThermalEventsComplete :
    let lost : Block := { mkB dsOperational with refclk := false }
    let r : Block := { mkB dsOperational [(Reg.clkState, 30)] with mgmt := { refRestored := some 7 } }
    let p : Block := { mkB dsOperational with boot := { por := true } }
    let m : Mgmt := { thermalHold := true }
    let h : Block := { mkB dsBoot with mgmt := m }
    (mkB dsBoot).refPresent = true ∧ (mkB dsBoot).dev = dsBoot ∧ r.refPresent = true ∧ lost.refPresent = false ∧ p.refPresent = false ∧
      (lost.refclk = false ∧ lost.boot.por = false ∧ lost.boot.waitRefclk = false ∧ lost.mgmt.refRestored = none) ∧
      (r.bit Reg.clkState 1 = true ∧ r.bit Reg.clkState 4 = true ∧ (mkB dsOperational).bit Reg.clkState 4 = false) ∧ (mkB dsOperational).started = true ∧
      (mkB dsOperational).boot.por = false ∧ (mkB dsOperational).railOk 3 1 = false ∧ (mkB dsOperational).bit Reg.clkSupplyState 3 = false ∧
      (mkB dsOperational [(Reg.clkSupplyState, 8)]).bit Reg.clkSupplyState 3 = true ∧
      (∃ row, Reaches (mkB dsOperational) .host Reg.clkTempCfg row false ∧ row.wide = false) ∧
      (field (0x785F01 : Nat) 16 8 = 120 ∧ field (0x785F01 : Nat) 8 8 = 95 ∧ field (0x785F01 : Nat) 0 4 = 1) ∧ field (0x635F01 : Nat) 16 8 = 99 ∧
      ((mkB dsOperational).mgmt.thermalHold = false ∧ ([1119] : List Int) ≠ [] ∧ (∀ t ∈ ([1119] : List Int), t < 1120) ∧ ∃ t ∈ ([1120] : List Int), 1120 ≤ t) ∧
      (h.mgmt.thermalHold = true ∧ h.boot.por = false ∧ (∀ t ∈ ([959] : List Int), t < 960) ∧ ∃ t ∈ ([960] : List Int), 960 ≤ t) := by
  simp only [Reaches]
  refine ⟨?_, ?_, ?_, ?_, ?_, ?_, ?_, ?_, ?_, ?_, ?_, ?_, ⟨_, ⟨rfl, ?_⟩, ?_⟩, ?_, ?_, ⟨?_, ?_, ?_, 1120, ?_, ?_⟩, ⟨?_, ?_, ?_, 960, ?_, ?_⟩⟩ <;> decide +kernel

/-- States and operands that meet the hypotheses of `Obligations.PerformanceCountersWrap`, clause by clause. -/
theorem witness_PerformanceCountersWrap :
    let top := [(Reg.prfEngCtr 39 7, 0xFFFFFFFF), (Reg.prfEngCtr 39 7 + 4, 0xFFFF)]
    let k := engB { kernel := true } top
    let p := engB { kernel := true } ((Reg.prfEngCfg 39 7, 0x20000000) :: top)
    k.rd64 (Reg.prfEngCtr 39 7) = 2 ^ 48 - 1 ∧ (k.prfOne 39 7 1).2 = none ∧ p.rd64 (Reg.prfEngCtr 39 7) = 2 ^ 48 - 1 ∧ (p.prfOne 39 7 1).2 = some 0 ∧
      k.rd64 (Reg.prfEngCtr 0 0) ≠ 2 ^ 48 - 1 ∧ 2 ^ 48 - 1 < 2 ^ 48 ∧ 2 ^ 48 ≤ (2 ^ 48 - 1) + 1 ∧ (2 ^ 48 - 1) + 1 < 2 ^ 48 + (2 ^ 48 - (2 ^ 48 - 1) % 2 ^ 48) ∧
      (∃ row, Reaches k (.engine 39) (Reg.prfEngCtr 39 7) row false ∧ row.wide = true) ∧
      ∃ row, Reaches k (.engine 39) (Reg.prfBlkCtr 31) row false ∧ row.wide = true := by
  simp only [Reaches]
  refine ⟨?_, ?_, ?_, ?_, ?_, ?_, ?_, ?_, ⟨_, ⟨rfl, ?_⟩, ?_⟩, ⟨_, ⟨rfl, ?_⟩, ?_⟩⟩ <;> decide +kernel

/-- A command with an argument block. -/
def mx (args : List Byte) : Cmd :=
  { issuer := .mgmt 3, flags := 1, args := zeroBytes 48, extData := args, arglen := BitVec.ofNat 16 args.length }
/-- A controller with an operation of the NVM in progress. -/
def opB (dev : Nat) (o : Option NvmOp) (regs : List (Nat × Nat) := []) : Block :=
  { mkB dev regs with boot := { por := false, milestone := 10, op := o } }

/-- States and operands that meet hypotheses of `Obligations.SlotsSelectionAndFusesComplete`, clause by clause. -/
theorem witness_SlotsSelectionAndFusesComplete :
    let c := mx (by8 [1, 0, 0, 0] ++ leBytes 4 0x3FFFFFF ++ leBytes 4 1 ++ by8 [9])
    let d := mt 0 (by8 [1])
    let o (k : Nat) : Option NvmOp := some { kind := k, slot := 1, op := opOf d 0x0201 }
    (Sent (opB dsFailed none) c roleMaintainer devAll ∧ cObj c = 0 ∧ cExt c = true ∧ u8 (cArg c) 0 = 1 ∧ u32 (cArg c) 8 = ((cArg c).drop 12).length ∧
        u32 (cArg c) 4 + u32 (cArg c) 8 = slotSize ∧ (opB dsFailed none).runningSlot ≠ some 1 ∧ (opB dsFailed none).boot.op = none) ∧
      ((opB dsOperational none [(Reg.imgRunning, 3)]).runningSlot = some 1 ∧ Sent (opB dsOperational none [(Reg.imgRunning, 3)]) c roleMaintainer devAll) ∧
      ((opB dsOperational (o 1)).boot.op ≠ none ∧ Sent (opB dsOperational (o 1)) c roleMaintainer devAll ∧ (opB dsOperational (o 1)).boot.op = o 1) ∧
      (Sent (opB dsFailed none) d roleObserver devAll ∧ Sent (opB dsFailed (o 2)) d roleObserver devAll ∧ cObj d = 0 ∧ u8 (cArg d) 0 ≤ 1) ∧
      (Sent (opB dsAwaitWorld none) d roleMaintainer [dsAwaitWorld, dsOperational, dsSafeStop] ∧
        Sent (opB dsSafeStop (o 3)) d roleMaintainer [dsAwaitWorld, dsOperational, dsSafeStop]) ∧
      (((opB dsOperational (o 2)).putOp none).checkSlot {} 1 false {}).2 ≠ 0 := by
  simp only [Sent]; decide +kernel

/-- A slot that passes all checks: whether one does lies in `Config.sha384` and `Config.ecdsaVerify`, which have no value; the reason is 0 where
they say so. -/
theorem witness_checkSlot (b : Block) (f : Fuses) (n : Nat) (im : ImageTables) (h : b.slotReason f n true im = 0) : (b.checkSlot f n true im).2 = 0 := by
  simp [Block.checkSlot, h, rsNvm]

/-- More for `Obligations.SlotsSelectionAndFusesComplete`. -/
theorem witness_SelectionAndFuses :
    let d := mt 0 (by8 [1])
    let r (n : Nat) := mt 0 (by8 [n])
    let b := opB dsOperational none [(Reg.imgRunning, 64 * 256), (Reg.imgSlotStatus 1, 0x1000000)]
    let i : Block := { mkB dsImageCheck with regs := rg [(Reg.sysState, dsImageCheck + 256 * rsNoKey)] }
    let t : Block := { b with boot := { por := false, sel1 := { ok := true, trial := true, slot := 1 } } }
    (Sent b d roleMaintainer devAll ∧ b.verified 1 = true ∧ b.boot.op = none ∧ b.verified 0 = false ∧ Sent b (r 0) roleMaintainer devAll) ∧
      (Sent t (mt) roleMaintainer devRun ∧ t.selNow.1.trial = true ∧ Sent b (mt) roleMaintainer devRun ∧ b.selNow.1.trial = false) ∧
      (authCheck (r 64) roleMaintainer true = none ∧ devCheck b devRun = none ∧ envCheck (r 64) = none ∧ cObj (r 64) = 0 ∧
        ({ rollback := 63 } : Fuses).rollback ≤ u8 (cArg (r 64)) 0 ∧ u8 (cArg (r 64)) 0 ≤ b.fld Reg.imgRunning 8 8 ∧ u8 (cArg (r 64)) 0 ≤ 64) ∧
      u8 (cArg (r 62)) 0 < ({ rollback := 63 } : Fuses).rollback ∧ b.fld Reg.imgRunning 8 8 < u8 (cArg (r 65)) 0 ∧
      (Sent i (mt 0 (zeroBytes 48)) roleMaintainer [dsImageCheck] ∧ i.fld Reg.sysState 8 8 = rsNoKey ∧ State.reset.fuses.keyHash = []) ∧
      (mkB dsImageCheck).fld Reg.sysState 8 8 ≠ rsNoKey ∧ Sent (mkB dsImageCheck) (mt 0 (zeroBytes 48)) roleMaintainer [dsImageCheck] := by
  simp only [Sent]; decide +kernel

theorem w32_leBytes (x : Word) : w32 (leBytes 4 x.toNat) 0 = x := by
  have h := x.isLt
  apply BitVec.eq_of_toNat_eq
  simp [w32, u32, u16, u8, leBytes]
  omega

/-- The CRC of a bank has no value; a command that carries it, and one that carries another. -/
theorem witness_bankCrc (t : Tab (List Byte)) :
    let x := Config.bankCrc t
    Config.bankCrc t = w32 (leBytes 4 x.toNat) 0 ∧ Config.bankCrc t ≠ w32 (leBytes 4 (x + 1).toNat) 0 := by
  intro x
  rw [w32_leBytes, w32_leBytes]
  refine ⟨rfl, fun h => ?_⟩
  have h1 : x.toNat = (x + 1).toNat := congrArg BitVec.toNat h
  have := x.isLt
  simp [BitVec.toNat_add] at h1
  omega

/-- States and operands that meet the hypotheses of `Obligations.TableBanksOpenCloseAndSwap`, clause by clause. -/
theorem witness_TableBanksOpenCloseAndSwap :
    let bk (v : Nat) (e : List (Nat × Nat) := []) := mkB dsAwaitWorld ((Reg.imgBank, 4 * v) :: e)
    let w (i : Nat) (e : List Byte) := mx (leBytes 2 tCurve ++ zeroBytes 2 ++ leBytes 4 i ++ e)
    let ok := zeroBytes 16
    let o : ServiceOp := opOf (mt) 0x0209
    let p : Block := { bk bkPending with boot := { por := false, swapOp := some o, swapLate := true }, now := 4 }
    let l : Block := { bk bkPending [(Reg.seqLaneState 15, lsLoaded)] with boot := { por := false, swapOp := some o } }
    (∀ v ∈ [bkOpen, bkClosed, bkPending], Sent (bk v) (mt) roleOperator devRun ∧ (bk v).bankState = v) ∧
      (Sent (bk bkOpen) (w 1023 ok) roleOperator devRun ∧ cExt (w 1023 ok) = true ∧ u16 (cArg (w 1023 ok)) 0 = tCurve ∧
        tableSize tCurve = some (16, 1024) ∧ (cArg (w 1023 ok)).drop 8 = ok ∧ bankEntries tCurve 1023 16 ok = [ok] ∧ entryOk tCurve 1023 ok = true) ∧
      (u32 (cArg (w 1024 ok)) 4 = 1024 ∧ 1024 < 1024 + (bankEntries tCurve 1024 16 ok).length) ∧
      entryOk tCurve 0 (zeroBytes 2 ++ by8 [9] ++ zeroBytes 13) = false ∧ tablesRelOk (bk bkOpen).idleBank = true ∧ consRelOk (bk bkOpen).idleBank = true ∧
      consRelOk (tbl [(key tLgrHead 0, by8 [1, 0, 0, 0]), (key tCons 0, zeroBytes 16)]) = false ∧
      ((bk bkClosed).recipeAbsent = false ∧ (bk bkClosed [(Reg.seqLaneState 15, lsLoaded)]).recipeAbsent = true) ∧
      (p.boot.swapOp = some o ∧ p.bankState = bkPending ∧ p.rd64 Reg.imgSwapAt ≤ p.now ∧ (p.boot.swapLate = true → p.boot.swapAccepted < p.now) ∧
        p.recipeAbsent = false) ∧
      (l.boot.swapOp = some o ∧ l.bankState = bkPending ∧ l.rd64 Reg.imgSwapAt ≤ l.now ∧ l.recipeAbsent = true) := by
  simp only [Sent]; decide +kernel

/-! ### Witnesses: the world (04), lanes (05) -/

/-- Service engine E36 idle. -/
def svcOn : Nat × Nat := (Reg.engState 36, egIdle)
/-- A declaration without entries of generation 1: sound, and refused for another generation. -/
def emptyWorld : List Byte := (mkB dsOperational [(Reg.wldGeneration, 1)]).worldDoc

/-- States and operands that meet the hypotheses of `Obligations.DeclarationsAreCheckedAndApplied`, clause by clause. -/
theorem witness_DeclarationsAreCheckedAndApplied :
    let c := mx emptyWorld
    let o := opOf c 0x0301 emptyWorld
    let b (d : Nat) (g : Nat) : Block := { mkB d [svcOn, (Reg.wldGeneration, g)] with world := { checking := some o } }
    let h : Cmd := ho 15 (zeroBytes 8 ++ leBytes 4 64)
    let g : Cmd := ho 0 (zeroBytes 8 ++ leBytes 4 63)
    (Sent (mkB dsAwaitWorld) c roleOperator devLive ∧ cObj c = 0 ∧ cExt c = true ∧ (mkB dsAwaitWorld).world.checking = none ∧
        (b dsAwaitWorld 0).world.checking ≠ none ∧ Sent (b dsAwaitWorld 0) c roleOperator devLive ∧ Sent (mkB dsRestart) (mt) roleOperator devLive ∧ cExt (mt) = false) ∧
      ((b dsAwaitWorld 0).world.checking = some o ∧ (b dsAwaitWorld 0).serviceUp = true ∧
        ((b dsAwaitWorld 0).checkWorld o.data).filter (fun e => u8 e 3 == 1) = [] ∧
        (((b dsAwaitWorld 1).checkWorld o.data).filter fun e => u8 e 3 == 1) = [failure 0 6 0 1]) ∧
      ((mkB dsRestart).serviceUp = false ∧ (mkB dsAwaitWorld).world.checking = none) ∧
      (devCheck (mkB dsOperational) devLive = none ∧ devCheck (mkB dsOperational) devWorld = none ∧ envCheck h = none ∧ cObj h = 0 ∧ envCheck g = none) ∧
      ((mkB dsOperational).worldDoc.length = u32 (cArg h) 8 ∧ u32 (cArg g) 8 < (mkB dsOperational).worldDoc.length) ∧
      (authCheck (mt) roleObserver = none ∧ (mkB dsAwaitWorld).dev = dsAwaitWorld ∧ (mkB dsAwaitWorld).refclk = true) := by
  simp only [Sent]; decide +kernel

/-- Node 255 of bus 7 in state `v`, its spare 254 in state `w`. -/
def ndB (v w : Nat) (now : Nat) (auto : Bool := true) : Block :=
  { mkB dsOperational [(Reg.wldNode 7 255, v), (Reg.wldNode 7 254, w)] [(key tNode 2047, by8 [1, 0, 10, 0]), (key tNode 2046, by8 [1, 0, 10, 0]),
      (key tRxo 4095, by8 [7, 1, 255])] with
    now := now, world := { nodes := [(2046, { standsFor := sidNode 7 255, auto := auto })] } }

/-- States and operands that meet the hypotheses of `Obligations.NodesDieAreReplacedAndRestored`, clause by clause. -/
theorem witness_NodesDieAreReplacedAndRestored :
    let c := mt (sidNode 7 255) (leBytes 3 (sidNode 7 254))
    ((ndB ndPresent ndSpare 10000000).nodeState 7 255 = ndPresent ∧ (ndB ndPresent ndSpare 10000000).hasHeartbeat 7 255 = true ∧
        ((ndB ndPresent ndSpare 10000000).node 7 255).heard + (ndB ndPresent ndSpare 10000000).nodeTimeout 7 255 = 10000000 ∧
        ((ndB ndPresent ndSpare 10000000).setNode 7 255 ndDead).spareOf 7 255 = some 254 ∧
        ((ndB ndPresent ndSpare 10000000).setNode 7 255 ndDead).nodeState 7 254 = ndSpare ∧
        (((ndB ndPresent ndSpare 10000000).setNode 7 255 ndDead).node 7 254).auto = true) ∧
      ({ ndB ndDeclared ndSpare 10000000 with world := {} } : Block).spareOf 7 255 = none ∧
      (ndB ndPresent ndSpare 9999999).now < ((ndB ndPresent ndSpare 9999999).node 7 255).heard + (ndB ndPresent ndSpare 9999999).nodeTimeout 7 255 ∧
      (Sent (ndB ndDead ndSpare 0) c roleOperator devWorld ∧ isNodeSid (cObj c) = true ∧ nodeBus (cObj c) = 7 ∧ nodeNum (cObj c) = 255 ∧
        u24 (cArg c) 0 = sidNode 7 254 ∧ (ndB ndDead ndSpare 0).nodeDefined 7 255 = true ∧ isNodeSid (sidNode 7 254) = true ∧
        (ndB ndDead ndSpare 0).nodeDefined 7 254 = true ∧ (ndB ndDead ndSpare 0).nodeState 7 255 = ndDead ∧
        (ndB ndDead ndSpare 0).nodeState 7 254 = ndSpare ∧ ((ndB ndDead ndSpare 0).node 7 254).standsFor = cObj c) ∧
      (Sent (ndB ndRetired ndPresent 0) c roleOperator devWorld ∧ (ndB ndRetired ndPresent 0).nodeState 7 255 = ndRetired ∧
        (ndB ndRetired ndPresent 0).nodeDefined 7 255 = true ∧ (ndB ndDead ndSpare 0).nodeState 7 255 ≠ ndRetired) ∧
      (7 < 8 ∧ 255 < 256 ∧ 254 < 256 ∧ 255 ≠ 254) := by
  simp only [Sent]; decide +kernel

/-- A step entry: duration, flags, end kind, timeout, tolerance. -/
def stepE (dur flags kind tmo tol : Nat) : List Byte :=
  leBytes 4 dur ++ zeroBytes 6 ++ by8 [flags, 0, kind, 0, 0, 0] ++ zeroBytes 12 ++ leBytes 4 tmo ++ leBytes 2 tol ++ by8 [0xFF] ++ zeroBytes 29
/-- Lane 15 in state `v` with its step 1 of 3, and what no register shows. -/
def lnB (v : Nat) (x : LaneSt := {}) (now : Nat := 1000000) (regs : List (Nat × Nat) := []) (dev : Nat := dsOperational) : Block :=
  { mkB dev ((Reg.seqLaneState 15, v) :: (Reg.seqLaneRecipe 15, 0x910001) :: (Reg.seqLaneStep 15, 1) :: svcOn :: regs) with
    now := now
    seq := { lanes := [(15, x)], sms := [(255, { queue := [3] })] }
    bankA := tbl [(key tRecipe 0, leBytes 3 0x910001 ++ by8 [0, 3, 0]), (key tStep 0, stepE 500 0 0 0 0xFFFF), (key tStep 1, stepE 500 0 0 0 0xFFFF),
      (key tStep 2, stepE 500 0 0 0 1), (key tMachine 255, zeroBytes 8 ++ leBytes 4 0 ++ leBytes 2 2), (key tTrans 0, by8 [0, 3, 7]),
      (key tTrans 1, by8 [1, 0xFF, 7]), (key tSmState 2, zeroBytes 8 ++ leBytes 4 1000)] }

/-- States and operands that meet the hypotheses of `Obligations.LaneCommandsComplete`, clause by clause. -/
theorem witness_LaneCommandsComplete :
    let c (a : List Byte := []) := mt (sidLane 15) a
    let k (l : List Nat) (v : Nat) (x : LaneSt := {}) : Prop := Sent (lnB v x) (c) roleOperator l ∧ (lnB v x).lnState 15 = v ∧ cObj (c) = sidLane 15
    let o : LaneSt := { check := some (opOf (c) 0x0401) }
    let d := [dsOperational, dsRestart]
    (k d lsIdle ∧ ((lnB lsIdle).ln 15).check = none ∧ k d lsIdle o ∧ ((lnB lsIdle o).ln 15).check ≠ none ∧ k d lsLoaded ∧ lsLoaded ≠ lsIdle) ∧
      (Sent (lnB lsRunning) (c (by8 [0, 0, 0, 1])) roleObserver devWorld ∧ u8 (cArg (c (by8 [0, 0, 0, 1]))) 3 = 1) ∧
      (let s (t : Nat) := c (leBytes 8 t ++ zeroBytes 16 ++ leBytes 2 2)
       (∀ t ∈ [0, 1, 1001999, 1002000], Sent (lnB lsLoaded) (s t) roleOperator d ∧ u64 (cArg (s t)) 0 = t) ∧ u16 (cArg (s 0)) 24 < rcCount ((lnB lsLoaded).lnHead 15) ∧
         spFaultOnly (stepOf (lnB lsLoaded).bank ((lnB lsLoaded).lnHead 15) 2) = false ∧ ((lnB lsLoaded).ln 15).tReady = none ∧
         (lnB lsLoaded).now + 2000 = 1002000) ∧
      (k devWorld lsRunning ∧ k devWorld lsHeld ∧ k devWorld lsHeld { tReady := some 7 } ∧ k devWorld lsHeld { presented := true } ∧
        ((lnB lsHeld { tReady := some 7 }).ln 15).tReady ≠ none ∧ ((lnB lsHeld { presented := true }).ln 15).tReady = none ∧
        ((lnB lsHeld { presented := true }).ln 15).presented = true) ∧
      (k devWorld lsSafe ∧ k devWorld lsFaulted ∧ k devWorld lsAborting) ∧
      (Sent (lnB lsIdle) (mt (sidMachine 255) (by8 [0xFE])) roleOperator devWorld ∧ u8 (cArg (mt (sidMachine 255) (by8 [0xFE]))) 0 ≠ 0xFF ∧
        (lnB lsIdle).smUsed 255 = true) ∧
      (((lnB lsIdle o).ln 15).check = some (opOf (c) 0x0401) ∧ (lnB lsIdle o).serviceUp = true) := by
  simp only [Sent]; and_intros <;> decide +kernel

/-- States and operands that meet hypotheses of `Obligations.LanesAndMachinesProceed`, clause by clause. -/
theorem witness_LanesAndMachinesProceed :
    let a : LaneSt := { active := true, endAt := some 1004000, cur := stepE 500 0 0 0 0xFFFF, nextIdx := 2 }
    let b := lnB lsRunning a
    let cnd (now : Nat) := lnB lsRunning { active := true, cur := stepE 0 0 1 1000 0xFFFF, nextIdx := 2 } now
    (((b.ln 15).endAt = some 1004000 ∧ (b.ln 15).active = true ∧ spEndKind (b.ln 15).cur = 0 ∧ spLast (b.ln 15).cur = false ∧
        (b.ln 15).nextIdx < rcCount (b.lnHead 15)) ∧ ((b.ln 15).presented = false ∧ b.lnHost 15 = false ∧
        max (1004000 - 200000) (b.rd64 (Reg.seqLaneStepStart 15) + 250000) ≤ b.now) ∧
      ((b.ln 15).decided = false ∧ 1004000 = b.now + 4000 ∧ b.bit (Reg.seqLaneState 15) 12 = false)) ∧
      b.unmet 15 (stepOf b.bank (b.lnHead 15) 2) ≠ 0 ∧
      (let f := lnB (lsRunning + 0x2000) a
       f.unmet 15 (stepOf f.bank (f.lnHead 15) 2) = 0 ∧ (f.ln 15).decided = false) ∧
      b.now < 1004000 ∧ ((lnB lsRunning a 1004000).ln 15).endAt = some 1004000 ∧
      ((cnd 250000).lnEndsNow 15 = true ∧ (cnd 249999).lnEndsNow 15 = false ∧ spEndKind ((cnd 0).ln 15).cur = 1) ∧
      (((cnd 1000000).ln 15).faultAt ≠ some (cnd 1000000).now ∧
        (cnd 1000000).rd64 (Reg.seqLaneStepStart 15) + 1000 * spTimeout ((cnd 1000000).ln 15).cur = (cnd 1000000).now ∧
        spTimeoutNext (stepE 0 8 1 1000 0xFFFF) = true ∧ spTimeoutNext ((cnd 0).ln 15).cur = false) ∧
      (let e : LaneSt := { active := true, endAt := none, cur := stepE 0 0 2 1000 0xFFFF, nextIdx := 2 }
       (lnB lsRunning e).lnEndsNow 15 = false ∧ spEndKind ((lnB lsRunning e).ln 15).cur ≠ 0) := by
  decide +kernel

/-- More for `Obligations.LanesAndMachinesProceed`. -/
theorem witness_LaneHoldsAndStarts :
    let h := lnB (lsHeld + 0x200) { nextIdx := 2, tolFrom := some 0, held := true }
    let x := (h.refreshHold 15).ln 15
    ((h.refreshHold 15).lnState 15 = lsHeld ∧ x.tReady = none ∧ x.tolFrom = some 0 ∧
        spTol (stepOf (h.refreshHold 15).bank ((h.refreshHold 15).lnHead 15) x.nextIdx) = 1 ∧ 1000000 * 1 ≤ x.tolNs + ((h.refreshHold 15).now - 0)) ∧
      (let r := lnB lsHeld { tReady := some 996000 }
       (r.ln 15).tReady = some 996000 ∧ (r.ln 15).active = false ∧ r.lnState 15 = lsHeld ∧ 996000 + 4000 = r.now ∧ (lnB lsHeld {} 999999).now < 996000 + 4000) ∧
      (let q := lnB lsAborting { safeSince := some 0 }
       (q.ln 15).safeSince = some 0 ∧ q.lnState 15 = lsAborting ∧ 0 + 1000000 * u32 (q.lnTab 15) 8 ≤ q.now) ∧
      (let l := lnB lsLoaded { startAt := some 1000000 }
       (l.ln 15).startAt = some 1000000 ∧ l.lnState 15 = lsLoaded ∧ 1000000 ≤ l.now ∧ (lnB lsLoaded {} 999999).now < 1000000) ∧
      ((lnB 0).smExpired 255 = false ∧ (lnB 0 {} 1000000 [(Reg.seqSmState 255, 2)]).smExpired 255 = true) := by
  decide +kernel

/-- More for `Obligations.LanesAndMachinesProceed`. -/
theorem witness_LaneAndMachineEntries :
    let m (v : Nat) (x : SmSt) : Block := { lnB 0 {} 1000000 [(Reg.seqSmState 255, v)] with seq := { sms := [(255, x)] } }
    (15 < 16 ∧ 2 < 65536 ∧ (lnB lsHeld).lnFaultPath 15 = false ∧ spEndKind (stepE 500 0 0 0 0) = 0 ∧ spEndKind (stepE 500 0 1 0 0) ≠ 0) ∧
      ((lnB lsIdle).lnState 15 ≠ lsRunning ∧ (lnB lsIdle).lnState 15 ≠ lsHeld) ∧
      ((lnB 0).smUsed 255 = true ∧ ((lnB 0).sm 255).cycle ≠ some ((lnB 0).now / 4000) ∧ ((lnB 0).sm 255).queue = [3] ∧
        ((m 0 { cycle := some 250 }).smFind 255 3).isSome = true ∧ (m 1 { cycle := some 250 }).smFind 255 3 = none ∧
        (m 0 { cycle := some 250 }).smFind 255 0xFF = none ∧ ((m 1 { cycle := some 250 }).smFind 255 0xFF).isSome = true ∧
        (m 2 {}).smExpired 255 = true ∧ (m 2 {}).smFind 255 0xFF = none ∧ (m 0 {}).smExpired 255 = false) ∧
      ((lnB 0).smUsed 0 = false ∧ ((m 0 { cycle := some 250 }).sm 255).cycle = some ((m 0 {}).now / 4000)) := by
  decide +kernel

/-! ### Witnesses: actions (05), ledger (06), stages (07) -/

/-- A stage descriptor of a kind, owner thread, freshness and group, with full scale 100.0. -/
def stgE (kind owner fresh group : Nat) : List Byte :=
  leBytes 3 0 ++ by8 [kind] ++ leBytes 4 0x42C80000 ++ zeroBytes 12 ++ leBytes 2 fresh ++ zeroBytes 2 ++ leBytes 2 owner ++ by8 [group] ++ zeroBytes 37
/-- An action entry of a kind with flags, target and payload words. -/
def acE (kind flags target w0 w1 : Nat) : List Byte := by8 [kind, flags, 0, 0] ++ zeroBytes 8 ++ leBytes 3 target ++ zeroBytes 1 ++ leBytes 4 w0 ++ leBytes 4 w1 ++ zeroBytes 4
/-- A pending action of lane 15, due now. -/
def pendE (e : List Byte) : Pend := { src := .lane 15, step := 1, idx := 7, entry := e, due := some 1000000, placed := 0 }
/-- A controller at 1 ms with stage 1023, loop 1023, machine 255, variable 401000, field 840000 (one bit), output line 191 and a queue. -/
def acB (q : List Pend) (sx : Seq := {}) (rs : List (Nat × Nat) := []) (lock : Nat := 0) (kind owner fresh : Nat := 0xFFFF) : Block :=
  { mkB dsOperational ((Reg.dioDir 5, 0x80000000) :: svcOn :: rs) [(key tStage 1023, stgE (kind % 256) owner fresh 254), (key tLoop 1023, leBytes 2 7),
      (key tSignal 0, leBytes 3 0x401000 ++ by8 [3]), (key tSignal 1, leBytes 3 0x840000 ++ by8 [5])] with
    now := 1000000
    seq := { sx with queue := q }
    bankA := tbl [(key tMachine 255, zeroBytes 12), (key tFormat 0, leBytes 3 0x840000 ++ by8 [1] ++ leBytes 3 (sidTxo 4095) ++ by8 [0, 0, 0, 0, 1]),
      (key tLgrHead 0, by8 [1, 0, 0x80, 0x08]), (key tCons 0, zeroBytes 4 ++ by8 [7, 3, 100, 14] ++ leBytes 2 0 ++ leBytes 2 0xFFFF),
      (key tLock 0, leBytes 3 0x6000BF ++ by8 [lock, 0, 9, 0, 0] ++ leBytes 3 0x401000 ++ by8 [0] ++ leBytes 4 5)] }

/-- States and operands that meet hypotheses of `Obligations.DueActionsTakeTheirEffect`, clause by clause. -/
theorem witness_DueActionsAreCarriedOut :
    let p (k : Nat) (fl : Nat := 0) : Pend := pendE (acE k fl 0xA01000 7 0)
    let full : Seq := { recent := List.replicate 250 998001 }
    let cl (c w : Nat) : Pend := pendE (acE 9 0 (0xA01000 + c) w 5)
    let own (v : Nat) : Block := { acB [cl 0 v] with lgr := { cons := [(0, { lane := 15, committed := 7 })] } }
    ([1, 2, 3, 4, 5, 6, 7, 8, 9].all fun k => (acB [p k]).dueAction (.lane 15) 7 k == some (p k) && decide ((acB [p k]).dueAction (.lane 15) 7 (k % 9 + 1) = none)) = true ∧
      ((acB [p 1]).seq.recent.filter fun t => decide (((p 1).due.getD 0) < t + 2000)).length < 250 ∧
      (((acB [p 1 2] full).dueAction (.lane 15) 7 1 = some (p 1 2) ∧ (p 1 2).late = false ∧ acDrop (p 1 2).entry = true ∧ acDrop (p 1 0).entry = false) ∧
        250 ≤ ((acB [p 1 2] full).seq.recent.filter fun t => decide (((p 1 2).due.getD 0) < t + 2000)).length) ∧
      ((own 7).dueAction (.lane 15) 7 9 = some (cl 0 7) ∧ (own 7).claimLane (.lane 15) = some 15 ∧ 0xA01000 ≤ acTarget (cl 0 7).entry ∧
        acTarget (cl 0 7).entry - 0xA01000 < u16 (own 7).lgrHead 0 ∧ 7 ≤ ((own 7).capFlag 15 [(0, 7, 5)]).laneClaim 15 0 ∧
        ((own 7).capFlag 15 [(0, 7, 5)]).laneClaim 15 0 < 8 ∧ (own 8).dueAction (.lane 15) 7 9 = some (cl 0 8)) ∧
      ((acB [{ cl 0 7 with src := .thread 4095 }]).dueAction (.thread 4095) 7 9 = some { cl 0 7 with src := .thread 4095 } ∧
        (acB []).claimLane (.thread 4095) = none) := by
  and_intros <;> decide +kernel

/-- States and operands that meet hypotheses of `Obligations.DueActionsTakeTheirEffect`, clause by clause. -/
theorem witness_ActionEffectsFollowTheirKind :
    let b := acB [pendE (acE 3 0 0x6000BF 1 0)]
    let r : Block := { acB [] {} [] 3 with sigs := [(0x401000, { value := 1 })] }
    let d (w : Nat) : Pend := pendE (acE 3 0 0x6000BF 1 w)
    (b.isVar 0x401000 = true ∧ b.isVar 0x840000 = false ∧ ¬(isStageSid 0x840000 = true ∧ b.sgUsed (0x840000 - 0x500000) = true) ∧ b.isField 0x840000 = true ∧
        b.isVar 0x123456 = false ∧ b.isField 0x123456 = false ∧ isStageSid 0x123456 = false) ∧
      (b.isDiscrete 0x6000BF = true ∧ b.isDiscrete 0x840000 = true ∧ b.discLevel 0x6000BF ≠ true ∧ b.refusal 0x6000BF true = none ∧ acTarget (d 0).entry = 0x6000BF ∧
        u32 (d 0).entry 20 = 0 ∧ u32 (d 0xFFFFFFFF).entry 20 ≠ 0 ∧ (u8 (d 0).entry 16).testBit 0 = true) ∧
      (r.isDiscrete 0x6000BF = true ∧ r.discLevel 0x6000BF ≠ true ∧ r.refusal 0x6000BF true = some 9) ∧
      (b.smUsed 0 = false ∧ b.smUsed 255 = true ∧ (b.smPost 255 0xFE).2 = true) ∧ pendE (acE 3 0 0x6000BF 1 0) ∈ b.seq.queue := by
  and_intros <;> decide +kernel

/-- States and operands that meet the hypotheses of `Obligations.RampsPulsesAndRulesAct`, clause by clause. -/
theorem witness_RampsPulsesAndRulesAct :
    let rmp (d : Nat) : RampSt := { start := 0, stop := 0x3F800000, durationUs := d, curve := 0xFFFF, begun := 0, src := .lane 15 }
    let q (e : Nat) (back : Bool) : Nat × PulseSt := (0x6000BF, { back := back, endAt := e, action := pendE (acE 3 0 0x6000BF 1 5) })
    let b (back : Bool) (lock : Nat) : Block := { acB [] { ramps := [(sidStage 1023, rmp 1001), (0x401000, rmp 1000)], pulses := [q 1000000 back] } [] lock with
      sigs := [(0x401000, { value := 1 })] }
    (tget? (b true 0).seq.ramps (sidStage 1023) = some (rmp 1001) ∧ (rmp 1001).ended 1000000 = false ∧ (rmp 1000).ended 1000000 = true ∧ (b true 0).now = 1000000 ∧
        isStageSid (sidStage 1023) = true ∧ isStageSid 0x401000 = false ∧ tget? (b true 0).seq.ramps 0x401000 = some (rmp 1000)) ∧
      ((b true 0).seq.pulses.find? (fun q => q.1 == 0x6000BF && decide (q.2.endAt ≤ (b true 0).now)) = some (q 1000000 true) ∧
        (b false 0).discLevel 0x6000BF = false ∧ (b true 0).refusal 0x6000BF true true = none ∧ (b true 2).refusal 0x6000BF true true = none ∧
        (b true 3).refusal 0x6000BF true true = some 9) ∧
      (let e := leBytes 3 0x6000BF ++ by8 [5, 0, 9, 0, 0] ++ leBytes 3 0x401000 ++ by8 [0] ++ leBytes 4 5
       entsOf (b true 5).bank tLock = [(0, e)] ∧ (b true 5).lockLevel (u24 e 0) = some false ∧ ruleEnforce e = true ∧ ruleGuards e false = true ∧
         (b true 5).lockForced (u24 e 0) = false ∧ (b true 5).ruleOkNow e = false ∧ ∀ p ∈ entsOf (b true 0).bank tLock, ruleEnforce p.2 = false) := by
  and_intros <;> decide +kernel

/-- A controller at 2.0 ms with feed 7 in a state, an overload count and holds. -/
def lgB (v up : Nat) (res : ResSt := { declared := 1000 }) (now : Nat := 2000000) : Block :=
  { acB [] {} [(Reg.lgrResStatus 7, v + 65536 * up), (Reg.lgrResLimit 7, 1000)] with lgr := { res := [(7, res)] }, now := now }

/-- States and operands that meet hypotheses of `Obligations.LedgerAndStagesComplete`, clause by clause. -/
theorem witness_LedgerCommandsAndUpdatesComplete :
    let k (v : Nat) : Cmd := mt 0xA00007 (leBytes 4 v)
    let h (n : Nat) : Cmd := ho 15 (zeroBytes 8 ++ leBytes 4 n) 0xA00013
    let l : Ledger := { res := [(7, { declared := 1000 })], cons := [(0, { rating := 9, committed := 9 })] }
    let neg : Block := { lgB 2 0 with lgr := l, regs := rg [(Reg.sysState, dsOperational), (Reg.lgrResLimit 7, 8), (Reg.lgrResStatus 7, 2), (Reg.lgrState, 1), (Reg.lgrConsStatus 0, 1)] }
    ((∀ v ∈ [0, 1000, 1001, 0xFFFFFFFF], Sent (lgB 1 0) (k v) roleOperator devWorld ∧ u32 (cArg (k v)) 0 = v) ∧ isFeedSid (cObj (k 0)) = true ∧
        isCircSid (cObj (h 0)) = true ∧ (lgB 1 0).resExists (resOf (cObj (k 0))) = true ∧ (lgB 1 0).resExists (resOf (cObj (h 0))) = true ∧ (lgB 1 0).serviceUp = true ∧
        (lgB 1 0).resIn 7 = true ∧ (lgB 0 0).resIn 7 = false ∧ ((lgB 1 0).res 7).declared = 1000) ∧
      (Sent (mkB dsRestart) (k 0) roleOperator [dsRestart] ∧ Sent (mkB dsOperational) (k 0) roleOperator devWorld ∧ (mkB dsOperational).serviceUp = false) ∧
      (devCheck (lgB 1 0) devWorld = none ∧ envCheck (h 0) = none ∧ u32 (cArg (h 383)) 8 < (lgB 1 0).lgrReport.length ∧ (lgB 1 0).lgrReport.length ≤ u32 (cArg (h 384)) 8) ∧
      ((lgB 2 0).shedding 7 = true ∧ (lgB 2 0).fitsWithout 7 (fun _ => true) = true ∧ (lgB 1 0).shedding 7 = false ∧ neg.shedding 7 = true ∧
        neg.fitsWithout 7 (fun _ => true) = false) ∧
      (7 ≤ (lgB 1 0).boot.milestone ∧ (lgB 1 0).now % 100000 < 4 ∧ (lgB 1 0).lgr.updAt ≠ some (lgB 1 0).now ∧ 4 ≤ (lgB 1 0 {} 2000004).now % 100000) ∧
      (502 ≤ (lgB 1 502).overCount 7 ∧ (lgB 1 501).overCount 7 < 502 ∧ 10 * u16 (lgB 1 0).lgrHead 4 < ((lgB 1 0 { held := 1 }).res 7).held ∧
        ((lgB 1 0).res 7).held ≤ 10 * u16 (lgB 1 0).lgrHead 4) := by
  simp only [Sent]; and_intros <;> decide +kernel

/-- Stage 1023 of a kind, owner and freshness, in a state, with a plan begun at a time. -/
def sgB (v : Nat) (owner : Nat := 0xFFFF) (fresh : Nat := 10) (start : Nat := 0) (pts : List (Nat × Word) := []) (lock : Nat := 0) : Block :=
  let b : Block := acB [] {} [(Reg.outStageState 1023, v), (Reg.outLoopState 1023, 0x10000)] 0 1 owner fresh
  { b with
    stages := [(1023, { start := start, plan := { points := pts } })]
    bankA := tput b.bankA (key tLock 0) (leBytes 3 (sidStage 1023) ++ by8 [lock, 0, 9, 0, 0] ++ leBytes 3 0x401000 ++ by8 [0] ++ leBytes 4 5)
    sigs := [(0x401000, { value := 1 })] }

/-- States and operands that meet hypotheses of `Obligations.LedgerAndStagesComplete`, clause by clause. -/
theorem witness_StageCommandsAndTimesComplete :
    let c (w : Nat) (f : Nat := 0) : Cmd := mt (sidStage 1023) (leBytes 4 w ++ by8 [f])
    let l : Cmd := mt (sidLoop 1023) (by8 [1])
    (cObj (c 0x3F800000) = sidStage 1023 ∧ Sent (sgB 0) (c 0x3F800000) roleOperator devWorld ∧ (sgB 0).sgUsed 1023 = true ∧
        isNaN32 (w32 (cArg (c 0x3F800000)) 0) = false ∧ (sgB 0).direct 1023 = true ∧ (sgB 0).stageRefusal 1023 0x3F800000 = none ∧
        (sgB 0 7).direct 1023 = false ∧ (sgB 0 0xFFFF 10 0 [] 2).stageRefusal 1023 0x3F800000 = some 9 ∧ Sent (sgB 0 7) (c 0x3F800000) roleOperator devWorld) ∧
      (Sent (sgB 0) (c 0) roleOperator devLive ∧ (u8 (cArg (c 0)) 4).testBit 0 = false ∧ Sent (sgB 0) (c 0 1) roleOperator devLive ∧
        (u8 (cArg (c 0 1)) 4).testBit 0 = true ∧ isNaN32 (w32 (cArg (c 0)) 0) = false ∧ u8 ((sgB 0).sgDesc 1023) 26 ≠ 0xFF ∧
        ((sgB (2 ^ (24 + frHost))).sgReasons 1023).testBit frHost = true ∧ ((sgB 0).sgReasons 1023).testBit frHost = false) ∧
      (cObj l = sidLoop 1023 ∧ isLoopSid (sidLoop 1023) = true ∧ Sent (sgB 0) l roleOperator devWorld ∧ (sgB 0).loopUsed 1023 = true) ∧
      ((sgB osLive 7 10 959999).direct 1023 = false ∧ (sgB osLive 7 10 959999).sgState 1023 = osLive ∧
        (sgB osLive 7 10 959999).sgFresh 1023 * 4000 < (sgB osLive 7 10 959999).sgAge 1023 ∧ (sgB osLive 7 10 960000).sgAge 1023 ≤ (sgB osLive 7 10 960000).sgFresh 1023 * 4000) ∧
      (((sgB osLive 7 10 999997).planExpiry 1023).sgAge 1023 % 4000 < 4 ∧ 4 ≤ ((sgB osLive 7 10 999996).planExpiry 1023).sgAge 1023 % 4000 ∧ (sgB 0).sgUsed 0 = false) ∧
      (((sgB osLive 7 10 0 [(0, 0)]).sg 1023).plan.expired ((sgB osLive 7 10 0 [(0, 0)]).sgAge 1023) = true ∧
        ((sgB osCoasting 7 10 0 [(1000000, 0)]).sgState 1023 = osCoasting ∧
          ((sgB osCoasting 7 10 0 [(1000000, 0)]).sg 1023).plan.expired ((sgB osCoasting 7 10 0 [(1000000, 0)]).sgAge 1023) = false)) := by
  simp only [Sent]; and_intros <;> decide +kernel

/-! ### Witnesses: continuity (10) -/

/-- Engine 39 in a state, another engine running its code set 7. -/
def cntB (v : Nat) (x : EngSt := { inReset := false }) (dev : Nat := dsOperational) (regs : List (Nat × Nat) := []) : Block :=
  { mkB dev ((Reg.engState 39, v) :: (Reg.engRole 39, 0x700) :: (Reg.engState 0, egRunning) :: (Reg.engRole 0, 0x700) :: regs) with
    engs := [(39, x)], now := 20000 }

/-- States and operands that meet hypotheses of `Obligations.EngineFaultsAreFencedAndReleased`, clause by clause. -/
theorem witness_EngineFaultsAndReleasesComplete :
    let c (k : Nat) := mt (sidEngine 39) (by8 [k])
    let o := opOf (c 0) 0x0902
    (egWatched ((cntB egStandin).egState 39) = true ∧ ((cntB egIdle).eng 39).silentTo = none ∧
        ((cntB egIdle { silentTo := some 12000, injected := true }).eng 39).silentTo = some 12000 ∧
        ((cntB egIdle { silentTo := some 12000, injected := true }).eng 39).injected = true ∧ egWatched ((cntB egFenced).egState 39) = false) ∧
      (35 < 36 ∧ ({ cntB egIdle with cont := { taking := some (⟨39, 7, 5⟩, 35) } } : Block).cont.taking = some (⟨39, 7, 5⟩, 35) ∧ (cntB egIdle).dev ≠ dsRestart ∧
        36 ≤ 39 ∧ (cntB egOffline).setElsewhere 39 ((cntB egOffline).egSet 39) = true) ∧
      ((cntB egFenced).egState 39 = egFenced ∧ ((cntB egFenced).eng 39).inReset = false) ∧
      (cObj (c 0) = sidEngine 39 ∧ Sent (cntB egQuarantined) (c 0) roleMaintainer devCnt ∧ (cntB egQuarantined).egState 39 = egQuarantined ∧
        ((cntB egQuarantined).eng 39).release = none ∧ ¬((cntB egIdle).egState 39 = egFenced ∨ (cntB egIdle).egState 39 = egQuarantined) ∧
        Sent (cntB egIdle) (c 0) roleMaintainer devCnt) ∧
      (((cntB egFenced { release := some o }).eng 39).release = some o ∧ (({ cntB egFenced with engs := [(35, { release := some o })] } : Block).eng 35).release = some o) ∧
      (∀ k ∈ [1, 3], Sent (cntB egIdle) (c k) roleMaintainer devCnt ∧ u8 (cArg (c k)) 0 = k ∧ Sent (cntB egFenced) (c k) roleMaintainer devCnt) := by
  simp only [Sent]; and_intros <;> decide +kernel

/-- States and operands that meet hypotheses of `Obligations.EngineFaultsAreFencedAndReleased`, clause by clause. -/
theorem witness_AFenceStopsTheEngine : 39 < 40 ∧ 0 ≠ 39 ∧ (cntB egIdle).egSet 39 ≠ 0xFF := by
  decide +kernel

/-- States and operands that meet the hypotheses of `Obligations.ContinuityRestartPassesItsPoints`, clause by clause. -/
theorem witness_ContinuityRestartPassesItsPoints :
    let c (k : Nat) := mt 0 (by8 [k])
    let r (p : Nat) (i : Bool := false) : Block := { cntB egOffline { inReset := true } dsRestart [(Reg.cntState, 4096 * p)] with cont := { install := i } }
    (Sent (cntB egIdle) (c 0) roleOperator devCnt ∧ Sent (cntB egIdle) (c 1) roleMaintainer devCnt ∧ cObj (c 1) = 0 ∧ u8 (cArg (c 1)) 0 = 1 ∧
        (u8 (cArg (c 0)) 0).testBit 0 = false ∧ (cntB egIdle).stageReady = false ∧
        (cntB egIdle {} dsOperational [(Reg.imgStage, 2)]).stageReady = true ∧
        Sent (cntB egIdle {} dsOperational [(Reg.imgStage, 2)]) (c 1) (if (u8 (cArg (c 1)) 0).testBit 0 then roleMaintainer else roleOperator) devCnt) ∧
      ((∀ p ∈ [1, 2, 3, 4, 5, 6, 7, 8], (r p).dev = dsRestart ∧ (r p).phase = p) ∧ (r 3).cont.install = false ∧ (r 3 true).cont.install = true ∧ (r 3 true).phase = 3 ∧
        (r 5).egState 39 = egOffline ∧ (r 1).egState 39 ≠ egFenced ∧ (r 1).egState 39 ≠ egQuarantined) ∧
      (cntB egIdle).dev ≠ dsRestart := by
  simp only [Sent]; and_intros <;> decide +kernel

/-! ### Witnesses: the recorder (11) -/

/-- Port 1 in a state, with a recorder. -/
def rcB (v : Nat) (r : Recorder := {}) (regs : List (Nat × Nat) := []) : Block :=
  let b : Block := mkB dsOperational
  { b with out := { b.out with rcd := r, regs := rg ((Reg.recPortState 1, v) :: regs) }, now := 1000000 }
/-- Segments 7 and 8 of the reel. -/
def segs2 : List Segment := [⟨7, [], 0, [(1, 995000)]⟩, ⟨8, [], 0, []⟩]

/-- States and operands that meet hypotheses of `Obligations.RecorderCommandsAndTimesComplete`, clause by clause. -/
theorem witness_RecorderCommandsComplete :
    let d := mt 0 (by8 [1, 7] ++ zeroBytes 12 ++ by8 [63])
    let f := mt 0x10005F (by8 [2, 0, 0, 0] ++ leBytes 4 65535)
    let u (l : Nat) := mt 0 (by8 [63, 7] ++ zeroBytes 11 ++ by8 [l])
    let p := mt 0 (by8 [1] ++ zeroBytes 7 ++ leBytes 8 7 ++ leBytes 4 65535)
    let g (x y : Nat) := mt 0 (leBytes 4 x ++ leBytes 4 y)
    let rp : Replay := { port := 1, next := 7, left := 1, src := 0, tag := 0 }
    let full : Tab Filter := (List.range 16384).map fun i => (0x400000 + i, { kind := 1 })
    (Sent (rcB ptDown) d roleOperator devLive ∧ u8 (cArg d) 0 ≤ 1 ∧ u8 (cArg d) 1 < 8 ∧ u8 (cArg d) 14 ≤ 63 ∧
        ((rcB ptDown { roles := [(1, 1)] }).port 1 = ptDown ∧ tget? (rcB ptDown { roles := [(1, 1)] }).rcd.downSince 1 = none ∧
          tget 0 (rcB ptDown { roles := [(1, 1)] }).rcd.roles 1 = 1) ∧ (rcB ptActive).port 1 ≠ ptDown) ∧
      (Sent (rcB ptDown) f roleOperator devLive ∧ filterArgsOk (cObj f) (u8 (cArg f) 0) (u32 (cArg f) 4) (u32 (cArg f) 8) = true ∧
        (rcB ptDown).sourceExists (cObj f) = true ∧
        filterCount (rcB 0).cfg (rcB 0).rcd.filters (tput (rcB 0).rcd.newFilters (cObj f) ((rcB 0).now, (rcB 0).askedFilter (cObj f) (cArg f))) ≤ 16384 ∧
        16384 < filterCount (rcB 0).cfg full (tput (rcB 0).rcd.newFilters (cObj f) ((rcB 0).now, (rcB 0).askedFilter (cObj f) (cArg f)))) ∧
      (Sent (rcB ptDown) (u 0) roleOperator devLive ∧ Sent (rcB ptDown) (u 1) roleOperator devLive ∧ 48 ≤ u8 (cArg (u 1)) 0 ∧ u8 (cArg (u 1)) 0 ≤ 63 ∧ u8 (cArg (u 1)) 1 ≤ 7 ∧
        u8 (cArg (u 1)) 13 = 1 ∧ u8 (cArg (u 0)) 13 = 0) ∧
      (Sent (rcB ptActive { segs := segs2 }) p roleOperator devLive ∧ u32 (cArg p) 16 = 65535 ∧ u64 (cArg p) 8 = 7 ∧ u8 (cArg p) 0 = 1 ∧
        (rcB ptActive { segs := segs2 }).replayOn 1 = none ∧ ((rcB ptActive { segs := segs2 }).rcd.segs.any fun g => g.seqNo == 7) = true ∧
        ((rcB (ptSpare + 0x300)).port 1 = ptSpare ∧ (rcB (ptSpare + 0x300)).portLink 1 = true ∧ (rcB (ptSpare + 0x300)).portDest 1 = true) ∧
        (rcB ptActive { replays := [rp] }).replayOn 1 ≠ none ∧ ((rcB ptActive).rcd.segs.any fun g => g.seqNo == 7) = false) ∧
      (Sent (rcB 0) (g 100000 100000) roleOperator devLive ∧ Sent (rcB 0) (g 9 0) roleOperator devLive ∧ u32 (cArg (g 9 0)) 0 < 10 ∧
        10 ≤ u32 (cArg (g 10 0)) 0 ∧ u32 (cArg (g 100000 100000)) 4 ≤ 100000 ∧ 100000 < u32 (cArg (g 10 100001)) 4) := by
  simp only [Sent]; and_intros <;> decide +kernel

/-- States and operands that meet hypotheses of `Obligations.RecorderCommandsAndTimesComplete`, clause by clause. -/
theorem witness_ReelAndPortsActInTime :
    let rp (l n : Nat) : Replay := { port := 1, next := n, left := l, src := 0, tag := 0 }
    let o (t : Nat) : Block := rcB 0 { openSeg := [⟨0, 1, 2, 3, 4, []⟩], openedAt := t } [(Reg.recFlushUs, 10)]
    let w (q : Nat) : Block := rcB ptDown { segs := segs2, downSince := [(1, 996000)] } [(Reg.recPortState 0, q), (Reg.recRewindUs, 1)]
    ((o 990000).rcd.openSeg ≠ [] ∧ (o 990000).rcd.openedAt + 1000 * (o 990000).rdN Reg.recFlushUs ≤ (o 990000).now ∧
        (o 990001).now < (o 990001).rcd.openedAt + 1000 * (o 990001).rdN Reg.recFlushUs ∧ (rcB 0).rcd.openSeg = []) ∧
      ((rcB ptActive { segs := segs2 }).port 1 = ptActive ∧ (rcB ptActive { segs := segs2 }).nextSeg 1 = some ⟨8, [], 0, []⟩) ∧
      (let b := rcB (ptActive + 0x100) { segs := [⟨7, [], 0, [(1, 995000)]⟩], replays := [rp 1 7] }
       b.port 1 = ptActive ∧ b.portLink 1 = true ∧ b.nextSeg 1 = none ∧ b.replayOn 1 = some (rp 1 7) ∧ (rp 1 7).left ≠ 0 ∧
         b.rcd.segs.find? (fun x => x.seqNo == (rp 1 7).next) = some ⟨7, [], 0, [(1, 995000)]⟩) ∧
      ((∀ q ∈ [ptSpare + 0x300, ptActive, ptDown], tget? (w q).rcd.downSince 1 = some 996000 ∧ (w q).rcd.handled.contains 1 = false ∧ (w q).port 1 = ptDown ∧
          (w q).port (1 - 1) = q % 4) ∧ (w (ptSpare + 0x300)).portLink 0 = true ∧ (w (ptSpare + 0x300)).portDest 0 = true ∧
        (w 1).rcd.segs.map (·.seqNo) = [7, 8] ∧ (996000 - 1000 * (w 1).rdN Reg.recRewindUs ≤ 995000)) ∧
      ((rcB ptActive).port 1 ≠ ptDown ∧ (rcB ptDown).port 1 = ptDown ∧ tget? (rcB ptDown).rcd.downSince 1 = none ∧ tget? (w 1).rcd.downSince 1 ≠ none) ∧
      (let b (l n : Nat) (v : Nat) : Block := rcB v { replays := [rp l n] } [(Reg.recOldestSeg, 7)]
       (b 0 7 0).replayOn 1 = some (rp 0 7) ∧ (rp 0 7).left = 0 ∧ (rp 1 6).next < (b 1 6 0).rd64 Reg.recOldestSeg ∧ (b 1 7 0).rd64 Reg.recOldestSeg ≤ 7 ∧
         (b 1 7 0).portLink 1 = false) := by
  and_intros <;> decide +kernel

/-! ### Witnesses: analog (13), acquisition and safety (14), PWM (15) -/

/-- Converter 5 in a state, input 95 feeding loop 1023 (enabled or not) and a sealed signal derived from it (or not). -/
def anB (v : Nat) (loop sealed_ : Bool := false) (x : ConvSt := {}) (regs : List (Nat × Nat) := []) : Block :=
  { mkB dsOperational ((Reg.anaConvState 5, v) :: (Reg.outLoopState 1023, if loop then 0x10000 else 0) :: regs)
      [(key tLoop 1023, leBytes 2 7), (key tRoute 0, leBytes 3 (sidAin 95) ++ by8 [0] ++ leBytes 2 7), (key tRoute 1, leBytes 3 (sidBrg 7) ++ by8 [0] ++ leBytes 2 7),
        (key tSignal 0, leBytes 3 0x401000 ++ by8 [3] ++ leBytes 3 (sidAin 95) ++ by8 [if sealed_ then 2 else 0])] with
    convs := [(5, x)], now := 70000000000 }

/-- States and operands that meet hypotheses of `Obligations.AnalogCommandsAndConversionsComplete`, clause by clause. -/
theorem witness_AnalogCommandsComplete :
    let c (r : Nat) := mt (sidAin 95) (by8 [r, 0])
    let q : List (Nat × Option ServiceOp) := [(0, none), (1, none), (2, none), (3, none)]
    let g (x : Nat) := mt (sidBrg 7) (by8 [x, 3, 7])
    let w (m lo hi : Nat) := mt 0 (by8 [15, 95, 0, m] ++ leBytes 2 lo ++ leBytes 2 hi)
    let cv : List Byte := leBytes 2 2 ++ zeroBytes 14 ++ leBytes 4 0 ++ leBytes 4 0 ++ leBytes 4 0x3F800000 ++ leBytes 4 0x3F800000
    let e : Cmd := { mx cv with object := 0x401000 }
    let o := opOf e 0x0C05 cv
    let cal (dl : Nat) (k : Bool := false) : Block := { anB 0 false true {} [(Reg.anaCalDeadline, dl % 2 ^ 32), (Reg.anaCalDeadline + 4, dl / 2 ^ 32)] with
      cal := { pend := some o, crc := 7, confirmed := k } }
    (Sent (anB 0) (c 3) roleOperator devLive ∧ u8 (cArg (c 3)) 0 ≤ 3 ∧ cObj (c 3) = sidAin 95 ∧ (anB 0).feedsLoop (sidAin 95) = false ∧
        isSealed (anB 0).cfg (sidAin 95) = false ∧ (anB 0).convState 5 = cvStopped ∧ (anB 1).convState 5 = cvScanning ∧
        (anB 0 true).feedsLoop (sidAin 95) = true ∧ (anB 0 true).ainCfg 95 % 8 ≠ (u8 (cArg (c 3)) 0 % 4 + 4 * (u8 (cArg (c 3)) 1 % 4)) % 8 ∧
        (anB 0 false true).ainCfg 95 % 4 ≠ 3 ∧ isSealed (anB 0 false true).cfg (sidAin 95) = true ∧ (anB 0 false true).feedsLoop (sidAin 95) = false) ∧
      (((anB 1).conv 5).urgent.length < 4 ∧ 4 ≤ ((anB 1 false false { urgent := q }).conv 5).urgent.length) ∧
      ((∃ row, Reaches (anB 1) .host (Reg.anaConvUrgent 5) row false ∧ row.wide = false) ∧
        (∃ row, Reaches (anB 1) .host (Reg.anaConvQPop 5) row false ∧ row.wide = false) ∧ (1#32).toNat.testBit 0 = true) ∧
      (Sent (anB 0) (g 7) roleOperator devLive ∧ u8 (cArg (g 7)) 0 ≤ 7 ∧ u8 (cArg (g 7)) 1 ≤ 3 ∧ (anB 0).feedsLoop (sidBrg 7) = false ∧
        isSealed (anB 0).cfg (sidBrg 7) = false ∧ (anB 0 true).feedsLoop (sidBrg 7) = true ∧ ((anB 0).rdN (Reg.anaBrgCfg 7) &&& 0x730) ≠ (brgBits (cArg (g 7)) &&& 0x730)) ∧
      (Sent (anB 0) (w 15 0x8000 0x7FFF) roleOperator devLive ∧ s16 (cArg (w 15 0x8000 0x7FFF)) 4 ≤ s16 (cArg (w 15 0x8000 0x7FFF)) 6 ∧
        1 ≤ u8 (cArg (w 15 0 0)) 3 ∧ u8 (cArg (w 15 0 0)) 3 ≤ 15 ∧ u8 (cArg (w 0 0 0)) 3 = 0 ∧ 15 < u8 (cArg (w 16 0 0)) 3 ∧ s16 (cArg (w 1 1 0)) 6 < s16 (cArg (w 1 1 0)) 4 ∧
        u8 (cArg (w 1 1 0)) 0 ≤ 15 ∧ u8 (cArg (w 1 1 0)) 1 ≤ 95) ∧
      (Sent (anB 0 false true) e roleOperator devLive ∧ cExt e = true ∧ curveBad (cArg e) = false ∧ (anB 0 false true).sealedSignal (cObj e) = true ∧
        (anB 0 false true).cal.pend = none ∧ (cal 0).cal.pend ≠ none ∧ Sent (cal 0) e roleOperator devLive) ∧
      (authCheck (mt 0 (leBytes 4 7)) roleMaintainer true = none ∧ devCheck (cal 0) devLive = none ∧ envCheck (mt 0 (leBytes 4 7)) = none ∧
        (cal 70000000000).now ≤ (cal 70000000000).rd64 Reg.anaCalDeadline ∧ u32 (cArg (mt 0 (leBytes 4 7))) 0 = (cal 0).cal.crc ∧
        u32 (cArg (mt 0 (leBytes 4 8))) 0 ≠ (cal 0).cal.crc ∧ (cal 0).cal.confirmed = false) ∧
      ((cal 0).cal.pend = some o ∧ (cal 0 true).cal.confirmed = true ∧ (cal 69999999999).rd64 Reg.anaCalDeadline < (cal 69999999999).now) := by
  simp only [Sent, Reaches]
  refine ⟨?_, ?_, ⟨⟨_, ⟨rfl, ?_⟩, ?_⟩, ⟨_, ⟨rfl, ?_⟩, ?_⟩, ?_⟩, ?_, ?_, ?_, ?_, ?_⟩ <;> and_intros <;> decide +kernel

/-- States and operands that meet hypotheses of `Obligations.AnalogCommandsAndConversionsComplete`, clause by clause. -/
theorem witness_ConversionsComplete :
    let o : ServiceOp := { src := 1, tag := 2, opcode := 0x0C02 }
    let g (v : Nat) (t : Nat := 0) : Block := { anB 0 false false {} [(Reg.anaBrgCfg 7, v), (Reg.anaDacState 31, 0x20000)] with brgs := [(7, { settleAt := t })] }
    (anB cvScanning).convState 5 = cvScanning ∧
      ((anB cvUrgent false false { urgent := [(15, none)] }).convState 5 = cvUrgent ∧ ((anB cvUrgent false false { urgent := [(15, none)] }).conv 5).urgent = (15, none) :: [] ∧
        ((anB cvUrgent false false { urgent := [(15, some o)] }).conv 5).urgent = (15, some o) :: []) ∧
      (anB cvDischarge).convState 5 = cvDischarge ∧
      ((g 0x400).bit (Reg.anaBrgCfg 7) 10 = true ∧ (g 0x400).absent (sidBrg 7) = false ∧ (-8388608 : Int) ≤ 8388607 ∧
        100 * (max 5050 5000 - min 5050 5000) ≤ 5000 ∧ (g 0).bit (Reg.anaBrgCfg 7) 10 = false) ∧
      ((g 0x1000).bit (Reg.anaBrgCfg 7) 12 = true ∧ 4000000000 ≤ ((g 0x1000 69600000000).now - ((g 0x1000 69600000000).brg 7).settleAt) *
          brgRate ((g 0x1000).fld (Reg.anaBrgCfg 7) 0 3) ∧
        ((g 0x1000 69600000001).now - ((g 0x1000 69600000001).brg 7).settleAt) * brgRate ((g 0x1000).fld (Reg.anaBrgCfg 7) 0 3) < 4000000000) ∧
      (g 0).dacOn 31 = true ∧ (g 0).dacOn 0 = false := by
  and_intros <;> decide +kernel

/-- A take descriptor of channel 7 with an event, a time, a first sample, a length and POST. -/
def tkE (ev t start len post : Nat) : List Byte := by8 [7, 0, ev, 0] ++ zeroBytes 4 ++ leBytes 8 t ++ leBytes 4 start ++ leBytes 4 len ++ leBytes 4 post ++ zeroBytes 4
/-- Take 4095 in a state with a descriptor, channel 7 on with a share of one unit, and what no register shows of both. -/
def aqB (v : Nat) (d : List Byte) (f : FchSt := {}) (t : TakeSt := {}) (cfg : Nat := 0x10001) (cmp : Nat := 0) : Block :=
  { mkB dsOperational ((Reg.acqTakeState 4095, v) :: (Reg.acqChCfg 7, cfg) :: (Reg.acqChShare 7, 0x10000) :: (Reg.acqChCmp 7, cmp) ::
      (List.range 8).map fun i => (Reg.acqTakeDesc 4095 i, u32 d (4 * i))) with
    fchs := [(7, f)], takes := [(4095, t)], now := 1000000 }

/-- States and operands that meet hypotheses of `Obligations.AcquisitionCommandsAndTakesComplete`, clause by clause. -/
theorem witness_AcquisitionCommandsComplete :
    let c (d : List Byte) := mt (sidTake 4095) d
    let good := tkE 0 0 32 32736 32736
    let m (n : Nat) (a : List Byte := []) := mt (sidFch n) a
    let q : FchSt := { queue := [4095] }
    (∀ d ∈ [good, tkE 0 0 0 32 33, tkE 0 0 32 32737 1], Sent (aqB 0 good) (c d) roleOperator devLive ∧ takeBad (padTo 32 (cArg (c d))) = false ∧
        Sent (aqB 1 good) (c d) roleOperator devLive) ∧
      ((aqB 0 good).takeState 4095 = tkIdle ∧ (aqB 0 good).takeLimit (padTo 32 good) = none ∧ (aqB 1 good).takeState 4095 ≠ tkIdle ∧
        (aqB 0 good).takeLimit (padTo 32 (tkE 0 0 0 32 33)) = some { status := stLimit, reason := 0x01 } ∧
        (aqB 0 good).takeLimit (padTo 32 (tkE 0 0 32 32737 1)) = some { status := stLimit, reason := 0x02 }) ∧
      (Sent (aqB 0 good) (c (by8 [1])) roleOperator devLive ∧ Sent (aqB 0 good) (c (by8 [0])) roleOperator devLive ∧ (aqB 0 good).armRefusal 4095 = none ∧
        takeBad ((aqB 0 good).takeDesc 4095) = false ∧ ((aqB 0 good {} {} 0).armRefusal 4095).isSome = true) ∧
      (Sent (aqB 2 good q) (m 7) roleOperator devLive ∧ ((aqB 2 good q).fch 7).queue = 4095 :: [] ∧ (aqB 2 good q).takeState 4095 = tkArmed ∧
        (aqB 2 good q).inHoldoff 7 = false ∧ (aqB 3 good q).takeState 4095 = tkTriggered ∧ ((aqB 0 good).fch 7).queue = []) ∧
      (let a := by8 [5, 15] ++ leBytes 2 511 ++ leBytes 2 0xFE00
       Sent (aqB 0 good) (m 7 a) roleMaintainer devLive ∧ field (u8 a 0) 1 2 ≠ 3 ∧ u8 a 1 ≤ 15 ∧ -512 ≤ s16 a 4 ∧ s16 a 4 ≤ s16 a 2 ∧ s16 a 2 ≤ 511) ∧
      (let a (on : Nat) := by8 [on, 0] ++ leBytes 2 1000
       Sent (aqB 0 good) (m 7 (a 0)) roleOperator devLive ∧ 1 ≤ u16 (a 0) 2 ∧ u16 (a 0) 2 ≤ 1000 ∧ ((aqB 0 good).fch 7).handing = [] ∧
         Sent (aqB 2 good q) (m 7 (a 0)) roleOperator devLive ∧ (u8 (a 0) 0).testBit 0 = false ∧ ((aqB 2 good q).fch 7).queue ≠ []) := by
  simp only [Sent]; and_intros <;> decide +kernel

/-- States and operands that meet hypotheses of `Obligations.AcquisitionCommandsAndTakesComplete`, clause by clause. -/
theorem witness_SamplesAndTakesProceed :
    let good := tkE 6 1000000 0 64 32
    let q : FchSt := { queue := [4095] }
    let cm := aqB 2 (tkE 4 0 0 64 32) q {} 0x10001 1
    let b := ((((cm.setFld (Reg.acqChCmp 7) 15 1 1).setFld Reg.acqState (8 + 7) 1 1).count (Reg.acqChCmpFires 7)).raise Reg.acqFlags 1 (sidFch 7))
    let d := (b.putFch 7 { b.fch 7 with blockCmp := true }).driveSrc (16 + 7) true
    ((aqB 0 good).bit (Reg.acqChCfg 7) 16 = true ∧ ([8191, -8192] : List Int) ≠ [] ∧ ((aqB 0 good).fch 7).queue = [] ∧ ((aqB 2 good q).fch 7).queue = 4095 :: [] ∧
        ∀ x ∈ ([8191, -8192] : List Int), -8192 ≤ x ∧ x ≤ 8191) ∧
      (let f := aqB 0 good { block := [5, 6] } {} (0x10000 + 2)
       1 ≤ f.fld (Reg.acqChCfg 7) 0 10 ∧ f.fld (Reg.acqChCfg 7) 0 10 ≤ (f.fch 7).block.length ∧ f.bit (Reg.acqChCfg 7) 16 = true ∧
         ((aqB 0 good).fch 7).block.length < (aqB 0 good).fld (Reg.acqChCfg 7) 0 10) ∧
      (cm.bit (Reg.acqChCmp 7) 0 = true ∧ cm.bit (Reg.acqChCmp 7) 15 = false ∧ (d.fch 7).queue = 4095 :: [] ∧ u8 (d.takeDesc 4095) 2 = 4 ∧
        (aqB 0 good {} {} 0 0x8001).bit (Reg.acqChCmp 7) 15 = true ∧ (aqB 0 good {} {} 0 1).bit (Reg.acqChCmp 7) 0 = true) ∧
      (u8 ((aqB 2 good q).takeDesc 4095) 2 = 6 ∧ u64 ((aqB 2 good q).takeDesc 4095) 8 ≤ (aqB 2 good q).now ∧ ((aqB 2 good q).take 4095).lateArm = false ∧
        (aqB 3 good q).takeState 4095 = tkTriggered ∧
        tdPost ((aqB 3 good q).takeDesc 4095) ≤ ((aqB 3 good q { post := List.replicate 32 0 }).take 4095).post.length ∧ (aqB 2 good q).takeState 4095 ≠ tkTriggered) ∧
      ((aqB 4 good).takeState 4095 = tkHandoff ∧ ((aqB 4 good).take 4095).started = false ∧ ((aqB 4 good {} { started := true }).take 4095).started = true) ∧
      (((aqB 0 good { holdTo := some 1000000 }).fch 7).holdTo = some 1000000 ∧ 1000000 ≤ (aqB 0 good).now ∧ (aqB 0 good).now < 1000001) := by
  and_intros <;> decide +kernel

/-- Pair 47 in a state with control bits and a period of 100 ticks, and what no register shows. -/
def pwB (v : Nat) (ctrl : Nat := 0) (x : PairSt := {}) (now : Nat := 1000) (regs : List (Nat × Nat) := []) : Block :=
  { mkB dsOperational ((Reg.pwmPairState 47, v) :: (Reg.pwmPairCtrl 47, ctrl) :: (Reg.pwmPairPeriod 47, 100) :: (Reg.pwmPairState 0, pwRunning) :: regs) with
    pairs := [(0, { start := 960 }), (47, x)], now := now }

/-- States and operands that meet hypotheses of `Obligations.PwmAndTripsAct`, clause by clause. -/
theorem witness_PwmCommandsAndPeriodsComplete :
    let c (f : Nat) := mt 0 (by8 [47, f, 0, 0xFF] ++ leBytes 4 536870911 ++ leBytes 4 0 ++ leBytes 2 4095 ++ zeroBytes 6)
    let k := mt 0 (by8 [47, 3])
    let b (s : Nat) (ctrl : Nat) (x : PairSt) (now : Nat) := pwB s ctrl x now [(Reg.pwmPairSync 47, 10)]
    (∀ f ∈ [0x0C, 0x2C], Sent (pwB 0) (c f) roleOperator devLive ∧ u8 (cArg (c f)) 0 = 47 ∧ pairCfgBad 47 (cArg (c f)) = false ∧
        (u8 (cArg (c f)) 1).testBit 5 = (f == 0x2C) ∧ (pwB 0).prState 47 = pwOff ∧ Sent (pwB 1) (c f) roleOperator devLive ∧ (pwB 3).prState 47 = pwRestarting) ∧
      (Sent (pwB 2) k roleOperator devLive ∧ (pwB 2).prState 47 ≠ pwOff ∧ Sent (pwB 0) k roleOperator devLive ∧ u8 (cArg k) 0 = 47) ∧
      ((∃ row, Reaches (pwB 0) .host (Reg.pwmPairCommit 47) row false ∧ row.wide = false) ∧
        (∃ row, Reaches (pwB 0) .host (Reg.pwmPairDutySh 47) row false ∧ row.wide = false) ∧ (pwB 0).prBound 47 = false ∧ (pwB 0x40).prBound 47 = true ∧
        ∃ row, Reaches (pwB 0) .host Reg.pwmCommitMask row false ∧ row.wide = true) ∧
      ((pwB 1 0x18).prMid 47 = true ∧ ((pwB 1 0x18 { start := 900 }).pr 47).half = false ∧ (pwB 1 0x18).prSlow 47 = false ∧
        ((pwB 1 0x18 { start := 900 }).pr 47).start + (pwB 1 0x18).rdN (Reg.pwmPairPeriod 47) ≤ (pwB 1).now ∧ (pwB 1).prMid 47 = false ∧
        ((pwB 1 0 { start := 600 }).pr 47).start + (pwB 1 0 { start := 600 }).prLength 47 ≤ (pwB 1).now ∧
        (pwB 1 0 { start := 601 }).now < ((pwB 1 0 { start := 601 }).pr 47).start + (pwB 1 0 { start := 601 }).prLength 47) ∧
      ((b 1 0 {} 1000).fld (Reg.pwmPairSync 47) 16 8 = 0 ∧ (b 1 0 {} 1000).prState 0 ≠ pwOff ∧ ((b 1 0 {} 1000).pr 47).synced ≠ some ((b 1 0 {} 1000).pr 0).start ∧
        ((b 1 0 {} 1000).pr 0).start + 4 * (b 1 0 {} 1000).fld (Reg.pwmPairSync 47) 0 16 ≤ (b 1 0 {} 1000).now ∧ 0 ≤ 47) ∧
      ((pwB 1 1 { waitOn := some 0 } 20000000).prState 47 = pwRunning ∧ ((pwB 1 1 { waitOn := some 0 }).pr 47).waitOn = some 0 ∧ 0 + 20000000 ≤ (pwB 1 1 {} 20000000).now ∧
        ((pwB 1 1 { waitOn := some 0 }).pr 47).waitOff = none) := by
  simp only [Sent, Reaches]
  refine ⟨?_, ?_, ⟨⟨_, ⟨rfl, ?_⟩, ?_⟩, ⟨_, ⟨rfl, ?_⟩, ?_⟩, ?_, ?_, ⟨_, ⟨rfl, ?_⟩, ?_⟩⟩, ?_, ?_, ?_⟩ <;> and_intros <;> decide +kernel

/-- Trip sources 15 and 63 active or latched, with a configuration. -/
def trB (act lat cfg : Nat) (x : TripSt := {}) (win : Nat := 0) (regs : List (Nat × Nat) := []) : Block :=
  { pwB win 0 { start := 900 } 1000 ([(Reg.trpActive, act), (Reg.trpActive + 4, act * 65536), (Reg.trpLatched, lat), (Reg.trpLatched + 4, lat * 65536), (Reg.trpSrcCfg 15, cfg)] ++ regs) with
    trips := [(15, x), (63, x)] }

/-- States and operands that meet hypotheses of `Obligations.PwmAndTripsAct`, clause by clause. -/
theorem witness_TripSourcesFireAndClear :
    let c (n : Nat) (a : List Byte := by8 [1, 0, 0, 0]) := mt (sidSource n) a
    let t (b : Block) := b.tripTriggers 15 (b.trp 15).assertAt
    let w := trB 0 0 (9 + 16 * 94) {} 1 [(Reg.pwmPairDuty 47, 800)]
    ((trB 0 0 0).trpBit Reg.trpActive 15 = false ∧ (trB 0x8000 0 0).trpBit Reg.trpActive 15 = true) ∧
      ((t (trB 0 0 1)).tripArmed = true ∧ ((t (trB 0 0 1)).srcCfg 15).testBit 0 = true ∧ (t (trB 0 0 1)).srcBlanked 15 = false ∧ (t w).srcBlanked 15 = true ∧
        (t w).tripArmed = true ∧ ((t w).srcCfg 15).testBit 0 = true ∧ ((t (trB 0 0 0)).srcCfg 15).testBit 0 = false) ∧
      (let f := trB 0 0 0xFA000 { since := 0 } 0 [(Reg.trpRaw, 0x8000)]
       f.srcFilter 15 = 250 ∧ f.trpBit Reg.trpRaw 15 = true ∧ (f.trp 15).since + 4 * f.srcFilter 15 ≤ f.now ∧ (trB 0 0 0).srcFilter 15 = 0) ∧
      (((trB 0x8000 0 1 { blanked := true }).trp 15).blanked = true ∧ (trB 0x8000 0 1 { blanked := true }).srcBlanked 15 = false) ∧
      (Sent (trB 0 0x8000 0) (c 63) roleOperator devLive ∧ (trB 0 0x8000 0).trpBit Reg.trpLatched 63 = true ∧ (trB 0 0x8000 0).trpBit Reg.trpActive 63 = false ∧
        Sent (trB 0x8000 0x8000 0) (c 63) roleOperator devLive ∧ (trB 0x8000 0x8000 0).trpBit Reg.trpActive 63 = true ∧
        Sent (trB 0 0 0) (c 63) roleOperator devLive ∧ (trB 0 0 0).trpBit Reg.trpLatched 63 = false) ∧
      (Sent (trB 0 0 0) (c 15) roleMaintainer devLive ∧ (u32 (cArg (c 15)) 0).testBit 2 = false ∧ field (u32 (cArg (c 15 (leBytes 4 0x5F1))) 0) 4 7 = 95 ∧
        Sent (trB 0 0 0) (c 47) roleMaintainer devLive ∧ cObj (c 47) = sidSource 47) := by
  simp only [Sent]; and_intros <;> decide +kernel

/-! ### Witnesses: motion (16), CAN and discrete lines (17), serial (18) -/

/-- An axis descriptor: D_EMERG 100, deviation time 1 ms, a flags byte for SSI, 24 bits, DIR_SETUP, resolution 1 from speed 10, a record each 5 ms. -/
def axE (gray setup : Nat) : List Byte :=
  by8 [0, 1] ++ leBytes 2 1 ++ leBytes 4 0 ++ leBytes 4 0x42C80000 ++ leBytes 4 0x42C80000 ++ zeroBytes 12 ++ leBytes 2 1 ++ zeroBytes 2 ++ leBytes 2 1 ++ leBytes 2 1 ++
    by8 [24, gray, 0, 0, 0, 0, setup, 0] ++ by8 [0, 1, 0xFF, 0xFF] ++ leBytes 4 0x41200000 ++ zeroBytes 8 ++ by8 [0, 3] ++ leBytes 2 5
/-- Axis 63 in a state, present, with flags and what no register shows; the mask template of DCP port 7. -/
def mxB (v : Nat) (x : AxisSt := {}) (flags : Nat := 0) (regs : List (Nat × Nat) := []) (gray : Nat := 0) : Block :=
  { mkB dsOperational ((Reg.motAxState 63, v) :: (Reg.motAxCfg 63, 1 + flags) :: (Reg.motAxCmdPos 63, 0) :: regs)
      [(key tAxis 63, axE gray 250), (key tGroup 15, by8 [2, 62, 63]), (key tTemplate (16 * 7 + tmMask), by8 [1])] with
    axes := [(63, x)], dcp := [(7, [(63, tmRun), (62, tmHold)])], now := 10000000 }

/-- States and operands that meet hypotheses of `Obligations.MotionCommandsAndAxesProceed`, clause by clause. -/
theorem witness_MotionCommandsComplete :
    let c (m : Nat) := mt (sidAxis 63) (by8 [m, 0, 0, 0] ++ leBytes 4 0)
    let en (k : Nat) := mt (sidAxis 63) (by8 [k])
    let a100 := leBytes 4 0x42C80000
    let pf := mt (sidAxis 63) (by8 [15] ++ zeroBytes 7 ++ zeroBytes 4 ++ leBytes 4 0x41200000 ++ zeroBytes 12 ++ a100 ++ a100 ++ a100 ++ a100 ++ leBytes 4 0)
    let lim (lo hi : Nat) := mt (sidAxis 63) (zeroBytes 4 ++ leBytes 4 lo ++ leBytes 4 hi ++ by8 [1])
    let pt := mt 0x70200F (leBytes 2 1023 ++ zeroBytes 2 ++ leBytes 4 7)
    (Sent (mxB 1) (c 3) roleOperator devWorld ∧ firstRefusal ((mxB 1).moveRefusals (cObj (c 3)) (u8 (cArg (c 3)) 0) (u8 (cArg (c 3)) 1) (w32 (cArg (c 3)) 4)) = none ∧
        Sent (mxB 1) (c 5) roleOperator devWorld ∧
        (firstRefusal ((mxB 1).moveRefusals (cObj (c 5)) (u8 (cArg (c 5)) 0) (u8 (cArg (c 5)) 1) (w32 (cArg (c 5)) 4))).isSome = true) ∧
      ((∀ k ∈ [0, 1], ∀ v ∈ [0, 1, 2, 3, 4], Sent (mxB v) (en k) roleOperator devWorld ∧ (mxB v).axPresent 63 = true ∧ (mxB v).axState 63 = v ∧
          (u8 (cArg (en k)) 0).testBit 0 = (k == 1)) ∧ cObj (en 0) = sidAxis 63) ∧
      (Sent (mxB 2) pf roleMaintainer devWorld ∧ cObj pf = sidAxis 63 ∧ u8 (cArg pf) 0 = 15 ∧
        profileBad ((mxB 2).axMedium 63) (f32Rat (w32 ((mxB 2).axDesc 63) 8)) (f32Rat (w32 ((mxB 2).axDesc 63) 12)) (padTo 40 (slice (cArg pf) 8 40)) = false ∧
        ((mxB 2 { set := 15 }).ax 63).set = 15 ∧ (mxB 2 { set := 15 }).axState 63 = axMoving ∧ ((mxB 2).ax 63).set ≠ 15) ∧
      (Sent (mxB 1) (lim 0 1) roleMaintainer devWorld ∧ s32 (cArg (lim 0 1)) 4 < s32 (cArg (lim 0 1)) 8 ∧ s32 (cArg (lim 0 1)) 4 ≤ toSigned 32 ((mxB 1).rdN (Reg.motAxCmdPos 63)) ∧
        toSigned 32 ((mxB 1).rdN (Reg.motAxCmdPos 63)) ≤ s32 (cArg (lim 0 1)) 8 ∧ s32 (cArg (lim 1 2)) 4 < s32 (cArg (lim 1 2)) 8 ∧
        toSigned 32 ((mxB 1).rdN (Reg.motAxCmdPos 63)) < s32 (cArg (lim 1 2)) 4 ∧ Sent (mxB 2) (lim 1 2) roleMaintainer devWorld ∧
        Sent (mxB 1) (lim 1 2) roleMaintainer devWorld) ∧
      (Sent (mxB 1) pt roleOperator devWorld ∧ cObj pt = 0x702000 + 15 ∧ isGroupSid (cObj pt) = true ∧ (mxB 1).groupMembers 15 ≠ [] ∧ u16 (cArg pt) 0 < 1024) := by
  simp only [Sent]; and_intros <;> decide +kernel

/-- States and operands that meet hypotheses of `Obligations.MotionCommandsAndAxesProceed`, clause by clause. -/
theorem witness_AxesProceed :
    let d := axE 0 250
    ((mxB 3 { ending := true }).axState 63 = axStopping ∧ ((mxB 3 { ending := true }).ax 63).ending = true ∧ ((mxB 3 { ending := true }).ax 63).next = none) ∧
      (let b := mxB 2 { mode := 2, s := 5, speed := 5 }
       b.axState 63 = axMoving ∧ (b.ax 63).mode = 2 ∧ (b.ax 63).s = (b.ax 63).speed ∧ (b.ax 63).next = none ∧ b.bit (Reg.motAxState 63) 6 = false) ∧
      (let x (t : Nat) : AxisSt := { next := some (1, 5, 7), ending := true, restAt := t }
       ((mxB 2 (x 0)).ax 63).next = some (1, 5, 7) ∧ (x 9999000).restAt + 4 * u8 ((mxB 2).axDesc 63) 42 ≤ (mxB 2).now ∧
         (mxB 2).now < (x 9999001).restAt + 4 * u8 ((mxB 2).axDesc 63) 42) ∧
      ((mxB 2 { s := 10 }).axPresent 63 = true ∧ ((mxB 2 { s := 10 }).ax 63).switching = none ∧ ((mxB 2 { s := 10 }).ax 63).atSwitch ((mxB 2).axDesc 63) = true) ∧
      (((mxB 2 { devSince := some 9000000 }).ax 63).devSince = some 9000000 ∧ (mxB 2).bit (Reg.motAxState 63) 9 = false ∧ 9000000 + 1000 * u16 ((mxB 2).axDesc 63) 28 ≤ (mxB 2).now ∧
        (mxB 2).now < 9999001 + 1000 * u16 ((mxB 2).axDesc 63) 28) ∧
      ((mxB 1).axState 63 = axStandstill ∧ ((mxB 1).ax 63).templ = false ∧ ((mxB 1 { restAt := 9000000 }).ax 63).restAt + 1000000 * u16 d 2 ≤ (mxB 1).now) ∧
      ((mxB 1 {} 0x40).axFlag 63 6 = true ∧ (mxB 1 {} 0x40).axFlag 63 5 = false ∧ (quadPhase true false + 4 - quadPhase false false) % 4 = 1 ∧
        (quadPhase false true + 4 - quadPhase false false) % 4 = 3 ∧ (quadPhase true true + 4 - quadPhase false false) % 4 = 2 ∧
        (quadPhase false false + 4 - quadPhase false false) % 4 = 0 ∧ ¬(((mxB 1).ax 63).lastEdge ≠ 0 ∧ (mxB 1).now < ((mxB 1).ax 63).lastEdge + 10) ∧
        (((mxB 1 { lastEdge := 9999991 }).ax 63).lastEdge ≠ 0 ∧ (mxB 1).now < ((mxB 1 { lastEdge := 9999991 }).ax 63).lastEdge + 10)) ∧
      ((mxB 1 {} 0x60).axFlag 63 6 = true ∧ (mxB 1 {} 0x60).axFlag 63 5 = true ∧ (u8 ((mxB 1).axDesc 63) 37).testBit 0 = false ∧
        (u8 ((mxB 1 {} 0 [] 1).axDesc 63) 37).testBit 0 = true) ∧
      (tget [] (mxB 1).dcp 7 = (63, tmRun) :: [(62, tmHold)] ∧ (2 % 2 ^ 40) &&& leNat (slice ((mxB 1).fix tTemplate (16 * 7 + tmMask)) 0 5) = 0) ∧
      (u16 ((mxB 1).axDesc 63) 62 ≠ 0 ∧ ((mxB 1).ax 63).lastRec + 1000000 * u16 ((mxB 1).axDesc 63) 62 ≤ (mxB 1).now ∧
        (mxB 1).now < ((mxB 1 { lastRec := 5000001 }).ax 63).lastRec + 1000000 * u16 ((mxB 1).axDesc 63) 62) := by
  and_intros <;> decide +kernel

/-- Controller 7 in a mode, timing set 15, transmit object 4095 of 64 bytes with a node or without one, in a state. -/
def cnB (v : Nat) (tx : Nat := 0) (node : Nat := 0xFF) (x : CanSt := {}) (t : TxoSt := {}) (dev : Nat := dsOperational) : Block :=
  { mkB dev [(Reg.canState 7, v), (Reg.canTxoState 7 511, tx), (Reg.wldNode 7 9, 1)]
      [(key tCanSet (16 * 7 + 15), zeroBytes 9 ++ by8 [8]), (key tTxo 4095, by8 [1, node, 64, 0] ++ leBytes 4 0x7FF ++ leBytes 4 1000)] with
    cans := [(7, x)], txos := [(4095, t)], now := 5000000 }

/-- States and operands that meet hypotheses of `Obligations.BusCommandsAndFramesProceed`, clause by clause. -/
theorem witness_BusCommandsComplete :
    let md (k : Nat) := mt (sidCan 7) (by8 [k, 15])
    let dt := mt (sidCan 7) (by8 [0, 0x80, 1, 0] ++ leBytes 4 600000)
    let tx (f : Nat) := mt (sidTxo 4095) (by8 [f, 0] ++ leBytes 2 40 ++ leBytes 4 24 ++ zeroBytes 24)
    ((∀ k ∈ [0, 1, 2], ∀ v ∈ [0, 1, 5], Sent (cnB v) (md k) roleOperator devLive ∧ u8 (cArg (md k)) 0 = k ∧ (cnB v).canMode 7 = v ∧ (cnB v).setUsed 7 15 = true) ∧
        (cnB 0).committed 7 = none ∧ (cnB 3 2).committed 7 ≠ none ∧ (cnB 3 2).canMode 7 ≠ cnDetect ∧ (cnB 3 2).canMode 7 ≠ cnBusOff ∧ cObj (md 0) = sidCan 7) ∧
      ((∀ v ∈ [0, 2, 3, 4], Sent (cnB v) dt roleOperator devLive ∧ (cnB v).canMode 7 = v) ∧ u16 (cArg dt) 0 ≠ 0 ∧ u8 (cArg dt) 2 ≠ 0 ∧ u32 (cArg dt) 4 ≠ 0 ∧
        u32 (cArg dt) 4 ≤ 600000 ∧ ∀ i, i < 16 → (u16 (cArg dt) 0).testBit i = true → (cnB 0).setUsed 7 i = true) ∧
      ((cnB 0x105).canMode 7 = cnBusOff ∧ (cnB 0x105).bit (Reg.canState 7) 8 = true ∧ (cnB 5).bit (Reg.canState 7) 8 = false ∧ Sent (cnB 5) (md 0) roleOperator devLive) ∧
      ((∀ f ∈ [0, 1, 2, 3], Sent (cnB 3) (tx f) roleOperator devLive ∧ Sent (cnB 2) (tx f) roleOperator devLive ∧ Sent (cnB 3 0 9) (tx f) roleOperator devLive ∧
          Sent (cnB 3 0 9 {} {} dsAwaitWorld) (tx f) roleOperator devLive ∧ u8 (cArg (tx f)) 0 = f) ∧ (cnB 3).txoUsed 4095 = true ∧ cObj (tx 0) = sidTxo 4095 ∧
        u16 (cArg (tx 0)) 2 ≤ 40 ∧ u32 (cArg (tx 0)) 4 + u16 (cArg (tx 0)) 2 ≤ (cnB 3).txoLen 4095 ∧ (cnB 3).canMode 7 = cnActive ∧ (cnB 2).canMode 7 = cnListen ∧
        (cnB 3).txoNoNode 4095 = false ∧ (cnB 3 0 9).txoNoNode 4095 = true ∧ (cnB 3).dev ≠ dsAwaitWorld ∧ (cnB 3 0 9 {} {} dsAwaitWorld).dev = dsAwaitWorld ∧
        ((cnB 3 0 9).txData 4095 24 (zeroBytes 40)).txoNoNode 4095 = true ∧ ((cnB 3).txData 4095 24 (zeroBytes 40)).txoNoNode 4095 = false) ∧
      ∃ row, ReadReaches (cnB 0) .host (Reg.canRxoSnap 4095) row false ∧ row.wide = false ∧ row.acc = .rc := by
  simp only [Sent, ReadReaches]
  refine ⟨?_, ?_, ?_, ?_, ⟨_, ⟨rfl, ?_⟩, ?_, ?_⟩⟩ <;> and_intros <;> decide +kernel

/-- States and operands that meet hypotheses of `Obligations.BusCommandsAndFramesProceed`, clause by clause. -/
theorem witness_BusFramesProceed :
    (∀ v ∈ [0, 1, 2, 3, 4, 5], (cnB v).canMode 7 = v) ∧
      ((cnB 3 1).canSends 7 = true ∧ (cnB 3 1).committed 7 = none ∧ (cnB 3 1).txBest 7 = some 4095 ∧ (cnB 3).canSends 7 = true ∧ (cnB 3).txBest 7 = none) ∧
      ((cnB 3 2).committed 7 = some 4095 ∧ (cnB 3 2).canMode 7 = cnActive) ∧ ((cnB 13).canMode 7 = cnBusOff ∧ (cnB 13).bit (Reg.canState 7) 3 = true) ∧
      (let t (node : Nat) := cnB 3 0 node {} { due := some 5000000 }
       ((t 9).txo (512 * 7 + 511)).due = some 5000000 ∧ 5000000 ≤ (t 9).now ∧ (t 9).now < 5000001 ∧
         ((t 9).putTxo 4095 { (t 9).txo 4095 with due := some (5000000 + 1000 * u32 ((t 9).fix tTxo 4095) 8) }).txoNoNode 4095 = true ∧
         ((t 0xFF).putTxo 4095 { (t 0xFF).txo 4095 with due := some (5000000 + 1000 * u32 ((t 0xFF).fix tTxo 4095) 8) }).txoNoNode 4095 = false) ∧
      (let d : CanSt := { mask := 0x8001, tryAt := 4000000, dwell := 1, timeoutAt := 5000000 }
       (cnB 1 0 0xFF d).canMode 7 = cnDetect ∧ ((cnB 1 0 0xFF d).can 7).tryAt + 1000000 * ((cnB 1 0 0xFF d).can 7).dwell ≤ (cnB 1 0 0xFF d).now ∧
         ((cnB 1 0 0xFF d).can 7).timeoutAt ≤ (cnB 1 0 0xFF d).now ∧ (cnB 1).now < ((cnB 1 0 0xFF { timeoutAt := 5000001 }).can 7).timeoutAt) := by
  and_intros <;> decide +kernel

/-- Port 3 in a mode with entry 63 of the kind POLL, AUTO each 1 µs, for messages of up to two bytes, with a timeout of 1 µs. -/
def srB (v : Nat) (x : SerSt := {}) : Block :=
  { mkB dsOperational [(Reg.serState 3, v), (Reg.serCfg 3, 128 * 4096)] [(key tSerPort 3, zeroBytes 7 ++ by8 [2, 1])] with
    bankA := tbl [(key tSer (64 * 3 + 63), by8 [1, 8] ++ zeroBytes 8 ++ by8 [2, 0] ++ leBytes 4 1 ++ zeroBytes 4 ++ leBytes 4 1)]
    sers := [(3, x)], now := 1000000 }

/-- States and operands that meet the hypotheses of `Obligations.SerialPortsComplete`, clause by clause. -/
theorem witness_SerialPortsComplete :
    let c (a : List Nat) := mt (sidSer 3) (by8 a)
    let sd := mt (sidSer 3) (by8 [40] ++ zeroBytes 47)
    let q8 : List SerReq := List.replicate 8 { entry := 63 }
    let rq : SerReq := { entry := 63 }
    (∀ a ∈ [[0], [1], [63]], ∀ v ∈ [0, 1, 2], Sent (srB v) (c a) roleOperator devLive ∧ (srB v).serMode 3 = v ∧ cObj (c a) = sidSer 3) ∧
      (u8 (cArg (c [63])) 0 = 63 ∧ u8 ((srB 1).serEntry 3 63) 0 ≠ 0 ∧ ((srB 1).ser 3).queue.length < 8 ∧ 8 ≤ ((srB 1 { queue := q8 }).ser 3).queue.length ∧
        Sent (srB 1) sd roleOperator devLive ∧ 1 ≤ u8 (cArg sd) 0 ∧ u8 (cArg sd) 0 ≤ 40) ∧
      (let x (d : List Nat) : SerSt := { next := [(63, 1000000)], due := d }
       tget? ((srB 1 (x [])).ser 3).next 63 = some 1000000 ∧ u8 ((srB 1).serEntry 3 63) 0 = 1 ∧ (u8 ((srB 1).serEntry 3 63) 1).testBit 3 = true ∧
         (x []).due.contains 63 = false ∧ (x [63]).due.contains 63 = true ∧ 1000000 ≤ (srB 1).now ∧ (srB 1).now < 1000001) ∧
      (((srB 2 { cur := some rq }).ser 3).cur = some rq ∧ (srB 2).serMode 3 = srBusy ∧ ((srB 2 { cur := some rq }).ser 3).await = false ∧
        ((srB 2 { cur := some rq }).ser 3).turnFrom = none ∧ ¬((64 : Nat) < 64)) ∧
      (let w := srB 2 { cur := some rq, await := true }
       (w.ser 3).cur = some rq ∧ w.serMode 3 ≠ srOff ∧ (w.ser 3).await = true ∧ (w.serExamine 3 (w.serEntry 3 63) (by8 [5]) false).1 = 0 ∧
         (w.serExamine 3 (w.serEntry 3 63) (by8 [5, 6, 7]) false).1 = 6) ∧
      (let w (t : Nat) := srB 2 { cur := some rq, await := true, sentAt := t }
       ((w 999000).ser 3).sentAt + 1000 * u32 ((w 0).serEntry 3 63) 20 ≤ (w 0).now ∧ (w 0).now < ((w 999001).ser 3).sentAt + 1000 * u32 ((w 0).serEntry 3 63) 20) ∧
      (let w (t : Nat) (a : Bool) := srB 1 { turnFrom := some t, again := a }
       ((w 999800 true).ser 3).turnFrom = some 999800 ∧ 999800 + (w 0 true).turnNs 3 ≤ (w 0 true).now ∧ ((w 999800 true).ser 3).again = true ∧
         ((w 999800 false).ser 3).again = false ∧ (w 0 true).now < 999801 + (w 0 true).turnNs 3) := by
  simp only [Sent]; and_intros <;> decide +kernel

/-- States and operands that meet the hypotheses of `Obligations.DigitalLinesFollowTheirEdges`, clause by clause. -/
theorem witness_DigitalLinesFollowTheirEdges :
    let b (x : DioSt) (d s : Nat) : Block := { mkB dsOperational [(Reg.dioDir 5, d), (Reg.dioBankState 11, s)] with dio := [(191, x)], now := 1000000 }
    let l (t : Nat) : DioSt := { lastRec := some t, edges := 1 }
    ((b {} 0 0).dioIsOut 191 = false ∧ (b {} 0 0).bankBad 191 = false ∧ (b {} 0 0).bit (Reg.dioIn (191 / 32)) (191 % 32) ≠ true ∧ (b {} 0x80000000 0).dioIsOut 191 = true ∧
        (b {} 0 4).bankBad 191 = true) ∧
      (((b (l 996000) 0 0).dioSt 191).lastRec = some 996000 ∧ 996000 + 4000 ≤ (b {} 0 0).now ∧ ((b (l 996000) 0 0).dioSt 191).edges ≠ 0 ∧ (b {} 0 0).now < 996001 + 4000) := by
  and_intros <;> decide +kernel

/-! ### Witnesses: the safety island (18) -/

/-- `f n`, with n evaluated first. -/
def forceNat {α : Type} (n : Nat) (f : Nat → α) : α := match n with | 0 => f 0 | k + 1 => f (k + 1)
/-- The CRC-32C of 18 R430, with each byte's state evaluated before the next byte. -/
def crcEager : List Byte → Nat → Nat
  | [], c => c
  | v :: r, c => forceNat (crcCBits 8 (c ^^^ v.toNat)) fun k => crcEager r k

theorem crcEager_eq (l : List Byte) : ∀ c, crcEager l c = l.foldl (fun c v => crcCBits 8 (c ^^^ v.toNat)) c := by
  induction l with
  | nil => intro c; rfl
  | cons v r ih =>
    intro c
    simp only [crcEager, List.foldl_cons, ← ih]
    cases crcCBits 8 (c ^^^ v.toNat) <;> rfl

theorem crc32c_eager (l : List Byte) : crc32c l = crcEager l 0xFFFFFFFF ^^^ 0xFFFFFFFF := by simp [crc32c, crcEager_eq]

/-- A parameter set with a connection that names node 5, or without, and its CRC. -/
def prmW (used : Bool) : List Byte :=
  let c : List Byte := if used then by8 [1, 5, 9, 0] ++ leBytes 2 0x7FF ++ leBytes 2 0x7FF ++ leBytes 2 1000 ++ by8 [50, 0] ++ zeroBytes 4 else zeroBytes 16
  let h := leBytes 4 0x53465331 ++ leBytes 2 1 ++ zeroBytes 2 ++ leBytes 4 7
  let t := zeroBytes 448 ++ c ++ zeroBytes 256
  h ++ leBytes 4 (crcEager (h ++ zeroBytes 4 ++ t) 0xFFFFFFFF ^^^ 0xFFFFFFFF) ++ t
/-- A set in force with input 11 (DISCREPANCY 1 ms), brake 3 (window 100 ms, SLIP_MAX 9, interval 1 h), connection 15 (1 s) and function 15 of a kind. -/
def prmF (kind : Nat) : List Byte :=
  zeroBytes 120 ++ by8 [1, 0, 1, 0, 0, 0, 0, 0] ++ zeroBytes 80 ++ by8 [1, 0xFF, 0, 0xFF, 0, 0, 10, 0, 100, 0, 9, 0, 1, 0, 0, 0] ++ zeroBytes 240 ++
    by8 [1, 5, 9, 0, 0, 0, 0, 0, 0xE8, 3, 50, 0, 0, 0, 0, 0] ++ zeroBytes 240 ++ by8 [kind, 0xFF] ++ zeroBytes 14
/-- The island in a state, a controller, and a stage of a set. -/
def siW (v : Nat) (p : List Byte) (k : Bool) (next : Option (List Byte) := none) (dl : Nat := 1000000) (pend : Bool := true) : State :=
  let o := opOf (mx p) 0x1201 p
  { si := { state := v, next := next },
    b := { mkB dsOperational with now := 1000000, saf := { pend := if pend then some o else none, crc := 7, deadline := dl, confirmed := k } } }

/-- States and operands that meet the hypotheses of `Obligations.SafetyIslandEventsComplete`, clause by clause. -/
theorem witness_SafetyIslandEventsComplete (fr : CanFrame) :
    let s := siW siRun [] true (some (prmF 1))
    let u := siW siSafe [] true (some (prmF 1))
    SiEvent 11 3 3 15 15 1 fr false true true (.siClockFail, fun _ x => x.toSafe 4) ∧ s.b.islandUp = true ∧
      ({ s with b := { s.b with boot := { por := true } } } : State).b.islandUp = false ∧ s.b.started = true ∧
      (let x := s.si.cycle s.b.elapsed (s.b.refclk || s.b.mgmt.refRestored.isSome) {}
       x.next = some (prmF 1) ∧ x.state = siRun) ∧
      (let x := u.si.cycle u.b.elapsed (u.b.refclk || u.b.mgmt.refRestored.isSome) {}
       x.next = some (prmF 1) ∧ x.state ≠ siRun) ∧
      ((siW siRun [] true).si.cycle 0 true {}).next = none := by
  simp only [SiEvent]
  refine ⟨by simp, ?_, ?_, ?_, ?_, ?_, ?_⟩ <;> decide +kernel

/-- States and operands that meet hypotheses of `Obligations.SafetyIslandDecidesAndItsSafeStateIsFinal`, clause by clause. -/
theorem witness_SafeStateIsFinalAndDeEnergised : siRun ≠ siSafe ∧ (siW siRun [] false).si.state = siRun ∧ (siW siSafe [] false).si.state = siSafe := by
  decide +kernel

/-- States and operands that meet hypotheses of `Obligations.SafetyIslandDecidesAndItsSafeStateIsFinal`, clause by clause. -/
theorem witness_SafetyIslandDecides :
    let x : SiSt := { state := siRun, params := prmF 3, refLost := true, ins := [(11, { state := 2, split := some 0 })], conns := [(15, { state := cnGrace, graceEnd := 5, accepted := 0 })],
                      fns := [(15, { state := fnReleased })], brks := [(3, { state := bkTestWindow, slip := 9, phase := 0 })], cycles := 7200000 }
    let f (v : Nat) : SiSt := { x with fns := [(15, { state := v })], params := prmF 1 }
    let b (n : Nat) : SiSt := { x with brks := [(3, { passed := some n })], cycles := 7200005 }
    ((x.inp 11).split = some 0 ∧ (x.inp 11).state = 2 ∧ 0 + 1000000 * u16 (prmIn x.params 11) 2 ≤ 1000000 ∧ 0 ≠ 11) ∧
      (flagUsed (prmConn x.params 15) = true ∧ (x.conn 15).accepted + 1000000 * u16 (prmConn x.params 15) 8 ≤ 1000000000 ∧ (x.conn 15).state = cnGrace ∧ (x.conn 15).graceEnd ≤ 5) ∧
      (flagUsed (prmFn x.params 15) = true ∧ x.demanded 15 = true ∧ (x.fn 15).state = fnReleased ∧ (u8 (prmFn x.params 15) 0).testBit 1 = true ∧
        (u8 (prmFn (f 1).params 15) 0).testBit 1 = false ∧ flagUsed (prmFn (f 1).params 15) = true ∧ (f 1).demanded 15 = true ∧ ((f fnAwait).fn 15).state = fnAwait) ∧
      ((x.brk 3).state = bkTestWindow ∧ (x.brk 3).phase + 1000000 * u16 (prmBrk x.params 3) 8 ≤ 100000000 ∧ (x.brk 3).slip ≤ u16 (prmBrk x.params 3) 10 ∧
        u16 (prmBrk x.params 3) 10 < 10) ∧
      (flagUsed (prmBrk (b 4).params 3) = true ∧ u16 (prmBrk (b 4).params 3) 12 ≠ 0 ∧ ((b 4).brk 3).overdue = false ∧ ((b 4).brk 3).passed = some 4 ∧
        4 + u16 (prmBrk (b 4).params 3) 12 * 7200000 < (b 4).cycles ∧ (b 4).cycles ≤ 5 + u16 (prmBrk (b 4).params 3) 12 * 7200000) := by
  and_intros <;> decide +kernel

/-- States and operands that meet the hypotheses of `Obligations.SafetyParametersChangeByTwoHands`, clause by clause. -/
theorem witness_SafetyParametersChangeByTwoHands :
    let c := mx (prmW false)
    let d := mx (prmW true)
    let q (n : Nat) : Cmd := ho 15 (zeroBytes 8 ++ leBytes 4 n)
    let k (n : Nat) := mt 0 (leBytes 4 n)
    (authCheck c roleOperator = none ∧ devCheck (siW siRun [] false).b devRun = none ∧ envCheck c = none ∧ cObj c = 0 ∧ cExt c = true ∧ cExt d = true ∧ envCheck d = none ∧
        prmReason (cArg c) = 0 ∧ prmReason (cArg d) = 0 ∧ (siW siRun [] false).b.nodeMissing (cArg c) = false ∧ (siW siRun [] false).b.nodeMissing (cArg d) = true ∧
        prmReason (cArg (mx [])) ≠ 0 ∧ envCheck (mx []) = none ∧ (siW siRun [] false none 0 false).b.saf.pend = none ∧ (siW siRun [] false).b.saf.pend.isSome = true) ∧
      (authCheck (k 7) roleMaintainer true = none ∧ envCheck (k 7) = none ∧ cObj (k 7) = 0 ∧ (siW siRun [] false).b.stagePending = true ∧ u32 (cArg (k 7)) 0 = (siW siRun [] false).b.saf.crc ∧
        u32 (cArg (k 8)) 0 ≠ (siW siRun [] false).b.saf.crc ∧ (siW siRun [] false none 999999).b.stagePending = false) ∧
      (authCheck (q 736) roleObserver = none ∧ envCheck (q 736) = none ∧ 736 ≤ u32 (cArg (q 736)) 8 ∧ u32 (cArg (q 735)) 8 < 736 ∧ cObj (q 735) = 0) ∧
      ((siW siRun (prmW false) true).b.saf.pend = some (opOf c 0x1201 (prmW false)) ∧ (siW siRun (prmW false) true).si.next = none ∧ (siW siRun [] true).b.started = true ∧
        prmReason (opOf c 0x1201 (prmW false)).data = 0 ∧ prmReason (opOf c 0x1201 []).data ≠ 0 ∧
        (siW siRun [] false none 999999).b.saf.deadline < (siW siRun [] false none 999999).b.now ∧ (siW siRun [] false).b.now ≤ (siW siRun [] false).b.saf.deadline) := by
  have h (b : Bool) : prmReason (prmW b) = 0 := by
    simp only [prmReason, prmFormat, crc32c_eager]
    cases b <;> decide +kernel
  have e (b : Bool) : prmReason (cArg (mx (prmW b))) = 0 := by
    rw [show cArg (mx (prmW b)) = prmW b by cases b <;> decide +kernel]
    exact h b
  refine ⟨⟨?_, ?_, ?_, ?_, ?_, ?_, ?_, e false, e true, ?_, ?_, ?_, ?_, ?_, ?_⟩, ?_, ?_, ⟨?_, ?_, ?_, h false, ?_, ?_, ?_⟩⟩ <;> and_intros <;> decide +kernel

/-! ### Witnesses: the host interface (19), the management link and the register path (20, 02) -/

/-- Queues 15, 31, 47 and 63 in a state, of 16 entries, with head and tail; round robin at queue 15. -/
def hqB (v head tail : Nat) (o : OutSt := {}) (regs : List (Nat × Nat) := []) (dev : Nat := dsOperational) : Block :=
  { mkB dev with
    now := 9000
    out := { o with rrAt := 15,
                    regs := rg (([15, 31, 47, 63].flatMap fun q => [(Reg.hstQCfg q, 16 + v * 2 ^ 30), (Reg.hstQIndex q, head + 65536 * tail)]) ++ regs) } }

/-- States and operands that meet the hypotheses of `Obligations.HostQueueCommandsComplete`, clause by clause. -/
theorem witness_HostQueueCommandsComplete :
    let c (q size ie : Nat) : Cmd := mt 0 (by8 [q, ie, 63, 0] ++ leBytes 4 size ++ leBytes 8 0x1000 ++ by8 [255, 0] ++ leBytes 2 1000)
    let e (k q : Nat) : Cmd := mt 0 (by8 [k, q])
    let d := [dsAwaitWorld, dsOperational, dsRestart, dsSafeStop]
    let h : Cmd := ho 15
    (∀ q ∈ [0, 15, 16, 31, 47, 63], Sent (mkB dsRestart) (c q 4096 1) roleOperator d ∧ u8 (cArg (c q 4096 1)) 0 = q ∧ createArgsOk (cArg (c q 4096 1)) = true ∧
        notAdmin (c q 4096 1) = false ∧ cObj (c q 4096 1) = 0 ∧ (mkB dsRestart).out.qState q = qDisabled) ∧
      ((hqB 0 0 0 {} [(Reg.hstQCfg 31, 2 ^ 30)]).out.qUp (15 + 16) = true ∧ (mkB dsRestart).out.qUp (15 + 16) = false ∧ createArgsOk (cArg (c 63 63 0)) = false ∧
        createArgsOk (cArg (c 15 16 0)) = true ∧ createArgsOk (cArg (c 15 15 0)) = false) ∧
      ((hqB 1 0 0).out.qState 15 ≠ qDisabled ∧ (hqB 1 0 0).out.qState 31 ≠ qDisabled ∧ (hqB 1 0 0).out.qState (31 - 16) ≠ qDisabled ∧
        (hqB 1 0 0 {} [(Reg.hstQCfg 15, 0)]).out.qState 47 ≠ qDisabled) ∧
      (Sent (hqB 1 0 0) (e 0x15 47) roleOperator d ∧ u8 (cArg (e 0x15 47)) 0 ≤ 0x15 ∧ 32 ≤ u8 (cArg (e 0 32)) 1 ∧ u8 (cArg (e 0x15 47)) 1 ≤ 47 ∧ 0x15 < u8 (cArg (e 0x16 32)) 0 ∧
        u8 (cArg (e 0 31)) 1 < 32 ∧ 47 < u8 (cArg (e 0 48)) 1) ∧
      (h.issuer = .host 15 ∧ (15 : Fin 16).val ≠ 0 ∧ Sent (hqB 1 0 0) h roleOperator d ∧ cObj h = 0) ∧ (63 < 64 ∧ 4096 ≤ 4096 ∧ 0 ≠ 63) := by
  simp only [Sent]; and_intros <;> decide +kernel

/-- States and operands that meet the hypotheses of `Obligations.HostQueuesProceed`, clause by clause. -/
theorem witness_HostQueuesProceed :
    let slot (c : Completion) : Slot := { src := 15, opcode := 0x1301, tag := 0, first := some c }
    let c : Completion := { status := stDone, reason := 0, time := 5 }
    let ad : Block := { mkB dsOperational with out := { regs := rg [(Reg.adminSize, 0x01000100), (Reg.adminCmdBase, 0x1000), (Reg.adminCplBase, 0x2000)] } }
    ((hqB 0 0 0).out.qUp 63 = false ∧ (hqB 1 0 5).out.qUp 63 = true ∧ (hqB 1 0 5).out.dbValid 63 6 = false ∧ (hqB 1 0 5).out.dbValid 15 15 = true ∧
        (hqB 1 0 5).out.dbValid 15 16 = false ∧ (hqB 1 0 5).out.dbValid 47 4 = true ∧ 4 ≠ (hqB 1 0 5).out.qTail 47) ∧
      ((1#32).toNat.testBit 0 = true ∧ (hqB 1 0 0).bit Reg.adminCtrl 0 = false ∧ (hqB 1 0 0).out.adminOk = false ∧ ad.out.adminOk = true ∧ ad.bit Reg.adminCtrl 0 = false ∧
        (0#32).toNat.testBit 0 = false ∧ ({ mkB dsOperational with out := { regs := rg [(Reg.adminCtrl, 1)] } } : Block).bit Reg.adminCtrl 0 = true) ∧
      ((∀ op ∈ [0x1301, 0xFFFF], (hqB 1 0 1).started = true ∧ (hqB 1 0 1).out.nextFetch = some 15 ∧ (hqB 1 0 1).out.mayFetch 15 (entriesFor (u16 (leBytes 2 op ++ zeroBytes 6) 0)) = true ∧
          (u8 (leBytes 2 op ++ zeroBytes 6) 4).testBit 1 = false ∧ opcodeDefined (u16 (leBytes 2 op ++ zeroBytes 6) 0) = (op == 0x1301)) ∧
        (mkB dsOperational).out.nextFetch ≠ some 15) ∧
      ((hqB 1 0 1 { slots := [slot c] }).out.qUp (15 + 16) = true ∧ (hqB 1 0 1 { slots := [slot c] }).out.slots = [slot c] ∧ (slot c).src = 15 ∧ (slot c).lost = 0 ∧ (slot c).two = false ∧
        (slot c).firstWritten = false ∧ (slot c).first = some c) ∧
      (let l := hqB 1 0 5 { q := [(47, { lost := 1 })] }
       (tget ({} : QueueSt) l.out.q (32 + 15)).lost ≠ 0 ∧ l.out.qUp 47 = true ∧ l.out.qRoom 47 ≠ 0 ∧ (hqB 1 0 15).out.qRoom 47 = 0) ∧
      (let l := hqB 1 0 5 { q := [(63, { unsig := 1, since := 1000 })] } [(Reg.hstQCoal 63, 8 * 65536)]
       (tget ({} : QueueSt) l.out.q 63).unsig ≠ 0 ∧ fldR l.out.regs (Reg.hstQCoal 63) 16 10 = 8 ∧
         (tget ({} : QueueSt) l.out.q 63).since + 1000 * 8 ≤ l.now ∧ l.out.qUp 63 = true ∧ l.out.qHead 63 ≠ l.out.qTail 63 ∧ l.now < 1001 + 1000 * 8) ∧
      ((hqB 2 0 0).out.qUp 15 = true ∧ (hqB 1 0 0).started = true) := by
  and_intros <;> decide +kernel

/-- A request frame of a type, role and counter for a body. -/
def lfr (typ role ctr : Nat) (body mac : List Byte) : List Byte :=
  let h := by8 [0x53, 0x48, 0x10, typ] ++ leBytes 2 body.length ++ by8 [role, 0] ++ leBytes 4 ctr ++ body ++ padTo 16 mac
  h ++ leBytes 4 (crc32 h)
/-- A controller whose firmware serves the link, with slots that are held and what the link remembers. -/
def lkB (n : Nat := 0) (m : Mgmt := { firmware := true }) : Block :=
  { mkB dsOperational with mgmt := m,
                           out := { slots := List.replicate n { src := 0xFFFF, opcode := 1, tag := 0, first := some { status := stDone, reason := 0, time := 0 } } } }

/-- States and operands that meet the hypotheses of `Obligations.ManagementCommandsComplete`, clause by clause. -/
theorem witness_ManagementCommandsComplete :
    let c (r : Fin 4) (a : List Nat) : Cmd := { mt 0 (by8 a) with issuer := .mgmt r }
    let e : LogEntry := { time := 0, seq := 7, source := 1, code := 1, timeValid := true }
    let g : Block := lkB 0 { firmware := true, log := [e] }
    ((lkB).linkUp = true ∧ (lkB).romService = false ∧ envCheck (c 0 []) = none ∧ cObj (c 0 []) = 0 ∧ (c 1 []).issuer = .mgmt 1 ∧ (heldFrom true (lkB 1).out.slots).isSome = true ∧
        heldFrom true (lkB).out.slots = none ∧ (lkB).mgmt.events = []) ∧
      (let a := cArg (c 1 [0xD8, 0xFF, 0xFF, 3, 10])
       u32 a 0 % 4 = 0 ∧ u8 a 4 = 10 ∧ u32 a 0 + 4 * u8 a 4 ≤ 0x4000000 ∧ envCheck (c 1 [0xD8, 0xFF, 0xFF, 3, 10]) = none) ∧
      (let a := cArg (c 2 [0xFC, 0xFF, 0xFF, 3, 1, 0, 0, 0])
       u32 a 0 % 4 = 0 ∧ u32 a 0 < 0x4000000 ∧ u32 (cArg (c 2 [0xFF, 0, 0, 0, 0, 0, 0, 0])) 0 % 4 ≠ 0 ∧ 0x4000000 ≤ u32 (cArg (c 2 [0, 0, 0, 4, 0, 0, 0, 0])) 0) ∧
      (g.mgmt.entry (u32 (cArg (c 1 [7, 0, 0, 0])) 0) = some e ∧ g.mgmt.entry (u32 (cArg (c 1 [8, 0, 0, 0])) 0) = none) ∧
      (u8 (cArg (c 1 [5])) 0 < 6 ∧ 6 ≤ u8 (cArg (c 1 [6])) 0 ∧ u8 (cArg (c 3 [0x15])) 0 ≤ 0x15 ∧ u8 (cArg (c 3 [1])) 0 ≤ 1 ∧ (lkB).firmwareReason {} (u8 (cArg (c 3 [1])) 0) ≠ 0) ∧
      (let a := cArg (c 3 [4, 254, 0x7F])
       u8 a 0 ≤ 4 ∧ 1 ≤ u8 a 1 ∧ u8 a 1 ≤ 254 ∧ u8 a 2 ≤ 0x7F) ∧ (lkB 0 { restarting := true }).linkUp = false := by
  and_intros <;> decide +kernel

/-- A slot whose firmware passes its checks: whether one does lies in `Config.ecdsaVerify`, which has no value; MGT.MI_RESTART then restarts the MI. -/
theorem witness_firmware (b : Block) (f : Fuses) (h : b.firmwareReason f 1 = 0) :
    b.firmwareReason f (u8 (cArg (mt 0 (by8 [1]))) 0) = 0 ∧ u8 (cArg (mt 0 (by8 [1]))) 0 ≤ 1 := by
  have e : u8 (cArg (mt 0 (by8 [1]))) 0 = 1 := by decide +kernel
  rw [e]
  exact ⟨h, by decide⟩

/-- The MAC of a request has no value; a frame that carries it is authentic. -/
theorem witness_authentic (f : Fuses) :
    let b := lkB 0 { firmware := true, nonce := some [] }
    let body := leBytes 2 0x1402 ++ zeroBytes 62
    let h := by8 [0x53, 0x48, 0x10, 1] ++ leBytes 2 body.length ++ by8 [3, 0] ++ leBytes 4 1 ++ body
    let fr := lfr 1 3 1 body (frameMac f [] 3 h)
    u8 fr 6 = 3 ∧ b.authentic f fr = true := by
  intro b body h fr
  have hl (m : List Byte) : (padTo 16 m).length = 16 := by
    simp only [padTo, List.length_take, List.length_append, List.length_replicate]; omega
  have hs (t : List Byte) (m : List Byte) : slice (h ++ padTo 16 m ++ t) 76 16 = padTo 16 m := by
    have h76 : h.length = 76 := by decide +kernel
    simp only [slice, List.append_assoc]
    rw [List.drop_left' h76, List.take_left' (hl m)]
  have ht (t : List Byte) (m : List Byte) : (h ++ padTo 16 m ++ t).take 76 = h := by
    have h76 : h.length = 76 := by decide +kernel
    simp only [List.append_assoc]
    rw [List.take_left' h76]
  have e : fr = h ++ padTo 16 (frameMac f [] 3 h) ++ leBytes 4 (crc32 (h ++ padTo 16 (frameMac f [] 3 h))) := rfl
  have h8 (i : Nat) (hi : i < 76) : u8 fr i = u8 h i := by
    have h76 : h.length = 76 := by decide +kernel
    rw [e, List.append_assoc]
    simp only [u8, List.getD_append _ _ _ i (h76 ▸ hi)]
  have h1 : u16 fr 4 = 64 := by simp only [u16, h8 4 (by decide), h8 (4 + 1) (by decide)]; decide +kernel
  have h2 : u8 fr 6 = 3 := by rw [h8 6 (by decide)]; decide +kernel
  have h3 : u32 fr 8 = 1 := by
    simp only [u32, u16, h8 8 (by decide), h8 (8 + 1) (by decide), h8 (8 + 2) (by decide), h8 (8 + 2 + 1) (by decide)]; decide +kernel
  refine ⟨h2, ?_⟩
  have hb : b.mgmt.nonce = some [] := rfl
  have hc : b.mgmt.counters = [] := rfl
  have key (l : List Byte) (k2 : u8 l 6 = 3) (k1 : u16 l 4 = 64) (k3 : u32 l 8 = 1)
      (k4 : slice l 76 16 = padTo 16 (frameMac f [] 3 (l.take 76))) : b.authentic f l = true := by
    simp [Block.authentic, k1, k2, k3, hb, hc, k4, tget, tget?]
  exact key fr h2 h1 h3 (by rw [e, hs, ht])

/-- States and operands that meet hypotheses of `Obligations.ManagementLinkProceeds`, clause by clause. -/
theorem witness_LinkRequestsAreAuthenticated :
    let body (op : Nat) := leBytes 2 op ++ zeroBytes 62
    let hello := lfr 1 0 0 (body 0x1401) []
    let other := lfr 1 3 0 (body 0x1402) []
    let k : Block := lkB 0 { firmware := true, backoff := true }
    (lkB).linkUp = true ∧ (lkB 0 { restarting := true }).linkUp = false ∧ (lkB).mgmt.newLink = none ∧
      ((lkB).frameOk [] = false ∧ u16 (lfr 1 0 0 (zeroBytes 63) []) 4 < 64 ∧ (lkB).frameOk (lfr 1 0 0 (zeroBytes 63) []) = true) ∧
      ((lkB).frameOk hello = true ∧ (lkB).frameOk other = true ∧ 64 ≤ u16 hello 4 ∧ u8 hello 3 = 1 ∧ k.mgmt.backoff = true ∧ k.frameOk other = true ∧
        u16 (slice other 12 (u16 other 4)) 0 ≠ 0x1401 ∧ u16 (slice hello 12 (u16 hello 4)) 0 = 0x1401 ∧ (lkB).authentic {} other = false ∧ (lkB).authentic {} hello = true ∧
        16 ≤ (lkB 16).heldCount ∧ (lkB 15).heldCount < 16 ∧ (lkB 16).frameOk hello = true ∧ linkArgsOk (slice hello 12 (u16 hello 4)) = true ∧
        u16 (slice hello 12 (u16 hello 4)) 0 ≠ 0x1402) ∧
      ((lkB 0 { authRun := 15 }).mgmt.authRun = 15 ∧ (lkB).mgmt.authRun ≠ 15) := by
  and_intros <;> decide +kernel

/-- States and operands that meet hypotheses of `Obligations.ManagementLinkProceeds`, clause by clause. -/
theorem witness_ManagementIslandProceeds :
    let m (n : Nat) : Mgmt := { firmware := true, response := zeroBytes n }
    ((m 256).respRead + min 300 255 < (m 256).response.length ∧ (m 255).response.length ≤ (m 255).respRead + min 300 255) ∧
      (let b : Block := { lkB 0 { backoff := true, backoffSince := 5 } with elapsed := 1000000005 }
       b.mgmt.backoff = true ∧ b.mgmt.backoffSince + 1000000000 ≤ b.elapsed ∧ (lkB).mgmt.backoff = false ∧ ({ b with elapsed := 1000000004 } : Block).elapsed < 5 + 1000000000) ∧
      ((lkB).linkUp = true ∧ (lkB 0 { restarting := true }).linkUp = false ∧ (lkB 0 { restarting := true }).boot.por = false ∧ (lkB).mgmt.newLink = none ∧ 5 < 6 ∧ 10 < 11) := by
  and_intros <;> decide +kernel

/-! ### Witnesses: whole-machine statements and further rules -/

/-- States that meet the hypotheses of `AStepRunsTheFrontCommand`, `EveryStepAnswersANextState`, `FusesOnlyGrow`, `TheSafetyIslandIsIsolated`,
`SafeStateIsLeftOnlyByAReset` and `BootRefusesEveryCommand`. -/
theorem witness_wholeMachine :
    let s : State := st (mkB dsOperational)
    let w : State := { s with si := { state := siSafe }, pending := [.porNAssert 1000] }
    let h : Cmd := ho 15
    ({ s with pending := [.refclkValidAtBoot] } : State).pending = .refclkValidAtBoot :: [] ∧ s.pending = [] ∧ FusesOk State.reset.fuses ∧
      reachesIsland (.ledgerUpdate) = false ∧ w.si.state = siSafe ∧ resetsIsland (.porNAssert 1000) = true ∧
      (opcodeOf (.cntRestart (mt)) = some (0x0901, mt) ∧ (mkB dsBoot).dev = dsBoot ∧ (mt).issuer = .mgmt 3 ∧ h.issuer = .host 15 ∧ linkOnly 0x0901 = false ∧
        opcodeOf (.safParamConfirm h) = some (0x1202, h) ∧ linkOnly 0x1202 = true) := by
  and_intros <;> decide +kernel

/-- States that meet the hypotheses of `ARestartDuringARestartIsRefused`, `DoneWinsOverTheBudget` and `BankAndSlotCommandsWaitTheirTurn`. -/
theorem witness_furtherRules :
    let f : FormJ := ⟨0⟩
    let c := mt 0 (by8 [1])
    let w := mx (by8 [1, 0, 0, 0] ++ leBytes 4 0 ++ leBytes 4 1 ++ by8 [9])
    let r (v : Nat) : Block := mkB dsOperational [(Reg.imgBank, v)]
    let o := opB dsOperational (some { kind := 1, slot := 0, op := opOf c 0x0201 })
    ((mkB dsRestart).dev = dsRestart ∧ authCheck c (if (u8 (cArg c) 0).testBit 0 then roleMaintainer else roleOperator) = none) ∧
      (Runs (engB) 39 actW ∧ f.imm = 0 ∧ ((engB {} [] [] { actW with committing := true }).eng 39).act = some { actW with committing := true }) ∧
      (Sent (r 0) (mt) roleOperator devRun ∧ Sent (r 8) (mt) roleOperator devRun ∧ cObj (mt) = 0 ∧ (r 8).bankState = bkPending ∧ (r 0).bankState = bkOpen) ∧
      (o.boot.op.isSome = true ∧ u8 (cArg w) 0 ≤ 1 ∧ Sent o w roleMaintainer devAll ∧ cExt w = true ∧ u32 (cArg w) 8 = ((cArg w).drop 12).length ∧
        u32 (cArg w) 4 + u32 (cArg w) 8 ≤ slotSize ∧ o.runningSlot ≠ some (u8 (cArg w) 0) ∧ Sent o c roleObserver devAll ∧
        Sent o c roleMaintainer [dsAwaitWorld, dsOperational, dsSafeStop]) := by
  simp only [Sent, Runs]; and_intros <;> decide +kernel

/-! ### Terms that the well-formedness checks refuse -/

/-- A command that reaches the controller. -/
theorem test_wf_command : (mt 0x10005F (by8 [1])).wf = true ∧ (ho 15 (zeroBytes 48)).wf = true ∧ (mx (zeroBytes 1024)).wf = true := by decide +kernel
theorem test_wf_refuses_argument_room : ({ mt with args := zeroBytes 47 } : Cmd).wf = false := by decide
theorem test_wf_refuses_ext_length : ({ mx [] with arglen := 1 } : Cmd).wf = false := by decide
theorem test_wf_refuses_link_length : ({ mx (zeroBytes 1025) with arglen := 1025 } : Cmd).wf = false := by decide +kernel
theorem test_wf_refuses_frames :
    ({ data := zeroBytes 2049 } : CanFrame).wf = false ∧ ({ id := 0x800 } : CanFrame).wf = false ∧ ({ ide := true, id := 0x20000000 } : CanFrame).wf = false ∧
      ({ ide := true, id := 0x1FFFFFFF, data := zeroBytes 2048 } : CanFrame).wf = true := by decide +kernel
theorem test_wf_refuses_codes : codeWf 20 524288 = false ∧ codeWf 20 (-524289) = false ∧ codeWf 20 (-524288) = true := by decide
theorem test_wf_refuses_function_code :
    (⟨1, 2, 3, 0x001⟩ : FormA).wf 0x00 0x00 = false ∧ (⟨1, 2, 3, 0x000⟩ : FormA).wf 0x00 0x00 = true ∧ (⟨1, 2, 3, 0x7FF⟩ : FormA).wf 0x00 0x00 = true := by decide
theorem test_wf_refuses_operands :
    (Instr.canFrameReceived 7 { id := 0x800 }).wf = false ∧ (Instr.safeCopyReceived 1 { id := 0x800 }).wf = false ∧ (Instr.brakeTestRequest 3 { id := 0x800 }).wf = false ∧
      (Instr.sarConversionEnd 5 524288).wf = false ∧ (Instr.bridgeOutput 7 134217728 5000).wf = false ∧ (Instr.fastStoredSample 7 []).wf = false ∧
      (Instr.fastStoredSample 7 (List.replicate 65 0)).wf = false ∧ (Instr.fastStoredSample 7 [524288]).wf = false ∧
      (Instr.commandFetch 15 (zeroBytes 63)).wf = false ∧ (Instr.mgtHello mt (zeroBytes 15)).wf = false := by decide +kernel
theorem test_wf_refuses_offsets :
    (Instr.lowWordRead .host 2).wf = false ∧ (Instr.highWordWrite .host 2 0).wf = false ∧ (Instr.rcRead .host 2).wf = false ∧
      (Instr.unmappedAccess .host 2 true).wf = false ∧ (Instr.registerWrite .host 2 0).wf = false := by decide +kernel
theorem test_wf_refuses_measurements :
    (Instr.supplyEvaluation [1]).wf = false ∧ (Instr.thermalEvaluation [1]).wf = false ∧ (Instr.mirrorRefresh [1] (List.replicate 11 0)).wf = false ∧
      (Instr.mirrorRefresh (List.replicate 6 0) [1]).wf = false := by decide +kernel
theorem test_wf_refuses_rows :
    (Instr.insAdd 0 ⟨1, 2, 3, 0x001⟩).wf = false ∧ (Instr.insFadd 0 ⟨1, 2, 3, 0x001⟩).wf = false ∧ (Instr.insAmoAdd 0 ⟨1, 2, 3, 0x001⟩).wf = false ∧
      (Instr.insFence 0 ⟨1, 2, 3, 0x000⟩).wf = true ∧ (Instr.recConfig { mt with args := [] }).wf = false := by decide +kernel

/-! ### The command table gives no row bits -/

theorem test_decode_none : decodeTableWord 32 0x12345678 = none := rfl

/-! ### Single steps and operations, with the manual's own numbers -/

/-- The state after a step that runs one command. -/
def run1 (s : State) (i : Instr) : Option State := match step { s with pending := [i] } with | .next t => some t | _ => none
/-- A register of engine 39 after a step. -/
def reg39 (s : Option State) (d : Nat) : Option Word := s.map fun t => ((t.b.eng 39).ctx.get d)

/-- 08 R195: two's-complement sums wrap; v1 = 0x80000000, v2 = 0xFFFFFFFF, v4 = 7. -/
theorem test_add_wraps : reg39 (run1 (st (engB)) (.insAdd 39 ⟨3, 1, 2, 0x000⟩)) 3 = some 0x7FFFFFFF := by decide +kernel
theorem test_sub_order : reg39 (run1 (st (engB)) (.insSub 39 ⟨3, 4, 2, 0x001⟩)) 3 = some 8 := by decide +kernel
/-- 08 R195: −2³¹ × −1 = 2³¹ signed; 0x80000000 × 0xFFFFFFFF = 0x7FFFFFFF_80000000 unsigned. -/
theorem test_mulhi_signed : reg39 (run1 (st (engB)) (.insMulhi 39 ⟨3, 1, 2, 0x011⟩)) 3 = some 0 := by decide +kernel
theorem test_mulhiu_unsigned : reg39 (run1 (st (engB)) (.insMulhiu 39 ⟨3, 1, 2, 0x012⟩)) 3 = some 0x7FFFFFFF := by decide +kernel
theorem test_shrsk_copies_the_sign : reg39 (run1 (st (engB)) (.insShrsk 39 ⟨3, 1, 31, 0x022⟩)) 3 = some 0xFFFFFFFF := by decide +kernel
theorem test_cmplt_is_signed : reg39 (run1 (st (engB)) (.insCmplt 39 ⟨3, 1, 4, 0x008⟩)) 3 = some 1 := by decide +kernel
theorem test_cmpltu_is_unsigned : reg39 (run1 (st (engB)) (.insCmpltu 39 ⟨3, 1, 4, 0x009⟩)) 3 = some 0 := by decide +kernel
theorem test_itof : reg39 (run1 (st (engB)) (.insItof 39 ⟨3, 4, 0, 0x010⟩)) 3 = some 0x40E00000 := by decide +kernel
theorem test_v0_reads_zero : reg39 (run1 (st (engB)) (.insAddk 39 ⟨0, 4, 5⟩)) 0 = some 0 := by decide +kernel

/-- 02, the worked example of a running counter: the host reads the low word of 0x0000_0004_FFFF_FFFE, and its latch holds 0x0000_0004; the
high word it reads later comes from there. -/
theorem test_low_read_latches :
    ((run1 (st (mkB dsOperational [(Reg.lgrUpdates, 0xFFFFFFFE), (Reg.lgrUpdates + 4, 4)])) (.lowWordRead .host Reg.lgrUpdates)).map
      fun t => t.b.latch.map (·.2)) = some [4] := by decide +kernel

/-- 07, the worked example of the zone-1 heater: u = 4.35 V, i = 4.20 V; the plan coasts at 4.276 V at an age of 10 ms and at 4.2 V after 20 ms. -/
def heaterPlan : Plan := { points := [(0, 0x408B3333), (200000, 0x408B3333), (20000000, 0x40866666), (262144000, 0x40866666)] }
theorem test_heater_coasts :
    heaterPlan.value 200000 = 0x408B3333 ∧ 42755 ≤ 10000 * f32Rat (heaterPlan.value 10000000) ∧ 10000 * f32Rat (heaterPlan.value 10000000) ≤ 42765 ∧
      heaterPlan.value 24080000 = 0x40866666 := by decide +kernel

/-- 06, the worked example of the brown-out at t4: eight lamp zones of rank 2 at 25 and 15 kW, two dry pumps of 4 kW. -/
def brownOut : Block :=
  let lamp : List Byte := zeroBytes 4 ++ by8 [0, 0, 70, 2, 0, 0, 0xFF, 0xFF]
  let pump : List Byte := zeroBytes 4 ++ by8 [0, 0, 50, 15, 0, 0, 0xFF, 0xFF]
  let zone (c lane w m : Nat) : Nat × ConsSt := (c, { lane := lane, committed := w, admitted := w, min := m, rating := 30000, grant := (w : Rat) })
  { mkB dsOperational ([(Reg.lgrState, 1), (Reg.lgrResStatus 0, 1), (Reg.lgrResStatus 8, 1), (Reg.lgrResReserve 0, 10000), (Reg.lgrResReserve 8, 10000)] ++
      [0, 1, 2, 3, 4, 5, 6, 7, 14, 15].map fun c => (Reg.lgrConsStatus c, 1)) with
    now := 30000200000
    bankA := tbl ((key tLgrHead 0, by8 [16, 0, 1, 1, 0xE8, 3]) :: [(key tCons 14, pump), (key tCons 15, pump)] ++ (List.range 8).map fun c => (key tCons c, lamp))
    lgr := { cons := tbl ([zone 14 4 4000 0, zone 15 5 4000 0] ++ [0, 1, 2, 3].map (fun c => zone c 0 25000 20000) ++ [4, 5, 6, 7].map fun c => zone c 1 15000 12000),
             res := [(0, { declared := 180000, newCap := some 150000 }), (8, { declared := 150000 })] } }
theorem test_brown_out_sheds :
    (brownOut.ledgerUpdate.cons 0).limitF = some 20625 ∧ (brownOut.ledgerUpdate.cons 7).limitF = some 12375 ∧
      (brownOut.ledgerUpdate.cons 14).limitF = none ∧ brownOut.ledgerUpdate.shedding 0 = true ∧ brownOut.ledgerUpdate.shedding 8 = false := by decide +kernel
/-- 06, the same example: lane 0 of priority 10 and ceiling 6 has waited 1.7992 s. -/
theorem test_effective_priority :
    ({ mkB dsOperational [] [] with now := 4800100000, bankA := tbl [(key tLane 0, by8 [0, 10, 6])] } : Block).effPrio 0 3000900000 = 6 := by decide +kernel

/-- 15, the worked example: 0.4123 of a period of 12,500 ticks is a duty of 41,230 steps. -/
theorem test_hand_off_duty :
    ((mkB dsOperational [(Reg.pwmPairPeriodSh 4, 12500)]).handPair 4 0x3ED31932).rdN (Reg.pwmPairDutySh 4) = 41230 := by decide +kernel

/-- 13 R321: ±10 V in two's complement, 0..10 V in straight binary, saturating. -/
theorem test_dac_codes :
    (mkB dsOperational).dacCode 0 0x40A00000 = 16384 ∧ (mkB dsOperational).dacCode 0 0xC0A00000 = 49152 ∧ (mkB dsOperational).dacCode 0 0x41A00000 = 32767 ∧
      (mkB dsOperational [(Reg.anaDacState 0, 0x10000)]).dacCode 0 0x40A00000 = 32768 ∧ (mkB dsOperational [(Reg.anaDacState 0, 0x10000)]).dacCode 0 0x41200000 = 65535 := by
  decide +kernel

/-- The check values of CRC-32 (IEEE 802.3) and CRC-32C over the ASCII digits 1 to 9. -/
theorem test_crc_check_values :
    crc32 (by8 [0x31, 0x32, 0x33, 0x34, 0x35, 0x36, 0x37, 0x38, 0x39]) = 0xCBF43926 ∧
      crc32c (by8 [0x31, 0x32, 0x33, 0x34, 0x35, 0x36, 0x37, 0x38, 0x39]) = 0xE3069283 := by decide +kernel

/-- 14 R342: the mean of the codes × 4, to nearest even. -/
theorem test_stored_sample : storedSample [1, 2] = 6 ∧ storedSample [8191, 9000] = 32764 ∧ storedSample [0, 0, 0, 0, 0, 0, 0, 1] = 0 := by decide +kernel

end Sys2Proof.Tests
end

section
/-! Architecture (01): a restart asked for during a restart. -/

namespace Sys2Proof

open Sys2Proof.Machine

/-- A command to be accepted for later only reports when it is refused: its refusal is its completion (02 R43). -/
theorem accept_refused (b : Block) (op : Nat) (c : Cmd) (l : List (Option Refuse)) (eff : Block → Block) (r : Refuse)
    (h : firstRefusal l = some r) : b.accept op c l eff = b.complete op c r.status r.reason [] r.code := by
  simp [Block.accept, h]

/-- Outside the states a command is legal in, the device-state check is STATE_CONFLICT; only its reason depends on the state. -/
theorem devCheck_illegal (b : Block) (legal : List Nat) (h : b.dev ∉ legal) :
    ∃ rs, devCheck b legal = some { status := stConflict, reason := rs, code := b.dev } := by
  by_cases hclk : b.dev ≠ dsBoot ∧ (!b.refclk) = true
  · exact ⟨0x11, by simp only [devCheck, if_pos hclk]⟩
  · exact ⟨if b.dev = dsBoot then 0x10 else 0, by simp only [devCheck, if_neg hclk, List.contains_iff_mem, if_neg h]⟩

/-- The command of 10 R256 with authority, in a device state it is not legal in, is refused before anything is begun (10 R270). -/
theorem cntRestart_refused (s : State) (c : Cmd) (hdev : s.b.dev ∉ devCnt)
    (hauth : authCheck c (if (u8 (cArg c) 0).testBit 0 then roleMaintainer else roleOperator) = none) :
    ∃ rs, exec (.cntRestart c) s = .next { s with b := s.b.complete 0x0901 c stConflict rs [] s.b.dev } := by
  obtain ⟨rs, hstate⟩ := devCheck_illegal s.b devCnt hdev
  have hexec : exec (.cntRestart c) s = execCntRestart c s := rfl
  refine ⟨rs, ?_⟩
  rw [hexec, execCntRestart, nextB_eq, accept_refused (r := { status := stConflict, reason := rs, code := s.b.dev })]
  simp only [hauth, hstate, firstRefusal]

/-- Settles O58: CONTINUITY_RESTART is not a state in which a continuity restart is legal. -/
theorem aRestartDuringARestartIsRefused : Obligations.ARestartDuringARestartIsRefused := by
  unfold Obligations.ARestartDuringARestartIsRefused
  intro s c hdev hauth
  have hillegal : s.b.dev ∉ devCnt := by rw [hdev]; decide
  obtain ⟨rs, hexec⟩ := cntRestart_refused s c hillegal hauth
  exact ⟨rs, completes_of hexec⟩

end Sys2Proof
end

section
/-! Conventions (02): a step answers a next state and takes the front command off the queue, whatever the command. -/

namespace Sys2Proof

open Sys2Proof.Machine

/-! ### What leaves the queue as it is -/

/-- The outcome is a next state, and its queue is that of `s`. -/
def KeepsQueue (s : State) (o : Host.Outcome State Fault Refusal) : Prop := ∃ t, o = .next t ∧ t.pending = s.pending

theorem keepsQueue_next {s t : State} (h : t.pending = s.pending) : KeepsQueue s (.next t) := ⟨t, rfl, h⟩

/-- A choice between two states keeps the queue when both of them do. -/
theorem ite_pending {p : Prop} [Decidable p] {s t u : State} (ht : t.pending = s.pending) (hu : u.pending = s.pending) :
    (if p then t else u).pending = s.pending := by
  split
  · exact ht
  · exact hu

theorem loseRef_pending (s : State) : s.loseRef.pending = s.pending := ite_pending rfl rfl

theorem siTo_pending (s : State) (x : SiSt) (all : Bool) : (s.siTo x all).pending = s.pending := ite_pending rfl rfl

/-! ### The island's events (18) -/

/-- The state that `siStep` answers has the queue of `s`. -/
theorem siStepTo_pending (s : State) (x : SiSt) : (if s.b.islandUp then s.siTo x false else s).pending = s.pending :=
  ite_pending (siTo_pending s x false) rfl

theorem safetyCycle_keepsQueue (inp : SafetyInputs) (s : State) : KeepsQueue s (execSafetyCycle inp s) := by
  refine keepsQueue_next (ite_pending rfl ?_)
  dsimp only
  split
  · exact ite_pending (siTo_pending s _ _) (siTo_pending s _ _)
  · exact siTo_pending s _ _

theorem safParamApply_keepsQueue (s : State) : KeepsQueue s (execSafParamApply s) := by
  refine keepsQueue_next ?_
  split
  · rfl
  · exact ite_pending rfl (ite_pending rfl rfl)

/-! ### Resets, clocks and supplies (03, 22) -/

theorem porNAssert_keepsQueue (lowNs : Nat) (s : State) : KeepsQueue s (execPorNAssert lowNs s) :=
  keepsQueue_next (ite_pending rfl (ite_pending rfl (ite_pending rfl rfl)))

theorem porNRelease_keepsQueue (refclkOk panelLow testEn : Bool) (s : State) :
    KeepsQueue s (execPorNRelease refclkOk panelLow testEn s) := keepsQueue_next (ite_pending rfl rfl)

theorem refclkValidAtBoot_keepsQueue (s : State) : KeepsQueue s (execRefclkValidAtBoot s) :=
  keepsQueue_next (ite_pending rfl rfl)

theorem signatureVerified_keepsQueue (s : State) : KeepsQueue s (execSignatureVerified s) :=
  keepsQueue_next (ite_pending rfl (ite_pending rfl rfl))

theorem coldRestartReset_keepsQueue (s : State) : KeepsQueue s (execColdRestartReset s) := by
  refine keepsQueue_next ?_
  split
  · rfl
  · rfl

theorem refclkLost_keepsQueue (s : State) : KeepsQueue s (execRefclkLost s) := keepsQueue_next (loseRef_pending s)

theorem refclkRestored_keepsQueue (s : State) : KeepsQueue s (execRefclkRestored s) := keepsQueue_next (ite_pending rfl rfl)

theorem pllUnlock_keepsQueue (pll : Fin 4) (s : State) : KeepsQueue s (execPllUnlock pll s) := by
  refine keepsQueue_next (ite_pending rfl ?_)
  dsimp only
  split
  · exact loseRef_pending _
  all_goals rfl

theorem supplyEvaluation_keepsQueue (mv : List Nat) (s : State) : KeepsQueue s (execSupplyEvaluation mv s) :=
  keepsQueue_next (ite_pending rfl (ite_pending (siTo_pending _ _ _) rfl))

theorem brownout_keepsQueue (s : State) : KeepsQueue s (execBrownout s) := keepsQueue_next (ite_pending rfl rfl)

theorem thermalEvaluation_keepsQueue (temps : List Int) (s : State) : KeepsQueue s (execThermalEvaluation temps s) :=
  keepsQueue_next (ite_pending rfl (ite_pending (ite_pending rfl rfl) (ite_pending rfl rfl)))

/-! ### Requests over the link (20) -/

/-- A row that the link can run changes the block and the fuses alone (20 R482). -/
theorem rowOf_keepsQueue {op : Nat} {row : Cmd → State → Host.Outcome State Fault Refusal} (h : rowOf op = some row)
    (c : Cmd) (s : State) : KeepsQueue s (row c s) := by
  unfold rowOf at h
  split at h
  all_goals cases h
  all_goals exact ⟨_, rfl, rfl⟩

theorem linkRun_pending (s : State) (role counter op : Nat) (body : List Byte) :
    (s.linkRun role counter op body).pending = s.pending := by
  unfold State.linkRun
  dsimp only
  split
  · rfl
  · next row hrow =>
    obtain ⟨t, ht, hpending⟩ := rowOf_keepsQueue hrow (linkCmd role body) s
    rw [ht]
    exact ite_pending hpending hpending

theorem linkFrame_pending (s : State) (fr : List Byte) : (s.linkFrame fr).pending = s.pending :=
  ite_pending rfl (ite_pending rfl (ite_pending rfl (ite_pending rfl (ite_pending rfl (ite_pending rfl
    (linkRun_pending _ _ _ _ _))))))

theorem shavorRequest_keepsQueue (frame : List Byte) (gapOk : Bool) (s : State) :
    KeepsQueue s (execShavorRequest frame gapOk s) :=
  keepsQueue_next (ite_pending rfl (ite_pending (linkFrame_pending s frame) rfl))

theorem smbusBlockWrite_keepsQueue (last : Bool) (piece : List Byte) (pecOk : Bool) (s : State) :
    KeepsQueue s (execSmbusBlockWrite last piece pecOk s) :=
  keepsQueue_next (ite_pending rfl (ite_pending rfl (ite_pending (linkFrame_pending _ _) rfl)))

/-! ### Every command -/

theorem exec_keepsQueue (i : Instr) (s : State) : KeepsQueue s (exec i s) := by
  cases i
  case porNAssert lowNs => exact porNAssert_keepsQueue lowNs s
  case porNRelease refclkOk panelLow testEn => exact porNRelease_keepsQueue refclkOk panelLow testEn s
  case refclkValidAtBoot => exact refclkValidAtBoot_keepsQueue s
  case signatureVerified => exact signatureVerified_keepsQueue s
  case coldRestartReset => exact coldRestartReset_keepsQueue s
  case refclkLost => exact refclkLost_keepsQueue s
  case refclkRestored => exact refclkRestored_keepsQueue s
  case pllUnlock pll => exact pllUnlock_keepsQueue pll s
  case supplyEvaluation mv => exact supplyEvaluation_keepsQueue mv s
  case brownout => exact brownout_keepsQueue s
  case thermalEvaluation temps => exact thermalEvaluation_keepsQueue temps s
  case shavorRequest frame gapOk => exact shavorRequest_keepsQueue frame gapOk s
  case smbusBlockWrite last piece pecOk => exact smbusBlockWrite_keepsQueue last piece pecOk s
  case safetyCycle inp => exact safetyCycle_keepsQueue inp s
  case safParamApply => exact safParamApply_keepsQueue s
  -- the island's own events are steps of the island
  case siSelfTestEnd | siParamsAccepted | periodicSelfTest | siClockFail | safeCopyReceived | skewExpiry | connectionTimeout |
      graceExpiry | discrepancyExpiry | resetPress | stopDelayExpiry | testPulse | edmTimeExpiry | brakeTestPulse |
      brakeTestRequest | applyMsExpiry | testWindowEnd | brakeOverdue | brakeGraceExpiry | safetyCounterEdge =>
    exact ⟨_, rfl, siStepTo_pending s _⟩
  -- every other row writes the block, or the block and the fuses: its next state is `s` with those replaced
  all_goals exact ⟨_, rfl, rfl⟩

/-- Settles O51: both are the two branches of `step`. -/
theorem aStepRunsTheFrontCommand : Obligations.AStepRunsTheFrontCommand := by
  unfold Obligations.AStepRunsTheFrontCommand
  constructor
  · intro s c rest hfront
    unfold step
    rw [hfront]
  · intro s hempty
    refine ⟨s.b.tick, ?_⟩
    unfold step
    rw [hempty]

/-- Settles O52: the front command runs on the queue's rest, and no command touches the queue; a tick leaves the empty one empty. -/
theorem everyStepAnswersANextState : Obligations.EveryStepAnswersANextState := by
  unfold Obligations.EveryStepAnswersANextState
  intro s
  obtain ⟨hrun, htick⟩ := aStepRunsTheFrontCommand
  cases hq : s.pending with
  | nil =>
    obtain ⟨b, hb⟩ := htick s hq
    exact ⟨_, hb, hq⟩
  | cons c rest =>
    rw [hrun s c rest hq]
    exact exec_keepsQueue c { s with pending := rest }

end Sys2Proof
end

section
/-! Conventions (02): what reaches a register, what is refused, and what a write or a read of a register word does. -/

namespace Sys2Proof

open Sys2Proof.Machine

/-! ### Bits of a register word (02 R27) -/

/-- A word is its bits outside a mask and its bits in it. -/
theorem and_not_add_and (o m : Word) : (o &&& ~~~m) + (o &&& m) = o := by
  rw [BitVec.add_eq_or_of_and_eq_zero]
  · ext i
    simp only [BitVec.getElem_or, BitVec.getElem_and, BitVec.getElem_not]
    cases o[i] <;> cases m[i] <;> rfl
  · ext i
    simp only [BitVec.getElem_and, BitVec.getElem_not, BitVec.getElem_zero]
    cases o[i] <;> cases m[i] <;> rfl

/-- Subtracting the masked part of a word clears the mask's bits in it. -/
theorem ofNat_sub_and (o : Word) (m : Nat) : BitVec.ofNat 32 (o.toNat - (o.toNat &&& m)) = o &&& ~~~(BitVec.ofNat 32 m) := by
  have hle : o.toNat &&& m ≤ o.toNat := Nat.and_le_left
  rw [← BitVec.ofNat_sub_ofNat_of_le _ _ (by omega) hle, BitVec.ofNat_and, BitVec.ofNat_toNat, BitVec.setWidth_eq]
  exact (eq_sub_of_add_eq (and_not_add_and o _)).symm

/-! ### Who may write a register (02 R28) -/

/-- Is a write refused by the row's writer set or by a lock (02 R28)? -/
def rowRefuses (b : Block) (ini : Ini) (off : Nat) (r : RegRow) : Bool := !r.allows ini || (r.acc == .rwl && b.lockedAt off)

theorem rowRefuses_iff (b : Block) (ini : Ini) (off : Nat) (r : RegRow) :
    rowRefuses b ini off r = true ↔ r.allows ini = false ∨ (r.acc = .rwl ∧ b.lockedAt off = true) := by
  simp [rowRefuses]

theorem rowRefuses_of_reaches {b : Block} {ini : Ini} {off : Nat} {r : RegRow} {hi : Bool} (h : Reaches b ini off r hi) :
    rowRefuses b ini off r = false := by
  obtain ⟨-, -, hallow, hlock, -⟩ := h
  rw [Bool.eq_false_iff, Ne, rowRefuses_iff]
  rintro (hno | ⟨hrwl, hlocked⟩)
  · simp [hallow] at hno
  · simp [hlock hrwl] at hlocked

/-- An engine's write of a register traps where the row refuses it, and one to no register traps (02 R28, R31). -/
theorem writeTraps_row {off : Nat} {r : RegRow} {hi : Bool} (b : Block) (ini : Ini) (h : regAt off = some (r, hi)) :
    b.writeTraps ini off = rowRefuses b ini off r := by
  simp only [Block.writeTraps, h, rowRefuses]

theorem writeTraps_none {off : Nat} (b : Block) (ini : Ini) (h : regAt off = none) : b.writeTraps ini off = true := by
  simp only [Block.writeTraps, h]

/-! ### Writes (02 R27–R31, R37) -/

theorem registerWrite_gives_writeBy {ini : Ini} {off : Nat} {p : RegRow × Bool} (s : State) (v : Word)
    (h : regAt off = some p) :
    Gives s (.registerWrite ini off v) (s.b.writeBy ini off v) := by
  have hexec : exec (.registerWrite ini off v) s = execRegisterWrite ini off v s := rfl
  rw [Gives, hexec, execRegisterWrite, nextB_eq, h, Option.isSome_some, if_pos rfl]

/-- A write of a responding block's register word is refused or goes in, as its row says. -/
theorem regWrite_row {b : Block} {ini : Ini} {off : Nat} {r : RegRow} {hi : Bool} (v : Word) (hrow : regAt off = some (r, hi))
    (hwin : b.memWindow off = none) (hsilent : (iniCounts ini && b.silent off) = false) :
    b.regWrite ini off v = if rowRefuses b ini off r then b.refuseWrite ini else b.writeIn ini r hi off v := by
  rw [Block.regWrite, hsilent, hwin, hrow]
  rfl

/-- A write that reaches its register goes in, whoever writes. -/
theorem writeBy_of_reaches {b : Block} {ini : Ini} {off : Nat} {r : RegRow} {hi : Bool} (v : Word) (h : Reaches b ini off r hi) :
    b.writeBy ini off v = b.writeIn ini r hi off v := by
  have hopen := rowRefuses_of_reaches h
  obtain ⟨hrow, hwin, -, -, hini⟩ := h
  have hin (hsilent : (iniCounts ini && b.silent off) = false) : b.regWrite ini off v = b.writeIn ini r hi off v := by
    rw [regWrite_row v hrow hwin hsilent, hopen]
    rfl
  cases ini with
  | engine e =>
    obtain ⟨hissuer, hkernel, hfresh⟩ := hini
    have htraps : (!(b.eng e.val).ctx.kernel || b.writeTraps (.engine e) off) = false := by
      rw [writeTraps_row b _ hrow, hopen, hkernel]
      rfl
    simp only [Block.writeBy, Option.isNone_eq_false_iff.2 hissuer, htraps, hfresh, Bool.false_eq_true, if_false]
    exact hin rfl
  | host => exact hin hini
  | mgmt => exact hin hini
  | island => exact hin rfl

/-- A refused write of an initiator whose refusals are counted is counted, in a silent block too. -/
theorem writeBy_refused_counts {b : Block} {ini : Ini} {off : Nat} {r : RegRow} {hi : Bool} (v : Word)
    (hrow : regAt off = some (r, hi)) (hwin : b.memWindow off = none) (href : rowRefuses b ini off r = true)
    (hcounts : iniCounts ini = true) : b.writeBy ini off v = b.count Reg.sysWriteRefused := by
  have hrefuse : b.refuseWrite ini = b.count Reg.sysWriteRefused := by rw [Block.refuseWrite, if_pos hcounts]
  have hwrite : b.regWrite ini off v = b.count Reg.sysWriteRefused := by
    cases hsilent : b.silent off with
    | true => rw [Block.regWrite, hcounts, hsilent, ← hrefuse]; rfl
    | false => rw [regWrite_row v hrow hwin (by rw [hsilent, Bool.and_false]), href, if_pos rfl, hrefuse]
  cases ini with
  | engine e => simp [iniCounts] at hcounts
  | island => simp [iniCounts] at hcounts
  | host => exact hwrite
  | mgmt => exact hwrite

/-- A write that traps, of an engine that runs an activation, traps ACCESS. -/
theorem writeBy_traps {b : Block} {e : Fin 40} {off : Nat} (v : Word) (hissuer : (b.issuer e).isSome = true)
    (htraps : b.writeTraps (.engine e) off = true) : b.writeBy (.engine e) off v = b.trapOn e 3 (0x40000000 + off) := by
  simp only [Block.writeBy, Option.isNone_eq_false_iff.2 hissuer, htraps, Bool.or_true, if_true, Bool.false_eq_true, if_false]
  rfl

/-! ### Writes of 32-bit registers (02 R27) -/

section
variable {b : Block} {ini : Ini} {off : Nat} {v : Word} {r : RegRow}

theorem ofNat_and_regMask : BitVec.ofNat 32 (v.toNat &&& regMask off) = v &&& BitVec.ofNat 32 (regMask off) := by
  rw [BitVec.ofNat_and, BitVec.ofNat_toNat, BitVec.setWidth_eq]

theorem write32_stores (hop : b.writeOp ini off v = none) (hacc : r.acc = .rw ∨ r.acc = .rwl) :
    b.write32 ini r off v =
      b.wr off ((b.rd off &&& ~~~(BitVec.ofNat 32 (regMask off))) ||| (v &&& BitVec.ofNat 32 (regMask off))) := by
  have hword : BitVec.ofNat 32 ((b.rdN off - (b.rdN off &&& regMask off)) ||| (v.toNat &&& regMask off)) =
      (b.rd off &&& ~~~(BitVec.ofNat 32 (regMask off))) ||| (v &&& BitVec.ofNat 32 (regMask off)) := by
    rw [BitVec.ofNat_or, ofNat_and_regMask, Block.rdN, ofNat_sub_and]
  obtain hrw | hrwl := hacc
  · simp only [Block.write32, hop, hrw, Block.wrN, hword]
  · simp only [Block.write32, hop, hrwl, Block.wrN, hword]

theorem write32_clears (hop : b.writeOp ini off v = none) (hacc : r.acc = .w1c) :
    b.write32 ini r off v = b.wr off (b.rd off &&& ~~~v) := by
  have hword : BitVec.ofNat 32 (b.rdN off - (b.rdN off &&& v.toNat)) = b.rd off &&& ~~~v := by
    rw [Block.rdN, ofNat_sub_and, BitVec.ofNat_toNat, BitVec.setWidth_eq]
  simp only [Block.write32, hop, hacc, Block.wrN, hword]

theorem write32_sets (hop : b.writeOp ini off v = none) (hacc : r.acc = .w1s) :
    b.write32 ini r off v = b.wr off (b.rd off ||| (v &&& BitVec.ofNat 32 (regMask off))) := by
  have hword : BitVec.ofNat 32 (b.rdN off ||| (v.toNat &&& regMask off)) =
      b.rd off ||| (v &&& BitVec.ofNat 32 (regMask off)) := by
    rw [BitVec.ofNat_or, ofNat_and_regMask, Block.rdN, BitVec.ofNat_toNat, BitVec.setWidth_eq]
  simp only [Block.write32, hop, hacc, Block.wrN, hword]

theorem write32_readOnly (hop : b.writeOp ini off v = none) (hacc : r.acc = .ro ∨ r.acc = .rc ∨ r.acc = .wo) :
    b.write32 ini r off v = b := by
  obtain hro | hrc | hwo := hacc
  · simp only [Block.write32, hop, hro]
  · simp only [Block.write32, hop, hrc]
  · simp only [Block.write32, hop, hwo]

end

/-- A write that reaches a 32-bit register is its `write32`. -/
theorem registerWrite_reaches {s : State} {ini : Ini} {off : Nat} {r : RegRow} (v : Word) (h : Reaches s.b ini off r false)
    (hnarrow : r.wide = false) : Gives s (.registerWrite ini off v) (s.b.write32 ini r off v) := by
  have hgives := registerWrite_gives_writeBy (ini := ini) s v h.1
  rwa [writeBy_of_reaches v h, Block.writeIn, hnarrow] at hgives

/-! ### Accesses to no register (02 R31) -/

theorem unmappedAccess_gives_access {off : Nat} (s : State) (ini : Ini) (w : Bool) (hrow : regAt off = none)
    (hwin : s.b.memWindow off = none) :
    Gives s (.unmappedAccess ini off w) (if w then s.b.writeBy ini off 0 else s.b.readBy ini off) := by
  have hexec : exec (.unmappedAccess ini off w) s = execUnmappedAccess ini off w s := rfl
  rw [Gives, hexec, execUnmappedAccess, nextB_eq, hrow, hwin, Option.isSome_none, Option.isSome_none, Bool.or_self]
  rfl

/-- A counted initiator's access of an offset that no block defines is counted, read or write. -/
theorem access_unmapped_counts {b : Block} {ini : Ini} {off : Nat} (hrow : regAt off = none) (hwin : b.memWindow off = none)
    (hcounts : iniCounts ini = true) (hsilent : b.silent off = false) (v : Word) :
    b.writeBy ini off v = b.count Reg.sysUnmapped ∧ b.readBy ini off = b.count Reg.sysUnmapped := by
  have hwrite : b.regWrite ini off v = b.count Reg.sysUnmapped := by
    rw [Block.regWrite, hcounts, hsilent, hwin, hrow]
    rfl
  have hread : (b.regRead ini off).2 = b.count Reg.sysUnmapped := by
    rw [Block.regRead, hcounts, hsilent, hwin, hrow]
    rfl
  cases ini with
  | engine e => simp [iniCounts] at hcounts
  | island => simp [iniCounts] at hcounts
  | host => exact ⟨hwrite, hread⟩
  | mgmt => exact ⟨hwrite, hread⟩

/-- An engine's read of an offset that no block defines traps ACCESS. -/
theorem readBy_unmapped_traps {b : Block} {e : Fin 40} {off : Nat} (hrow : regAt off = none) (hwin : b.memWindow off = none)
    (hissuer : (b.issuer e).isSome = true) : b.readBy (.engine e) off = b.trapOn e 3 (0x40000000 + off) := by
  have htraps : b.readTraps off = true := by rw [Block.readTraps, hwin, hrow]; rfl
  simp only [Block.readBy, Option.isNone_eq_false_iff.2 hissuer, htraps, Bool.true_or, if_true, Bool.false_eq_true, if_false]
  rfl

/-! ### What a register write does (02 R27, R28, R31) -/

theorem registerWrite_byAccess {s : State} {ini : Ini} {off : Nat} {v : Word} {r : RegRow} (h : Reaches s.b ini off r false)
    (hnarrow : r.wide = false) (hop : s.b.writeOp ini off v = none) :
    let old := s.b.rd off
    let m := BitVec.ofNat 32 (regMask off)
    (r.acc = .rw ∨ r.acc = .rwl → Gives s (.registerWrite ini off v) (s.b.wr off ((old &&& ~~~m) ||| (v &&& m)))) ∧
    (r.acc = .w1c → Gives s (.registerWrite ini off v) (s.b.wr off (old &&& ~~~v))) ∧
    (r.acc = .w1s → Gives s (.registerWrite ini off v) (s.b.wr off (old ||| (v &&& m)))) ∧
    (r.acc = .ro ∨ r.acc = .rc ∨ r.acc = .wo → exec (.registerWrite ini off v) s = .next s) := by
  have hgives := registerWrite_reaches v h hnarrow
  refine ⟨fun hacc => ?_, fun hacc => ?_, fun hacc => ?_, fun hacc => ?_⟩
  · rwa [write32_stores hop hacc] at hgives
  · rwa [write32_clears hop hacc] at hgives
  · rwa [write32_sets hop hacc] at hgives
  · rwa [write32_readOnly hop hacc] at hgives

/-- Settles O15: by the access code where the write reaches, and by initiator where it is refused or meets no register. -/
theorem registerWritesFollowTheirAccessCode : Obligations.RegisterWritesFollowTheirAccessCode := by
  unfold Obligations.RegisterWritesFollowTheirAccessCode
  refine ⟨fun s ini off v r h hnarrow hop => registerWrite_byAccess h hnarrow hop, ?_, ?_⟩
  · intro s ini off v r hi hrow hwin hrefused
    have href := (rowRefuses_iff s.b ini off r).2 hrefused
    have hgives := registerWrite_gives_writeBy (ini := ini) s v hrow
    refine ⟨fun hcounts => ?_, ?_⟩
    · rwa [writeBy_refused_counts v hrow hwin href hcounts] at hgives
    · rintro e rfl hissuer
      rwa [writeBy_traps v hissuer ((writeTraps_row s.b _ hrow).trans href)] at hgives
  · intro s ini off w hrow hwin
    have hgives := unmappedAccess_gives_access s ini w hrow hwin
    refine ⟨fun hcounts hsilent => ?_, ?_⟩
    · obtain ⟨hwrite, hread⟩ := access_unmapped_counts hrow hwin hcounts hsilent 0
      rwa [hwrite, hread, ite_self] at hgives
    · rintro e rfl hissuer
      rwa [writeBy_traps 0 hissuer (writeTraps_none s.b _ hrow), readBy_unmapped_traps hrow hwin hissuer, ite_self] at hgives

/-! ### 64-bit registers (02 R34, R35, R37) and reads that clear (02 R30) -/

theorem wideHalf_row {off : Nat} {r : RegRow} {hi : Bool} (hrow : regAt off = some (r, hi)) (hwide : r.wide = true) :
    wideHalf off = some hi := by
  simp only [wideHalf, hrow, hwide, if_true]

theorem highWordWrite_stages {s : State} {ini : Ini} {off : Nat} {r : RegRow} (v : Word) (h : Reaches s.b ini off r true)
    (hwide : r.wide = true) :
    Gives s (.highWordWrite ini off v) { s.b with staging := tput s.b.staging (stageKey ini (off - 4)) v } := by
  have hexec : exec (.highWordWrite ini off v) s = execHighWordWrite ini off v s := rfl
  rw [Gives, hexec, execHighWordWrite, nextB_eq, wideHalf_row h.1 hwide, beq_self_eq_true, if_pos rfl, writeBy_of_reaches v h,
    Block.writeIn, hwide]
  rfl

/-- A low word commits with the high word staged by its initiator, or with the present one, and the staging register empties. -/
theorem registerWrite_commits {s : State} {ini : Ini} {off : Nat} {r : RegRow} (v : Word) (h : Reaches s.b ini off r false)
    (hwide : r.wide = true) :
    Gives s (.registerWrite ini off v)
      (({ s.b with staging := tdel s.b.staging (stageKey ini off) } : Block).write64 ini off v
        ((tget? s.b.staging (stageKey ini off)).getD (s.b.regNow (off + 4)))) := by
  have hgives := registerWrite_gives_writeBy (ini := ini) s v h.1
  rwa [writeBy_of_reaches v h, Block.writeIn, hwide] at hgives

/-- The base registers of the admin pair answer the host in every device state (19 R460). -/
theorem reaches_adminBase (b : Block) {off : Nat} (hoff : off = Reg.adminCmdBase ∨ off = Reg.adminCplBase) :
    ∃ r, Reaches b .host off r false ∧ r.wide = true := by
  have hsilent : b.silent off = false := by
    obtain rfl | rfl := hoff <;> simp [Block.silent, Reg.adminCmdBase, Reg.adminCplBase]
  have hwin : b.memWindow off = none := by
    obtain rfl | rfl := hoff <;> simp [Block.memWindow, Reg.adminCmdBase, Reg.adminCplBase]
  obtain rfl | rfl := hoff
  · exact ⟨_, ⟨rfl, hwin, rfl, nofun, hsilent⟩, rfl⟩
  · exact ⟨_, ⟨rfl, hwin, rfl, nofun, hsilent⟩, rfl⟩

/-- Both halves of an admin pair's base go in, unless the pair is enabled (19 R460). -/
theorem write64_adminBase (b : Block) (ini : Ini) {off : Nat} (lo hi : Word) (hoff : off = Reg.adminCmdBase ∨ off = Reg.adminCplBase) :
    (b.bit Reg.adminCtrl 0 = false → b.write64 ini off lo hi = (b.wr off lo).wr (off + 4) hi) ∧
    (b.bit Reg.adminCtrl 0 = true → b.write64 ini off lo hi = b.refuseWrite ini) := by
  have hsample : off ≠ Reg.tbSample := by obtain rfl | rfl := hoff <;> decide
  have hmask : off ≠ Reg.pwmCommitMask := by obtain rfl | rfl := hoff <;> decide
  rw [Block.write64, if_neg hsample, if_neg hmask, if_pos hoff]
  exact ⟨fun hoffline => if_neg (Bool.eq_false_iff.1 hoffline), fun henabled => if_pos henabled⟩

section
variable {b : Block} {ini : Ini} {off : Nat} {r : RegRow}

/-- A read that reaches its register reads it, whoever reads, and its block answers. -/
theorem readBy_of_readReaches {hi : Bool} (h : ReadReaches b ini off r hi) :
    b.readBy ini off = (b.regRead ini off).2 ∧ (iniCounts ini && b.silent off) = false := by
  obtain ⟨hrow, -, -, hini⟩ := h
  cases ini with
  | engine e =>
    obtain ⟨hissuer, hkernel⟩ := hini
    have htraps : b.readTraps off = false := by rw [Block.readTraps, hrow, Option.isNone_some, Bool.and_false]
    refine ⟨?_, rfl⟩
    simp only [Block.readBy, Option.isNone_eq_false_iff.2 hissuer, htraps, hkernel, Bool.not_true, Bool.false_and, Bool.or_self,
      Bool.false_eq_true, if_false]
  | host => exact ⟨rfl, hini⟩
  | mgmt => exact ⟨rfl, hini⟩
  | island => exact ⟨rfl, rfl⟩

theorem readBy_latches (h : ReadReaches b ini off r false) (hwide : r.wide = true) :
    b.readBy ini off = { b with latch := tput b.latch (iniIdx ini) (b.regNow (off + 4)) } := by
  obtain ⟨hread, hsilent⟩ := readBy_of_readReaches h
  obtain ⟨hrow, hwin, hreset, -⟩ := h
  rw [hread, Block.regRead, hsilent, hwin, hrow]
  simp only [hreset, hwide, Bool.false_eq_true, if_false, if_true]

/-- A read of an RC register outside the receive objects' snapshots clears it (02 R30). -/
theorem readBy_clears (h : ReadReaches b ini off r false) (hnarrow : r.wide = false) (hacc : r.acc = .rc)
    (hsnap : ¬(0x1010000 ≤ off ∧ off < 0x1030000)) : b.readBy ini off = b.wr off 0 := by
  obtain ⟨hread, hsilent⟩ := readBy_of_readReaches h
  obtain ⟨hrow, hwin, hreset, -⟩ := h
  rw [hread, Block.regRead, hsilent, hwin, hrow]
  simp only [hreset, hnarrow, hacc, if_neg hsnap, Bool.false_eq_true, if_false, if_true]
  rfl

end

/-- The latch that a low read fills is what the following high read returns. -/
theorem highRead_latched (b : Block) (ini : Ini) (off : Nat) (w : Word) :
    ({ b with latch := tput b.latch (iniIdx ini) w } : Block).highRead ini off = w := by
  simp only [Block.highRead, tget?_tput_same, Option.getD_some]

theorem lowWordRead_latches {s : State} {ini : Ini} {off : Nat} {r : RegRow} (h : ReadReaches s.b ini off r false)
    (hwide : r.wide = true) :
    Gives s (.lowWordRead ini off) { s.b with latch := tput s.b.latch (iniIdx ini) (s.b.regNow (off + 4)) } := by
  have hexec : exec (.lowWordRead ini off) s = execLowWordRead ini off s := rfl
  rw [Gives, hexec, execLowWordRead, nextB_eq, wideHalf_row h.1 hwide, beq_self_eq_true, if_pos rfl, readBy_latches h hwide]

theorem rcRead_clears {s : State} {ini : Ini} {off : Nat} {r : RegRow} (h : ReadReaches s.b ini off r false)
    (hnarrow : r.wide = false) (hacc : r.acc = .rc) (hsnap : ¬(0x1010000 ≤ off ∧ off < 0x1030000)) :
    Gives s (.rcRead ini off) (s.b.wr off 0) := by
  have hexec : exec (.rcRead ini off) s = execRcRead ini off s := rfl
  have hrc : isRc off = true := by simp only [isRc, h.1, hacc, beq_self_eq_true]
  rw [Gives, hexec, execRcRead, nextB_eq, hrc, if_pos rfl, readBy_clears h hnarrow hacc hsnap]

/-- Settles O16: each access reaches its register and acts on the half of the pair that it names. -/
theorem wideAccessesStageAndLatch : Obligations.WideAccessesStageAndLatch := by
  unfold Obligations.WideAccessesStageAndLatch
  refine ⟨fun s ini off v r h hwide => highWordWrite_stages v h hwide, ?_, ?_, ?_⟩
  · intro s off v hoff
    obtain ⟨r, hreaches, hwide⟩ := reaches_adminBase s.b hoff
    have hgives := registerWrite_commits v hreaches hwide
    obtain ⟨hcommit, hrefuse⟩ := write64_adminBase { s.b with staging := tdel s.b.staging (stageKey .host off) } .host v
      ((tget? s.b.staging (stageKey .host off)).getD (s.b.regNow (off + 4))) hoff
    constructor
    · intro hoffline
      rwa [hcommit hoffline] at hgives
    · intro henabled
      rwa [hrefuse henabled] at hgives
  · exact fun s ini off r h hwide => ⟨lowWordRead_latches h hwide, highRead_latched s.b ini (off + 4) _⟩
  · exact fun s ini off r h hnarrow hacc hsnap => rcRead_clears h hnarrow hacc hsnap

end Sys2Proof
end

section
/-! Conventions (02): the state at reset. -/

namespace Sys2Proof

open Sys2Proof.Machine

/-- Nothing is stored at reset: every word reads its reset value. -/
theorem reset_rd (off : Nat) : State.reset.b.rd off = regReset off := by
  unfold Block.rd
  split
  · rfl
  · rfl

theorem reset_rdN (off : Nat) : State.reset.b.rdN off = (regReset off).toNat := by rw [Block.rdN, reset_rd]

/-- Settles O57: the state's plain fields by definition, its registers by the register map. -/
theorem resetHoldsTheStatedValues : Obligations.ResetHoldsTheStatedValues := by
  unfold Obligations.ResetHoldsTheStatedValues
  have hdev : State.reset.b.dev = dsBoot := by rw [Block.dev, Block.fld, reset_rdN]; decide
  refine ⟨rfl, ⟨Nat.zero_le _, Or.inl rfl⟩, hdev, rfl, rfl, rfl, reset_rd, ?_⟩
  simp only [reset_rdN]
  decide

end Sys2Proof
end

section
/-! Startup (03): whatever step is taken, the fuses only grow. -/

namespace Sys2Proof

open Sys2Proof.Machine

/-! ### What programming does to the fuses (R66, R81) -/

/-- Fuses that may follow `f`: where `f` is in order they are too, and nothing that was programmed is lost. -/
def FusesFollow (f g : Fuses) : Prop := FusesOk f → FusesOk g ∧ FusesGrow f g

theorem FusesFollow.refl (f : Fuses) : FusesFollow f f := fun hok => ⟨hok, Nat.le_refl _, fun _ => ⟨rfl, rfl⟩⟩

theorem fusesFollow_advance (f : Fuses) (n : Nat) : FusesFollow f (f.advance n) := by
  rintro ⟨hcount, hhash⟩
  exact ⟨⟨Nat.max_le.2 ⟨hcount, Nat.min_le_right n 64⟩, hhash⟩, Nat.le_max_left _ _, fun _ => ⟨rfl, rfl⟩⟩

theorem padTo_length (n : Nat) (l : List Byte) : (padTo n l).length = n := by
  simp only [padTo, List.length_take, List.length_append, List.length_replicate]
  omega

/-- A key hash goes where none was. -/
theorem fusesFollow_fuseKey {f : Fuses} (l : List Byte) (dev : Bool) (h : f.keyHash = []) :
    FusesFollow f { f with keyHash := padTo 48 l, keyDev := dev } :=
  fun ⟨hcount, _⟩ => ⟨⟨hcount, .inr (padTo_length 48 l)⟩, Nat.le_refl _, fun hprog => absurd h hprog⟩

/-! ### Commands that program fuses -/

/-- The outcome is a next state whose fuses may follow those of `s`. -/
def GrowsFuses (s : State) (o : Host.Outcome State Fault Refusal) : Prop := ∃ t, o = .next t ∧ FusesFollow s.fuses t.fuses

theorem growsFuses_next {s t : State} (h : FusesFollow s.fuses t.fuses) : GrowsFuses s (.next t) := ⟨t, rfl, h⟩

/-- A next state that holds the fuses as they were. -/
theorem growsFuses_keep {s t : State} (h : t.fuses = s.fuses) : GrowsFuses s (.next t) := growsFuses_next (h ▸ .refl _)

theorem imgAdvanceRollback_growsFuses (c : Cmd) (vpp fuseOk : Bool) (s : State) :
    GrowsFuses s (execImgAdvanceRollback c vpp fuseOk s) := by
  refine growsFuses_next ?_
  dsimp only
  split
  · exact .refl _
  · split
    · exact fusesFollow_advance _ _
    · exact fusesFollow_advance _ _

/-- A key is fused only where no key is (R81). -/
theorem imgFuseKey_growsFuses (c : Cmd) (vpp fuseOk : Bool) (s : State) : GrowsFuses s (execImgFuseKey c vpp fuseOk s) := by
  refine growsFuses_next ?_
  dsimp only
  split
  · exact .refl _
  · next hnone =>
    have hdeny := firstRefusal_none.1 hnone (deny (s.b.fld Reg.sysState 8 8 != rsNoKey || !s.fuses.keyHash.isEmpty) stConflict 0 s.b.dev)
      (by simp)
    have hempty : s.fuses.keyHash = [] := by simp_all [deny]
    split
    · exact fusesFollow_fuseKey _ _ hempty
    · exact fusesFollow_fuseKey _ _ hempty

/-! ### Choices between states, and requests over the link (20): the row that a frame names runs as it does from a queue -/

theorem ite_fusesFollow {f : Fuses} {p : Prop} [Decidable p] {t u : State} (ht : FusesFollow f t.fuses) (hu : FusesFollow f u.fuses) :
    FusesFollow f (if p then t else u).fuses := by
  split
  · exact ht
  · exact hu

theorem rowOf_growsFuses {op : Nat} {row : Cmd → State → Host.Outcome State Fault Refusal} (h : rowOf op = some row)
    (c : Cmd) (s : State) : GrowsFuses s (row c s) := by
  unfold rowOf at h
  split at h
  all_goals cases h
  -- the rows 0x020A and 0x020B are those that program fuses
  case h_13 => exact imgAdvanceRollback_growsFuses c _ _ { s with b := s.b.drawBool.2.drawBool.2 }
  case h_14 => exact imgFuseKey_growsFuses c _ _ { s with b := s.b.drawBool.2.drawBool.2 }
  all_goals exact growsFuses_keep rfl

theorem linkRun_fusesFollow (s : State) (role counter op : Nat) (body : List Byte) :
    FusesFollow s.fuses (s.linkRun role counter op body).fuses := by
  unfold State.linkRun
  dsimp only
  split
  · exact .refl _
  · next row hrow =>
    obtain ⟨t, ht, hfollow⟩ := rowOf_growsFuses hrow (linkCmd role body) s
    rw [ht]
    exact ite_fusesFollow hfollow hfollow

theorem linkFrame_fusesFollow (s : State) (fr : List Byte) : FusesFollow s.fuses (s.linkFrame fr).fuses := by
  have hrun (b : Block) : FusesFollow s.fuses
      (({ s with b := b } : State).linkRun (u8 fr 6) (u32 fr 8) (u16 (slice fr 12 (u16 fr 4)) 0) (slice fr 12 (u16 fr 4))).fuses :=
    linkRun_fusesFollow { s with b := b } _ _ _ _
  exact ite_fusesFollow (.refl _) (ite_fusesFollow (.refl _) (ite_fusesFollow (.refl _) (ite_fusesFollow (.refl _)
    (ite_fusesFollow (.refl _) (ite_fusesFollow (.refl _) (hrun _))))))

theorem shavorRequest_growsFuses (frame : List Byte) (gapOk : Bool) (s : State) :
    GrowsFuses s (execShavorRequest frame gapOk s) :=
  growsFuses_next (ite_fusesFollow (.refl _) (ite_fusesFollow (linkFrame_fusesFollow s frame) (.refl _)))

theorem smbusBlockWrite_growsFuses (last : Bool) (piece : List Byte) (pecOk : Bool) (s : State) :
    GrowsFuses s (execSmbusBlockWrite last piece pecOk s) := by
  have hframe (b : Block) (fr : List Byte) : FusesFollow s.fuses (({ s with b := b } : State).linkFrame fr).fuses :=
    linkFrame_fusesFollow { s with b := b } fr
  exact growsFuses_next (ite_fusesFollow (.refl _) (ite_fusesFollow (.refl _) (ite_fusesFollow (hframe _ _) (.refl _))))

/-! ### The island, the resets and the clocks leave the fuses -/

theorem loseRef_fusesFollow (s : State) : FusesFollow s.fuses s.loseRef.fuses := ite_fusesFollow (.refl _) (.refl _)

theorem siTo_fusesFollow (s : State) (x : SiSt) (all : Bool) : FusesFollow s.fuses (s.siTo x all).fuses :=
  ite_fusesFollow (.refl _) (.refl _)

theorem siStep_growsFuses (s : State) (x : SiSt) : GrowsFuses s (.next (if s.b.islandUp then s.siTo x false else s)) :=
  growsFuses_next (ite_fusesFollow (siTo_fusesFollow s x false) (.refl _))

theorem safetyCycle_growsFuses (inp : SafetyInputs) (s : State) : GrowsFuses s (execSafetyCycle inp s) := by
  refine growsFuses_next (ite_fusesFollow (.refl _) ?_)
  dsimp only
  split
  · exact ite_fusesFollow (siTo_fusesFollow s _ _) (siTo_fusesFollow s _ _)
  · exact siTo_fusesFollow s _ _

theorem safParamApply_growsFuses (s : State) : GrowsFuses s (execSafParamApply s) := by
  refine growsFuses_next ?_
  split
  · exact .refl _
  · exact ite_fusesFollow (.refl _) (ite_fusesFollow (.refl _) (.refl _))

theorem coldRestartReset_growsFuses (s : State) : GrowsFuses s (execColdRestartReset s) := by
  refine growsFuses_next ?_
  split
  · exact .refl _
  · exact .refl _

theorem pllUnlock_growsFuses (pll : Fin 4) (s : State) : GrowsFuses s (execPllUnlock pll s) := by
  have hlose (b : Block) : FusesFollow s.fuses (({ s with b := b } : State).loseRef).fuses :=
    loseRef_fusesFollow { s with b := b }
  refine growsFuses_next (ite_fusesFollow (.refl _) ?_)
  dsimp only
  split
  · exact hlose _
  all_goals exact .refl _

theorem supplyEvaluation_growsFuses (mv : List Nat) (s : State) : GrowsFuses s (execSupplyEvaluation mv s) := by
  have hsi (b : Block) (x : SiSt) : FusesFollow s.fuses (({ s with b := b } : State).siTo x false).fuses :=
    siTo_fusesFollow { s with b := b } x false
  exact growsFuses_next (ite_fusesFollow (.refl _) (ite_fusesFollow (hsi _ _) (.refl _)))

/-! ### Every command -/

theorem exec_growsFuses (i : Instr) (s : State) : GrowsFuses s (exec i s) := by
  cases i
  case imgAdvanceRollback c vpp fuseOk => exact imgAdvanceRollback_growsFuses c vpp fuseOk s
  case imgFuseKey c vpp fuseOk => exact imgFuseKey_growsFuses c vpp fuseOk s
  case shavorRequest frame gapOk => exact shavorRequest_growsFuses frame gapOk s
  case smbusBlockWrite last piece pecOk => exact smbusBlockWrite_growsFuses last piece pecOk s
  case porNAssert lowNs =>
    exact growsFuses_next (ite_fusesFollow (.refl _) (ite_fusesFollow (.refl _) (ite_fusesFollow (.refl _) (.refl _))))
  case signatureVerified => exact growsFuses_next (ite_fusesFollow (.refl _) (ite_fusesFollow (.refl _) (.refl _)))
  case coldRestartReset => exact coldRestartReset_growsFuses s
  case refclkLost => exact growsFuses_next (loseRef_fusesFollow s)
  case pllUnlock pll => exact pllUnlock_growsFuses pll s
  case supplyEvaluation mv => exact supplyEvaluation_growsFuses mv s
  case thermalEvaluation temps =>
    exact growsFuses_next (ite_fusesFollow (.refl _) (ite_fusesFollow (ite_fusesFollow (.refl _) (.refl _))
      (ite_fusesFollow (.refl _) (.refl _))))
  case safetyCycle inp => exact safetyCycle_growsFuses inp s
  case safParamApply => exact safParamApply_growsFuses s
  case porNRelease | refclkValidAtBoot | refclkRestored | brownout =>
    exact growsFuses_next (ite_fusesFollow (.refl _) (.refl _))
  -- the island's own events are steps of the island
  case siSelfTestEnd | siParamsAccepted | periodicSelfTest | siClockFail | safeCopyReceived | skewExpiry | connectionTimeout |
      graceExpiry | discrepancyExpiry | resetPress | stopDelayExpiry | testPulse | edmTimeExpiry | brakeTestPulse |
      brakeTestRequest | applyMsExpiry | testWindowEnd | brakeOverdue | brakeGraceExpiry | safetyCounterEdge =>
    exact siStep_growsFuses s _
  -- every other row writes the block alone
  all_goals exact growsFuses_keep rfl

/-- Settles O53: the front command lets the fuses grow at most, and a tick leaves them. -/
theorem fusesOnlyGrow : Obligations.FusesOnlyGrow := by
  unfold Obligations.FusesOnlyGrow
  intro s t hok hstep
  obtain ⟨hrun, htick⟩ := aStepRunsTheFrontCommand
  cases hq : s.pending with
  | nil =>
    obtain ⟨b, hb⟩ := htick s hq
    cases hb.symm.trans hstep
    exact FusesFollow.refl _ hok
  | cons c rest =>
    obtain ⟨u, hu, hfollow⟩ := exec_growsFuses c { s with pending := rest }
    cases (hu.symm.trans (hrun s c rest hq).symm).trans hstep
    exact hfollow hok

end Sys2Proof
end

section
/-! Conventions (02): how a command that is sent runs, and what reporting leaves of the registers. -/

namespace Sys2Proof

open Sys2Proof.Machine

/-! ### Refusals (02 R43) -/

theorem firstRefusal_deny (p : Bool) (st rs code : Nat) (l : List (Option Refuse)) :
    firstRefusal (deny p st rs code :: l) = if p then some { status := st, reason := rs, code := code } else firstRefusal l := by
  cases p <;> rfl

/-- A command on no object whose sender and envelope pass is refused by what comes after. -/
theorem firstRefusal_checked {auth dev : Option Refuse} {c : Cmd} (hauth : auth = none) (hdev : dev = none) (henv : envCheck c = none)
    (hobj : cObj c = 0) (l : List (Option Refuse)) :
    firstRefusal (auth :: dev :: envCheck c :: noObject c :: l) = firstRefusal l := by
  have hnone : noObject c = none := by rw [noObject, hobj]; rfl
  rw [hauth, hdev, henv, hnone]
  rfl

theorem firstRefusal_sent {b : Block} {c : Cmd} {role : Nat} {legal : List Nat} (h : Sent b c role legal) (hobj : cObj c = 0)
    (l : List (Option Refuse)) :
    firstRefusal (authCheck c role :: devCheck b legal :: envCheck c :: noObject c :: l) = firstRefusal l :=
  firstRefusal_checked h.1 h.2.1 h.2.2 hobj l

/-! ### Running, accepting and refusing -/

section
variable {s : State} {i : Instr} {op : Nat} {c : Cmd} {l : List (Option Refuse)} {b' : Block}

theorem gives_of_eq {b1 : Block} (h : exec i s = .next { s with b := b1 }) (hb : b1 = b') : Gives s i b' := by
  subst hb
  exact h

theorem completes_run {eff : Block → Block × Nat × Nat × List Byte} {st rs : Nat} {res : List Byte}
    (h : exec i s = .next { s with b := s.b.run op c l eff }) (hl : firstRefusal l = none) (he : eff s.b = (b', st, rs, res)) :
    Completes s i op c b' st rs res := by
  rw [run_eff _ _ _ _ _ hl, he] at h
  exact completes_of h

theorem completes_run_refused {eff : Block → Block × Nat × Nat × List Byte} {r : Refuse}
    (h : exec i s = .next { s with b := s.b.run op c l eff }) (hl : firstRefusal l = some r) :
    Completes s i op c s.b r.status r.reason := by
  rw [run_refused _ _ _ _ _ r hl] at h
  exact completes_of h

theorem completes_runDone {eff : Block → Block} (h : exec i s = .next { s with b := s.b.runDone op c l eff })
    (hl : firstRefusal l = none) (he : eff s.b = b') : Completes s i op c b' stDone := by
  subst he
  exact completes_run h hl rfl

theorem completes_runDone_refused {eff : Block → Block} {r : Refuse} (h : exec i s = .next { s with b := s.b.runDone op c l eff })
    (hl : firstRefusal l = some r) : Completes s i op c s.b r.status r.reason := completes_run_refused h hl

theorem gives_accept {eff : Block → Block} (h : exec i s = .next { s with b := s.b.accept op c l eff })
    (hl : firstRefusal l = none) (he : eff s.b = b') : Gives s i b' := by
  subst he
  rwa [accept_eff _ _ _ _ _ hl] at h

theorem completes_accept_refused {eff : Block → Block} {r : Refuse} (h : exec i s = .next { s with b := s.b.accept op c l eff })
    (hl : firstRefusal l = some r) : Completes s i op c s.b r.status r.reason := by
  rw [accept_refused _ _ _ _ _ r hl] at h
  exact completes_of h

/-- What reports quietly and then completes, completes. -/
theorem completes_of_quiet {b1 : Block} {st rs : Nat} {res : List Byte} {code : Nat} (hq : Quiet b' b1)
    (h : exec i s = .next { s with b := b1.complete op c st rs res code }) : Completes s i op c b' st rs res := by
  have hanswered := complete_answered b1 op c st rs res code
  have hreports : Reports b' (b1.complete op c st rs res code) := hq.reports.trans (reports_complete _ _ _ _ _ _ _)
  obtain ⟨o, regs, rfl, hslots, -⟩ := hq
  refine ⟨_, h, hreports, fun howed => hanswered ?_⟩
  unfold Owed at howed ⊢
  rwa [hslots]

end

/-- A register word of the controller's own is no completion. -/
theorem owed_wr {b : Block} {off : Nat} (v : Word) (hin : isOut off = false) (h : Owed b) : Owed (b.wr off v) := by
  unfold Block.wr
  rw [hin]
  exact h

/-! ### Words that a report leaves -/

theorem Reports.rd {b t : Block} (h : Reports b t) {off : Nat} (hin : isOut off = false) (hprf : off / 0x100000 ≠ 0x15)
    (hconf : off ≠ Reg.sysStateConflicts) : t.rd off = b.rd off := by
  obtain ⟨o, rs, fr, al, lg, ev, ns, rfl, hkeep⟩ := h
  simpa only [Block.rd, hin, Bool.false_eq_true, if_false] using hkeep off hprf hconf

/-- A flag that is raised is set, and the rest reports. -/
theorem raise_reports (b : Block) (off bit sid : Nat) (d : List Byte) : Reports (b.setFlag off bit) (b.raise off bit sid d) := by
  unfold Block.raise
  dsimp only
  split
  · exact .refl _
  · exact (quiet_event _ _ _ _ _ _ _ _ _ _).reports

theorem rd_setFlag_ne (b : Block) {off k : Nat} (bit : Nat) (h : k ≠ off) (h4 : k ≠ off + 4) : (b.setFlag off bit).rd k = b.rd k :=
  (rd_wr_ne _ _ h4).trans (rd_wr_ne _ _ h)

theorem rd_setFld_ne (b : Block) {off k : Nat} (lo n x : Nat) (h : k ≠ off) : (b.setFld off lo n x).rd k = b.rd k :=
  rd_wr_ne _ _ h

theorem rd_raise_ne (b : Block) {off k : Nat} (bit sid : Nat) (d : List Byte) (h : k ≠ off) (h4 : k ≠ off + 4)
    (hin : isOut k = false) (hprf : k / 0x100000 ≠ 0x15) (hconf : k ≠ Reg.sysStateConflicts) :
    (b.raise off bit sid d).rd k = b.rd k :=
  ((raise_reports b off bit sid d).rd hin hprf hconf).trans (rd_setFlag_ne b bit h h4)

theorem rdN_wrN_same (b : Block) (off v : Nat) : (b.wrN off v).rdN off = v % 2 ^ 32 := by
  rw [Block.rdN, Block.wrN, rd_wr_same, BitVec.toNat_ofNat]

end Sys2Proof
end

section
/-! Startup (03): slots, the selection record and the fuses (R62, R64, R66, R79–R83). -/

namespace Sys2Proof

open Sys2Proof.Machine

/-! ### Slots (R62, R79, R80, R83) -/

section
variable {s : State} {c : Cmd}

/-- A slot command that is sent for slot 0 or 1 passes the checks that slot commands share. -/
theorem firstRefusal_slotPre {role : Nat} {legal : List Nat} (hsent : Sent s.b c role legal) (hobj : cObj c = 0)
    (hslot : u8 (cArg c) 0 ≤ 1) (l : List (Option Refuse)) : firstRefusal (s.b.slotPre c role legal ++ l) = firstRefusal l := by
  refine (firstRefusal_sent hsent hobj _).trans ((firstRefusal_deny _ _ _ _ _).trans ?_)
  rw [decide_eq_false (by omega)]
  rfl

/-- A slot command that is sent waits for the NVM alone. -/
theorem firstRefusal_slotBusy {role : Nat} {legal : List Nat} (hsent : Sent s.b c role legal) (hobj : cObj c = 0)
    (hslot : u8 (cArg c) 0 ≤ 1) :
    firstRefusal (s.b.slotPre c role legal ++ [deny s.b.boot.op.isSome stBusy]) =
      if s.b.boot.op.isSome then some { status := stBusy } else none := by
  rw [firstRefusal_slotPre hsent hobj hslot, firstRefusal_deny]
  rfl

section
variable (hsent : Sent s.b c roleMaintainer devAll) (hobj : cObj c = 0) (hext : cExt c = true) (hslot : u8 (cArg c) 0 ≤ 1)
  (hlen : u32 (cArg c) 8 = ((cArg c).drop 12).length) (hfits : u32 (cArg c) 4 + u32 (cArg c) 8 ≤ slotSize)
include hsent hobj hext hslot hlen hfits

/-- A well-formed slot write that is sent is refused for the running slot, or while the NVM is busy, and for nothing else. -/
theorem firstRefusal_slotWrite :
    firstRefusal [authCheck c roleMaintainer, devCheck s.b devAll, envCheck c, noObject c,
        deny (decide (1 < u8 (cArg c) 0) || !cExt c || u32 (cArg c) 8 != ((cArg c).drop 12).length ||
          decide (slotSize < u32 (cArg c) 4 + u32 (cArg c) 8)) stBadArg,
        deny (s.b.runningSlot == some (u8 (cArg c) 0)) stConflict 0x02 s.b.dev, deny s.b.boot.op.isSome stBusy] =
      if s.b.runningSlot = some (u8 (cArg c) 0) then some { status := stConflict, reason := 0x02, code := s.b.dev }
      else if s.b.boot.op.isSome then some { status := stBusy } else none := by
  have hwf : (decide (1 < u8 (cArg c) 0) || !cExt c || u32 (cArg c) 8 != ((cArg c).drop 12).length ||
      decide (slotSize < u32 (cArg c) 4 + u32 (cArg c) 8)) = false := by
    rw [decide_eq_false (by omega), decide_eq_false (by omega), hext, bne_eq_false_iff_eq.2 hlen]
    rfl
  rw [firstRefusal_sent hsent hobj, firstRefusal_deny, hwf, firstRefusal_deny, firstRefusal_deny]
  simp only [beq_iff_eq, Bool.false_eq_true, if_false]
  rfl

theorem imgSlotWrite_begins (hother : s.b.runningSlot ≠ some (u8 (cArg c) 0)) (hidle : s.b.boot.op = none) :
    Gives s (.imgSlotWrite c) ((s.b.wrN (Reg.imgSlotStatus (u8 (cArg c) 0)) 0).putOp
      (some { kind := 1, slot := u8 (cArg c) 0, offset := u32 (cArg c) 4, op := opOf c 0x0201 ((cArg c).drop 12) })) := by
  have hpass := firstRefusal_slotWrite hsent hobj hext hslot hlen hfits
  exact gives_accept rfl (hpass.trans ((if_neg hother).trans (if_neg (by simp [hidle])))) rfl

theorem imgSlotWrite_running (hrunning : s.b.runningSlot = some (u8 (cArg c) 0)) :
    Completes s (.imgSlotWrite c) 0x0201 c s.b stConflict 0x02 :=
  completes_accept_refused rfl ((firstRefusal_slotWrite hsent hobj hext hslot hlen hfits).trans (if_pos hrunning))

theorem imgSlotWrite_busy (hother : s.b.runningSlot ≠ some (u8 (cArg c) 0)) (hbusy : s.b.boot.op.isSome = true) :
    Completes s (.imgSlotWrite c) 0x0201 c s.b stBusy :=
  completes_accept_refused rfl
    ((firstRefusal_slotWrite hsent hobj hext hslot hlen hfits).trans ((if_neg hother).trans (if_pos hbusy)))

end

theorem imgSlotVerify_begins (hsent : Sent s.b c roleObserver devAll) (hobj : cObj c = 0) (hslot : u8 (cArg c) 0 ≤ 1)
    (hidle : s.b.boot.op = none) :
    Gives s (.imgSlotVerify c) (s.b.putOp (some { kind := 2, slot := u8 (cArg c) 0, op := opOf c 0x0202 })) := by
  have hpass := (firstRefusal_slotBusy hsent hobj hslot).trans (if_neg (by simp [hidle]))
  exact gives_accept rfl hpass rfl

theorem imgSlotVerify_busy (hsent : Sent s.b c roleObserver devAll) (hobj : cObj c = 0) (hslot : u8 (cArg c) 0 ≤ 1)
    (hbusy : s.b.boot.op.isSome = true) : Completes s (.imgSlotVerify c) 0x0202 c s.b stBusy :=
  completes_accept_refused rfl ((firstRefusal_slotBusy hsent hobj hslot).trans (if_pos hbusy))

/-- The staging's first completion does not see the operation that it begins. -/
theorem completes_putOp {i : Instr} {op st : Nat} {b : Block} {o : Option NvmOp}
    (h : exec i s = .next { s with b := (b.complete op c st).putOp o }) : Completes s i op c (b.putOp o) st := by
  refine ⟨_, h, ?_, fun howed => ?_⟩
  · obtain ⟨o', rs, fr, al, lg, ev, ns, ht, hkeep⟩ := reports_complete b op c st 0 [] 0
    rw [ht]
    exact ⟨o', rs, fr, al, lg, ev, ns, rfl, hkeep⟩
  · exact complete_answered b op c st 0 [] 0 howed

theorem imgStage_queued (hsent : Sent s.b c roleMaintainer [dsAwaitWorld, dsOperational, dsSafeStop]) (hobj : cObj c = 0)
    (hslot : u8 (cArg c) 0 ≤ 1) (hidle : s.b.boot.op = none) :
    Completes s (.imgStage c) 0x0205 c
      ((({ s.b with boot := { s.b.boot with staged := none } } : Block).wrN Reg.imgStage 1).putOp
        (some { kind := 3, slot := u8 (cArg c) 0, op := opOf c 0x0205 })) stQueued := by
  have hpass := (firstRefusal_slotBusy hsent hobj hslot).trans (if_neg (by simp [hidle]))
  refine completes_putOp ?_
  exact gives_accept rfl hpass rfl

theorem imgStage_busy (hsent : Sent s.b c roleMaintainer [dsAwaitWorld, dsOperational, dsSafeStop]) (hobj : cObj c = 0)
    (hslot : u8 (cArg c) 0 ≤ 1) (hbusy : s.b.boot.op.isSome = true) : Completes s (.imgStage c) 0x0205 c s.b stBusy :=
  completes_accept_refused rfl ((firstRefusal_slotBusy hsent hobj hslot).trans (if_pos hbusy))

end

/-! ### Slot operations end -/

/-- The check of a slot writes the slot's status and may draw a free value: NVM and the running slot stay. -/
theorem checkSlot_keeps (b : Block) (f : Fuses) (n : Nat) (ok : Bool) (im : ImageTables) :
    (b.checkSlot f n ok im).1.boot.nvm = b.boot.nvm ∧ (b.checkSlot f n ok im).1.rd Reg.imgRunning = b.rd Reg.imgRunning := by
  have hne : Reg.imgRunning ≠ Reg.imgSlotStatus n := by
    unfold Reg.imgRunning Reg.imgSlotStatus
    omega
  have hshow (r : Nat) : (b.showSlot n r).boot.nvm = b.boot.nvm ∧ (b.showSlot n r).rd Reg.imgRunning = b.rd Reg.imgRunning :=
    ⟨congrArg Boot.nvm (wr_boot _ _ _), rd_wr_ne _ _ hne⟩
  unfold Block.checkSlot
  dsimp only
  split
  · dsimp only
    split
    · exact ⟨(congrArg Boot.nvm (wr_boot _ _ _)).trans (hshow _).1, (rd_wr_ne _ _ hne).trans (hshow _).2⟩
    · exact hshow _
  · exact hshow _

/-- The fixed sections of a slot and of the running one are read from the NVM (R80). -/
theorem sameFixed_congr {b t : Block} (n : Nat) (hnvm : t.boot.nvm = b.boot.nvm) (hrun : t.rd Reg.imgRunning = b.rd Reg.imgRunning) :
    t.sameFixed n = b.sameFixed n := by
  simp only [Block.sameFixed, Block.slotSections, Block.slotHeader, Block.slotBytes, Block.fld, Block.rdN, hnvm, hrun]

section
variable {s : State} {o : NvmOp} (hop : s.b.boot.op = some o)
include hop

theorem slotWriteDone_ends (hkind : o.kind = 1) :
    Gives s (.slotWriteDone true) (({ s.b with boot := { s.b.boot with
        nvm := mwrite s.b.boot.nvm (slotBase o.slot + o.offset) o.op.data, op := none } } : Block).settle o.op false stDone) ∧
      Gives s (.slotWriteDone false) (s.b.breakWrite.settle o.op false stInternal) := by
  constructor
  · refine gives_of_eq rfl ?_
    simp only [hop, hkind, ne_eq, not_true_eq_false, if_false, if_true]
  · refine gives_of_eq rfl ?_
    simp only [hop, hkind, ne_eq, not_true_eq_false, Bool.false_eq_true, if_false]

theorem slotVerifyDone_ends (ok : Bool) (im : ImageTables) (hkind : o.kind = 2) :
    Gives s (.slotVerifyDone ok im)
      (let r := (s.b.putOp none).checkSlot s.fuses o.slot ok im
       let h := s.b.slotHeader o.slot
       if r.2 = 0 then r.1.settle o.op false stDone 0 (slice h 32 32 ++ leBytes 1 (hdRollback h))
       else r.1.settle o.op false stImage r.2) := by
  refine gives_of_eq rfl ?_
  simp only [hop, hkind, ne_eq, not_true_eq_false, if_false]

theorem stageDone_ends (ok : Bool) (im : ImageTables) (hkind : o.kind = 3) :
    let q := (s.b.putOp none).checkSlot s.fuses o.slot ok im
    (q.2 = 0 → q.1.sameFixed o.slot = true → Gives s (.stageDone ok im)
      ((({ q.1 with boot := { q.1.boot with staged := some im, stagedSlot := o.slot } } : Block).wrN Reg.imgStage
        (2 + 256 * hdRollback (q.1.slotHeader o.slot))).settle o.op true stDone)) ∧
    (q.2 = 0 → q.1.sameFixed o.slot = false →
      Gives s (.stageDone ok im) (((q.1.wrN Reg.imgStage 3).raise Reg.imgFlags 3).settle o.op true stImage rsMismatch)) ∧
    (q.2 ≠ 0 → Gives s (.stageDone ok im) (((q.1.wrN Reg.imgStage 3).raise Reg.imgFlags 3).settle o.op true stImage q.2)) := by
  intro q
  have hfixed : q.1.sameFixed o.slot = s.b.sameFixed o.slot :=
    have hkeeps := checkSlot_keeps (s.b.putOp none) s.fuses o.slot ok im
    sameFixed_congr o.slot hkeeps.1 hkeeps.2
  rw [hfixed]
  refine ⟨fun hpass hsame => ?_, fun hpass hother => ?_, fun hfail => ?_⟩
  · refine gives_of_eq rfl ?_
    simp only [hop, hkind, ne_eq, not_true_eq_false, if_false, hsame, Bool.not_true, Bool.false_eq_true, and_false]
    exact if_pos hpass
  · refine gives_of_eq rfl ?_
    simp only [hop, hkind, ne_eq, not_true_eq_false, if_false, hother, Bool.not_false, and_true]
    rw [if_pos hpass]
    exact if_neg (by decide)
  · refine gives_of_eq rfl ?_
    simp only [hop, hkind, ne_eq, not_true_eq_false, if_false]
    rw [if_neg (fun h : _ ∧ _ => hfail h.1)]
    exact if_neg hfail

end

/-! ### The selection record (R64, R79) -/

section
variable {s : State} {c : Cmd}

theorem imgSelect_done (hsent : Sent s.b c roleMaintainer devAll) (hobj : cObj c = 0) (hslot : u8 (cArg c) 0 ≤ 1)
    (hverified : s.b.verified (u8 (cArg c) 0) = true) (hidle : s.b.boot.op = none) :
    Completes s (.imgSelect c) 0x0203 c (s.b.selWrite (u8 (cArg c) 0) ((u8 (cArg c) 1).testBit 0) false) stDone := by
  refine completes_runDone rfl ((firstRefusal_slotPre hsent hobj hslot _).trans ?_) rfl
  rw [firstRefusal_deny, firstRefusal_deny, hverified, hidle]
  rfl

theorem imgSelect_unverified (hsent : Sent s.b c roleMaintainer devAll) (hobj : cObj c = 0) (hslot : u8 (cArg c) 0 ≤ 1)
    (hunverified : s.b.verified (u8 (cArg c) 0) = false) : Completes s (.imgSelect c) 0x0203 c s.b stConflict 0x03 := by
  refine completes_runDone_refused (r := { status := stConflict, reason := 0x03, code := s.b.dev }) rfl
    ((firstRefusal_slotPre hsent hobj hslot _).trans ?_)
  rw [firstRefusal_deny, hunverified]
  rfl

theorem imgConfirm_done (hsent : Sent s.b c roleMaintainer devRun) (hobj : cObj c = 0) (htrial : s.b.selNow.1.trial = true) :
    Completes s (.imgConfirm c) 0x0204 c (s.b.selWrite s.b.selNow.1.slot false false) stDone := by
  refine completes_runDone rfl ((firstRefusal_sent hsent hobj _).trans ?_) rfl
  rw [firstRefusal_deny, htrial]
  rfl

theorem imgConfirm_noTrial (hsent : Sent s.b c roleMaintainer devRun) (hobj : cObj c = 0) (htrial : s.b.selNow.1.trial = false) :
    Completes s (.imgConfirm c) 0x0204 c s.b stConflict 0x04 := by
  refine completes_runDone_refused (r := { status := stConflict, reason := 0x04, code := s.b.dev }) rfl
    ((firstRefusal_sent hsent hobj _).trans ?_)
  rw [firstRefusal_deny, htrial]
  rfl

end

/-- Of a record and the one that follows it in sequence, the latter is in force (R64): its number is serially the higher by one. -/
theorem seq_next_wins (q : Nat) :
    (((q + 1) % 65536 + 65536 - q) % 65536 < 32768) ∧ ¬((q + 65536 - (q + 1) % 65536) % 65536 < 32768) := by
  omega

theorem selWrite_boot (b : Block) (n : Nat) (t u : Bool) :
    (b.selWrite n t u).boot =
      let r : SelRec := { ok := true, seq := (b.selNow.1.seq + 1) % 65536, slot := n, trial := t, tried := u }
      if b.selNow.2 then { b.boot with sel0 := r } else { b.boot with sel1 := r } := wr_boot _ _ _

/-- A record goes into the copy that is not in force, and is in force from then on. -/
theorem selWrite_selNow (b : Block) (n : Nat) (t u : Bool) :
    (b.selWrite n t u).selNow =
      ({ ok := true, seq := (b.selNow.1.seq + 1) % 65536, slot := n, trial := t, tried := u }, !b.selNow.2) := by
  obtain ⟨hup, hdown⟩ := seq_next_wins b.selNow.1.seq
  have hboot := selWrite_boot b n t u
  by_cases hfirst : (b.boot.sel0.ok && (!b.boot.sel1.ok || decide ((b.boot.sel0.seq + 65536 - b.boot.sel1.seq) % 65536 < 32768))) = true
  · have hnow : b.selNow = (b.boot.sel0, false) := if_pos hfirst
    rw [hnow] at hboot hdown ⊢
    simp only [Block.selNow, hboot, Bool.false_eq_true, if_false, Bool.not_true, Bool.false_or, decide_eq_false hdown,
      Bool.and_false, if_true, Bool.not_false]
  · by_cases hsecond : b.boot.sel1.ok = true
    · have hnow : b.selNow = (b.boot.sel1, true) := (if_neg hfirst).trans (if_pos hsecond)
      rw [hnow] at hboot hup ⊢
      simp only [Block.selNow, hboot, if_true, decide_eq_true hup, Bool.or_true, Bool.and_self, Bool.not_true]
    · have hnow : b.selNow = ({}, true) := (if_neg hfirst).trans (if_neg hsecond)
      rw [hnow] at hboot ⊢
      simp only [Block.selNow, hboot, if_true, Bool.eq_false_iff.2 hsecond, Bool.not_false, Bool.true_or, Bool.and_self, Bool.not_true]

/-! ### Fuses (R66, R81) -/

theorem advance_of_fits {f : Fuses} {n : Nat} (hle : f.rollback ≤ n) (hcap : n ≤ 64) :
    f.advance n = { f with rollback := n } := by
  rw [Fuses.advance, Nat.min_eq_left hcap, Nat.max_eq_right hle]

section
variable {s : State} {c : Cmd} {vpp ok : Bool} (hauth : authCheck c roleMaintainer true = none) (hdev : devCheck s.b devRun = none)
  (henv : envCheck c = none) (hobj : cObj c = 0)
include hauth hdev henv hobj

/-- What can refuse a count once its sender has passed (R81): a lower count, no fusing supply, a count that the running image lacks. -/
theorem imgAdvanceRollback_refused {r : Refuse}
    (h : firstRefusal [deny (decide (u8 (cArg c) 0 < s.fuses.rollback)) stBadArg, deny (!vpp) stConflict 0x05 s.b.dev,
      deny (decide (s.b.fld Reg.imgRunning 8 8 < u8 (cArg c) 0) || decide (64 < u8 (cArg c) 0)) stLimit] = some r) :
    Completes s (.imgAdvanceRollback c vpp ok) 0x020A c s.b r.status r.reason := by
  have hall := (firstRefusal_checked hauth hdev henv hobj _).trans h
  have hexec : exec (.imgAdvanceRollback c vpp ok) s = execImgAdvanceRollback c vpp ok s := rfl
  refine completes_of (code := r.code) ?_
  rw [hexec, execImgAdvanceRollback, nextFuses]
  dsimp only
  rw [hall]

variable (hle : s.fuses.rollback ≤ u8 (cArg c) 0) (hrun : u8 (cArg c) 0 ≤ s.b.fld Reg.imgRunning 8 8) (hcap : u8 (cArg c) 0 ≤ 64)
include hle hrun hcap

/-- A count that nothing refuses is fused, or as much of it as the fuses take. -/
theorem imgAdvanceRollback_fuses :
    exec (.imgAdvanceRollback c true ok) s =
      if ok then .next { s with
        fuses := s.fuses.advance (u8 (cArg c) 0)
        b := ((s.b.showFuses (s.fuses.advance (u8 (cArg c) 0))).log 1 0x0B
          (leBytes 1 (s.fuses.advance (u8 (cArg c) 0)).rollback)).complete 0x020A c stDone }
      else
        let m := s.fuses.rollback + s.b.drawNat.1 % (u8 (cArg c) 0 - s.fuses.rollback + 1)
        .next { s with
          fuses := s.fuses.advance m
          b := (s.b.drawNat.2.showFuses (s.fuses.advance m)).complete 0x020A c stInternal } := by
  have hnone : firstRefusal [deny (decide (u8 (cArg c) 0 < s.fuses.rollback)) stBadArg, deny (!true) stConflict 0x05 s.b.dev,
      deny (decide (s.b.fld Reg.imgRunning 8 8 < u8 (cArg c) 0) || decide (64 < u8 (cArg c) 0)) stLimit] = none := by
    rw [firstRefusal_deny, firstRefusal_deny, firstRefusal_deny, decide_eq_false (by omega), decide_eq_false (by omega),
      decide_eq_false (by omega)]
    rfl
  have hall := (firstRefusal_checked hauth hdev henv hobj _).trans hnone
  have hexec : exec (.imgAdvanceRollback c true ok) s = execImgAdvanceRollback c true ok s := rfl
  rw [hexec, execImgAdvanceRollback, nextFuses]
  dsimp only
  rw [hall]
  cases ok <;> rfl

theorem imgAdvanceRollback_done :
    ∃ x, exec (.imgAdvanceRollback c true true) s = .next { s with fuses := { s.fuses with rollback := u8 (cArg c) 0 }, b := x } ∧
      Reports (s.b.showFuses { s.fuses with rollback := u8 (cArg c) 0 }) x ∧ (Owed s.b → Answered s.b.now x 0x020A c stDone 0 []) := by
  have hexec := imgAdvanceRollback_fuses (ok := true) hauth hdev henv hobj hle hrun hcap
  rw [advance_of_fits hle hcap] at hexec
  refine ⟨_, hexec, (reports_log _ _ _ _).trans (reports_complete _ _ _ _ _ _ _), fun howed => ?_⟩
  have hanswered := complete_answered ((s.b.showFuses { s.fuses with rollback := u8 (cArg c) 0 }).log 1 0x0B
    (leBytes 1 (u8 (cArg c) 0))) 0x020A c stDone 0 [] 0 (owed_wr _ rfl howed)
  have hnow : ((s.b.showFuses { s.fuses with rollback := u8 (cArg c) 0 }).log 1 0x0B (leBytes 1 (u8 (cArg c) 0))).now = s.b.now :=
    wr_now _ _ _
  rwa [hnow] at hanswered

/-- Fuses that fault stop at a count on the way to the one that was asked for (R81). -/
theorem imgAdvanceRollback_faults :
    ∃ (x : Block) (m : Nat), exec (.imgAdvanceRollback c true false) s = .next { s with fuses := { s.fuses with rollback := m }, b := x } ∧
      s.fuses.rollback ≤ m ∧ m ≤ u8 (cArg c) 0 ∧ (Owed s.b → Answered s.b.now x 0x020A c stInternal 0 []) := by
  have hstep : s.b.drawNat.1 % (u8 (cArg c) 0 - s.fuses.rollback + 1) ≤ u8 (cArg c) 0 - s.fuses.rollback :=
    Nat.lt_succ_iff.1 (Nat.mod_lt _ (Nat.succ_pos _))
  have hexec := imgAdvanceRollback_fuses (ok := false) hauth hdev henv hobj hle hrun hcap
  rw [if_neg (by decide)] at hexec
  dsimp only at hexec
  rw [advance_of_fits (by omega) (by omega)] at hexec
  refine ⟨_, _, hexec, by omega, by omega, fun howed => ?_⟩
  have hanswered := complete_answered (s.b.drawNat.2.showFuses { s.fuses with
    rollback := s.fuses.rollback + s.b.drawNat.1 % (u8 (cArg c) 0 - s.fuses.rollback + 1) }) 0x020A c stInternal 0 [] 0
    (owed_wr (b := s.b.drawNat.2) _ rfl howed)
  have hnow : (s.b.drawNat.2.showFuses { s.fuses with
      rollback := s.fuses.rollback + s.b.drawNat.1 % (u8 (cArg c) 0 - s.fuses.rollback + 1) }).now = s.b.now := wr_now _ _ _
  rwa [hnow] at hanswered

end

section
variable {s : State} {c : Cmd} (hsent : Sent s.b c roleMaintainer [dsImageCheck]) (hobj : cObj c = 0)
include hsent hobj

theorem imgFuseKey_done (hreason : s.b.fld Reg.sysState 8 8 = rsNoKey) (hblank : s.fuses.keyHash = []) :
    ∃ x, exec (.imgFuseKey c true true) s = .next { s with
        fuses := { s.fuses with keyHash := padTo 48 (cArg c), keyDev := false }, b := x } ∧
      Reports s.b x ∧ (Owed s.b → Answered s.b.now x 0x020B c stDone 0 []) := by
  have hnone : firstRefusal [deny (s.b.fld Reg.sysState 8 8 != rsNoKey || !s.fuses.keyHash.isEmpty) stConflict 0 s.b.dev,
      deny (!true) stConflict 0x05 s.b.dev] = none := by
    rw [firstRefusal_deny, hreason, hblank]
    rfl
  have hall := (firstRefusal_sent hsent hobj _).trans hnone
  have hexec : exec (.imgFuseKey c true true) s = .next { s with
      fuses := { s.fuses with keyHash := padTo 48 (cArg c), keyDev := false }, b := (s.b.log 1 0x0C).complete 0x020B c stDone } := by
    have hrow : exec (.imgFuseKey c true true) s = execImgFuseKey c true true s := rfl
    rw [hrow, execImgFuseKey, nextFuses]
    dsimp only
    rw [hall]
    rfl
  exact ⟨_, hexec, (reports_log _ _ _ _).trans (reports_complete _ _ _ _ _ _ _),
    fun howed => complete_answered (s.b.log 1 0x0C) 0x020B c stDone 0 [] 0 howed⟩

theorem imgFuseKey_refused (vpp ok : Bool) (h : s.b.fld Reg.sysState 8 8 ≠ rsNoKey ∨ s.fuses.keyHash ≠ []) :
    Completes s (.imgFuseKey c vpp ok) 0x020B c s.b stConflict 0 := by
  have hdeny : (s.b.fld Reg.sysState 8 8 != rsNoKey || !s.fuses.keyHash.isEmpty) = true := by simpa using h
  have hall : firstRefusal [authCheck c roleMaintainer, devCheck s.b [dsImageCheck], envCheck c, noObject c,
      deny (s.b.fld Reg.sysState 8 8 != rsNoKey || !s.fuses.keyHash.isEmpty) stConflict 0 s.b.dev, deny (!vpp) stConflict 0x05 s.b.dev] =
      some { status := stConflict, reason := 0, code := s.b.dev } := by
    rw [firstRefusal_sent hsent hobj, firstRefusal_deny, hdeny]
    rfl
  have hrow : exec (.imgFuseKey c vpp ok) s = execImgFuseKey c vpp ok s := rfl
  refine completes_of (code := s.b.dev) ?_
  rw [hrow, execImgFuseKey, nextFuses]
  dsimp only
  rw [hall]

end

/-- Settles O25: the commands of slots, selection and fuses, and the ends of slot operations, each by its own lemma. -/
theorem slotsSelectionAndFusesComplete : Obligations.SlotsSelectionAndFusesComplete := by
  unfold Obligations.SlotsSelectionAndFusesComplete
  refine ⟨?_, fun s o hop hkind => slotWriteDone_ends hop hkind, ?_, ?_, ?_,
    fun s o ok im hop hkind => stageDone_ends hop ok im hkind, ?_, ?_, ?_, ?_, ?_⟩
  · intro s c hsent hobj hext a n hslot hlen hfits
    exact ⟨fun hother hidle => imgSlotWrite_begins hsent hobj hext hslot hlen hfits hother hidle,
      fun hrunning => imgSlotWrite_running hsent hobj hext hslot hlen hfits hrunning,
      fun hother hbusy => imgSlotWrite_busy hsent hobj hext hslot hlen hfits hother (Option.isSome_iff_ne_none.2 hbusy)⟩
  · intro s c hsent hobj hslot
    exact ⟨imgSlotVerify_begins hsent hobj hslot, fun hbusy => imgSlotVerify_busy hsent hobj hslot (Option.isSome_iff_ne_none.2 hbusy)⟩
  · intro s o ok im hop hkind
    have hends := slotVerifyDone_ends hop ok im hkind
    refine ⟨fun hpass => ?_, fun hfail => ?_⟩
    · rwa [if_pos hpass] at hends
    · rwa [if_neg hfail] at hends
  · intro s c hsent hobj hslot
    exact ⟨imgStage_queued hsent hobj hslot, fun hbusy => imgStage_busy hsent hobj hslot (Option.isSome_iff_ne_none.2 hbusy)⟩
  · intro s c hsent hobj hslot
    exact ⟨imgSelect_done hsent hobj hslot, imgSelect_unverified hsent hobj hslot⟩
  · intro b n t u
    rw [selWrite_selNow]
    exact ⟨rfl, rfl⟩
  · intro s c hsent hobj
    exact ⟨imgConfirm_done hsent hobj, imgConfirm_noTrial hsent hobj⟩
  · intro s c vpp ok hauth hdev henv hobj n
    refine ⟨?_, ?_, fun hlow => ?_, fun hle hvpp => ?_, fun hle hvpp hlack => ?_⟩
    · rintro hle rfl hrun hcap rfl
      exact imgAdvanceRollback_done hauth hdev henv hobj hle hrun hcap
    · rintro hle rfl hrun hcap rfl
      exact imgAdvanceRollback_faults hauth hdev henv hobj hle hrun hcap
    · refine imgAdvanceRollback_refused (r := { status := stBadArg }) hauth hdev henv hobj ?_
      rw [firstRefusal_deny, decide_eq_true hlow]
      rfl
    · refine imgAdvanceRollback_refused (r := { status := stConflict, reason := 0x05, code := s.b.dev }) hauth hdev henv hobj ?_
      rw [firstRefusal_deny, decide_eq_false (Nat.not_lt.2 hle), hvpp]
      rfl
    · refine imgAdvanceRollback_refused (r := { status := stLimit }) hauth hdev henv hobj ?_
      rw [firstRefusal_deny, decide_eq_false (Nat.not_lt.2 hle), hvpp, firstRefusal_deny, firstRefusal_deny, decide_eq_true hlack]
      rfl
  · intro s c vpp ok hsent hobj
    refine ⟨?_, imgFuseKey_refused hsent hobj vpp ok⟩
    rintro hreason hblank rfl rfl
    exact imgFuseKey_done hsent hobj hreason hblank

end Sys2Proof
end

section
/-! Startup (03): the table banks (R68–R71, R83, R528). -/

namespace Sys2Proof

open Sys2Proof.Machine

/-! ### The bank commands -/

section
variable {s : State} {c : Cmd} (hsent : Sent s.b c roleOperator devRun) (hobj : cObj c = 0)
include hsent hobj

theorem firstRefusal_bankPre (l : List (Option Refuse)) : firstRefusal (s.b.bankPre c ++ l) = firstRefusal l :=
  firstRefusal_sent hsent hobj l

theorem imgBankCopy_done (hstate : s.b.bankState ≠ bkPending) :
    Completes s (.imgBankCopy c) 0x0206 c ((s.b.setIdleBank s.b.bank).setBankState bkOpen).showBankCrc stDone := by
  refine completes_runDone rfl ((firstRefusal_bankPre hsent hobj _).trans ?_) rfl
  rw [firstRefusal_deny, beq_false_of_ne hstate]
  rfl

theorem imgBankCopy_pending (hstate : s.b.bankState = bkPending) : Completes s (.imgBankCopy c) 0x0206 c s.b stConflict := by
  refine completes_runDone_refused (r := { status := stConflict, code := s.b.bankState }) rfl
    ((firstRefusal_bankPre hsent hobj _).trans ?_)
  rw [firstRefusal_deny, beq_iff_eq.2 hstate]
  rfl

theorem imgBankSwap_queued (hstate : s.b.bankState = bkClosed) (hthere : s.b.recipeAbsent = false) :
    Completes s (.imgBankSwap c) 0x0209 c
      ((({ s.b with boot := { s.b.boot with
            swapOp := some (opOf c 0x0209), swapAccepted := s.b.now, swapLate := decide (u64 (cArg c) 0 < s.b.now + 2000) } } : Block).wr64
          Reg.imgSwapAt (u64 (cArg c) 0)).setBankState bkPending)
      stQueued := by
  have hpass : firstRefusal (s.b.bankPre c ++ [deny (s.b.bankState != bkClosed) stConflict 0 s.b.bankState,
      deny s.b.recipeAbsent stConflict 0x01 s.b.bankState]) = none := by
    rw [firstRefusal_bankPre hsent hobj, hstate, hthere]
    rfl
  exact completes_of (gives_accept rfl hpass rfl)

theorem imgBankSwap_notClosed (hstate : s.b.bankState ≠ bkClosed) : Completes s (.imgBankSwap c) 0x0209 c s.b stConflict := by
  refine completes_accept_refused (r := { status := stConflict, code := s.b.bankState }) rfl
    ((firstRefusal_bankPre hsent hobj _).trans ?_)
  rw [firstRefusal_deny, bne_iff_ne.2 hstate]
  rfl

theorem imgBankSwap_recipeAbsent (hstate : s.b.bankState = bkClosed) (habsent : s.b.recipeAbsent = true) :
    Completes s (.imgBankSwap c) 0x0209 c s.b stConflict 0x01 := by
  refine completes_accept_refused (r := { status := stConflict, reason := 0x01, code := s.b.bankState }) rfl
    ((firstRefusal_bankPre hsent hobj _).trans ?_)
  rw [hstate, habsent]
  rfl

section
variable (hstate : s.b.bankState = bkOpen)
include hstate

theorem firstRefusal_bankClose :
    firstRefusal (s.b.bankPre c ++ [deny (s.b.bankState != bkOpen) stConflict 0 s.b.bankState]) = none := by
  rw [firstRefusal_bankPre hsent hobj, hstate]
  rfl

theorem imgBankClose_done (hcrc : Config.bankCrc s.b.idleBank = w32 (cArg c) 0) (htables : tablesRelOk s.b.idleBank = true)
    (hcons : consRelOk s.b.idleBank = true) : Completes s (.imgBankClose c) 0x0208 c (s.b.setBankState bkClosed) stDone := by
  refine completes_run rfl (firstRefusal_bankClose hsent hobj hstate) ?_
  simp only [hcrc, bne_self_eq_false, htables, hcons, Bool.and_self, Bool.not_true, Bool.false_eq_true, if_false]

theorem imgBankClose_wrongCrc (hcrc : Config.bankCrc s.b.idleBank ≠ w32 (cArg c) 0) :
    Completes s (.imgBankClose c) 0x0208 c s.b stImage rsSectionCrc :=
  completes_run rfl (firstRefusal_bankClose hsent hobj hstate) (if_pos (bne_iff_ne.2 hcrc))

theorem imgBankClose_unrelated (hcrc : Config.bankCrc s.b.idleBank = w32 (cArg c) 0)
    (hrel : (tablesRelOk s.b.idleBank && consRelOk s.b.idleBank) = false) :
    Completes s (.imgBankClose c) 0x0208 c s.b stImage rsFormat := by
  refine completes_run rfl (firstRefusal_bankClose hsent hobj hstate) ?_
  simp only [hcrc, bne_self_eq_false, hrel, Bool.not_false, Bool.false_eq_true, if_false, if_true]

end

end

/-! ### Writing entries (R68, R528) -/

/-- The entries that a sent bank write carries for its table of entries of `len` bytes. -/
def writeEntries (c : Cmd) (len : Nat) : List (List Byte) := bankEntries (u16 (cArg c) 0) (u32 (cArg c) 4) len ((cArg c).drop 8)

/-- Does each of them lie within the field table of its own index (R528)? -/
def writeEntriesOk (c : Cmd) (len : Nat) : Bool :=
  ((writeEntries c len).zip (List.range (writeEntries c len).length)).all fun p => entryOk (u16 (cArg c) 0) (u32 (cArg c) 4 + p.2) p.1

/-- The inactive bank takes the entries. -/
def takeEntries (c : Cmd) (len : Nat) (b : Block) : Block :=
  (b.setIdleBank (((writeEntries c len).zip (List.range (writeEntries c len).length)).foldl
    (fun (t : Tab (List Byte)) p => tput t (key (u16 (cArg c) 0) (u32 (cArg c) 4 + p.2)) p.1) b.idleBank)).showBankCrc

/-- Are the data no whole entries? A byte pool is one entry of any length (R416). -/
def writeOdd (c : Cmd) (len : Nat) : Bool :=
  ((cArg c).drop 8).isEmpty || (((cArg c).drop 8).length % len != 0 && !(u16 (cArg c) 0 == tSerPart && decide (u32 (cArg c) 4 < 16)))

section
variable {s : State} {c : Cmd} {len cap : Nat} (hsent : Sent s.b c roleOperator devRun) (hobj : cObj c = 0) (hext : cExt c = true)
  (htable : tableSize (u16 (cArg c) 0) = some (len, cap))
include hsent hobj hext htable

/-- What a bank write of an existing table comes to: data that fit and break its entries' form are refused before the bank's state is
looked at, and data that do not fit after it. -/
theorem imgBankWrite_run :
    ∃ l, exec (.imgBankWrite c) s = .next { s with b := s.b.runDone 0x0207 c l (takeEntries c len) } ∧
      firstRefusal l =
        if u32 (cArg c) 4 + (writeEntries c len).length ≤ cap ∧ (writeOdd c len || !writeEntriesOk c len) = true then
          some { status := stBadArg }
        else if s.b.bankState ≠ bkOpen then some { status := stConflict, code := s.b.bankState }
        else if cap < u32 (cArg c) 4 + (writeEntries c len).length then some { status := stNoSpace } else none := by
  have hrow : exec (.imgBankWrite c) s = execImgBankWrite c s := rfl
  rw [hrow, execImgBankWrite, nextB_eq]
  simp only [htable]
  refine ⟨_, rfl, ?_⟩
  rw [firstRefusal_bankPre hsent hobj]
  simp only [firstRefusal_deny, hext, Bool.not_true, Bool.false_or, Option.isSome_some, Bool.true_and, Option.isNone_some,
    Bool.false_eq_true, if_false, Bool.and_eq_true, decide_eq_true_eq, bne_iff_ne]
  rfl

theorem imgBankWrite_refused {r : Refuse}
    (hr : (if u32 (cArg c) 4 + (writeEntries c len).length ≤ cap ∧ (writeOdd c len || !writeEntriesOk c len) = true then
          some { status := stBadArg }
        else if s.b.bankState ≠ bkOpen then some { status := stConflict, code := s.b.bankState }
        else if cap < u32 (cArg c) 4 + (writeEntries c len).length then some { status := stNoSpace } else none) = some r) :
    Completes s (.imgBankWrite c) 0x0207 c s.b r.status r.reason := by
  obtain ⟨l, hexec, hl⟩ := imgBankWrite_run hsent hobj hext htable
  exact completes_runDone_refused hexec (hl.trans hr)

/-- Whole entries that fit and keep their field tables go into an open bank; another bank's state refuses them. -/
theorem imgBankWrite_whole (hfits : u32 (cArg c) 4 + (writeEntries c len).length ≤ cap) (hodd : writeOdd c len = false)
    (hok : writeEntriesOk c len = true) :
    (s.b.bankState = bkOpen → Completes s (.imgBankWrite c) 0x0207 c (takeEntries c len s.b) stDone) ∧
    (s.b.bankState ≠ bkOpen → Completes s (.imgBankWrite c) 0x0207 c s.b stConflict) := by
  have hwhole : ¬(u32 (cArg c) 4 + (writeEntries c len).length ≤ cap ∧ (writeOdd c len || !writeEntriesOk c len) = true) := by
    rw [hodd, hok]
    exact fun h => Bool.false_ne_true h.2
  constructor
  · intro hopen
    obtain ⟨l, hexec, hl⟩ := imgBankWrite_run hsent hobj hext htable
    rw [if_neg hwhole, if_neg (not_not.2 hopen), if_neg (Nat.not_lt.2 hfits)] at hl
    exact completes_runDone hexec hl rfl
  · intro hclosed
    exact imgBankWrite_refused (r := { status := stConflict, code := s.b.bankState }) hsent hobj hext htable
      ((if_neg hwhole).trans (if_pos hclosed))

theorem imgBankWrite_badEntry (hfits : u32 (cArg c) 4 + (writeEntries c len).length ≤ cap) (hbad : writeEntriesOk c len = false) :
    Completes s (.imgBankWrite c) 0x0207 c s.b stBadArg := by
  refine imgBankWrite_refused (r := { status := stBadArg }) hsent hobj hext htable (if_pos ⟨hfits, ?_⟩)
  rw [hbad, Bool.not_false, Bool.or_true]

theorem imgBankWrite_noSpace (hover : cap < u32 (cArg c) 4 + (writeEntries c len).length) (hopen : s.b.bankState = bkOpen) :
    Completes s (.imgBankWrite c) 0x0207 c s.b stNoSpace :=
  imgBankWrite_refused (r := { status := stNoSpace }) hsent hobj hext htable
    ((if_neg (fun h => absurd h.1 (Nat.not_le.2 hover))).trans ((if_neg (not_not.2 hopen)).trans (if_pos hover)))

end

theorem writeOdd_false {c : Cmd} {len : Nat} (hsome : (cArg c).drop 8 ≠ [])
    (hwhole : ((cArg c).drop 8).length % len = 0 ∨ (u16 (cArg c) 0 = tSerPart ∧ u32 (cArg c) 4 < 16)) : writeOdd c len = false := by
  have hnonempty : ((cArg c).drop 8).isEmpty = false := List.isEmpty_eq_false_iff.2 hsome
  rw [writeOdd, hnonempty, Bool.false_or]
  obtain hmod | ⟨htable, hpool⟩ := hwhole
  · rw [hmod]
    rfl
  · rw [htable, decide_eq_true hpool, beq_self_eq_true, Bool.and_self, Bool.not_true, Bool.and_false]

/-! ### The swap (R69, R70) -/

/-- The other bank becomes the active one, and the swap is counted (R70). -/
def turnBank (b : Block) : Block :=
  ({ b with boot := { b.boot with swapOp := none } } : Block).wrN Reg.imgBank
    ((1 - b.fld Reg.imgBank 0 1) + 65536 * ((b.fld Reg.imgBank 16 16 + 1) % 65536))

theorem turnBank_word (b : Block) :
    (turnBank b).rdN Reg.imgBank = (1 - b.fld Reg.imgBank 0 1) + 65536 * ((b.fld Reg.imgBank 16 16 + 1) % 65536) := by
  rw [turnBank, rdN_wrN_same]
  omega

/-- `t` has the banks of `b`: their tables, which is active and what state and count it shows, and the startup's own state. -/
def HoldsBanks (b t : Block) : Prop := t.boot = b.boot ∧ t.bankA = b.bankA ∧ t.bankB = b.bankB ∧ t.rd Reg.imgBank = b.rd Reg.imgBank

theorem HoldsBanks.refl (b : Block) : HoldsBanks b b := ⟨rfl, rfl, rfl, rfl⟩

theorem HoldsBanks.trans {a b c : Block} (h : HoldsBanks a b) (g : HoldsBanks b c) : HoldsBanks a c := by
  obtain ⟨hboot, hbankA, hbankB, hword⟩ := h
  obtain ⟨gboot, gbankA, gbankB, gword⟩ := g
  exact ⟨gboot.trans hboot, gbankA.trans hbankA, gbankB.trans hbankB, gword.trans hword⟩

theorem holdsBanks_wr (b : Block) {off : Nat} (v : Word) (h : Reg.imgBank ≠ off) : HoldsBanks b (b.wr off v) :=
  ⟨wr_boot b off v, wr_bankA b off v, wr_bankB b off v, rd_wr_ne b v h⟩

theorem holdsBanks_wrN (b : Block) {off : Nat} (v : Nat) (h : Reg.imgBank ≠ off) : HoldsBanks b (b.wrN off v) := holdsBanks_wr b _ h

theorem holdsBanks_setFld (b : Block) {off : Nat} (lo n x : Nat) (h : Reg.imgBank ≠ off) : HoldsBanks b (b.setFld off lo n x) :=
  holdsBanks_wr b _ h

theorem holdsBanks_foldl {β : Type} (f : Block → β → Block) (l : List β) (h : ∀ b x, HoldsBanks b (f b x)) (b : Block) :
    HoldsBanks b (l.foldl f b) := by
  induction l generalizing b with
  | nil => exact .refl b
  | cons x r ih => exact (h b x).trans (ih _)

theorem Reports.holdsBanks {b t : Block} (h : Reports b t) : HoldsBanks b t := by
  have hword : t.rd Reg.imgBank = b.rd Reg.imgBank := h.rd rfl (by decide) (by decide)
  obtain ⟨o, rs, fr, al, lg, ev, ns, rfl, -⟩ := h
  exact ⟨rfl, rfl, rfl, hword⟩

theorem holdsBanks_raise (b : Block) (off bit : Nat) (h : Reg.imgBank ≠ off) (h4 : Reg.imgBank ≠ off + 4) :
    HoldsBanks b (b.raise off bit) :=
  ((holdsBanks_wrN b _ h).trans (holdsBanks_wrN _ _ h4)).trans (raise_reports b off bit _ _).holdsBanks

theorem holdsBanks_showCons (b : Block) (n : Nat) : HoldsBanks b (b.showCons n) := by
  have hclaim : Reg.imgBank ≠ Reg.lgrConsClaim n := by unfold Reg.imgBank Reg.lgrConsClaim; omega
  have hgrant : Reg.imgBank ≠ Reg.lgrConsGrant n := by unfold Reg.imgBank Reg.lgrConsGrant; omega
  have hmeasured : Reg.imgBank ≠ Reg.lgrConsMeasured n := by unfold Reg.imgBank Reg.lgrConsMeasured; omega
  have hstatus : Reg.imgBank ≠ Reg.lgrConsStatus n := by unfold Reg.imgBank Reg.lgrConsStatus; omega
  exact (((((((holdsBanks_wrN b _ hclaim).trans (holdsBanks_wrN _ _ hgrant)).trans (holdsBanks_wrN _ _ hmeasured)).trans
    (holdsBanks_setFld _ 24 8 _ hstatus)).trans (holdsBanks_setFld _ 20 4 _ hstatus)).trans (holdsBanks_setFld _ 3 1 _ hstatus)).trans
    (holdsBanks_setFld _ 1 1 _ hstatus))

theorem holdsBanks_canSwap (b : Block) (old : Tab (List Byte)) : HoldsBanks b (b.canSwap old) := by
  refine holdsBanks_foldl _ _ (fun b p => ?_) b
  exact .refl _

theorem holdsBanks_serStart (b : Block) : HoldsBanks b b.serStart := by
  refine holdsBanks_foldl _ _ (fun b p => ?_) b
  dsimp only
  split
  · exact .refl _
  · exact .refl _

/-- What a swap shows of the new bank stands outside the banks themselves. -/
theorem holdsBanks_bankShow (b : Block) (old : Tab (List Byte)) : HoldsBanks b (b.bankShow old) := by
  have hquota (b : Block) (n : Nat) : HoldsBanks b (b.setFld (Reg.seqLaneQuota n) 0 16 (u16 (b.lnTab n) 4)) :=
    holdsBanks_setFld b 0 16 _ (by unfold Reg.imgBank Reg.seqLaneQuota; omega)
  exact ((((holdsBanks_wrN b _ (by decide)).trans (holdsBanks_foldl _ _ hquota _)).trans
    (holdsBanks_foldl _ _ holdsBanks_showCons _)).trans (holdsBanks_canSwap _ old)).trans (holdsBanks_serStart _)

section
variable {s : State} {o : ServiceOp} (hop : s.b.boot.swapOp = some o) (hstate : s.b.bankState = bkPending)
  (htime : s.b.rd64 Reg.imgSwapAt ≤ s.b.now) (hlate : s.b.boot.swapLate = true → s.b.boot.swapAccepted < s.b.now)
include hstate htime hlate

/-- The conditions that let a swap wait (R69). -/
theorem swapDue : ¬(s.b.bankState ≠ bkPending ∨ s.b.now < s.b.rd64 Reg.imgSwapAt ∨
    (s.b.boot.swapLate = true ∧ s.b.now ≤ s.b.boot.swapAccepted)) := by
  rintro (hother | hearly | ⟨hl, hnow⟩)
  · exact hother hstate
  · omega
  · exact absurd (hlate hl) (by omega)

include hop

/-- The swap that is due is made: nothing but the turn touches the banks. -/
theorem bankSwap_turns (hthere : s.b.recipeAbsent = false) : ∃ x, Gives s .bankSwap x ∧ HoldsBanks (turnBank s.b) x := by
  have hshow : HoldsBanks (turnBank s.b) ((turnBank s.b).bankShow s.b.bank).showBankCrc :=
    (holdsBanks_bankShow _ _).trans (holdsBanks_wr _ _ (by decide))
  have hdue := swapDue hstate htime hlate
  refine ⟨_, gives_of_eq rfl rfl, ?_⟩
  simp only [hop]
  rw [if_neg hdue, if_neg]
  case hnc => exact Bool.eq_false_iff.1 hthere
  split
  · exact (hshow.trans (holdsBanks_raise _ _ _ (by decide) (by decide))).trans (reports_settle _ _ _ _ _ _ _).holdsBanks
  · exact hshow.trans (reports_settle _ _ _ _ _ _ _).holdsBanks

theorem bankSwap_abandoned (habsent : s.b.recipeAbsent = true) :
    Gives s .bankSwap (((({ s.b with boot := { s.b.boot with swapOp := none } } : Block).setBankState bkClosed).raise Reg.imgFlags 2).settle
      o true stAbandoned 0x02) := by
  have hdue := swapDue hstate htime hlate
  refine gives_of_eq rfl ?_
  simp only [hop]
  rw [if_neg hdue]
  exact if_pos habsent

end

/-- What the registers and tables show after a turn (R70). -/
theorem turned_shows {b x : Block} (h : HoldsBanks (turnBank b) x) :
    x.boot.swapOp = none ∧ x.fld Reg.imgBank 0 1 = 1 - b.fld Reg.imgBank 0 1 ∧ x.bankState = bkOpen ∧ x.bankA = b.bankA ∧
      x.bankB = b.bankB ∧ x.fld Reg.imgBank 16 16 = (b.fld Reg.imgBank 16 16 + 1) % 65536 := by
  obtain ⟨hboot, hbankA, hbankB, hword⟩ := h
  have hrd : x.rdN Reg.imgBank = (1 - b.fld Reg.imgBank 0 1) + 65536 * ((b.fld Reg.imgBank 16 16 + 1) % 65536) := by
    rw [Block.rdN, hword]
    exact turnBank_word b
  have hturned : (turnBank b).boot = { b.boot with swapOp := none } := wr_boot _ _ _
  refine ⟨?_, ?_, ?_, hbankA.trans (wr_bankA _ _ _), hbankB.trans (wr_bankB _ _ _), ?_⟩
  · rw [hboot, hturned]
  · rw [Block.fld, hrd, field]
    omega
  · rw [Block.bankState, Block.fld, hrd, field, bkOpen]
    omega
  · rw [Block.fld, hrd, field]
    omega

/-- Settles O26: the bank commands and the swap, each by its own lemma. -/
theorem tableBanksOpenCloseAndSwap : Obligations.TableBanksOpenCloseAndSwap := by
  unfold Obligations.TableBanksOpenCloseAndSwap
  refine ⟨fun s c hsent hobj => ⟨imgBankCopy_done hsent hobj, imgBankCopy_pending hsent hobj⟩, ?_, ?_, ?_, ?_⟩
  · intro s c len cap hsent hobj hext k i d es htable
    exact ⟨fun hsome hwhole hfits hok => imgBankWrite_whole hsent hobj hext htable hfits (writeOdd_false hsome hwhole) hok,
      imgBankWrite_badEntry hsent hobj hext htable, imgBankWrite_noSpace hsent hobj hext htable⟩
  · intro s c hsent hobj hopen
    exact ⟨imgBankClose_done hsent hobj hopen, imgBankClose_wrongCrc hsent hobj hopen, imgBankClose_unrelated hsent hobj hopen⟩
  · intro s c hsent hobj t w
    exact ⟨imgBankSwap_queued hsent hobj, imgBankSwap_notClosed hsent hobj, imgBankSwap_recipeAbsent hsent hobj⟩
  · intro s o hop hstate htime hlate b0
    refine ⟨fun hthere => ?_, bankSwap_abandoned hop hstate htime hlate⟩
    obtain ⟨x, hgives, hbanks⟩ := bankSwap_turns hop hstate htime hlate hthere
    exact ⟨x, hgives, turned_shows hbanks⟩

/-- Settles O60: the same refusals, by the bank's state and by the slot operation that runs. -/
theorem bankAndSlotCommandsWaitTheirTurn : Obligations.BankAndSlotCommandsWaitTheirTurn := by
  unfold Obligations.BankAndSlotCommandsWaitTheirTurn
  constructor
  · intro s c hsent hobj
    refine ⟨fun hpending => ⟨imgBankCopy_pending hsent hobj hpending, imgBankSwap_notClosed hsent hobj ?_⟩, fun hopen =>
      imgBankSwap_notClosed hsent hobj ?_⟩
    · rw [hpending]
      decide
    · rw [hopen]
      decide
  · intro s c hbusy hobj hslot
    exact ⟨fun hsent hext hlen hfits hother => imgSlotWrite_busy hsent hobj hext hslot hlen hfits hother hbusy,
      fun hsent => imgSlotVerify_busy hsent hobj hslot hbusy, fun hsent => imgStage_busy hsent hobj hslot hbusy⟩

end Sys2Proof
end

section
/-! Startup (03): the SYS commands and the panel input (R73–R78, R82). -/

namespace Sys2Proof

open Sys2Proof.Machine

/-! ### Bits and fields of a word (02 R27) -/

theorem field_testBit (v lo n i : Nat) : (field v lo n).testBit i = (decide (i < n) && v.testBit (lo + i)) := by
  rw [field, Nat.testBit_mod_two_pow, Nat.testBit_shiftRight]

/-- A word below, in and above one of its fields. -/
theorem field_decompose (v lo n : Nat) : v = 2 ^ lo * (2 ^ n * (v / 2 ^ lo / 2 ^ n) + field v lo n) + v % 2 ^ lo := by
  rw [field, Nat.shiftRight_eq_div_pow, Nat.div_add_mod, Nat.div_add_mod]

/-- Setting a field replaces its bits and no other. -/
theorem setField_testBit (v lo n x i : Nat) :
    (setField v lo n x).testBit i = if lo ≤ i ∧ i < lo + n then x.testBit (i - lo) else v.testBit i := by
  have hset : setField v lo n x = 2 ^ lo * (2 ^ n * (v / 2 ^ lo / 2 ^ n) + x % 2 ^ n) + v % 2 ^ lo := by
    have hv := field_decompose v lo n
    rw [Nat.mul_add] at hv
    rw [setField, Nat.shiftLeft_eq, Nat.shiftLeft_eq, Nat.mul_comm (field v lo n), Nat.mul_comm (x % 2 ^ n), Nat.mul_add]
    omega
  have hlow : v % 2 ^ lo < 2 ^ lo := Nat.mod_lt _ (Nat.two_pow_pos lo)
  have hx : x % 2 ^ n < 2 ^ n := Nat.mod_lt _ (Nat.two_pow_pos n)
  rw [hset, Nat.testBit_two_pow_mul_add _ hlow]
  by_cases hbelow : i < lo
  · rw [if_pos hbelow, if_neg (by omega), Nat.testBit_mod_two_pow, decide_eq_true hbelow, Bool.true_and]
  · rw [if_neg hbelow, Nat.testBit_two_pow_mul_add _ hx]
    by_cases hin : i - lo < n
    · rw [if_pos hin, if_pos (by omega), Nat.testBit_mod_two_pow, decide_eq_true hin, Bool.true_and]
    · rw [if_neg hin, if_neg (by omega), Nat.testBit_div_two_pow, Nat.testBit_div_two_pow]
      congr 1
      omega

theorem setFld_testBit (b : Block) (off lo n x i : Nat) (h : i < 32) :
    (b.setFld off lo n x).bit off i = if lo ≤ i ∧ i < lo + n then x.testBit (i - lo) else b.bit off i := by
  rw [Block.bit, Block.setFld, rdN_wrN_same, Nat.testBit_mod_two_pow, decide_eq_true h, Bool.true_and, setField_testBit]
  rfl

/-! ### The device state under writes of other words -/

theorem dev_congr {b t : Block} (h : t.rd Reg.sysState = b.rd Reg.sysState) : t.dev = b.dev := by
  rw [Block.dev, Block.fld, Block.rdN, h]
  rfl

theorem panelIgnored_congr {b t : Block} (h : t.dev = b.dev) : t.panelIgnored = b.panelIgnored := by
  rw [Block.panelIgnored, h]
  rfl

/-- Presses act in every state that runs an image (R75). -/
theorem not_panelIgnored {b : Block} (h : b.dev ∈ devRun) : ¬b.panelIgnored = true := by
  have hothers : ∀ d ∈ devRun, ¬(d == dsBoot || d == dsImageCheck || d == dsFailed) = true := by decide
  exact hothers b.dev h

theorem dev_panel (b : Block) (lo n x bit : Nat) :
    ((b.setFld Reg.sysPanel lo n x).raise Reg.sysPanelFlags bit).dev = b.dev :=
  dev_congr ((rd_raise_ne _ bit _ _ (by decide) (by decide) rfl (by decide) (by decide)).trans (rd_setFld_ne b lo n x (by decide)))

/-! ### SYS commands (R76–R78, R82) -/

section
variable {s : State} {c : Cmd} (hobj : cObj c = 0)
include hobj

theorem sysColdRestart_done (hsent : Sent s.b c roleOperator devAll)
    (hidle : (u8 (cArg c) 0).testBit 0 = true ∨ s.b.lanesIn [lsRunning, lsHeld] = false) :
    Completes s (.sysColdRestart c) 0x0001 c
      { s.b with boot := { s.b.boot with restartBy := some (if issuerIsHost c.issuer then 2 else 3) } } stDone := by
  have hpass : (!(u8 (cArg c) 0).testBit 0 && s.b.lanesIn [lsRunning, lsHeld]) = false := by
    obtain hforce | hlanes := hidle
    · rw [hforce]
      rfl
    · rw [hlanes, Bool.and_false]
  refine completes_runDone rfl ((firstRefusal_sent hsent hobj _).trans ?_) rfl
  rw [firstRefusal_deny, hpass]
  rfl

theorem sysColdRestart_lanesBusy (hsent : Sent s.b c roleOperator devAll) (hforce : (u8 (cArg c) 0).testBit 0 = false)
    (hlanes : s.b.lanesIn [lsRunning, lsHeld] = true) : Completes s (.sysColdRestart c) 0x0001 c s.b stConflict 0x01 := by
  refine completes_runDone_refused (r := { status := stConflict, reason := 0x01, code := s.b.dev }) rfl
    ((firstRefusal_sent hsent hobj _).trans ?_)
  rw [firstRefusal_deny, hforce, hlanes]
  rfl

theorem sysSafeStopAll_done (hsent : Sent s.b c roleOperator [dsOperational, dsRestart]) :
    Completes s (.sysSafeStopAll c) 0x0002 c s.b.safeStopAll stDone :=
  completes_runDone rfl (firstRefusal_sent hsent hobj _) rfl

/-- Entering OPERATIONAL reports the device's event (R49). -/
theorem sysResume_done (hsent : Sent s.b c roleOperator [dsSafeStop]) (hlanes : s.b.lanesIn [lsAborting, lsRunning, lsHeld] = false) :
    Completes s (.sysResume c) 0x0003 c (s.b.setFld Reg.sysState 0 8 dsOperational) stDone := by
  have hpass : firstRefusal [authCheck c roleOperator, devCheck s.b [dsSafeStop], envCheck c, noObject c,
      deny (s.b.lanesIn [lsAborting, lsRunning, lsHeld]) stConflict 0x01 s.b.dev] = none := by
    rw [firstRefusal_sent hsent hobj, firstRefusal_deny, hlanes]
    rfl
  have hexec : exec (.sysResume c) s = .next { s with b := (s.b.setDev dsOperational).complete 0x0003 c stDone } := by
    have hrow : exec (.sysResume c) s = execSysResume c s := rfl
    rw [hrow, execSysResume, nextB_eq, runDone_eff _ _ _ _ _ hpass]
  exact completes_of_quiet (quiet_event _ _ _ _ _ _ _ _ _ _) hexec

theorem sysResume_lanesBusy (hsent : Sent s.b c roleOperator [dsSafeStop]) (hlanes : s.b.lanesIn [lsAborting, lsRunning, lsHeld] = true) :
    Completes s (.sysResume c) 0x0003 c s.b stConflict 0x01 := by
  refine completes_runDone_refused (r := { status := stConflict, reason := 0x01, code := s.b.dev }) rfl
    ((firstRefusal_sent hsent hobj _).trans ?_)
  rw [firstRefusal_deny, hlanes]
  rfl

end

/-! ### The panel input (R73–R76) -/

section
variable {s : State}

theorem panelPress_recognised (hpor : s.b.boot.por = false) (hhigh : s.b.bit Reg.sysPanel 0 = false)
    (hfree : s.b.bit Reg.sysPanel 1 = false) :
    ∃ x, Gives s .panelPress x ∧ x.bit Reg.sysPanel 0 = true ∧ x.boot.panelLow = s.b.elapsed - 20000000 ∧ x.boot.panelLong = false := by
  have hwaits : ¬(s.b.boot.por || s.b.bit Reg.sysPanel 0 || s.b.bit Reg.sysPanel 1) = true := by
    rw [hpor, hhigh, hfree]
    decide
  have hboot : ∀ b : Block, (b.setFld Reg.sysPanel 0 1 1).boot = b.boot := fun b => wr_boot b _ _
  refine ⟨_, gives_of_eq rfl (if_neg hwaits), ?_, ?_, ?_⟩
  · rw [setFld_testBit _ _ _ _ _ _ (by decide)]
    rfl
  · rw [hboot]
  · rw [hboot]

section
variable (hpressed : s.b.pressed = true)
include hpressed

/-- A release before 2 s acts on the request (R75). -/
theorem panelShortPress_released (hshort : s.b.boot.panelLong = false) :
    let b := s.b.setFld Reg.sysPanel 0 1 0
    (s.b.panelIgnored = true → Gives s .panelShortPress (b.raise Reg.sysPanelFlags 3)) ∧
    (s.b.panelIgnored = false → s.b.dev ≠ dsRestart →
      Gives s .panelShortPress ((b.raise Reg.sysPanelFlags 0).beginRestart 3 false none)) ∧
    (s.b.dev = dsRestart → Gives s .panelShortPress ((b.raise Reg.sysPanelFlags 0).panelRefused 0x0901)) := by
  intro b
  have hacts : ¬(!s.b.pressed || s.b.boot.panelLong) = true := by
    rw [hpressed, hshort]
    decide
  have hignored : b.panelIgnored = s.b.panelIgnored := panelIgnored_congr (dev_congr (rd_setFld_ne s.b 0 1 0 (by decide)))
  have hdev : (b.raise Reg.sysPanelFlags 0).dev = s.b.dev := dev_panel s.b 0 1 0 0
  refine ⟨fun hign => gives_of_eq rfl ((if_neg hacts).trans (if_pos (hignored.trans hign))), fun hign hother => ?_, fun hrestart => ?_⟩
  · have htaken : ¬b.panelIgnored = true := by rw [hignored, hign]; decide
    exact gives_of_eq rfl ((if_neg hacts).trans ((if_neg htaken).trans (if_neg (by rwa [hdev]))))
  · have htaken : ¬b.panelIgnored = true := by
      rw [hignored]
      exact not_panelIgnored (by rw [hrestart]; decide)
    exact gives_of_eq rfl ((if_neg hacts).trans ((if_neg htaken).trans (if_pos (hdev.trans hrestart))))

/-- A press held for 2 s acts on the request (R75, R76). -/
theorem panelLongPress_held (hshort : s.b.boot.panelLong = false) (hheld : s.b.boot.panelLow + 2000000000 ≤ s.b.elapsed) :
    let b : Block := { s.b with boot := { s.b.boot with panelLong := true } }
    (s.b.panelIgnored = true → Gives s .panelLongPress (b.raise Reg.sysPanelFlags 3)) ∧
    (s.b.dev = dsOperational ∨ s.b.dev = dsRestart → Gives s .panelLongPress ((b.raise Reg.sysPanelFlags 1).safeStopAll)) ∧
    (s.b.dev = dsAwaitWorld ∨ s.b.dev = dsSafeStop →
      Gives s .panelLongPress ((b.raise Reg.sysPanelFlags 1).panelRefused 0x0002)) := by
  intro b
  have hacts : ¬(!s.b.pressed || s.b.boot.panelLong || decide (s.b.elapsed < s.b.boot.panelLow + 2000000000)) = true := by
    rw [hpressed, hshort, decide_eq_false (Nat.not_lt.2 hheld)]
    decide
  have hdev : (b.raise Reg.sysPanelFlags 1).dev = s.b.dev :=
    dev_congr (b := b) (rd_raise_ne b 1 _ _ (by decide) (by decide) rfl (by decide) (by decide))
  refine ⟨fun hign => gives_of_eq rfl ((if_neg hacts).trans (if_pos hign)), fun hstops => ?_, fun hrefuses => ?_⟩
  · have htaken : ¬b.panelIgnored = true := not_panelIgnored (b := s.b) (by obtain hd | hd := hstops <;> rw [hd] <;> decide)
    exact gives_of_eq rfl ((if_neg hacts).trans ((if_neg htaken).trans (if_pos (by rwa [hdev]))))
  · have htaken : ¬b.panelIgnored = true := not_panelIgnored (b := s.b) (by obtain hd | hd := hrefuses <;> rw [hd] <;> decide)
    have hother : ¬((b.raise Reg.sysPanelFlags 1).dev = dsOperational ∨ (b.raise Reg.sysPanelFlags 1).dev = dsRestart) := by
      rw [hdev]
      obtain hd | hd := hrefuses <;> rw [hd] <;> decide
    exact gives_of_eq rfl ((if_neg hacts).trans ((if_neg htaken).trans (if_neg hother)))

theorem panelLongRelease_released (hlong : s.b.boot.panelLong = true) :
    Gives s .panelLongRelease (s.b.setFld Reg.sysPanel 0 1 0) :=
  gives_of_eq rfl (if_pos (by rw [hpressed, hlong]; rfl))

/-- At 10 s the input is stuck: its flag is raised and the log takes an entry (R73). -/
theorem panelStuck_held (hheld : s.b.boot.panelLow + 10000000000 ≤ s.b.elapsed) :
    Does s .panelStuck ((s.b.setFld Reg.sysPanel 1 1 1).setFlag Reg.sysPanelFlags 2) := by
  have hacts : ¬(!s.b.pressed || decide (s.b.elapsed < s.b.boot.panelLow + 10000000000)) = true := by
    rw [hpressed, decide_eq_false (Nat.not_lt.2 hheld)]
    decide
  have hgives : Gives s .panelStuck (((s.b.setFld Reg.sysPanel 1 1 1).raise Reg.sysPanelFlags 2).log 5 0x07) :=
    gives_of_eq rfl (if_neg hacts)
  exact does_of hgives ((raise_reports _ _ _ _ _).trans (reports_log _ _ _ _))

end

theorem panelUnstuck_released (hstuck : s.b.bit Reg.sysPanel 1 = true) :
    ∃ x, Gives s .panelUnstuck x ∧ x.bit Reg.sysPanel 0 = false ∧ x.bit Reg.sysPanel 1 = false := by
  refine ⟨_, gives_of_eq rfl (if_pos hstuck), ?_, ?_⟩
  · rw [setFld_testBit _ _ _ _ _ _ (by decide)]
    rfl
  · rw [setFld_testBit _ _ _ _ _ _ (by decide)]
    rfl

end

/-- Settles O22: each SYS command and each moment of the panel input by its own lemma. -/
theorem systemCommandsAndPanelComplete : Obligations.SystemCommandsAndPanelComplete := by
  unfold Obligations.SystemCommandsAndPanelComplete
  refine ⟨fun s c hsent hobj => ⟨sysColdRestart_done hobj hsent, sysColdRestart_lanesBusy hobj hsent⟩,
    fun s c hsent hobj => sysSafeStopAll_done hobj hsent,
    fun s c hsent hobj => ⟨sysResume_done hobj hsent, sysResume_lanesBusy hobj hsent⟩,
    fun s hpor hhigh hfree => panelPress_recognised hpor hhigh hfree,
    fun s hpressed hshort => panelShortPress_released hpressed hshort,
    fun s hpressed hshort hheld => panelLongPress_held hpressed hshort hheld,
    fun s hpressed hlong => panelLongRelease_released hpressed hlong,
    fun s hpressed hheld => panelStuck_held hpressed hheld,
    fun s hstuck => panelUnstuck_released hstuck⟩

end Sys2Proof
end

section
/-! Startup (03): the points of a cold start (R50, R62–R66). -/

namespace Sys2Proof

open Sys2Proof.Machine

/-! ### The device's state word -/

theorem Quiet.rd {b t : Block} (h : Quiet b t) {off : Nat} (hin : isOut off = false) (hprf : off / 0x100000 ≠ 0x15) :
    t.rd off = b.rd off := by
  obtain ⟨o, rs, rfl, -, hkeep⟩ := h
  simpa only [Block.rd, hin, Bool.false_eq_true, if_false] using hkeep off hprf

theorem Quiet.boot {b t : Block} (h : Quiet b t) : t.boot = b.boot := by
  obtain ⟨o, rs, rfl, -, -⟩ := h
  rfl

theorem fld_congr {b t : Block} {off : Nat} (lo n : Nat) (h : t.rd off = b.rd off) : t.fld off lo n = b.fld off lo n := by
  simp only [Block.fld, Block.rdN, h]

/-- A field that was set reads as it was set. -/
theorem fld_setFld_same (b : Block) (off : Nat) {lo n x : Nat} (hfits : lo + n ≤ 32) (hx : x < 2 ^ n) :
    (b.setFld off lo n x).fld off lo n = x := by
  refine Nat.eq_of_testBit_eq fun i => ?_
  rw [Block.fld, field_testBit]
  by_cases hi : i < n
  · have hbit := setFld_testBit b off lo n x (lo + i) (by omega)
    rw [if_pos ⟨Nat.le_add_right lo i, by omega⟩, Nat.add_sub_cancel_left] at hbit
    rw [decide_eq_true hi, Bool.true_and]
    exact hbit
  · rw [decide_eq_false hi, Bool.false_and, Nat.testBit_lt_two_pow (hx.trans_le (Nat.pow_le_pow_right (by omega) (by omega)))]

/-- Setting a field leaves one that lies apart from it. -/
theorem fld_setFld_apart (b : Block) (off : Nat) {lo n lo' n' : Nat} (x : Nat) (hfits : lo' + n' ≤ 32)
    (happart : lo' + n' ≤ lo ∨ lo + n ≤ lo') : (b.setFld off lo n x).fld off lo' n' = b.fld off lo' n' := by
  refine Nat.eq_of_testBit_eq fun i => ?_
  rw [Block.fld, field_testBit, Block.fld, field_testBit]
  by_cases hi : i < n'
  · have hbit := setFld_testBit b off lo n x (lo' + i) (by omega)
    rw [if_neg (by omega)] at hbit
    rw [decide_eq_true hi, Bool.true_and, Bool.true_and]
    exact hbit
  · rw [decide_eq_false hi, Bool.false_and, Bool.false_and]

/-- Entering a device state shows it, and its event leaves the rest of the word and the startup's own state (R49). -/
theorem setDev_shows (b : Block) {d : Nat} (hd : d < 256) :
    (b.setDev d).dev = d ∧ (b.setDev d).fld Reg.sysState 8 8 = b.fld Reg.sysState 8 8 ∧ (b.setDev d).boot = b.boot := by
  have hquiet : Quiet (b.setFld Reg.sysState 0 8 d) (b.setDev d) := quiet_event _ _ _ _ _ _ _ _ _ _
  have hword := hquiet.rd (off := Reg.sysState) rfl (by decide)
  exact ⟨(fld_congr 0 8 hword).trans (fld_setFld_same b _ (by decide) hd),
    (fld_congr 8 8 hword).trans (fld_setFld_apart b _ d (by decide) (by decide)), hquiet.boot.trans (wr_boot _ _ _)⟩

/-! ### The NVM and the selection record (t2) -/

theorem checkingAt_milestone {b : Block} {t : Nat} (h : b.checkingAt t = true) : b.boot.milestone = t := by
  simp only [Block.checkingAt, Block.atPoint, Bool.and_eq_true, beq_iff_eq] at h
  exact h.1.2

theorem selNow_congr {b t : Block} (h : t.boot = b.boot) : t.selNow = b.selNow := by
  simp only [Block.selNow, h]

/-- The selection record at t2: a trial that was tried falls back to the other slot, and a first one is marked as tried (R64). -/
def trySelection (b : Block) : Block :=
  if b.selNow.1.trial && b.selNow.1.tried then b.selWrite (1 - b.selNow.1.slot) false false
  else if b.selNow.1.trial then b.selWrite b.selNow.1.slot true true else b.showSel

theorem trySelection_slot (b : Block) :
    (trySelection b).selNow.1.slot = if b.selNow.1.trial && b.selNow.1.tried then 1 - b.selNow.1.slot else b.selNow.1.slot := by
  unfold trySelection
  split
  · rw [selWrite_selNow]
  · split
    · rw [selWrite_selNow]
    · have hshow : b.showSel.boot = b.boot := wr_boot _ _ _
      rw [selNow_congr hshow]

theorem trySelection_milestone (b : Block) : (trySelection b).boot.milestone = b.boot.milestone := by
  have hwrite (n : Nat) (t u : Bool) : (b.selWrite n t u).boot.milestone = b.boot.milestone := by
    rw [selWrite_boot]
    dsimp only
    split <;> rfl
  unfold trySelection
  split
  · exact hwrite _ _ _
  · split
    · exact hwrite _ _ _
    · exact congrArg Boot.milestone (wr_boot _ _ _)

theorem selWrite_rd (b : Block) (n : Nat) (t u : Bool) {off : Nat} (h : off ≠ Reg.imgSelect) : (b.selWrite n t u).rd off = b.rd off :=
  rd_wr_ne _ _ h

theorem trySelection_dev (b : Block) : (trySelection b).dev = b.dev := by
  unfold trySelection
  refine dev_congr ?_
  split
  · exact selWrite_rd _ _ _ _ (by decide)
  · split
    · exact selWrite_rd _ _ _ _ (by decide)
    · exact rd_wr_ne _ _ (by decide)

section
variable {s : State} (hpoint : s.b.atPoint dsBoot 1 = true)
include hpoint

theorem nvmDiscovered_unreadable :
    ∃ x, Gives s (.nvmDiscovered false) x ∧ x.dev = dsFailed ∧ x.fld Reg.sysState 8 8 = rsNvm := by
  refine ⟨_, gives_of_eq rfl (if_neg (by rw [hpoint]; decide)), ?_⟩
  obtain ⟨hdev, hreason, -⟩ := setDev_shows
    (({ (s.b.setDev dsImageCheck).setPoint 2 with boot := { ((s.b.setDev dsImageCheck).setPoint 2).boot with checking := noSlot } } :
      Block).setFld Reg.sysState 8 8 rsNvm) (d := dsFailed) (by decide)
  exact ⟨hdev, hreason.trans (fld_setFld_same _ _ (by decide) (by decide))⟩

theorem nvmDiscovered_selects :
    ∃ x, Gives s (.nvmDiscovered true) x ∧ x.dev = dsImageCheck ∧ x.boot.milestone = 2 ∧
      x.boot.checking = (if s.b.selNow.1.trial && s.b.selNow.1.tried then 1 - s.b.selNow.1.slot else s.b.selNow.1.slot) ∧
      x.boot.other = false := by
  obtain ⟨hdev, -, hboot⟩ := setDev_shows s.b (d := dsImageCheck) (by decide)
  have hsel : ((s.b.setDev dsImageCheck).setPoint 2).selNow = s.b.selNow := by
    simp only [Block.selNow, Block.setPoint, hboot]
  have hslot := trySelection_slot ((s.b.setDev dsImageCheck).setPoint 2)
  rw [hsel] at hslot
  exact ⟨_, gives_of_eq rfl (if_neg (by rw [hpoint]; decide)), (trySelection_dev _).trans hdev, trySelection_milestone _, hslot, rfl⟩

end

/-! ### A slot that fails (R63, R65) -/

/-- What is shown of a failed slot stands outside the device's state word and the startup's own state. -/
theorem failShown_keeps (b : Block) (r : Nat) (rd : Bool) :
    let x := if r = rsNvm ∧ rd = true then
        (b.showSlot b.boot.checking r).setFld (Reg.imgSlotStatus b.boot.checking) 16 8
          (hdRollback ((b.showSlot b.boot.checking r).slotHeader b.boot.checking))
      else b.showSlot b.boot.checking r
    x.boot = b.boot ∧ x.rd Reg.sysState = b.rd Reg.sysState := by
  have hne : Reg.sysState ≠ Reg.imgSlotStatus b.boot.checking := by
    unfold Reg.sysState Reg.imgSlotStatus
    omega
  have hshow : (b.showSlot b.boot.checking r).boot = b.boot ∧ (b.showSlot b.boot.checking r).rd Reg.sysState = b.rd Reg.sysState :=
    ⟨wr_boot _ _ _, rd_wr_ne _ _ hne⟩
  dsimp only
  split
  · exact ⟨(wr_boot _ _ _).trans hshow.1, (rd_wr_ne _ _ hne).trans hshow.2⟩
  · exact hshow

section
variable {b : Block} {r : Nat} (rd : Bool)

theorem failSlot_triesOther (hfirst : b.boot.other = false) (hr : r < 256) :
    (b.failSlot r rd).boot.checking = 1 - b.boot.checking ∧ (b.failSlot r rd).boot.other = true ∧
      (b.failSlot r rd).boot.milestone = 2 ∧ (b.failSlot r rd).boot.firstReason = r ∧ (b.failSlot r rd).fld Reg.sysState 8 8 = r ∧
      (b.failSlot r rd).dev = b.dev := by
  obtain ⟨hboot, hword⟩ := failShown_keeps b r rd
  unfold Block.failSlot
  dsimp only at hboot hword ⊢
  rw [hboot, hfirst]
  simp only [Bool.not_false, if_true]
  have hset (x : Block) : (x.setFld Reg.sysState 8 8 r).boot = x.boot := wr_boot _ _ _
  refine ⟨?_, ?_, ?_, ?_, fld_setFld_same _ _ (by decide) hr, ?_⟩
  · rw [hset]
  · rw [hset]
  · rw [hset]
  · rw [hset]
  · exact (fld_setFld_apart _ _ r (by decide) (by decide)).trans (dev_congr hword)

theorem failSlot_wantsKey (hsecond : b.boot.other = true) (hfirst : b.boot.firstReason = rsNoKey) (hr : r = rsNoKey) :
    (b.failSlot r rd).boot.checking = noSlot ∧ (b.failSlot r rd).dev = b.dev := by
  obtain ⟨hboot, hword⟩ := failShown_keeps b r rd
  unfold Block.failSlot
  dsimp only at hboot hword ⊢
  rw [hboot, hsecond]
  simp only [Bool.not_true, Bool.false_eq_true, if_false, if_pos (And.intro hfirst hr), true_and]
  exact dev_congr hword

theorem failSlot_fails (hsecond : b.boot.other = true) (hother : ¬(b.boot.firstReason = rsNoKey ∧ r = rsNoKey)) :
    (b.failSlot r rd).dev = dsFailed := by
  obtain ⟨hboot, -⟩ := failShown_keeps b r rd
  unfold Block.failSlot
  dsimp only at hboot ⊢
  rw [hboot, hsecond]
  simp only [Bool.not_true, Bool.false_eq_true, if_false, if_neg hother]
  exact (setDev_shows _ (by decide)).1

end

/-! ### The other points -/

section
variable {s : State}

theorem fusesRead_passes (err : Bool) (hpoint : s.b.atPoint dsBoot 0 = true) :
    Gives s (.fusesRead err) ((((({ s.b with boot := { s.b.boot with keyReadError := err } } : Block).showFuses s.fuses).setFld
      Reg.clkState 1 4 0xF).driveSrc srcClockLoss false).setPoint 1) :=
  gives_of_eq rfl (if_neg (by rw [hpoint]; decide))

theorem headerRead_checks (hpoint : s.b.checkingAt 2 = true) :
    Gives s .headerRead (if s.b.headerReason s.fuses s.b.boot.checking = 0 then s.b.setPoint 3
      else s.b.failSlot (s.b.headerReason s.fuses s.b.boot.checking) false) :=
  gives_of_eq rfl (if_neg (by rw [hpoint]; decide))

theorem imageStreamEnd_checks (tb : ImageTables) (hpoint : s.b.checkingAt 3 = true) :
    Gives s (.imageStreamEnd tb) (if s.b.streamReason s.b.boot.checking tb = 0 then
        ({ s.b with boot := { s.b.boot with streamed := some tb } } : Block).setPoint 5
      else s.b.failSlot (s.b.streamReason s.b.boot.checking tb) true) :=
  gives_of_eq rfl (if_neg (by rw [hpoint]; decide))

theorem nvmReadError_header (hpoint : s.b.checkingAt 2 = true) : Gives s .nvmReadError (s.b.failSlot rsNvm false) :=
  gives_of_eq rfl (if_pos hpoint)

theorem nvmReadError_stream (hpoint : s.b.checkingAt 3 = true) : Gives s .nvmReadError (s.b.failSlot rsNvm true) := by
  have hother : ¬s.b.checkingAt 2 = true := fun h => by
    have hnow := (checkingAt_milestone h).symm.trans (checkingAt_milestone hpoint)
    omega
  exact gives_of_eq rfl ((if_neg hother).trans (if_pos hpoint))

/-- A signature that fails, fails the slot (R65). -/
theorem signatureVerified_fails (hpoint : s.b.checkingAt 5 = true) (hreason : s.b.signatureReason s.b.boot.checking ≠ 0) :
    Gives s .signatureVerified (s.b.failSlot (s.b.signatureReason s.b.boot.checking) true) := by
  have hrow : exec .signatureVerified s = execSignatureVerified s := rfl
  rw [Gives, hrow, execSignatureVerified, if_neg (by rw [hpoint]; decide)]
  exact congrArg _ (if_pos hreason)

theorem awaitWorldEntry_enters (hpoint : s.b.checkingAt 9 = true) :
    ∃ x : Block, Gives s .awaitWorldEntry ((x.setDev dsAwaitWorld).serviceBack) ∧ x.boot.milestone = 10 ∧
      x.fld Reg.sysState 8 8 = 0 ∧ x.rdN Reg.sysStartUs = min 0xFFFFFFFF ((s.b.elapsed - s.b.boot.t0) / 1000) := by
  have hrunning : (s.b.setPoint 10).showRunning.boot = (s.b.setPoint 10).boot :=
    (foldl_keeps Block.boot _ (fun b i => wr_boot b _ _) _ _).trans (wr_boot _ _ _)
  refine ⟨_, gives_of_eq rfl (if_neg (by rw [hpoint]; decide)), ?_, fld_setFld_same _ _ (by decide) (by decide), ?_⟩
  · rw [Block.setFld, Block.wrN, wr_boot, Block.wrN, wr_boot, hrunning]
    rfl
  · rw [Block.rdN, rd_setFld_ne _ 8 8 0 (by decide), ← Block.rdN, rdN_wrN_same, satNat]
    split
    · omega
    · omega

theorem outputsInit_passes (hpoint : s.b.checkingAt 6 = true) : ∃ x, Gives s .outputsInit x ∧
    x = (let b := (s.b.tripsInit.reelInit.setPoint 7).pairsInit.dioInit.anaInit.acqInit.axesInit.canInit.serInit.nodesInit.seqInit.ledgerInit
         let b := (entsOf b.cfg tChamber).foldl (fun (b : Block) p => b.setFld (Reg.wldChamber p.1) 1 1 1) b
         ({ b with mgmt := { b.mgmt with firmware := true } } : Block).outputsInit.armTrips) :=
  ⟨_, gives_of_eq rfl (if_neg (by rw [hpoint]; decide)), rfl⟩

theorem enginesSelfTested_passes (bad : List (Fin 40)) (hpoint : s.b.checkingAt 7 = true) : ∃ x, Gives s (.enginesSelfTested bad) x ∧
    (let b := (s.b.wrN Reg.engSramSplit (u32 (s.b.fix tImage 0) 0 % 2 ^ 24)).traceInit.enginesInit.setPoint 9
     let ts := ((entsOf b.cfg tThread).map (·.1)).filter fun t => b.thUsed t && b.isService t
     x = bad.foldl (fun (b : Block) e => if egWatched (b.egState e.val) then b.fence e.val 4 b.now true else b)
       (ts.foldl (fun (b : Block) t => b.enableThread t) b)) :=
  ⟨_, gives_of_eq rfl (if_neg (by rw [hpoint]; decide)), rfl⟩

end

/-! ### What the statement on the cold start rests on

`Obligations.ColdStartPassesItsPoints` is neither proved nor refuted here. Each of its clauses holds by the lemmas above but for the one on a
signature that passes at t6, which says that the image's own safety parameters are in force from then on. The model keeps those in force
already when the image brings the set that was taken last (18 R450), so the clause fails in a state with such a set; whether that state is
met lies in `Config.ecdsaVerify`, which has no value (log 3). With every signature refused the statement holds, and with every one accepted
it fails. -/

theorem coldStart_of_everySignatureRefused (hrefused : ∀ key digest sig, Config.ecdsaVerify key digest sig = false) :
    Obligations.ColdStartPassesItsPoints := by
  have hfails (b : Block) (n : Nat) : b.signatureReason n ≠ 0 := by
    simp only [Block.signatureReason, hrefused, Bool.and_false, Bool.false_eq_true, if_false]
    decide
  exact ⟨fun s err hpoint => fusesRead_passes err hpoint, fun s hpoint => ⟨nvmDiscovered_unreadable hpoint, nvmDiscovered_selects hpoint⟩,
    fun s hpoint => headerRead_checks hpoint, fun s tb hpoint => imageStreamEnd_checks tb hpoint,
    fun s hpoint => nvmReadError_header hpoint, fun s hpoint => nvmReadError_stream hpoint,
    fun s hpoint => ⟨signatureVerified_fails hpoint, fun hpass => absurd hpass (hfails _ _)⟩, fun s hpoint => outputsInit_passes hpoint,
    fun s bad hpoint => enginesSelfTested_passes bad hpoint, fun s hpoint => awaitWorldEntry_enters hpoint,
    fun b r rd hchecking hr => ⟨fun hfirst => failSlot_triesOther rd hfirst hr, failSlot_wantsKey rd, failSlot_fails rd⟩⟩

/-- A controller before t6 whose image brings the empty set that it took last, while confirmed parameters are in force. -/
def confirmedParams : State :=
  { State.reset with b := { State.reset.b with
      refclk := true
      regs := [(Reg.sysState, BitVec.ofNat 32 dsImageCheck)]
      boot := { por := false, milestone := 5 }
      saf := { inForce := [1#8] } } }

theorem confirmedParams_checkingAt : confirmedParams.b.checkingAt 5 = true := by decide +kernel

/-- Its slot of zeros ends in the 32 zeros that a signature block ends in (R61). -/
theorem confirmedParams_signature (haccepted : ∀ key digest sig, Config.ecdsaVerify key digest sig = true) :
    confirmedParams.b.signatureReason confirmedParams.b.boot.checking = 0 := by
  have hzeros : zeros (confirmedParams.b.slotBytes 0 (hdLen (confirmedParams.b.slotHeader 0)) 128) 96 32 = true := by decide +kernel
  have hslot : confirmedParams.b.boot.checking = 0 := rfl
  simp only [hslot, Block.signatureReason, hzeros, haccepted, Bool.and_self, if_true]

theorem coldStart_fails_of_everySignatureAccepted (haccepted : ∀ key digest sig, Config.ecdsaVerify key digest sig = true) :
    ¬ Obligations.ColdStartPassesItsPoints := by
  intro h
  obtain ⟨-, -, -, -, -, -, hsignature, -⟩ := h
  have hpass := confirmedParams_signature haccepted
  obtain ⟨x, hexec, -, -, -, -, hforce⟩ := (hsignature confirmedParams confirmedParams_checkingAt).2 hpass
  have hrow : exec .signatureVerified confirmedParams = execSignatureVerified confirmedParams := rfl
  rw [hrow, execSignatureVerified, if_neg (by rw [confirmedParams_checkingAt]; decide)] at hexec
  simp only [hpass] at hexec
  injection hexec with hnext
  have hkept : x.saf.inForce = [1#8] := (congrArg (fun t : State => t.b.saf.inForce) hnext).symm.trans (by decide +kernel)
  have himage : x.fix tSafety 0 = [] := (congrArg (fun t : State => t.b.fix tSafety 0) hnext).symm.trans (by decide +kernel)
  rw [hkept, himage] at hforce
  exact List.cons_ne_nil _ _ hforce

end Sys2Proof
end

section
/-! World (04): nodes die, are replaced by their spares and are restored (R98–R102, R104, R105). -/

namespace Sys2Proof

open Sys2Proof.Machine

/-! ### Registers and reports (02 R34, R38) -/

/-- Setting a field leaves one of another word, or one that lies apart from it. -/
theorem fld_setFld_disjoint (b : Block) (off k : Nat) {lo n lo' n' : Nat} (x : Nat) (hfits : lo' + n' ≤ 32)
    (happart : lo' + n' ≤ lo ∨ lo + n ≤ lo') : (b.setFld off lo n x).fld k lo' n' = b.fld k lo' n' := by
  by_cases hk : k = off
  · rw [hk, fld_setFld_apart b off x hfits happart]
  · exact fld_congr lo' n' (rd_setFld_ne b lo n x hk)

theorem rd64_wr64_same (b : Block) (off v : Nat) : (b.wr64 off v).rd64 off = v % 2 ^ 64 := by
  have hlow : (b.wr64 off v).rdN off = v % 2 ^ 32 :=
    (congrArg BitVec.toNat (rd_wr_ne _ _ (by omega))).trans (rdN_wrN_same b off v)
  have hhigh : (b.wr64 off v).rdN (off + 4) = v / 2 ^ 32 % 2 ^ 32 :=
    (rdN_wrN_same _ _ _).trans (by rw [Nat.shiftRight_eq_div_pow])
  rw [Block.rd64, hlow, hhigh]
  omega

theorem setFlag_world (b : Block) (off bit : Nat) : (b.setFlag off bit).world = b.world := (wr_world _ _ _).trans (wr_world _ _ _)

theorem bit_setFlag_same (b : Block) (off : Nat) {bit : Nat} (h : bit < 32) : (b.setFlag off bit).bit off bit = true := by
  have hword : (b.setFlag off bit).rdN off = (b.rdN off ||| 2 ^ bit) % 2 ^ 32 :=
    (congrArg BitVec.toNat (rd_wr_ne _ _ (by omega))).trans (rdN_wrN_same b _ _)
  rw [Block.bit, hword, Nat.testBit_mod_two_pow, decide_eq_true h, Nat.testBit_or, Nat.testBit_two_pow_self, Bool.or_true, Bool.and_true]

theorem Quiet.world {b t : Block} (h : Quiet b t) : t.world = b.world := by
  obtain ⟨o, rs, rfl, -, -⟩ := h
  rfl

theorem Quiet.now {b t : Block} (h : Quiet b t) : t.now = b.now := by
  obtain ⟨o, rs, rfl, -, -⟩ := h
  rfl

theorem Quiet.owed {b t : Block} (h : Quiet b t) (howed : Owed b) : Owed t := by
  obtain ⟨o, rs, rfl, hslots, -⟩ := h
  unfold Owed at howed ⊢
  rwa [hslots]

theorem Reports.world {b t : Block} (h : Reports b t) : t.world = b.world := by
  obtain ⟨o, rs, fr, al, lg, ev, ns, rfl, -⟩ := h
  rfl

/-! ### A node's SID and its word -/

theorem nodeBus_lt {sid : Nat} (h : isNodeSid sid = true) : nodeBus sid < 8 := by
  simp only [isNodeSid, Bool.and_eq_true, decide_eq_true_eq] at h
  simp only [nodeBus]
  omega

theorem nodeNum_lt (sid : Nat) : nodeNum sid < 256 := Nat.mod_lt _ (by decide)

theorem wldNode_inj {bus n k : Nat} : Reg.wldNode bus n = Reg.wldNode bus k ↔ n = k := by
  simp only [Reg.wldNode]
  omega

/-- A word of the world's own, none of the nodes', lies below those of the nodes. -/
theorem ne_wldNode {off : Nat} (bus n : Nat) (h : off < 0x301000) : off ≠ Reg.wldNode bus n := by
  simp only [Reg.wldNode]
  omega

theorem isOut_wldNode {bus n : Nat} (hbus : bus < 8) (hn : n < 256) : isOut (Reg.wldNode bus n) = false := by
  have hblock : Reg.wldNode bus n / 0x100000 = 3 := by simp only [Reg.wldNode]; omega
  simp only [isOut, hblock]
  decide

theorem wldNode_not_prf {bus n : Nat} (hbus : bus < 8) (hn : n < 256) : Reg.wldNode bus n / 0x100000 ≠ 0x15 := by
  simp only [Reg.wldNode]
  omega

section
variable (b : Block) (bus : Nat)

theorem nodeState_setNode_same (n : Nat) {x : Nat} (hx : x < 8) : (b.setNode bus n x).nodeState bus n = x :=
  fld_setFld_same b _ (by decide) hx

theorem nodeState_setNode_ne {n k : Nat} (x : Nat) (h : k ≠ n) : (b.setNode bus n x).nodeState bus k = b.nodeState bus k :=
  fld_congr 0 3 (rd_setFld_ne b 0 3 x (wldNode_inj.not.2 h))

@[simp] theorem nodeState_setPartner (n k p : Nat) : (b.setPartner bus n p).nodeState bus k = b.nodeState bus k :=
  fld_setFld_disjoint b _ _ p (by decide) (by decide)

theorem partner_setPartner_same (n : Nat) {p : Nat} (hp : p < 256) : (b.setPartner bus n p).fld (Reg.wldNode bus n) 16 8 = p :=
  fld_setFld_same b _ (by decide) hp

theorem partner_setPartner_ne {n k : Nat} (p : Nat) (h : k ≠ n) :
    (b.setPartner bus n p).fld (Reg.wldNode bus k) 16 8 = b.fld (Reg.wldNode bus k) 16 8 :=
  fld_congr 16 8 (rd_setFld_ne b 16 8 p (wldNode_inj.not.2 h))

@[simp] theorem partner_setNode (n k x : Nat) :
    (b.setNode bus n x).fld (Reg.wldNode bus k) 16 8 = b.fld (Reg.wldNode bus k) 16 8 :=
  fld_setFld_disjoint b _ _ x (by decide) (by decide)

/-! ### What no register shows of a node -/

@[simp] theorem node_putNode_same (n : Nat) (x : NodeSt) : (b.putNode bus n x).node bus n = x := tget_tput_same _ _ _ _

theorem node_putNode_ne {n k : Nat} (x : NodeSt) (h : k ≠ n) : (b.putNode bus n x).node bus k = b.node bus k :=
  tget_tput_ne _ _ _ (by omega)

theorem node_congr {b t : Block} (n : Nat) (h : t.world = b.world) : t.node bus n = b.node bus n := by
  simp only [Block.node, h]

@[simp] theorem node_setNode (n k x : Nat) : (b.setNode bus n x).node bus k = b.node bus k := node_congr bus k (wr_world _ _ _)

@[simp] theorem node_setPartner (n k p : Nat) : (b.setPartner bus n p).node bus k = b.node bus k := node_congr bus k (wr_world _ _ _)

@[simp] theorem node_patchNode (n k presence partner : Nat) : (b.patchNode bus n presence partner).node bus k = b.node bus k := rfl

end

/-! ### A change of the world (R95, R99) -/

theorem nextGen_lt (b : Block) : b.nextGen < 2 ^ 32 := by
  have hword := (b.rd Reg.wldGeneration).isLt
  unfold Block.nextGen
  split
  · decide
  · next hlast =>
    rw [Block.rdN] at hlast ⊢
    omega

theorem nextGen_congr {b t : Block} (h : t.rd Reg.wldGeneration = b.rd Reg.wldGeneration) : t.nextGen = b.nextGen := by
  have hword : t.rdN Reg.wldGeneration = b.rdN Reg.wldGeneration := congrArg BitVec.toNat h
  rw [Block.nextGen, Block.nextGen, hword]

section
variable (b : Block) (gen cause node : Nat)

/-- But for its record, a change stores the generation and its time. -/
theorem quiet_worldChanged :
    Quiet ((b.wrN Reg.wldGeneration gen).wr64 Reg.wldAppliedAt b.now) (b.worldChanged gen cause node) :=
  quiet_record _ _ _ _ _ _

theorem worldChanged_rd {off : Nat} (hin : isOut off = false) (hprf : off / 0x100000 ≠ 0x15) (hgen : off ≠ Reg.wldGeneration)
    (hlow : off ≠ Reg.wldAppliedAt) (hhigh : off ≠ Reg.wldAppliedAt + 4) : (b.worldChanged gen cause node).rd off = b.rd off := by
  rw [(quiet_worldChanged b gen cause node).rd hin hprf]
  exact (rd_wr_ne _ _ hhigh).trans ((rd_wr_ne _ _ hlow).trans (rd_wr_ne _ _ hgen))

theorem worldChanged_generation : (b.worldChanged gen cause node).rdN Reg.wldGeneration = gen % 2 ^ 32 := by
  rw [Block.rdN, (quiet_worldChanged b gen cause node).rd rfl (by decide)]
  exact (congrArg BitVec.toNat ((rd_wr_ne _ _ (by decide)).trans (rd_wr_ne _ _ (by decide)))).trans (rdN_wrN_same b _ gen)

theorem worldChanged_appliedAt : (b.worldChanged gen cause node).rd64 Reg.wldAppliedAt = b.now % 2 ^ 64 := by
  have hquiet := quiet_worldChanged b gen cause node
  rw [Block.rd64, Block.rdN, Block.rdN, hquiet.rd rfl (by decide), hquiet.rd rfl (by decide)]
  exact rd64_wr64_same _ _ _

@[simp] theorem worldChanged_world : (b.worldChanged gen cause node).world = b.world :=
  (quiet_worldChanged b gen cause node).world.trans ((wr_world _ _ _).trans ((wr_world _ _ _).trans (wr_world _ _ _)))

@[simp] theorem worldChanged_now : (b.worldChanged gen cause node).now = b.now :=
  (quiet_worldChanged b gen cause node).now.trans ((wr_now _ _ _).trans ((wr_now _ _ _).trans (wr_now _ _ _)))

theorem worldChanged_owed (h : Owed b) : Owed (b.worldChanged gen cause node) :=
  (quiet_worldChanged b gen cause node).owed (owed_wr _ rfl (owed_wr _ rfl (owed_wr _ rfl h)))

theorem worldChanged_wldNode {bus n : Nat} (hbus : bus < 8) (hn : n < 256) :
    (b.worldChanged gen cause node).rd (Reg.wldNode bus n) = b.rd (Reg.wldNode bus n) :=
  worldChanged_rd b gen cause node (isOut_wldNode hbus hn) (wldNode_not_prf hbus hn) (ne_wldNode bus n (by decide)).symm
    (ne_wldNode bus n (by decide)).symm (ne_wldNode bus n (by decide)).symm

end

/-! ### Takeover (R99) -/

/-- Node `n` and its spare `m` exchange their objects and their parts: what a takeover does before it counts a generation. -/
def exchangeNodes (b : Block) (bus n m : Nat) : Block :=
  let back := (b.node bus n).boundTo == some m
  let b := b.putNode bus n { b.node bus n with boundTo := if back then none else some m, lastEvt := none, rateCount := 0 }
  let b := b.putNode bus m { b.node bus m with boundTo := if back then none else some n, standsFor := 0 }
  let b := ((b.setNode bus n ndRetired).setPartner bus n m).setNode bus m ndPresent |>.setPartner bus m n
  (b.patchNode bus n 4 0).patchNode bus m 3 (sidNode bus n)

section
variable (b : Block) (bus n m : Nat)

/-- The exchange stores into the words of the two nodes alone. -/
theorem exchangeNodes_rd {off : Nat} (h : off < 0x301000) : (exchangeNodes b bus n m).rd off = b.rd off := by
  have hn := ne_wldNode bus n h
  have hm := ne_wldNode bus m h
  exact (rd_setFld_ne _ 16 8 _ hm).trans ((rd_setFld_ne _ 0 3 _ hm).trans ((rd_setFld_ne _ 16 8 _ hn).trans (rd_setFld_ne _ 0 3 _ hn)))

theorem exchangeNodes_now : (exchangeNodes b bus n m).now = b.now :=
  (wr_now _ _ _).trans ((wr_now _ _ _).trans ((wr_now _ _ _).trans (wr_now _ _ _)))

theorem takeOver_eq : b.takeOver bus n m =
    ((exchangeNodes b bus n m).worldChanged b.nextGen 1 (sidNode bus n)).raise Reg.wldFlags 3 (sidNode bus n) := by
  rw [← nextGen_congr (exchangeNodes_rd b bus n m (off := Reg.wldGeneration) (by decide))]
  rfl

theorem exchangeNodes_standsFor : ((exchangeNodes b bus n m).node bus m).standsFor = 0 := by
  simp only [exchangeNodes, node_patchNode, node_setPartner, node_setNode, node_putNode_same]

variable {n m} (hne : n ≠ m)
include hne

theorem exchangeNodes_states :
    (exchangeNodes b bus n m).nodeState bus n = ndRetired ∧ (exchangeNodes b bus n m).nodeState bus m = ndPresent := by
  constructor
  · exact (nodeState_setPartner _ _ _ _ _).trans ((nodeState_setNode_ne _ _ _ hne).trans
      ((nodeState_setPartner _ _ _ _ _).trans (nodeState_setNode_same _ _ _ (by decide))))
  · exact (nodeState_setPartner _ _ _ _ _).trans (nodeState_setNode_same _ _ _ (by decide))

theorem exchangeNodes_partners (hn : n < 256) (hm : m < 256) :
    (exchangeNodes b bus n m).fld (Reg.wldNode bus n) 16 8 = m ∧ (exchangeNodes b bus n m).fld (Reg.wldNode bus m) 16 8 = n := by
  constructor
  · exact (partner_setPartner_ne _ _ _ hne).trans ((partner_setNode _ _ _ _ _).trans (partner_setPartner_same _ _ _ hm))
  · exact partner_setPartner_same _ _ _ hn

end

section
variable (b : Block) (bus n m : Nat)

/-- Beside its flag's own words, a takeover shows what the exchange and the change of the world show. -/
theorem takeOver_rd {off : Nat} (hin : isOut off = false) (hprf : off / 0x100000 ≠ 0x15) (hconf : off ≠ Reg.sysStateConflicts)
    (hflags : off ≠ Reg.wldFlags) (hsets : off ≠ Reg.wldFlags + 4) :
    (b.takeOver bus n m).rd off = ((exchangeNodes b bus n m).worldChanged b.nextGen 1 (sidNode bus n)).rd off := by
  rw [takeOver_eq]
  exact rd_raise_ne _ 3 _ _ hflags hsets hin hprf hconf

theorem takeOver_wldNode {k : Nat} (hbus : bus < 8) (hk : k < 256) :
    (b.takeOver bus n m).rd (Reg.wldNode bus k) = (exchangeNodes b bus n m).rd (Reg.wldNode bus k) := by
  rw [takeOver_rd b bus n m (isOut_wldNode hbus hk) (wldNode_not_prf hbus hk) (ne_wldNode bus k (by decide)).symm
    (ne_wldNode bus k (by decide)).symm (ne_wldNode bus k (by decide)).symm, worldChanged_wldNode _ _ _ _ hbus hk]

theorem takeOver_generation : (b.takeOver bus n m).rdN Reg.wldGeneration = b.nextGen := by
  rw [Block.rdN, takeOver_rd b bus n m rfl (by decide) (by decide) (by decide) (by decide)]
  exact (worldChanged_generation _ _ _ _).trans (Nat.mod_eq_of_lt (nextGen_lt b))

theorem takeOver_appliedAt : (b.takeOver bus n m).rd64 Reg.wldAppliedAt = b.now % 2 ^ 64 := by
  have hlow := takeOver_rd b bus n m (off := Reg.wldAppliedAt) rfl (by decide) (by decide) (by decide) (by decide)
  have hhigh := takeOver_rd b bus n m (off := Reg.wldAppliedAt + 4) rfl (by decide) (by decide) (by decide) (by decide)
  rw [Block.rd64, Block.rdN, Block.rdN, hlow, hhigh, ← exchangeNodes_now b bus n m]
  exact worldChanged_appliedAt _ _ _ _

theorem takeOver_world : (b.takeOver bus n m).world = (exchangeNodes b bus n m).world := by
  rw [takeOver_eq]
  exact (raise_reports _ _ _ _ _).world.trans ((setFlag_world _ _ _).trans (worldChanged_world _ _ _ _))

theorem takeOver_flag : (b.takeOver bus n m).bit Reg.wldFlags 3 = true := by
  rw [takeOver_eq, Block.bit, Block.rdN, (raise_reports _ _ _ _ _).rd rfl (by decide) (by decide)]
  exact bit_setFlag_same _ _ (by decide)

end

/-! ### The death of a node (R99, R413) -/

section
variable {s : State} {bus : Fin 8} {n : Fin 256}

/-- A node that is heard in time lives on. -/
theorem nodeDead_inTime (h : s.b.now < (s.b.node bus n).heard + s.b.nodeTimeout bus n) : exec (.nodeDead bus n) s = .next s :=
  gives_of_eq rfl (if_pos (by rw [decide_eq_true h, Bool.or_true]))

section
variable (hstate : s.b.nodeState bus n = ndDeclared ∨ s.b.nodeState bus n = ndPresent ∨ s.b.nodeState bus n = ndSpare)
  (hbeats : s.b.hasHeartbeat bus n = true) (hsilent : (s.b.node bus n).heard + s.b.nodeTimeout bus n ≤ s.b.now)
include hstate hbeats hsilent

theorem nodeDead_due : ¬(!(s.b.nodeState bus n == ndDeclared || s.b.nodeState bus n == ndPresent || s.b.nodeState bus n == ndSpare) ||
    !s.b.hasHeartbeat bus n || decide (s.b.now < (s.b.node bus n).heard + s.b.nodeTimeout bus n)) = true := by
  rw [hbeats, decide_eq_false (Nat.not_lt.2 hsilent)]
  obtain hst | hst | hst := hstate <;> rw [hst] <;> decide

theorem nodeDead_takesOver {m : Nat} (hspare : (s.b.setNode bus n ndDead).spareOf bus n = some m)
    (hready : (s.b.setNode bus n ndDead).nodeState bus m = ndSpare) (hauto : ((s.b.setNode bus n ndDead).node bus m).auto = true) :
    Gives s (.nodeDead bus n) ((s.b.setNode bus n ndDead).takeOver bus n m) := by
  refine gives_of_eq rfl ((if_neg (nodeDead_due hstate hbeats hsilent)).trans ?_)
  simp only [hspare]
  exact if_pos ⟨hready, hauto⟩

/-- Without a spare, or with one that is not in SPARE or not automatic, the node stays DEAD. -/
theorem nodeDead_staysDead (hnone : ∀ m, (s.b.setNode bus n ndDead).spareOf bus n = some m →
      ¬((s.b.setNode bus n ndDead).nodeState bus m = ndSpare ∧ ((s.b.setNode bus n ndDead).node bus m).auto = true)) :
    Gives s (.nodeDead bus n) ((s.b.setNode bus n ndDead).raise Reg.wldFlags 4 (sidNode bus n)) := by
  refine gives_of_eq rfl ((if_neg (nodeDead_due hstate hbeats hsilent)).trans ?_)
  cases hspare : (s.b.setNode bus n ndDead).spareOf bus n with
  | none => simp only [hspare]
  | some m =>
    simp only [hspare]
    exact if_neg (hnone m hspare)

end
end

/-! ### The node commands (R104, R105) -/

section
variable {s : State} {c : Cmd} (hsent : Sent s.b c roleOperator devWorld) (hsid : isNodeSid (cObj c) = true)
  (hdef : s.b.nodeDefined (nodeBus (cObj c)) (nodeNum (cObj c)) = true)
include hsent hsid hdef

theorem firstRefusal_nodePre (l : List (Option Refuse)) : firstRefusal (s.b.nodePre c ++ l) = firstRefusal l := by
  obtain ⟨hauth, hdev, henv⟩ := hsent
  rw [Block.nodePre, hauth, hdev, henv, hsid, hdef]
  rfl

theorem wldRestore_refused (hstate : s.b.nodeState (nodeBus (cObj c)) (nodeNum (cObj c)) ≠ ndRetired) :
    Completes s (.wldRestore c) 0x0305 c s.b stConflict := by
  refine completes_runDone_refused
    (r := { status := stConflict, reason := 0, code := s.b.nodeState (nodeBus (cObj c)) (nodeNum (cObj c)) }) rfl
    ((firstRefusal_nodePre hsent hsid hdef _).trans ?_)
  rw [firstRefusal_deny, if_pos (bne_iff_ne.2 hstate)]

section
variable (hspSid : isNodeSid (u24 (cArg c) 0) = true)
  (hspDef : s.b.nodeDefined (nodeBus (u24 (cArg c) 0)) (nodeNum (u24 (cArg c) 0)) = true)
include hspSid hspDef

theorem wldReplace_done
    (hstate : s.b.nodeState (nodeBus (cObj c)) (nodeNum (cObj c)) = ndDeclared ∨
      s.b.nodeState (nodeBus (cObj c)) (nodeNum (cObj c)) = ndPresent ∨ s.b.nodeState (nodeBus (cObj c)) (nodeNum (cObj c)) = ndDead)
    (hbus : nodeBus (u24 (cArg c) 0) = nodeBus (cObj c))
    (hready : s.b.nodeState (nodeBus (cObj c)) (nodeNum (u24 (cArg c) 0)) = ndSpare)
    (hfor : (s.b.node (nodeBus (cObj c)) (nodeNum (u24 (cArg c) 0))).standsFor = cObj c) :
    Completes s (.wldReplace c) 0x0304 c (s.b.takeOver (nodeBus (cObj c)) (nodeNum (cObj c)) (nodeNum (u24 (cArg c) 0))) stDone := by
  refine completes_runDone rfl ((firstRefusal_nodePre hsent hsid hdef _).trans ?_) rfl
  rw [firstRefusal_deny, hspSid, hspDef, firstRefusal_deny, firstRefusal_deny, firstRefusal_deny, hbus, hready, hfor,
    bne_self_eq_false, bne_self_eq_false, bne_self_eq_false]
  obtain hst | hst | hst := hstate <;> rw [hst] <;> rfl

/-- A node that has been replaced already is not replaced again (R102). -/
theorem wldReplace_alreadyReplaced (hstate : s.b.nodeState (nodeBus (cObj c)) (nodeNum (cObj c)) = ndRetired) :
    Completes s (.wldReplace c) 0x0304 c s.b stConflict 0x01 := by
  refine completes_runDone_refused (r := { status := stConflict, reason := 0x01, code := ndRetired }) rfl
    ((firstRefusal_nodePre hsent hsid hdef _).trans ?_)
  rw [firstRefusal_deny, hspSid, hspDef, firstRefusal_deny, hstate]
  rfl

end
end

/-! ### Restoring a retired node (R100)

R100 has the restored node enter SPARE on its next heartbeat and leaves open what it shows until then: that it is DECLARED, and that the
restore counts a generation, are the model's choice (log 56). -/

/-- Retired node `n` becomes the DECLARED spare of the node that acts for it: what a restore does before it counts a generation. -/
def restoreNode (b : Block) (bus n : Nat) : Block :=
  let m := b.fld (Reg.wldNode bus n) 16 8
  let b := b.putNode bus n { b.node bus n with standsFor := sidNode bus m, heard := b.now, everHeard := false }
  let b := (b.setNode bus n ndDeclared).setPartner bus n m |>.setPartner bus m n
  (b.patchNode bus n 2 (sidNode bus m)).patchNode bus m 1 0

section
variable (b : Block) (bus n : Nat)

theorem restoreNode_rd {off : Nat} (h : off < 0x301000) : (restoreNode b bus n).rd off = b.rd off :=
  (rd_setFld_ne _ 16 8 _ (ne_wldNode bus _ h)).trans
    ((rd_setFld_ne _ 16 8 _ (ne_wldNode bus n h)).trans (rd_setFld_ne _ 0 3 _ (ne_wldNode bus n h)))

theorem restoreNode_now : (restoreNode b bus n).now = b.now := (wr_now _ _ _).trans ((wr_now _ _ _).trans (wr_now _ _ _))

theorem restoreNode_nodeState : (restoreNode b bus n).nodeState bus n = ndDeclared :=
  (nodeState_setPartner _ _ _ _ _).trans ((nodeState_setPartner _ _ _ _ _).trans (nodeState_setNode_same _ _ _ (by decide)))

theorem restoreNode_node : (restoreNode b bus n).node bus n =
    { b.node bus n with standsFor := sidNode bus (b.fld (Reg.wldNode bus n) 16 8), heard := b.now, everHeard := false } := by
  simp only [restoreNode, node_patchNode, node_setPartner, node_setNode, node_putNode_same]

theorem restoreNode_owed {bus n : Nat} (hbus : bus < 8) (hn : n < 256) (h : Owed b) : Owed (restoreNode b bus n) := by
  have hpartner : b.fld (Reg.wldNode bus n) 16 8 < 256 := Nat.mod_lt _ (by decide)
  exact owed_wr _ (isOut_wldNode hbus hpartner) (owed_wr _ (isOut_wldNode hbus hn) (owed_wr _ (isOut_wldNode hbus hn) h))

end

/-- The world after a restore: the generation counts it. -/
def worldRestored (b : Block) (bus n : Nat) : Block := (restoreNode b bus n).worldChanged b.nextGen 2 (sidNode bus n)

section
variable (b : Block) {x : Block} {bus n : Nat} (hx : Reports (worldRestored b bus n) x)
include hx

theorem worldRestored_node : x.node bus n =
    { b.node bus n with standsFor := sidNode bus (b.fld (Reg.wldNode bus n) 16 8), heard := b.now, everHeard := false } :=
  (node_congr bus n (hx.world.trans (worldChanged_world _ _ _ _))).trans (restoreNode_node b bus n)

theorem worldRestored_generation : x.rdN Reg.wldGeneration = b.nextGen := by
  rw [Block.rdN, hx.rd rfl (by decide) (by decide)]
  exact (worldChanged_generation _ _ _ _).trans (Nat.mod_eq_of_lt (nextGen_lt b))

theorem worldRestored_nodeState (hbus : bus < 8) (hn : n < 256) : x.nodeState bus n = ndDeclared := by
  have hword : x.rd (Reg.wldNode bus n) = (restoreNode b bus n).rd (Reg.wldNode bus n) :=
    (hx.rd (isOut_wldNode hbus hn) (wldNode_not_prf hbus hn) (ne_wldNode bus n (by decide)).symm).trans
      (worldChanged_wldNode _ _ _ _ hbus hn)
  exact (fld_congr 0 3 hword).trans (restoreNode_nodeState b bus n)

end

theorem wldRestore_restores {s : State} {c : Cmd} (hsent : Sent s.b c roleOperator devWorld) (hsid : isNodeSid (cObj c) = true)
    (hdef : s.b.nodeDefined (nodeBus (cObj c)) (nodeNum (cObj c)) = true)
    (hstate : s.b.nodeState (nodeBus (cObj c)) (nodeNum (cObj c)) = ndRetired) :
    Gives s (.wldRestore c) ((worldRestored s.b (nodeBus (cObj c)) (nodeNum (cObj c))).complete 0x0305 c stDone) := by
  refine gives_of_eq rfl ((runDone_eff _ _ _ _ _ ((firstRefusal_nodePre hsent hsid hdef _).trans ?_)).trans ?_)
  · rw [firstRefusal_deny, hstate]
    rfl
  · rw [worldRestored, ← nextGen_congr (restoreNode_rd s.b _ _ (off := Reg.wldGeneration) (by decide))]
    rfl

theorem worldRestored_answered (b : Block) {c : Cmd} {bus n : Nat} (hbus : bus < 8) (hn : n < 256) (howed : Owed b) :
    Answered b.now ((worldRestored b bus n).complete 0x0305 c stDone) 0x0305 c stDone 0 [] := by
  have hnow : (worldRestored b bus n).now = b.now := (worldChanged_now _ _ _ _).trans (restoreNode_now b bus n)
  rw [← hnow]
  exact complete_answered _ _ _ _ _ _ _ (worldChanged_owed _ _ _ _ (restoreNode_owed b hbus hn howed))

/-- Settles O28: the death of a node, the node commands and the takeover, each by its own lemma. -/
theorem nodesDieAreReplacedAndRestored : Obligations.NodesDieAreReplacedAndRestored := by
  unfold Obligations.NodesDieAreReplacedAndRestored
  refine ⟨?_, fun s bus n hheard => nodeDead_inTime hheard, ?_, ?_, ?_⟩
  · intro s bus n x st dead hstate hbeats hsilent
    refine ⟨fun m hspare hready hauto => nodeDead_takesOver hstate hbeats hsilent hspare hready hauto, fun hnone => ?_⟩
    exact nodeDead_staysDead hstate hbeats hsilent fun m hspare => absurd (hnone.symm.trans hspare) nofun
  · intro s c hsent hsid bus n sp st hdef hspSid hspDef
    exact ⟨wldReplace_done hsent hsid hdef hspSid hspDef, wldReplace_alreadyReplaced hsent hsid hdef hspSid hspDef⟩
  · intro s c hsent hsid bus n hdef
    refine ⟨fun hretired => ?_, wldRestore_refused hsent hsid hdef⟩
    have hbus : bus < 8 := nodeBus_lt hsid
    have hn : n < 256 := nodeNum_lt _
    have hreports := reports_complete (worldRestored s.b bus n) 0x0305 c stDone 0 [] 0
    have hnode := worldRestored_node s.b hreports
    exact ⟨_, wldRestore_restores hsent hsid hdef hretired, worldRestored_nodeState s.b hreports hbus hn,
      congrArg NodeSt.standsFor hnode, congrArg NodeSt.heard hnode, worldRestored_generation s.b hreports,
      worldRestored_answered s.b hbus hn⟩
  · intro b bus n m hbus hn hm hne x
    obtain ⟨hretired, hpresent⟩ := exchangeNodes_states b bus hne
    obtain ⟨hpartner, hserved⟩ := exchangeNodes_partners b bus hne hn hm
    have hold := takeOver_wldNode b bus n m hbus hn
    have hnew := takeOver_wldNode b bus n m hbus hm
    exact ⟨(fld_congr 0 3 hold).trans hretired, (fld_congr 0 3 hnew).trans hpresent, (fld_congr 16 8 hold).trans hpartner,
      (fld_congr 16 8 hnew).trans hserved, takeOver_generation b bus n m, takeOver_appliedAt b bus n m,
      (congrArg NodeSt.standsFor (node_congr bus m (takeOver_world b bus n m))).trans (exchangeNodes_standsFor b bus n m),
      takeOver_flag b bus n m⟩

end Sys2Proof
end

section
/-! Recipes (05): a lane's words and its entry under writes (R107, R139). -/

namespace Sys2Proof

open Sys2Proof.Machine

/-! ### Words that a write leaves (02 R27, R34) -/

theorem rd_wr64_ne (b : Block) {off k : Nat} (v : Nat) (h : k ≠ off) (h4 : k ≠ off + 4) : (b.wr64 off v).rd k = b.rd k :=
  (rd_wr_ne _ _ h4).trans (rd_wr_ne _ _ h)

theorem rd64_congr {b t : Block} {off : Nat} (h : t.rd off = b.rd off) (h4 : t.rd (off + 4) = b.rd (off + 4)) :
    t.rd64 off = b.rd64 off := by
  rw [Block.rd64, Block.rdN, Block.rdN, h, h4]
  rfl

theorem bit_congr {b t : Block} {off : Nat} (i : Nat) (h : t.rd off = b.rd off) : t.bit off i = b.bit off i := by
  rw [Block.bit, Block.rdN, h]
  rfl

/-! ### A lane's entry and its word -/

@[simp] theorem ln_putLn_same (b : Block) (n : Nat) (x : LaneSt) : (b.putLn n x).ln n = x := tget_tput_same _ _ _ _

theorem ln_congr {b t : Block} (n : Nat) (h : t.seq = b.seq) : t.ln n = b.ln n := by
  rw [Block.ln, h]
  rfl

@[simp] theorem ln_setFld (b : Block) (off lo w x n : Nat) : (b.setFld off lo w x).ln n = b.ln n := ln_congr n (wr_seq _ _ _)

/-- The state code stands in the low byte of the lane's word. -/
theorem lnState_setFld_above (b : Block) (n x : Nat) {lo w : Nat} (h : 8 ≤ lo) :
    (b.setFld (Reg.seqLaneState n) lo w x).lnState n = b.lnState n := fld_setFld_apart b _ x (by decide) (.inl h)

/-- The lane's word without HOST and without a pending request. -/
theorem lnState_hostCleared (b : Block) (n : Nat) :
    ((b.setFld (Reg.seqLaneState n) 8 1 0).setFld (Reg.seqLaneState n) 12 1 0).lnState n = b.lnState n :=
  (lnState_setFld_above _ n 0 (by decide)).trans (lnState_setFld_above _ n 0 (by decide))

section
variable (b : Block) (n : Nat)

/-- Entering a state stores its code in the lane's word; beside it stands only what 12 R296 remembers. -/
theorem setLn_eq (st : Nat) : ∃ x : TimeSt, b.setLn n st = Block.setFld { b with tim := x } (Reg.seqLaneState n) 0 8 st := by
  unfold Block.setLn
  extract_lets old seen t b1
  have hb : ∃ x : TimeSt, b1 = { b with tim := x } := by
    simp only [b1]
    split
    · exact ⟨b.tim, rfl⟩
    · exact ⟨_, rfl⟩
  obtain ⟨x, hx⟩ := hb
  exact ⟨x, by rw [hx]⟩

theorem setLn_lnState {st : Nat} (h : st < 256) : (b.setLn n st).lnState n = st := by
  obtain ⟨x, hx⟩ := setLn_eq b n st
  rw [hx]
  exact fld_setFld_same _ _ (by decide) h

theorem setLn_fld_above (st : Nat) {lo w : Nat} (hlo : 8 ≤ lo) (hfits : lo + w ≤ 32) :
    (b.setLn n st).fld (Reg.seqLaneState n) lo w = b.fld (Reg.seqLaneState n) lo w := by
  obtain ⟨x, hx⟩ := setLn_eq b n st
  rw [hx]
  exact fld_setFld_apart { b with tim := x } _ _ hfits (.inr hlo)

theorem setLn_rd_ne (st : Nat) {off : Nat} (h : off ≠ Reg.seqLaneState n) : (b.setLn n st).rd off = b.rd off := by
  obtain ⟨x, hx⟩ := setLn_eq b n st
  rw [hx]
  exact rd_setFld_ne { b with tim := x } _ _ _ h

theorem setLn_now (st : Nat) : (b.setLn n st).now = b.now := by
  obtain ⟨x, hx⟩ := setLn_eq b n st
  rw [hx]
  exact wr_now _ _ _

end

end Sys2Proof
end

section
/-! Recipes (05): the lane commands where they are legal (R133, R135, R137, R138). -/

namespace Sys2Proof

open Sys2Proof.Machine

/-! ### What every lane command checks (R138) -/

/-- A command on a lane's SID names that lane. -/
theorem lane_of_obj {c : Cmd} {n : Fin 16} (hobj : cObj c = sidLane n) : isLaneSid (cObj c) = true ∧ laneOf (cObj c) = n := by
  rw [hobj, isLaneSid, laneOf, sidLane, sidLane, decide_eq_true (by omega), decide_eq_true (by omega)]
  exact ⟨rfl, by omega⟩

section
variable {s : State} {c : Cmd} {n : Nat} (hsid : isLaneSid (cObj c) = true) (hn : laneOf (cObj c) = n)
include hsid hn

theorem firstRefusal_seqPre {role : Nat} {dev legal : List Nat} (hsent : Sent s.b c role dev) (hlegal : s.b.lnState n ∈ legal)
    (l : List (Option Refuse)) : firstRefusal (s.b.seqPre c role dev legal ++ l) = firstRefusal l := by
  subst hn
  obtain ⟨hauth, hdev, henv⟩ := hsent
  rw [Block.seqPre, hauth, hdev, henv, hsid, List.contains_iff_mem.2 hlegal]
  rfl

theorem firstRefusal_seqPre_conflict {role : Nat} {dev legal : List Nat} (hsent : Sent s.b c role dev)
    (hillegal : s.b.lnState n ∉ legal) (l : List (Option Refuse)) :
    firstRefusal (s.b.seqPre c role dev legal ++ l) =
      some { status := stConflict, reason := 0, code := s.b.lnState n } := by
  subst hn
  obtain ⟨hauth, hdev, henv⟩ := hsent
  have hstate : legal.contains (s.b.lnState (laneOf (cObj c))) = false := by
    rw [← Bool.not_eq_true, List.contains_iff_mem]
    exact hillegal
  rw [Block.seqPre, hauth, hdev, henv, hsid, hstate]
  rfl

/-! ### The checks of a recipe (R135) -/

theorem seqLoad_begins (hsent : Sent s.b c roleOperator [dsOperational, dsRestart]) (hidle : s.b.lnState n = lsIdle)
    (hfree : (s.b.ln n).check = none) :
    Gives s (.seqLoad c) (s.b.putLn n { s.b.ln n with
      check := some (s.b.serviceOp c 0x0401 (cArg c)), checkSid := u24 (cArg c) 0, checkBank := false }) := by
  subst hn
  refine gives_accept rfl ((firstRefusal_seqPre hsid rfl hsent (by rw [hidle]; decide) _).trans ?_) rfl
  rw [hfree]
  rfl

theorem seqLoad_busy (hsent : Sent s.b c roleOperator [dsOperational, dsRestart]) (hidle : s.b.lnState n = lsIdle)
    (hbusy : (s.b.ln n).check ≠ none) : Completes s (.seqLoad c) 0x0401 c s.b stBusy := by
  subst hn
  refine completes_accept_refused (r := { status := stBusy }) rfl
    ((firstRefusal_seqPre hsid rfl hsent (by rw [hidle]; decide) _).trans ?_)
  rw [Option.isSome_iff_ne_none.2 hbusy]
  rfl

theorem seqLoad_conflict (hsent : Sent s.b c roleOperator [dsOperational, dsRestart]) (hstate : s.b.lnState n ≠ lsIdle) :
    Completes s (.seqLoad c) 0x0401 c s.b stConflict := by
  subst hn
  exact completes_accept_refused rfl (firstRefusal_seqPre_conflict hsid rfl hsent (by simpa using hstate) _)

theorem seqValidate_begins (hsent : Sent s.b c roleObserver devWorld) (hbank : u8 (cArg c) 3 ≤ 1) (hfree : (s.b.ln n).check = none) :
    Gives s (.seqValidate c) (s.b.putLn n { s.b.ln n with
      check := some (s.b.serviceOp c 0x0409 (cArg c)), checkSid := u24 (cArg c) 0, checkBank := u8 (cArg c) 3 == 1 }) := by
  subst hn
  obtain ⟨hauth, hdev, henv⟩ := hsent
  refine gives_accept rfl ?_ rfl
  rw [hauth, hdev, henv, hsid, hfree, decide_eq_false (Nat.not_lt.2 hbank)]
  rfl

/-! ### UNLOAD, ABORT and CLEAR (R134, R137) -/

theorem seqUnload_done (hsent : Sent s.b c roleOperator devWorld) (hstate : s.b.lnState n = lsLoaded) :
    Completes s (.seqUnload c) 0x0402 c ((s.b.abandonLane n 3).lnEnter n lsIdle) stDone := by
  subst hn
  exact completes_runDone rfl (firstRefusal_seqPre hsid rfl hsent (by rw [hstate]; decide) []) rfl

theorem seqUnload_conflict (hsent : Sent s.b c roleOperator devWorld) (hstate : s.b.lnState n ≠ lsLoaded) :
    Completes s (.seqUnload c) 0x0402 c s.b stConflict := by
  subst hn
  exact completes_runDone_refused rfl (firstRefusal_seqPre_conflict hsid rfl hsent (by simpa using hstate) [])

theorem seqAbort_done (hsent : Sent s.b c roleOperator devWorld) (hstate : s.b.lnState n = lsRunning ∨ s.b.lnState n = lsHeld) :
    Completes s (.seqAbort c) 0x0406 c (s.b.lnAbort n) stDone := by
  subst hn
  exact completes_runDone rfl (firstRefusal_seqPre hsid rfl hsent (by simpa using hstate) []) rfl

theorem seqClear_done (hsent : Sent s.b c roleOperator devWorld) (hstate : s.b.lnState n = lsSafe ∨ s.b.lnState n = lsFaulted) :
    Completes s (.seqClear c) 0x0407 c (s.b.lnEnter n lsIdle) stDone := by
  subst hn
  exact completes_runDone rfl (firstRefusal_seqPre hsid rfl hsent (by simpa using hstate) []) rfl

theorem seqClear_conflict (hsent : Sent s.b c roleOperator devWorld)
    (hstate : ¬(s.b.lnState n = lsSafe ∨ s.b.lnState n = lsFaulted)) : Completes s (.seqClear c) 0x0407 c s.b stConflict := by
  subst hn
  exact completes_runDone_refused rfl (firstRefusal_seqPre_conflict hsid rfl hsent (by simpa using hstate) [])

/-! ### START (R137) -/

section
variable (hsent : Sent s.b c roleOperator [dsOperational, dsRestart]) (hstate : s.b.lnState n = lsLoaded)
  (hstep : u16 (cArg c) 24 < rcCount (s.b.lnHead n))
  (hnormal : spFaultOnly (stepOf s.b.bank (s.b.lnHead n) (u16 (cArg c) 24)) = false)
include hsent hstate hstep hnormal

/-- A start of a step that the recipe has and that is not for faults alone is not refused. -/
theorem firstRefusal_seqStart :
    firstRefusal [authCheck c roleOperator, devCheck s.b [dsOperational, dsRestart], envCheck c, deny (!isLaneSid (cObj c)) stBadRef,
      deny (s.b.lnState (laneOf (cObj c)) == lsLoaded && (decide (rcCount (s.b.lnHead (laneOf (cObj c))) ≤ u16 (cArg c) 24) ||
        spFaultOnly (stepOf s.b.bank (s.b.lnHead (laneOf (cObj c))) (u16 (cArg c) 24)))) stBadArg,
      deny (s.b.lnState (laneOf (cObj c)) != lsLoaded) stConflict 0 (s.b.lnState (laneOf (cObj c)))] = none := by
  subst hn
  obtain ⟨hauth, hdev, henv⟩ := hsent
  rw [hauth, hdev, henv, hsid, hstate, hnormal, decide_eq_false (Nat.not_le.2 hstep)]
  rfl

variable (hwaits : (s.b.ln n).tReady = none)
include hwaits

/-- Without a start time the start is now; one far enough ahead is kept. -/
theorem seqStart_inTime {at_ : Nat}
    (htime : u64 (cArg c) 0 = 0 ∧ at_ = s.b.now ∨ s.b.now + 2000 ≤ u64 (cArg c) 0 ∧ at_ = u64 (cArg c) 0) :
    Completes s (.seqStart c) 0x0403 c ((s.b.count (Reg.seqLaneRun n)).putLn n { s.b.ln n with
      tReady := none, wafer := slice (cArg c) 8 16, startAt := some at_, startStep := u16 (cArg c) 24 }) stDone := by
  have hlate : (u64 (cArg c) 0 != 0 && decide (u64 (cArg c) 0 < s.b.now + 2000)) = false := by
    rw [Bool.and_eq_false_iff, bne_eq_false_iff_eq, decide_eq_false_iff_not]
    omega
  have hat : (if u64 (cArg c) 0 = 0 then s.b.now else u64 (cArg c) 0) = at_ := by
    split <;> omega
  subst hn
  refine completes_run rfl (firstRefusal_seqStart hsid rfl hsent hstate hstep hnormal) ?_
  simp only [hlate, hat, hwaits, Option.isSome_none, Bool.false_eq_true, if_false]

theorem seqStart_late (hset : u64 (cArg c) 0 ≠ 0) (hnear : u64 (cArg c) 0 < s.b.now + 2000) :
    Completes s (.seqStart c) 0x0403 c ((s.b.count (Reg.seqLaneRun n)).putLn n { s.b.ln n with
      tReady := none, wafer := slice (cArg c) 8 16, startAt := some (lateRun s.b.now (u64 (cArg c) 0)),
      startStep := u16 (cArg c) 24 }) stDoneLate 0 (leBytes 4 (lateRun s.b.now (u64 (cArg c) 0) - u64 (cArg c) 0)) := by
  have hlate : (u64 (cArg c) 0 != 0 && decide (u64 (cArg c) 0 < s.b.now + 2000)) = true := by
    rw [bne_iff_ne.2 hset, decide_eq_true hnear]
    rfl
  subst hn
  refine completes_run rfl (firstRefusal_seqStart hsid rfl hsent hstate hstep hnormal) ?_
  simp only [hlate, hset, hwaits, Option.isSome_none, Bool.false_eq_true, if_false, if_true]

end

/-! ### HOLD and RELEASE (R120) -/

section
variable (hsent : Sent s.b c roleOperator devWorld)
include hsent

theorem seqHold_waiting (hstate : s.b.lnState n = lsHeld) (hwaits : (s.b.ln n).tReady = none) :
    Completes s (.seqHold c) 0x0404 c ((s.b.hostOn n).refreshHold n) stDone := by
  subst hn
  exact completes_runDone rfl (firstRefusal_seqPre hsid rfl hsent (by rw [hstate]; decide) [])
    (if_pos ⟨hstate, by rw [hwaits]; rfl⟩)

/-- A lane that runs, or whose next start is decided, holds at its next boundary. -/
theorem seqHold_requested (hstate : s.b.lnState n = lsRunning ∨ s.b.lnState n = lsHeld)
    (hbusy : s.b.lnState n = lsRunning ∨ (s.b.ln n).tReady ≠ none) :
    Completes s (.seqHold c) 0x0404 c (s.b.setFld (Reg.seqLaneState n) 12 1 1) stDone := by
  subst hn
  refine completes_runDone rfl (firstRefusal_seqPre hsid rfl hsent (by simpa using hstate) []) (if_neg ?_)
  rintro ⟨hheld, hwaits⟩
  obtain hruns | hready := hbusy
  · exact absurd (hruns.symm.trans hheld) (by decide)
  · exact hready (Option.isNone_iff_eq_none.1 hwaits)

theorem seqRelease_running (hstate : s.b.lnState n = lsRunning) :
    Completes s (.seqRelease c) 0x0405 c ((s.b.setFld (Reg.seqLaneState n) 8 1 0).setFld (Reg.seqLaneState n) 12 1 0) stDone := by
  subst hn
  refine completes_runDone rfl (firstRefusal_seqPre hsid rfl hsent (by rw [hstate]; decide) []) (if_pos ?_)
  rw [lnState_hostCleared, hstate]
  rfl

theorem seqRelease_waiting (hstate : s.b.lnState n = lsHeld) (hwaits : (s.b.ln n).tReady = none)
    (hpresented : (s.b.ln n).presented = true) :
    Completes s (.seqRelease c) 0x0405 c
      (((s.b.setFld (Reg.seqLaneState n) 8 1 0).setFld (Reg.seqLaneState n) 12 1 0).refreshHold n) stDone := by
  subst hn
  refine completes_runDone rfl (firstRefusal_seqPre hsid rfl hsent (by rw [hstate]; decide) []) ?_
  simp only [lnState_hostCleared, hstate, ln_setFld, hwaits, hpresented, bne_self_eq_false, Option.isSome_none, Bool.or_self,
    Bool.false_eq_true, if_false, if_true]

end
end

/-! ### SM_POST (R133, R138) and the end of a check (R135) -/

theorem seqSmPost_posts {s : State} {c : Cmd} {m : Nat} (hm : m < 256) (hobj : cObj c = sidMachine m)
    (hsent : Sent s.b c roleOperator devWorld) (hcode : u8 (cArg c) 0 ≠ 0xFF) (hused : s.b.smUsed m = true) :
    Completes s (.seqSmPost c) 0x0408 c (s.b.smPost m (u8 (cArg c) 0)).1
      (if (s.b.smPost m (u8 (cArg c) 0)).2 then stDone else stNoSpace) := by
  have hmachine : cObj c - 0x920000 = m := by simp only [hobj, sidMachine]; omega
  have hrange : (decide (0x920000 ≤ cObj c) && decide (cObj c < 0x920100)) = true := by
    rw [hobj, sidMachine, decide_eq_true (by omega), decide_eq_true (by omega)]
    rfl
  subst hmachine
  obtain ⟨hauth, hdev, henv⟩ := hsent
  refine completes_run rfl ?_ rfl
  rw [hauth, hdev, henv, hrange, hused, beq_false_of_ne hcode]
  rfl

theorem validationDone_ends {s : State} {n : Fin 16} {o : ServiceOp} (hcheck : (s.b.ln n).check = some o)
    (hup : s.b.serviceUp = true) : Gives s (.validationDone n) (s.b.validationEnd n o) := by
  refine gives_of_eq rfl ?_
  simp only [hcheck]
  exact if_pos hup

theorem validationDone_idle {s : State} {n : Fin 16} (hnone : (s.b.ln n).check = none) : exec (.validationDone n) s = .next s := by
  refine gives_of_eq (b' := s.b) rfl ?_
  simp only [hnone]

/-- Settles O29: each lane command, and the end of a check, by its own lemmas. -/
theorem laneCommandsComplete : Obligations.LaneCommandsComplete := by
  unfold Obligations.LaneCommandsComplete
  refine ⟨?_, ?_, ?_, ?_, ?_, ?_, ?_, ?_, fun s n o hcheck hup => validationDone_ends hcheck hup,
    fun s n hnone => validationDone_idle hnone⟩
  · intro s c n hobj hsent hidle
    obtain ⟨hsid, hn⟩ := lane_of_obj hobj
    exact ⟨seqLoad_begins hsid hn hsent hidle, seqLoad_busy hsid hn hsent hidle⟩
  · intro s c n hobj hsent hstate
    obtain ⟨hsid, hn⟩ := lane_of_obj hobj
    exact seqLoad_conflict hsid hn hsent hstate
  · intro s c n hobj hsent hbank hfree
    obtain ⟨hsid, hn⟩ := lane_of_obj hobj
    exact seqValidate_begins hsid hn hsent hbank hfree
  · intro s c n hobj hsent
    obtain ⟨hsid, hn⟩ := lane_of_obj hobj
    exact ⟨seqUnload_done hsid hn hsent, seqUnload_conflict hsid hn hsent⟩
  · intro s c n hobj hsent hstate a t hstep hnormal hwaits start
    obtain ⟨hsid, hn⟩ := lane_of_obj hobj
    have hInTime := fun at_ => seqStart_inTime hsid hn hsent hstate hstep hnormal hwaits (at_ := at_)
    exact ⟨fun hnow => hInTime _ (.inl ⟨hnow, rfl⟩), fun hahead => hInTime _ (.inr ⟨hahead, rfl⟩),
      seqStart_late hsid hn hsent hstate hstep hnormal hwaits⟩
  · intro s c n hobj hsent hstate
    obtain ⟨hsid, hn⟩ := lane_of_obj hobj
    exact ⟨seqHold_waiting hsid hn hsent, seqHold_requested hsid hn hsent hstate, seqRelease_running hsid hn hsent,
      seqRelease_waiting hsid hn hsent, seqAbort_done hsid hn hsent hstate⟩
  · intro s c n hobj hsent
    obtain ⟨hsid, hn⟩ := lane_of_obj hobj
    exact ⟨seqClear_done hsid hn hsent, seqClear_conflict hsid hn hsent⟩
  · intro s c m hm hobj hsent hcode hused
    exact seqSmPost_posts hm hobj hsent hcode hused

end Sys2Proof
end

section
/-! Recipes (05): lanes and machines in time (R114–R118, R132–R134, R136). -/

namespace Sys2Proof

open Sys2Proof.Machine

/-! ### Before a DURATION step ends (R115, R116, R120) -/

section
variable {s : State} {n : Fin 16} {t : Nat} (hend : (s.b.ln n).endAt = some t) (hactive : (s.b.ln n).active = true)
  (hkind : spEndKind (s.b.ln n).cur = 0) (hmore : spLast (s.b.ln n).cur = false) (hnext : (s.b.ln n).nextIdx < rcCount (s.b.lnHead n))
include hend hactive hkind hmore hnext

theorem claimPresentation_presents (hnew : (s.b.ln n).presented = false) (hhost : s.b.lnHost n = false)
    (hdue : max (t - 200000) (s.b.rd64 (Reg.seqLaneStepStart n) + 250000) ≤ s.b.now) :
    Gives s (.claimPresentation n) ((s.b.presentSet n (s.b.ln n).nextIdx
      (spClaims s.b.bank (stepOf s.b.bank (s.b.lnHead n) (s.b.ln n).nextIdx))).putLn n { s.b.ln n with presented := true }) := by
  refine gives_of_eq rfl ?_
  simp only [hend]
  refine if_pos ?_
  rw [hactive, hkind, hmore, hnew, hhost, decide_eq_true hdue, decide_eq_true hnext]
  rfl

section
variable (hnew : (s.b.ln n).decided = false) (hdue : t ≤ s.b.now + 4000) (hfree : s.b.bit (Reg.seqLaneState n) 12 = false)
include hnew hdue

omit hend in
theorem decisionTick_due : (!((s.b.ln n).active && spEndKind (s.b.ln n).cur == 0 && !spLast (s.b.ln n).cur && !(s.b.ln n).decided &&
    decide (t - 4000 ≤ s.b.now) && decide ((s.b.ln n).nextIdx < rcCount (s.b.lnHead n)))) = false := by
  rw [hactive, hkind, hmore, hnew, decide_eq_true (by omega), decide_eq_true hnext]
  rfl

include hfree

/-- A successor that something holds is not decided yet; the reasons are kept. -/
theorem decisionTick_held (hheld : s.b.unmet n (stepOf s.b.bank (s.b.lnHead n) (s.b.ln n).nextIdx) ≠ 0) :
    Gives s (.decisionTick n) (s.b.putLn n { s.b.ln n with
      reasonsSeen := (s.b.ln n).reasonsSeen ||| s.b.unmet n (stepOf s.b.bank (s.b.lnHead n) (s.b.ln n).nextIdx) }) := by
  refine gives_of_eq rfl ?_
  simp only [hend, decisionTick_due hactive hkind hmore hnext hnew hdue, hfree, Bool.false_eq_true, if_false]
  exact if_pos (bne_iff_ne.2 hheld)

/-- Where nothing holds it, the successor is decided and its actions are placed. -/
theorem decisionTick_decides (hready : s.b.unmet n (stepOf s.b.bank (s.b.lnHead n) (s.b.ln n).nextIdx) = 0) :
    let x := s.b.ln n
    let e := stepOf s.b.bank (s.b.lnHead n) x.nextIdx
    let b := s.b.putLn n { x with reasonsSeen := x.reasonsSeen ||| s.b.unmet n e }
    let r := (b.putLn n { b.ln n with decided := true, next := e }).placeAll (.lane n) x.nextIdx t (spActions s.b.bank e)
    Gives s (.decisionTick n) (if r.2 then r.1.lnFault n 1 x.nextIdx else r.1) := by
  refine gives_of_eq rfl ?_
  simp only [hend, decisionTick_due hactive hkind hmore hnext hnew hdue, hfree, Bool.false_eq_true, if_false]
  exact if_neg (by rw [hready]; decide)

end
end

/-! ### The end of a step (R115, R117) -/

section
variable {s : State} {n : Fin 16} (hactive : (s.b.ln n).active = true)
include hactive

theorem stepEnd_ends {t : Nat} (hend : (s.b.ln n).endAt = some t) (hdue : t ≤ s.b.now) : Gives s (.stepEnd n) (s.b.lnEnd n) := by
  refine gives_of_eq rfl ?_
  simp only [hend]
  exact if_pos (by rw [hactive, decide_eq_true hdue]; rfl)

omit hactive in
theorem stepEnd_early {t : Nat} (hend : (s.b.ln n).endAt = some t) (hearly : s.b.now < t) : exec (.stepEnd n) s = .next s := by
  refine gives_of_eq (b' := s.b) rfl ?_
  simp only [hend]
  exact if_neg (by rw [decide_eq_false (Nat.not_le.2 hearly), Bool.and_false]; decide)

theorem conditionEvaluation_ends (hkind : spEndKind (s.b.ln n).cur = 1) (hends : s.b.lnEndsNow n = true) :
    Gives s (.conditionEvaluation n) (s.b.lnEnd n) :=
  gives_of_eq rfl (if_pos (by rw [hactive, hkind, hends]; rfl))

omit hactive in
theorem conditionEvaluation_waits (hends : s.b.lnEndsNow n = false) : exec (.conditionEvaluation n) s = .next s :=
  gives_of_eq (b' := s.b) rfl (if_neg (by rw [hends, Bool.and_false]; decide))

section
variable (hkind : spEndKind (s.b.ln n).cur ≠ 0) (hnofault : (s.b.ln n).faultAt ≠ some s.b.now)
  (hdue : s.b.rd64 (Reg.seqLaneStepStart n) + 1000 * spTimeout (s.b.ln n).cur ≤ s.b.now)
include hkind hnofault hdue

/-- At its timeout a step in progress ends or faults. -/
theorem stepTimeout_acts :
    Gives s (.stepTimeout n) (if s.b.lnEndsNow n = true ∨ spTimeoutNext (s.b.ln n).cur = true then s.b.lnEnd n
      else s.b.lnFault n 3 (s.b.lnStep n)) := by
  have hgone : (decide ((s.b.ln n).faultAt = some s.b.now) && (s.b.ln n).faultRun) = false := by
    rw [decide_eq_false hnofault, Bool.false_and]
  have hruns : ¬(!((s.b.ln n).active || false) || spEndKind (s.b.ln n).cur == 0 ||
      decide (s.b.now < s.b.rd64 (Reg.seqLaneStepStart n) + 1000 * spTimeout (s.b.ln n).cur)) = true := by
    rw [hactive, beq_false_of_ne hkind, decide_eq_false (Nat.not_lt.2 hdue)]
    decide
  refine gives_of_eq rfl ?_
  simp only [hgone, ← Bool.or_eq_true]
  exact if_neg hruns

theorem stepTimeout_ends (hends : s.b.lnEndsNow n = true ∨ spTimeoutNext (s.b.ln n).cur = true) :
    Gives s (.stepTimeout n) (s.b.lnEnd n) := by
  have hgives := stepTimeout_acts hactive hkind hnofault hdue
  rwa [if_pos hends] at hgives

theorem stepTimeout_faults (hends : s.b.lnEndsNow n = false) (hstays : spTimeoutNext (s.b.ln n).cur = false) :
    Gives s (.stepTimeout n) (s.b.lnFault n 3 (s.b.lnStep n)) := by
  have hgives := stepTimeout_acts hactive hkind hnofault hdue
  rwa [if_neg (by rw [hends, hstays]; decide)] at hgives

end
end

/-! ### Starts, holds and safe stops in time (R115, R118, R134, R137) -/

section
variable {s : State} {n : Fin 16} {t : Nat}

/-- The hold's reasons are looked at again first. -/
theorem holdToleranceExpiry_faults (hheld : (s.b.refreshHold n).lnState n = lsHeld)
    (hwaits : ((s.b.refreshHold n).ln n).tReady = none) (hfrom : ((s.b.refreshHold n).ln n).tolFrom = some t)
    (hlimit : spTol (stepOf (s.b.refreshHold n).bank ((s.b.refreshHold n).lnHead n) ((s.b.refreshHold n).ln n).nextIdx) ≠ 0xFFFF)
    (hdue : 1000000 * spTol (stepOf (s.b.refreshHold n).bank ((s.b.refreshHold n).lnHead n) ((s.b.refreshHold n).ln n).nextIdx) ≤
      ((s.b.refreshHold n).ln n).tolNs + ((s.b.refreshHold n).now - t)) :
    Gives s (.holdToleranceExpiry n) ((s.b.refreshHold n).lnFault n 2 ((s.b.refreshHold n).ln n).nextIdx) := by
  refine gives_of_eq rfl ?_
  simp only [hfrom]
  exact if_pos (by rw [hheld, hwaits, bne_iff_ne.2 hlimit, decide_eq_true hdue]; rfl)

theorem stepStart_starts (hready : (s.b.ln n).tReady = some t) (hidle : (s.b.ln n).active = false) (hheld : s.b.lnState n = lsHeld)
    (hdue : t + 4000 ≤ s.b.now) : Gives s (.stepStart n) (s.b.lnStart n (s.b.ln n).nextIdx (s.b.ln n).next) := by
  refine gives_of_eq rfl ?_
  simp only [hready]
  exact if_pos (by rw [hidle, hheld, decide_eq_true hdue]; rfl)

theorem stepStart_early (hready : (s.b.ln n).tReady = some t) (hearly : s.b.now < t + 4000) : exec (.stepStart n) s = .next s := by
  refine gives_of_eq (b' := s.b) rfl ?_
  simp only [hready]
  exact if_neg (by rw [decide_eq_false (Nat.not_le.2 hearly), Bool.and_false]; decide)

theorem safeTimeoutExpiry_faults (hsince : (s.b.ln n).safeSince = some t) (haborts : s.b.lnState n = lsAborting)
    (hdue : t + 1000000 * u32 (s.b.lnTab n) 8 ≤ s.b.now) : Gives s (.safeTimeoutExpiry n) (s.b.lnFault n 8 (s.b.lnStep n)) := by
  refine gives_of_eq rfl ?_
  simp only [hsince]
  exact if_pos (by rw [haborts, decide_eq_true hdue]; rfl)

theorem startTimeReached_goes (hset : (s.b.ln n).startAt = some t) (hloaded : s.b.lnState n = lsLoaded) (hdue : t ≤ s.b.now) :
    Gives s (.startTimeReached n) (s.b.lnGo n (s.b.ln n).startStep) := by
  refine gives_of_eq rfl ?_
  simp only [hset]
  exact if_pos (by rw [hloaded, decide_eq_true hdue]; rfl)

theorem startTimeReached_early (hset : (s.b.ln n).startAt = some t) (hearly : s.b.now < t) :
    exec (.startTimeReached n) s = .next s := by
  refine gives_of_eq (b' := s.b) rfl ?_
  simp only [hset]
  exact if_neg (by rw [decide_eq_false (Nat.not_le.2 hearly), Bool.and_false]; decide)

end

/-! ### A lane enters a step (R116, R136) -/

/-- The step's index and its start, as a T_start shows them. -/
def showStart (b : Block) (n i : Nat) : Block :=
  let b := b.wrN (Reg.seqLaneStep n) (i + 65536 * rcCount (b.lnHead n))
  b.wr64 (Reg.seqLaneStepStart n) b.now

/-- What a T_start shows beside the lane's state code: the step, its start and no hold. -/
def showStep (b : Block) (n i : Nat) : Block :=
  ((showStart b n i).wr64 (Reg.seqLaneHoldSince n) 0).setFld (Reg.seqLaneState n) 8 4 0

/-- A lane as it is from the T_start of step `i` with the entry `e` on. -/
def startedLane (b : Block) (x : LaneSt) (i : Nat) (e : List Byte) : LaneSt :=
  { x with
    cur := e, active := true, nextIdx := i + 1, decided := false, presented := false, tReady := none, reasonsSeen := 0, tolNs := 0,
    tolFrom := none, first := false, held := false, lastEpoch := some (b.fld Reg.imgBank 16 16),
    endAt := if spEndKind e = 0 then some (b.now + 1000 * spDuration e) else none }

/-- What a step's start does before its claims are committed. -/
def enterStep (b : Block) (n i : Nat) (e : List Byte) : Block :=
  let x := b.ln n
  let b := showStep (b.slate n i (if x.first then b.now else x.tEnd) x.reasonsSeen x.held) n i
  let b := b.setLn n (if b.lnFaultPath n then lsAborting else lsRunning)
  b.putLn n (startedLane b x i e)

section
variable (b : Block) (n i : Nat) (e : List Byte)

/-- A step's start enters it and then commits its claims; a grant below the step's minimum faults the lane (06 R153). -/
theorem lnStart_eq : b.lnStart n i e =
    (if ((enterStep b n i e).commitSet n).2 then
      (((enterStep b n i e).commitSet n).1.raise Reg.lgrFlags 4 (sidLane n)).lnFault n 4 i
    else ((enterStep b n i e).commitSet n).1) := rfl

theorem showStart_now : (showStart b n i).now = b.now := (wr_now _ _ _).trans ((wr_now _ _ _).trans (wr_now _ _ _))

theorem showStart_rd {off : Nat} (hstep : off ≠ Reg.seqLaneStep n) (hstart : off ≠ Reg.seqLaneStepStart n)
    (hstart4 : off ≠ Reg.seqLaneStepStart n + 4) : (showStart b n i).rd off = b.rd off :=
  (rd_wr64_ne _ _ hstart hstart4).trans (rd_wr_ne _ _ hstep)

theorem showStart_stepStart : (showStart b n i).rd64 (Reg.seqLaneStepStart n) = b.now % 2 ^ 64 :=
  (rd64_wr64_same _ _ _).trans (by rw [Block.wrN, wr_now])

theorem showStart_lnStep (hi : i < 65536) : (showStart b n i).lnStep n = i := by
  have hbeside : Reg.seqLaneStep n ≠ Reg.seqLaneStepStart n ∧ Reg.seqLaneStep n ≠ Reg.seqLaneStepStart n + 4 := by
    simp only [Reg.seqLaneStep, Reg.seqLaneStepStart]
    omega
  have hword : (showStart b n i).rdN (Reg.seqLaneStep n) = (i + 65536 * rcCount (b.lnHead n)) % 2 ^ 32 :=
    (congrArg BitVec.toNat (rd_wr64_ne _ _ hbeside.1 hbeside.2)).trans (rdN_wrN_same _ _ _)
  rw [Block.lnStep, Block.fld, hword, field, Nat.shiftRight_zero]
  omega

theorem showStep_now : (showStep b n i).now = b.now :=
  (wr_now _ _ _).trans ((wr_now _ _ _).trans ((wr_now _ _ _).trans (showStart_now b n i)))

theorem showStep_rd {off : Nat} (hstate : off ≠ Reg.seqLaneState n) (hhold : off ≠ Reg.seqLaneHoldSince n)
    (hhold4 : off ≠ Reg.seqLaneHoldSince n + 4) : (showStep b n i).rd off = (showStart b n i).rd off :=
  (rd_setFld_ne _ _ _ _ hstate).trans (rd_wr64_ne _ _ hhold hhold4)

theorem showStep_lnStep (hi : i < 65536) : (showStep b n i).lnStep n = i := by
  refine (fld_congr 0 16 (showStep_rd b n i ?_ ?_ ?_)).trans (showStart_lnStep b n i hi)
  all_goals simp only [Reg.seqLaneStep, Reg.seqLaneState, Reg.seqLaneHoldSince]; omega

theorem showStep_stepStart : (showStep b n i).rd64 (Reg.seqLaneStepStart n) = b.now % 2 ^ 64 := by
  refine (rd64_congr (showStep_rd b n i ?_ ?_ ?_) (showStep_rd b n i ?_ ?_ ?_)).trans (showStart_stepStart b n i)
  all_goals simp only [Reg.seqLaneStepStart, Reg.seqLaneState, Reg.seqLaneHoldSince]; omega

theorem showStep_holdSince : (showStep b n i).rd64 (Reg.seqLaneHoldSince n) = 0 := by
  refine (rd64_congr (rd_setFld_ne _ 8 4 0 ?_) (rd_setFld_ne _ 8 4 0 ?_)).trans (rd64_wr64_same (showStart b n i) _ 0)
  all_goals simp only [Reg.seqLaneState, Reg.seqLaneHoldSince]; omega

theorem showStep_reasons : (showStep b n i).fld (Reg.seqLaneState n) 8 4 = 0 := fld_setFld_same _ _ (by decide) (by decide)

theorem showStep_lnFaultPath : (showStep b n i).lnFaultPath n = b.lnFaultPath n := by
  refine (setFld_testBit _ _ _ _ _ _ (by decide)).trans ((bit_congr 13 (rd_wr64_ne _ _ ?_ ?_)).trans
    (bit_congr 13 (showStart_rd b n i ?_ ?_ ?_)))
  all_goals simp only [Reg.seqLaneStep, Reg.seqLaneStepStart, Reg.seqLaneState, Reg.seqLaneHoldSince]; omega

end

section
variable (b : Block) {n i : Nat} (e : List Byte)

theorem quiet_slate (n i prev seen : Nat) (held : Bool) : Quiet b (b.slate n i prev seen held) := quiet_record _ _ _ _ _ _

theorem slate_lnFaultPath (i prev seen : Nat) (held : Bool) (hn : n < 16) :
    (b.slate n i prev seen held).lnFaultPath n = b.lnFaultPath n := by
  have hblock : Reg.seqLaneState n / 0x100000 = 4 := by
    simp only [Reg.seqLaneState]
    omega
  exact bit_congr 13 ((quiet_slate b n i prev seen held).rd (by rw [isOut, hblock]; decide) (by rw [hblock]; decide))

/-- A step that starts off a fault path enters RUNNING. -/
theorem enterStep_eq (hn : n < 16) (hpath : b.lnFaultPath n = false) : ∃ t : Block, t.now = b.now ∧
    enterStep b n i e = ((showStep t n i).setLn n lsRunning).putLn n (startedLane ((showStep t n i).setLn n lsRunning) (b.ln n) i e) := by
  refine ⟨b.slate n i (if (b.ln n).first then b.now else (b.ln n).tEnd) (b.ln n).reasonsSeen (b.ln n).held,
    (quiet_slate _ _ _ _ _ _).now, ?_⟩
  rw [enterStep, showStep_lnFaultPath, slate_lnFaultPath b i _ _ _ hn, hpath]
  rfl

/-- What a lane and its registers show once a step is entered. -/
theorem enterStep_shows (hn : n < 16) (hi : i < 65536) (hpath : b.lnFaultPath n = false) : let y := enterStep b n i e
    y.lnState n = lsRunning ∧ y.lnStep n = i ∧ y.rd64 (Reg.seqLaneStepStart n) = b.now % 2 ^ 64 ∧ y.rd64 (Reg.seqLaneHoldSince n) = 0 ∧
    y.fld (Reg.seqLaneState n) 8 4 = 0 ∧ (y.ln n).active = true ∧ (y.ln n).cur = e ∧ (y.ln n).nextIdx = i + 1 ∧ (y.ln n).tReady = none ∧
    (y.ln n).endAt = (if spEndKind e = 0 then some (b.now + 1000 * spDuration e) else none) := by
  obtain ⟨t, hnow, hy⟩ := enterStep_eq b (i := i) e hn hpath
  have hrd : ∀ off, off ≠ Reg.seqLaneState n → (enterStep b n i e).rd off = (showStep t n i).rd off := fun off h => by
    rw [hy]
    exact setLn_rd_ne _ n lsRunning h
  have hln : (enterStep b n i e).ln n = startedLane ((showStep t n i).setLn n lsRunning) (b.ln n) i e := by
    rw [hy, ln_putLn_same]
  have hend : ((showStep t n i).setLn n lsRunning).now = b.now := (setLn_now _ _ _).trans ((showStep_now _ _ _).trans hnow)
  dsimp only
  rw [hln]
  refine ⟨?_, ?_, ?_, ?_, ?_, rfl, rfl, rfl, rfl, by rw [startedLane, hend]⟩
  · rw [hy]
    exact setLn_lnState (showStep t n i) n (by decide)
  · refine (fld_congr 0 16 (hrd _ ?_)).trans (showStep_lnStep t n i hi)
    simp only [Reg.seqLaneStep, Reg.seqLaneState]
    omega
  · refine (rd64_congr (hrd _ ?_) (hrd _ ?_)).trans ((showStep_stepStart t n i).trans (by rw [hnow]))
    all_goals simp only [Reg.seqLaneStepStart, Reg.seqLaneState]; omega
  · refine (rd64_congr (hrd _ ?_) (hrd _ ?_)).trans (showStep_holdSince t n i)
    all_goals simp only [Reg.seqLaneHoldSince, Reg.seqLaneState]; omega
  · rw [hy]
    exact (setLn_fld_above (showStep t n i) n _ (by decide) (by decide)).trans (showStep_reasons t n i)

end

theorem lnAbort_idle {b : Block} {n : Nat} (hruns : b.lnState n ≠ lsRunning) (hheld : b.lnState n ≠ lsHeld) : b.lnAbort n = b :=
  if_pos (by rw [beq_false_of_ne hruns, beq_false_of_ne hheld]; rfl)

/-! ### State machines (R132, R133) -/

/-- Machine `m` as it is once this 4 µs cycle has evaluated it. -/
def evaluateSm (b : Block) (m : Nat) : Block := b.putSm m { b.sm m with cycle := some (b.now / 4000) }

/-- And with its first queued event taken, `q` being the rest. -/
def takeEvent (b : Block) (m : Nat) (q : List Nat) : Block :=
  (evaluateSm b m).putSm m { (evaluateSm b m).sm m with queue := q }

section
variable {b : Block} {m : Nat} (hused : b.smUsed m = true) (hnew : (b.sm m).cycle ≠ some (b.now / 4000))
include hused hnew

theorem smCycle_due : ¬(!b.smUsed m || (b.sm m).cycle == some (b.now / 4000)) = true := by
  rw [hused, beq_false_of_ne hnew]
  decide

section
variable {k : Nat} {q : List Nat} (hqueue : (b.sm m).queue = k :: q)
include hqueue

theorem smCycle_takesEvent {t : List Byte} (hfind : (takeEvent b m q).smFind m k = some t) :
    b.smCycle m = (takeEvent b m q).smEnter m (u8 t 2) (some k) := by
  refine (if_neg (smCycle_due hused hnew)).trans ?_
  simp only [takeEvent, evaluateSm, hqueue] at hfind ⊢
  simp only [hfind]

theorem smCycle_dropsEvent (hfind : (takeEvent b m q).smFind m k = none) : b.smCycle m = (takeEvent b m q).count Reg.seqSmDrops := by
  refine (if_neg (smCycle_due hused hnew)).trans ?_
  simp only [takeEvent, evaluateSm, hqueue] at hfind ⊢
  simp only [hfind]

end

section
variable (hqueue : (b.sm m).queue = [])
include hqueue

theorem smCycle_takesGuard {t : List Byte} (hfind : (evaluateSm b m).smFind m 0xFF = some t) :
    b.smCycle m = (evaluateSm b m).smEnter m (u8 t 2) none := by
  refine (if_neg (smCycle_due hused hnew)).trans ?_
  simp only [evaluateSm, hqueue] at hfind ⊢
  simp only [hfind]

theorem smCycle_timesOut (hfind : (evaluateSm b m).smFind m 0xFF = none) (hexpired : (evaluateSm b m).smExpired m = true) :
    b.smCycle m = (evaluateSm b m).smEnter m (u8 ((evaluateSm b m).smEntry m ((evaluateSm b m).smState m)) 12) none := by
  refine (if_neg (smCycle_due hused hnew)).trans ?_
  simp only [evaluateSm, hqueue] at hfind hexpired ⊢
  simp only [hfind, hexpired, if_true]

theorem smCycle_waits (hfind : (evaluateSm b m).smFind m 0xFF = none) (hexpired : (evaluateSm b m).smExpired m = false) :
    b.smCycle m = evaluateSm b m := by
  refine (if_neg (smCycle_due hused hnew)).trans ?_
  simp only [evaluateSm, hqueue] at hfind hexpired ⊢
  simp only [hfind, hexpired, Bool.false_eq_true, if_false]

end
end

/-- A machine that is not there, or that this cycle has evaluated already, stays as it is. -/
theorem smCycle_rests {b : Block} {m : Nat} (h : b.smUsed m = false ∨ (b.sm m).cycle = some (b.now / 4000)) : b.smCycle m = b := by
  refine if_pos ?_
  obtain hnone | hdone := h
  · rw [hnone]
    rfl
  · rw [hdone, beq_self_eq_true, Bool.or_true]

theorem smStateTimeout_expires {s : State} {m : Fin 256} (h : s.b.smExpired m = true) : Gives s (.smStateTimeout m) (s.b.smCycle m) :=
  gives_of_eq rfl (if_pos h)

theorem smStateTimeout_early {s : State} {m : Fin 256} (h : s.b.smExpired m = false) : exec (.smStateTimeout m) s = .next s :=
  gives_of_eq (b' := s.b) rfl (if_neg (by rw [h]; decide))

/-- Settles O30: what happens to a lane in time, what it enters at a T_start, and a machine's cycle, each by its own lemmas. -/
theorem lanesAndMachinesProceed : Obligations.LanesAndMachinesProceed := by
  unfold Obligations.LanesAndMachinesProceed
  refine ⟨?_, fun s n t hactive hend => ⟨stepEnd_ends hactive hend, stepEnd_early hend⟩,
    fun s n hactive hkind => ⟨conditionEvaluation_ends hactive hkind, conditionEvaluation_waits⟩,
    fun s n k => gives_of_eq rfl rfl, ?_, ?_,
    fun s n t hready hidle hheld => ⟨stepStart_starts hready hidle hheld, stepStart_early hready⟩,
    fun s n t hsince haborts hdue => safeTimeoutExpiry_faults hsince haborts hdue,
    fun s n t hset hloaded => ⟨startTimeReached_goes hset hloaded, startTimeReached_early hset⟩,
    fun s m => ⟨gives_of_eq rfl rfl, smStateTimeout_expires, smStateTimeout_early⟩,
    fun b n i e hn hi hpath => ⟨enterStep b n i e, lnStart_eq b n i e, enterStep_shows b e hn hi hpath⟩,
    fun b n hruns hheld => lnAbort_idle hruns hheld, ?_, fun b m hrests => smCycle_rests hrests⟩
  · intro s n t x hend hactive hkind hmore hnext
    exact ⟨claimPresentation_presents hend hactive hkind hmore hnext, fun hnew hdue hfree =>
      ⟨decisionTick_held hend hactive hkind hmore hnext hnew hdue hfree,
        decisionTick_decides hend hactive hkind hmore hnext hnew hdue hfree⟩⟩
  · intro s n x hactive hkind hnofault hdue
    exact ⟨stepTimeout_ends hactive hkind hnofault hdue, stepTimeout_faults hactive hkind hnofault hdue⟩
  · intro s n t b x tol hheld hwaits hfrom hlimit hdue
    exact holdToleranceExpiry_faults hheld hwaits hfrom hlimit hdue
  · intro b m hused hnew y
    exact ⟨fun k q hqueue => ⟨fun t => smCycle_takesEvent hused hnew hqueue, smCycle_dropsEvent hused hnew hqueue⟩,
      fun hqueue => ⟨fun t => smCycle_takesGuard hused hnew hqueue, smCycle_timesOut hused hnew hqueue,
        smCycle_waits hused hnew hqueue⟩⟩

end Sys2Proof
end

section
/-! Recipes (05): due actions are carried out, each by its kind (R123, R125–R128, R130). Where the manual leaves a point open the lemma
that rests on it names the model's choice (log 49, 63, 65, 69). -/

namespace Sys2Proof

open Sys2Proof.Machine

/-! ### What carrying out an action does around its effect (R125, R126) -/

/-- The recent actions that lie in the 2 µs window of action `p`: the window ends at the action's own time (the model's choice, log 69). -/
def recentRuns (b : Block) (p : Pend) : List Nat := b.seq.recent.filter fun t => decide (p.due.getD b.now < t + 2000)

/-- The window takes action `p`. -/
def noteRun (b : Block) (p : Pend) : Block := { b with seq := { b.seq with recent := recentRuns b p ++ [p.due.getD b.now] } }

section
variable {b : Block} {src : ActSrc} {idx k : Nat} (f : Block → Pend → Block × Nat × Nat)

theorem runAction_notDue (h : b.dueAction src idx k = none) : b.runAction src idx k f = b := by
  simp only [Block.runAction, h]

section
variable {p : Pend} (hdue : b.dueAction src idx k = some p)
include hdue

/-- An action that the window has room for, or that is late already, has its effect and its outcome. -/
theorem runAction_runs (hroom : (recentRuns b p).length < 250 ∨ p.late = true) :
    b.runAction src idx k f =
      (f (noteRun b p) p).1.finishAction p p.late (f (noteRun b p) p).2.1 (f (noteRun b p) p).2.2 := by
  have hmany : (decide (250 ≤ (recentRuns b p).length) && !p.late) = false := by
    obtain hfew | hlate := hroom
    · rw [decide_eq_false (Nat.not_le.2 hfew), Bool.false_and]
    · rw [hlate, Bool.not_true, Bool.and_false]
  rw [recentRuns] at hmany
  simp only [Block.runAction, hdue, hmany, Bool.false_and, Bool.or_false, Bool.false_eq_true, if_false]
  rfl

/-- One that must not be late is abandoned where its window is full. -/
theorem runAction_abandons (hfull : 250 ≤ (recentRuns b p).length) (hintime : p.late = false) (hdrop : acDrop p.entry = true) :
    b.runAction src idx k f =
      ((((noteRun b p).raise Reg.seqFlags 0 (srcSid src)).count Reg.seqLate).blkCount 0x23).finishAction p false stAbandoned 1 := by
  have hmany : (decide (250 ≤ (recentRuns b p).length) && !p.late) = true := by
    rw [decide_eq_true hfull, hintime]
    rfl
  rw [recentRuns] at hmany
  simp only [Block.runAction, hdue, hmany, hdrop, Bool.true_and, if_true]
  rfl

end
end

/-! ### CLAIM (R123, 06 R148) -/

/-- The consumer that a CLAIM action names. -/
def claimCons (p : Pend) : Nat := acTarget p.entry - 0xA01000

/-- The block once the claim of action `p` is marked where it lies above its rating (06 R144). -/
def markClaim (b : Block) (n : Nat) (p : Pend) : Block := b.capFlag n [(claimCons p, u32 p.entry 16, u32 p.entry 20)]

section
variable {s : State} {src : ActSrc} {idx : Nat} {p : Pend} (hdue : s.b.dueAction src idx 9 = some p)
include hdue

theorem actClaim_noLane (hlane : s.b.claimLane src = none) :
    Gives s (.actClaim src idx) (s.b.finishAction p p.late stBadArg 0) := by
  refine gives_of_eq rfl ?_
  simp only [hdue, hlane]

section
variable {n : Nat} (hlane : s.b.claimLane src = some n) (hlow : 0xA01000 ≤ acTarget p.entry) (hused : claimCons p < u16 s.b.lgrHead 0)
include hlane hlow hused

theorem actClaim_commits (hdecrease : u32 p.entry 16 ≤ (markClaim s.b n p).laneClaim n (claimCons p))
    (hclaim : u32 p.entry 16 ≠ 0 ∨ (markClaim s.b n p).laneClaim n (claimCons p) ≠ 0) :
    Gives s (.actClaim src idx) (((markClaim s.b n p).commitClaim n (claimCons p) (u32 p.entry 16) (u32 p.entry 20)).finishAction p p.late
      stDone 0) := by
  have hnamed : ¬(acTarget p.entry < 0xA01000 ∨ u16 s.b.lgrHead 0 ≤ claimCons p) :=
    not_or.2 ⟨Nat.not_lt.2 hlow, Nat.not_le.2 hused⟩
  unfold markClaim claimCons at hnamed hdecrease hclaim ⊢
  refine gives_of_eq rfl ?_
  simp only [hdue, hlane, if_neg hnamed, if_pos hdecrease]
  rw [if_neg (by tauto)]

/-- An increase stays pending until the next ledger update (the model's choice, log 63). -/
theorem actClaim_waits (hincrease : (markClaim s.b n p).laneClaim n (claimCons p) < u32 p.entry 16) :
    let b := markClaim s.b n p
    Gives s (.actClaim src idx) (b.setQueue (b.seq.queue.map fun x => if x = p then { x with claimAt := some b.now } else x)) := by
  have hnamed : ¬(acTarget p.entry < 0xA01000 ∨ u16 s.b.lgrHead 0 ≤ claimCons p) :=
    not_or.2 ⟨Nat.not_lt.2 hlow, Nat.not_le.2 hused⟩
  unfold markClaim claimCons at hnamed hincrease ⊢
  refine gives_of_eq rfl ?_
  simp only [hdue, hlane, if_neg hnamed, if_neg (Nat.not_le.2 hincrease)]

end
end

/-! ### SET (R123) -/

section
variable {b : Block} {sid : Nat} (w : Word)

theorem setRun_var (hvar : b.isVar sid = true) :
    b.setRun sid w = ((b.stopRamp sid).varSet sid (payVal (b.sigType sid) w), stDone, 0) := if_pos hvar

section
variable (hvar : b.isVar sid = false) (hstage : ¬(isStageSid sid = true ∧ b.sgUsed (sid - 0x500000) = true))
include hvar hstage

theorem setRun_field (hfield : b.isField sid = true) :
    b.setRun sid w = (b.fieldWrite sid (payVal (b.sigType sid) w), stDone, 0) := by
  rw [Block.setRun, if_neg (by rw [hvar]; decide), if_neg hstage, if_pos hfield]

theorem setRun_unknown (hfield : b.isField sid = false) : b.setRun sid w = (b, stBadRef, 0) := by
  rw [Block.setRun, if_neg (by rw [hvar]; decide), if_neg hstage, if_neg (by rw [hfield]; decide)]

end
end

/-! ### DISCRETE (R123, R130) -/

section
variable {b : Block} {p : Pend} (hdisc : b.isDiscrete (acTarget p.entry) = true)
include hdisc

/-- A change that the matrix refuses. -/
theorem discRun_refused {r : Nat} (hchange : b.discLevel (acTarget p.entry) ≠ (u8 p.entry 16).testBit 0)
    (hrefusal : b.refusal (acTarget p.entry) ((u8 p.entry 16).testBit 0) = some r) : b.discRun p = (b, stInterlock, r) := by
  simp only [Block.discRun, hdisc, beq_false_of_ne hchange, hrefusal, Bool.not_true, Bool.false_eq_true, if_false]

section
variable (hfree : b.discLevel (acTarget p.entry) = (u8 p.entry 16).testBit 0 ∨
  b.refusal (acTarget p.entry) ((u8 p.entry 16).testBit 0) = none)
include hfree

omit hdisc in
/-- The matrix is asked about a change of level only: an action that leaves the level passes (the model's choice, log 49). -/
theorem discRun_allowed : (if b.discLevel (acTarget p.entry) == (u8 p.entry 16).testBit 0 then none
    else b.refusal (acTarget p.entry) ((u8 p.entry 16).testBit 0)) = none := by
  obtain hlevel | hnone := hfree
  · rw [if_pos (beq_iff_eq.2 hlevel)]
  · rw [hnone, ite_self]

theorem discRun_sets (hwidth : u32 p.entry 20 = 0) :
    b.discRun p = (b.discPut (acTarget p.entry) ((u8 p.entry 16).testBit 0), stDone, 0) := by
  simp only [Block.discRun, hdisc, discRun_allowed hfree, hwidth, Bool.not_true, Bool.false_eq_true, if_false, if_true]

/-- A pulse is appended to those of the line, whose ends stay (the model's choice, log 65). -/
theorem discRun_pulses (hwidth : u32 p.entry 20 ≠ 0) :
    let y := b.discPut (acTarget p.entry) ((u8 p.entry 16).testBit 0)
    b.discRun p = ({ y with seq := { y.seq with pulses := y.seq.pulses ++ [(acTarget p.entry,
      { back := b.discLevel (acTarget p.entry), endAt := y.now + 1000 * u32 p.entry 20, action := p })] } }, stDone, 0) := by
  simp only [Block.discRun, hdisc, discRun_allowed hfree, hwidth, Bool.not_true, Bool.false_eq_true, if_false]

end
end

/-! ### SM_POST (R133) -/

section
variable {b : Block} {m : Nat} (code : Nat)

theorem smAsk_undefined (hunused : b.smUsed m = false) : b.smAsk (sidMachine m) code = (b, stBadRef, 0) := by
  have hmachine : sidMachine m - 0x920000 = m := by rw [sidMachine]; omega
  refine if_pos ?_
  rw [hmachine, hunused, Bool.and_false]
  rfl

/-- A machine of the bank is asked. -/
theorem smAsk_defined (hm : m < 256) (hused : b.smUsed m = true) : b.smAsk (sidMachine m) code =
    if code = 0xFF then (b, stBadArg, 0) else ((b.smPost m code).1, if (b.smPost m code).2 then stDone else stNoSpace, 0) := by
  have hmachine : sidMachine m - 0x920000 = m := by rw [sidMachine]; omega
  have hrange : (decide (0x920000 ≤ sidMachine m) && decide (sidMachine m < 0x920100)) = true := by
    rw [sidMachine, decide_eq_true (by omega), decide_eq_true (by omega)]
    rfl
  rw [Block.smAsk, hmachine, hrange, hused]
  rfl

end

/-! ### The end of an action (R127) -/

theorem Quiet.seq {b t : Block} (h : Quiet b t) : t.seq = b.seq := by
  obtain ⟨o, rs, rfl, -, -⟩ := h
  rfl

theorem Reports.seq {b t : Block} (h : Reports b t) : t.seq = b.seq := by
  obtain ⟨o, rs, fr, al, lg, ev, ns, rfl, -⟩ := h
  rfl

@[simp] theorem setQueue_queue (b : Block) (q : List Pend) : (b.setQueue q).seq.queue = q :=
  congrArg Seq.queue ((foldl_keeps Block.seq _ (fun a _ => wr_seq a _ _) _ _).trans (wr_seq _ _ _))

@[simp] theorem count_seq (b : Block) (off n : Nat) : (b.count off n).seq = b.seq := wr_seq _ _ _

@[simp] theorem count48_seq (b : Block) (off n : Nat) : (b.count48 off n).seq = b.seq := (wr_seq _ _ _).trans (wr_seq _ _ _)

@[simp] theorem blkCount_seq (b : Block) (ev n : Nat) : (b.blkCount ev n).seq = b.seq := (quiet_blkCount b ev n).seq

@[simp] theorem actionRec_seq (b : Block) (p : Pend) (st rs l : Nat) : (b.actionRec p st rs l).seq = b.seq :=
  (quiet_record _ _ _ _ _ _).seq

@[simp] theorem raise_seq (b : Block) (off bit sid : Nat) (d : List Byte) : (b.raise off bit sid d).seq = b.seq :=
  (raise_reports _ _ _ _ _).seq.trans ((wr_seq _ _ _).trans (wr_seq _ _ _))

/-- Whatever its outcome, the action that ends leaves the queue, and no other does. -/
theorem endAction_queue (b : Block) (p : Pend) (st rs l : Nat) : (b.endAction p st rs l).seq.queue = b.seq.queue.erase p := by
  unfold Block.endAction
  extract_lets b1 b2 b3 b4
  have h2 : b2.seq = b1.seq := by
    simp only [b2]
    split <;> simp
  have h3 : b3.seq = b2.seq := by
    simp only [b3]
    split <;> simp
  have h4 : b4.seq.queue = b.seq.queue.erase p := by
    rw [show b4.seq = b3.seq from actionRec_seq _ _ _ _ _, h3, h2]
    exact setQueue_queue _ _
  have hflag : ∀ n i, (b4.lnFlag n i).seq.queue = b.seq.queue.erase p := fun n i => by
    rw [Block.lnFlag, raise_seq, h4]
  split
  · split_ifs
    · exact hflag _ 1
    · exact hflag _ 2
    · exact hflag _ 3
    · exact h4
  · exact h4

/-- Settles O31: the actions that run by a shared scheme, the CLAIM actions, and what single kinds do, each by its own lemmas. -/
theorem dueActionsTakeTheirEffect : Obligations.DueActionsTakeTheirEffect := by
  unfold Obligations.DueActionsTakeTheirEffect
  refine ⟨?_, ?_, fun s src idx p hdue hlane => actClaim_noLane hdue hlane, ?_, ?_, ?_, ?_⟩
  · intro s i src idx k f hmem
    have hexec : exec i s = .next { s with b := s.b.runAction src idx k f } := by
      simp only [List.mem_cons, Prod.mk.injEq, List.not_mem_nil, or_false] at hmem
      obtain h | h | h | h | h | h | h | h := hmem <;> obtain ⟨rfl, rfl, rfl⟩ := h <;> rfl
    refine ⟨fun hnone => gives_of_eq (b' := s.b) hexec (runAction_notDue f hnone), ?_⟩
    intro p hdue due near b1
    exact ⟨fun hroom => gives_of_eq hexec (runAction_runs f hdue hroom),
      fun hfull hintime hdrop => gives_of_eq hexec (runAction_abandons f hdue hfull hintime hdrop)⟩
  · intro s src idx p n hdue hlane c w b hlow hused
    exact ⟨actClaim_commits hdue hlane hlow hused, actClaim_waits hdue hlane hlow hused⟩
  · intro b sid w
    exact ⟨setRun_var w, setRun_field w, setRun_unknown w⟩
  · intro b p sid l hdisc
    exact ⟨fun r => discRun_refused hdisc, discRun_sets hdisc,
      fun hfree hwidth => ⟨_, discRun_pulses hdisc hfree hwidth, rfl⟩⟩
  · intro b m code hm
    refine ⟨smAsk_undefined code, fun hused => (smAsk_defined 0xFF hm hused).trans (if_pos rfl), fun hused hcode => ?_⟩
    rw [smAsk_defined code hm hused, if_neg hcode]
  · intro b p st rs l hmem
    rw [endAction_queue, List.length_erase_of_mem hmem]
    exact Nat.sub_add_cancel (List.length_pos_of_mem hmem)

end Sys2Proof
end

section
/-! Recipes (05): ramps, pulses and the enforcing rules in time (R123, R131; 07 R183). -/

namespace Sys2Proof

open Sys2Proof.Machine

/-! ### Ramps (R123, 07 R183) -/

/-- The block without the ramp of a target. -/
def dropRamp (b : Block) (t : Nat) : Block := { b with seq := { b.seq with ramps := tdel b.seq.ramps t } }

section
variable {s : State} {t : Nat} {r : RampSt} (hramp : tget? s.b.seq.ramps t = some r)
include hramp

theorem rampUpdate_stage (hruns : r.ended s.b.now = false) (hstage : isStageSid t = true) :
    Gives s (.rampUpdate t) (s.b.rampWrite (t - 0x500000) (ratF32 (s.b.rampAt r (s.b.sigType t)))) := by
  refine gives_of_eq rfl ?_
  simp only [hramp, hruns, hstage, Bool.false_eq_true, if_false, if_true]

theorem rampUpdate_var (hruns : r.ended s.b.now = false) (hvar : isStageSid t = false) :
    Gives s (.rampUpdate t) (s.b.varSet t (ratType (s.b.sigType t) (s.b.rampAt r (s.b.sigType t)))) := by
  refine gives_of_eq rfl ?_
  simp only [hramp, hruns, hvar, Bool.false_eq_true, if_false]

theorem rampUpdate_over (hended : r.ended s.b.now = true) : exec (.rampUpdate t) s = .next s := by
  refine gives_of_eq (b' := s.b) rfl ?_
  simp only [hramp]
  exact if_pos hended

theorem rampEnd_stage (hended : r.ended s.b.now = true) (hstage : isStageSid t = true) :
    Gives s (.rampEnd t) ((dropRamp s.b t).freshWrite (t - 0x500000) ((dropRamp s.b t).holdPlan (t - 0x500000) r.stop)) := by
  refine gives_of_eq rfl ?_
  simp only [hramp, hended, hstage, Bool.not_true, Bool.false_eq_true, if_false, if_true]
  rfl

theorem rampEnd_var (hended : r.ended s.b.now = true) (hvar : isStageSid t = false) :
    Gives s (.rampEnd t) ((dropRamp s.b t).varSet t (payVal ((dropRamp s.b t).sigType t) r.stop)) := by
  refine gives_of_eq rfl ?_
  simp only [hramp, hended, hvar, Bool.not_true, Bool.false_eq_true, if_false]
  rfl

theorem rampEnd_early (hruns : r.ended s.b.now = false) : exec (.rampEnd t) s = .next s := by
  refine gives_of_eq (b' := s.b) rfl ?_
  simp only [hramp]
  exact if_pos (by rw [hruns]; rfl)

end

/-! ### Pulses (R123) -/

/-- The block without a pulse that has ended. -/
def dropPulse (b : Block) (q : Nat × PulseSt) : Block := { b with seq := { b.seq with pulses := b.seq.pulses.erase q } }

section
variable {s : State} {t : Nat} {q : Nat × PulseSt}
  (hdue : s.b.seq.pulses.find? (fun q => q.1 == t && decide (q.2.endAt ≤ s.b.now)) = some q)
include hdue

theorem pulseEnd_isBack (hback : (dropPulse s.b q).discLevel t = q.2.back) : Gives s (.pulseEnd t) (dropPulse s.b q) := by
  refine gives_of_eq rfl ?_
  simp only [hdue]
  exact if_pos (beq_iff_eq.2 hback)

section
variable (haway : (dropPulse s.b q).discLevel t ≠ q.2.back)
include haway

/-- Only ENFORCE rules are asked. -/
theorem pulseEnd_returns (hfree : (dropPulse s.b q).refusal t q.2.back true = none) :
    Gives s (.pulseEnd t) ((dropPulse s.b q).discPut t q.2.back) := by
  refine gives_of_eq rfl ?_
  rw [dropPulse] at haway hfree ⊢
  simp only [hdue, beq_false_of_ne haway, hfree, Bool.false_eq_true, if_false]

theorem pulseEnd_refused {r : Nat} (hrefused : (dropPulse s.b q).refusal t q.2.back true = some r) :
    Gives s (.pulseEnd t) (((dropPulse s.b q).count Reg.seqInterlockRefusals).actionRec q.2.action stInterlock r 0) := by
  refine gives_of_eq rfl ?_
  rw [dropPulse] at haway hrefused ⊢
  simp only [hdue, beq_false_of_ne haway, hrefused, Bool.false_eq_true, if_false]

end
end

/-! ### ENFORCE rules (R131) -/

/-- What the evaluation of one rule does: an ENFORCE rule that guards the present level of its target and whose terms fail forces it. -/
def enforceRule (b : Block) (e : List Byte) : Block :=
  match b.lockLevel (u24 e 0) with
  | some l =>
    if ruleEnforce e && ruleGuards e l && !b.lockForced (u24 e 0) && !b.ruleOkNow e then
      (b.lockForce (u24 e 0) ((u8 e 4).testBit 0)).raise Reg.seqFlags 3 (u24 e 0)
    else b
  | none => b

section
variable {b : Block} {e : List Byte}

theorem enforceRule_passive (h : ruleEnforce e = false) : enforceRule b e = b := by
  unfold enforceRule
  split
  · rw [h]
    rfl
  · rfl

theorem enforceRules_passive {l : List (Nat × List Byte)} (h : ∀ p ∈ l, ruleEnforce p.2 = false) :
    l.foldl (fun b p => enforceRule b p.2) b = b := by
  induction l with
  | nil => rfl
  | cons p l ih =>
    rw [List.foldl_cons, enforceRule_passive (h p List.mem_cons_self)]
    exact ih fun q hq => h q (List.mem_cons_of_mem _ hq)

theorem enforceRule_forces {l : Bool} (hlevel : b.lockLevel (u24 e 0) = some l) (henforce : ruleEnforce e = true)
    (hguards : ruleGuards e l = true) (hfree : b.lockForced (u24 e 0) = false) (hfails : b.ruleOkNow e = false) :
    enforceRule b e = (b.lockForce (u24 e 0) ((u8 e 4).testBit 0)).raise Reg.seqFlags 3 (u24 e 0) := by
  simp only [enforceRule, hlevel]
  exact if_pos (by rw [henforce, hguards, hfree, hfails]; rfl)

end

theorem enforceEvaluation_evaluates (s : State) :
    Gives s .enforceEvaluation ((entsOf s.b.bank tLock).foldl (fun b p => enforceRule b p.2) s.b) := gives_of_eq rfl rfl

/-- Settles O32: ramps, pulses and rules, each by its own lemmas. -/
theorem rampsPulsesAndRulesAct : Obligations.RampsPulsesAndRulesAct := by
  unfold Obligations.RampsPulsesAndRulesAct
  refine ⟨?_, ?_, fun s => ⟨_, enforceEvaluation_evaluates s, enforceRules_passive, ?_⟩⟩
  · intro s t r hramp off
    exact ⟨rampUpdate_stage hramp, rampUpdate_var hramp, rampEnd_stage hramp, rampEnd_var hramp, rampUpdate_over hramp,
      rampEnd_early hramp⟩
  · intro s t q hdue b
    exact ⟨pulseEnd_isBack hdue, pulseEnd_returns hdue, fun r haway => pulseEnd_refused hdue haway⟩
  · intro k e l hents hlevel henforce hguards hfree hfails
    rw [hents]
    exact enforceRule_forces hlevel henforce hguards hfree hfails

end Sys2Proof
end

section
/-! Engines (08): how the instruction that an engine issues ends: it retires, it traps, or it ends the activation (R209–R214). -/

namespace Sys2Proof

open Sys2Proof.Machine

@[simp] theorem engCtx_set_pc (c : EngCtx) (k : Nat) (w : Word) : (c.set k w).pc = c.pc := by
  unfold EngCtx.set
  split
  · rfl
  · rfl

section
variable {s : State} {i : Instr} {e : Fin 40} {a : ActSt} {op : EngOp}

/-- The pc lies in I-RAM, so that the address after it does not wrap. -/
theorem stepPc_of_runs {b : Block} {c : EngCtx} (hruns : Runs b e a) (hpc : c.pc = (b.eng e).ctx.pc) :
    stepPc c = { c with pc := ((b.eng e).ctx.pc + 4) % 2 ^ 32 } := by
  obtain ⟨-, -, hlow⟩ := hruns
  have hnext : ((b.eng e).ctx.pc + 4) % 2 ^ 32 = c.pc + 4 := by omega
  rw [hnext]
  rfl

theorem retires_next {b' : Block} {c' : EngCtx} {a' : ActSt} {cyc addr : Nat} {evs : List Nat}
    (hexec : exec i s = .next { s with b := s.b.issue e op }) (hruns : Runs s.b e a) (hpc : c'.pc = (s.b.eng e).ctx.pc)
    (hop : op s.b e (s.b.eng e).ctx a = .ok { b := b', c := c', a := a', cyc := cyc, evs := evs, addr := addr }) :
    Retires s i e b' (stepPc c') (spend a' cyc) :=
  retires_of hexec e.isLt hruns hop rfl (stepPc_of_runs hruns hpc)

/-- One that counts as nothing but an instruction (21 R490) and accesses no memory. -/
theorem retires_plain {b' : Block} {c' : EngCtx} {a' : ActSt} {cyc : Nat}
    (hexec : exec i s = .next { s with b := s.b.issue e op }) (hruns : Runs s.b e a) (hpc : c'.pc = (s.b.eng e).ctx.pc)
    (hop : op s.b e (s.b.eng e).ctx a = .ok { b := b', c := c', a := a', cyc := cyc }) :
    Retires s i e b' (stepPc c') (spend a' cyc) := retires_next hexec hruns hpc hop

theorem retires_jump {b' : Block} {c' : EngCtx} {a' : ActSt} {cyc addr p : Nat} {evs : List Nat}
    (hexec : exec i s = .next { s with b := s.b.issue e op }) (hruns : Runs s.b e a)
    (hop : op s.b e (s.b.eng e).ctx a = .ok { b := b', c := c', a := a', cyc := cyc, npc := some p, evs := evs, addr := addr }) :
    Retires s i e b' { c' with pc := p % 2 ^ 32 } (spend a' cyc) :=
  retires_of hexec e.isLt hruns hop rfl rfl

theorem issue_traps {b : Block} {k v : Nat} (hruns : Runs b e a) (hop : op b e (b.eng e).ctx a = .trap k v) :
    b.issue e op = b.trapOn e k v := by
  obtain ⟨hissuer, haligned, hlow⟩ := hruns
  simp only [Block.issue, hissuer, hop, if_neg (not_not.2 haligned), if_neg (Nat.not_le.2 hlow)]

theorem traps_of {k v : Nat} (hexec : exec i s = .next { s with b := s.b.issue e op }) (hruns : Runs s.b e a)
    (hop : op s.b e (s.b.eng e).ctx a = .trap k v) : exec i s = .next { s with b := s.b.trapOn e k v } := by
  rw [hexec, issue_traps hruns hop]

/-- An instruction that ends its activation retires and then aborts it (R211). -/
theorem aborts_of {c' : EngCtx} {a' : ActSt} {cyc : Nat} {b' : Block}
    (hexec : exec i s = .next { s with b := s.b.issue e op }) (hruns : Runs s.b e a) (hpc : c'.pc = (s.b.eng e).ctx.pc)
    (hop : op s.b e (s.b.eng e).ctx a = .ok { b := b', c := c', a := a', cyc := cyc, quit := true }) :
    ∃ b1, exec i s = .next { s with b := b1.abortAct e 4 } ∧ (b1.eng e).ctx = stepPc c' ∧ (b1.eng e).act = some (spend a' cyc) ∧
      EngFrame e b' b1 := by
  obtain ⟨hctx, hact, hframe⟩ := issue_retires s.b e (fun _ _ _ _ => .ok { b := b', c := c', a := a', cyc := cyc }) a _ e.isLt
    hruns rfl rfl
  refine ⟨_, ?_, hctx.trans (stepPc_of_runs hruns hpc).symm, hact, hframe⟩
  obtain ⟨hissuer, haligned, hlow⟩ := hruns
  rw [hexec]
  simp only [Block.issue, hissuer, hop, if_neg (not_not.2 haligned), if_neg (Nat.not_le.2 hlow), if_true, Bool.false_eq_true, if_false]

end

theorem legal_true {ok : Bool} {w : Nat} {r : EngRes} (h : ok = true) : legal ok w r = r := if_pos h

theorem legal_false {ok : Bool} {w : Nat} {r : EngRes} (h : ok = false) : legal ok w r = .trap tcIllegal w :=
  if_neg (Bool.eq_false_iff.1 h)

/-- A register field that is reserved holds 0. -/
theorem reserved_zero {k : Fin 32} (h : k = 0) : ¬k.val ≠ 0 := not_not.2 (congrArg Fin.val h)

end Sys2Proof
end

section
/-! Engines (08): the integer instructions (R195, R196). -/

namespace Sys2Proof

open Sys2Proof.Machine

/-! ### What the operations give -/

theorem flagW_eq {p : Bool} {q : Prop} [Decidable q] (h : p = true ↔ q) : flagW p = if q then 1 else 0 := by
  simp only [flagW, h]
  rfl

theorem flagW_slt (x y : Word) : flagW (x.slt y) = if x.toInt < y.toInt then 1 else 0 := flagW_eq BitVec.slt_iff_toInt_lt

theorem flagW_ult (x y : Word) : flagW (x.ult y) = if x.toNat < y.toNat then 1 else 0 := flagW_eq BitVec.ult_iff_toNat_lt

theorem flagW_slt_sxImm (x : Word) (m : Half) : flagW (x.slt (sxImm m)) = if x.toInt < m.toInt then 1 else 0 := by
  rw [flagW_slt, sxImm, BitVec.toInt_signExtend_of_le (by decide)]

theorem ite_slt {α : Type} (x y : Word) (p q : α) : (if x.slt y then p else q) = if x.toInt < y.toInt then p else q := by
  simp only [BitVec.slt_iff_toInt_lt]

theorem mul_eq_ofInt (x y : Word) : x * y = BitVec.ofInt 32 (x.toInt * y.toInt) := by
  rw [BitVec.ofInt_mul, BitVec.ofInt_toInt, BitVec.ofInt_toInt]

theorem mulHigh_eq (x y : Word) : mulHigh x y = BitVec.ofInt 32 (x.toInt * y.toInt / 2 ^ 32) := by
  rw [mulHigh, Int.fdiv_eq_ediv_of_nonneg _ (by decide)]

/-- HIK's immediate in the high half. -/
theorem zxImm_shiftLeft (m : Half) : zxImm m <<< 16 = BitVec.ofNat 32 (m.toNat * 65536) := by
  refine BitVec.eq_of_toNat_eq ?_
  simp only [zxImm, BitVec.toNat_shiftLeft, BitVec.toNat_setWidth, BitVec.toNat_ofNat, Nat.shiftLeft_eq]
  omega

theorem divUnsigned_zero (x : Word) {y : Word} (h : y = 0) : divUnsigned x y = (0xFFFFFFFF, 0, 1) := if_pos h

theorem divUnsigned_ne {x y : Word} (h : y ≠ 0) :
    divUnsigned x y = (BitVec.ofNat 32 (x.toNat / y.toNat), BitVec.ofNat 32 (x.toNat % y.toNat), 0) := by
  have hq : x / y = BitVec.ofNat 32 (x.toNat / y.toNat) := by rw [← BitVec.toNat_udiv, BitVec.ofNat_toNat, BitVec.setWidth_eq]
  have hr : x % y = BitVec.ofNat 32 (x.toNat % y.toNat) := by rw [← BitVec.toNat_umod, BitVec.ofNat_toNat, BitVec.setWidth_eq]
  exact (if_neg h).trans (by rw [hq, hr])

theorem divSigned_zero (x : Word) {y : Word} (h : y = 0) :
    divSigned x y = (if 0 ≤ x.toInt then 0x7FFFFFFF else 0x80000000, 0, 1) := if_pos h

theorem divSigned_overflow {x y : Word} (hx : x = 0x80000000) (hy : y = 0xFFFFFFFF) : divSigned x y = (0x7FFFFFFF, 0, 2) := by
  subst hx hy
  rw [divSigned, if_neg (by decide), if_pos ⟨rfl, rfl⟩]
  rfl

theorem tdiv_remainder (x : Int) {y : Int} (h : y ≠ 0) :
    (x - x.tdiv y * y).natAbs < y.natAbs ∧ (0 ≤ x → 0 ≤ x - x.tdiv y * y) ∧ (x < 0 → x - x.tdiv y * y ≤ 0) := by
  have hmod : x - x.tdiv y * y = x.tmod y := by rw [Int.tmod_def, Int.mul_comm]
  rw [hmod]
  refine ⟨?_, fun hx => Int.tmod_nonneg y hx, fun hx => ?_⟩
  · rw [Int.natAbs_tmod]
    exact Nat.mod_lt _ (Int.natAbs_pos.2 h)
  · have hneg := Int.tmod_nonneg y (Int.neg_nonneg_of_nonpos hx.le)
    rw [Int.neg_tmod] at hneg
    omega

/-- Quotient and remainder of a signed division that neither divides by 0 nor overflows. The quotient is the truncated one, or, where the
operands' signs differ and a remainder is left, possibly the one below it (log 29). -/
theorem divSigned_ne {x y : Word} (hy : y ≠ 0) (hfits : ¬(x = 0x80000000 ∧ y = 0xFFFFFFFF)) :
    ∃ q r : Int, x.toInt = q * y.toInt + r ∧ r.natAbs < y.toInt.natAbs ∧
      ((0 ≤ x.toInt ∧ 0 < y.toInt ∨ x.toInt < 0 ∧ y.toInt < 0 ∨ r = 0) → q = x.toInt.tdiv y.toInt) ∧
      divSigned x y = (BitVec.ofInt 32 q, BitVec.ofInt 32 r, 0) := by
  have hyi : y.toInt ≠ 0 := fun h => hy (BitVec.eq_of_toInt_eq h)
  obtain ⟨hlt, hpos, hneg⟩ := tdiv_remainder x.toInt hyi
  by_cases hdown : x.toInt.tdiv y.toInt * y.toInt ≠ x.toInt ∧ (decide (x.toInt < 0) != decide (y.toInt < 0)) ∧ Config.divDown x y
  · have ⟨hinexact, hxor, _⟩ := hdown
    have hsigns : ¬(x.toInt < 0 ↔ y.toInt < 0) := by simpa only [bne_iff_ne, ne_eq, decide_eq_decide] using hxor
    refine ⟨x.toInt.tdiv y.toInt - 1, x.toInt - (x.toInt.tdiv y.toInt - 1) * y.toInt, by omega, ?_, ?_, ?_⟩
    · rw [Int.sub_mul]
      omega
    · rw [Int.sub_mul]
      omega
    · refine (if_neg hy).trans ((if_neg hfits).trans ?_)
      simp only [if_pos hdown]
  · refine ⟨x.toInt.tdiv y.toInt, x.toInt - x.toInt.tdiv y.toInt * y.toInt, by omega, hlt, fun _ => rfl, ?_⟩
    refine (if_neg hy).trans ((if_neg hfits).trans ?_)
    simp only [if_neg hdown]

/-! ### The instructions -/

section
variable {s : State} {i : Instr} {e : Fin 40} {a : ActSt}

theorem aluA_gives {f : FormA} {n : BitVec 11} {o cyc k : Nat} {r : Word} {g : Word → Word → Word × Nat} (hruns : Runs s.b e a)
    (hfn : f.fn = n) (hexec : exec i s = .next { s with b := s.b.issue e (aluA o n.toNat cyc f g) })
    (hg : g ((s.b.eng e).ctx.get f.a) ((s.b.eng e).ctx.get f.b) = (r, k)) : AluGives s i e a f.d r k cyc := by
  refine retires_plain (a' := a) (b' := s.b) hexec hruns (engCtx_set_pc _ _ _) ?_
  subst hfn
  rw [aluA, hg, legal_true (beq_self_eq_true _)]

theorem aluGives_plain {d : Fin 32} {r : Word} {n : Nat}
    (h : Retires s i e s.b (stepPc ((s.b.eng e).ctx.set d r)) (spend a n)) : AluGives s i e a d r 0 n := by
  have harith : ({ (s.b.eng e).ctx.set d r with arith := (s.b.eng e).ctx.arith ||| 0 } : EngCtx) = (s.b.eng e).ctx.set d r := by
    unfold EngCtx.set
    split
    · rw [Nat.or_zero]
    · rw [Nat.or_zero]
  rwa [AluGives, harith]

theorem shiftK_gives {f : FormA} {n : BitVec 11} {g : Word → Word → Word} (hruns : Runs s.b e a) (hfn : f.fn = n)
    (hexec : exec i s = .next { s with b := s.b.issue e (shiftK n.toNat f g) }) :
    AluGives s i e a f.d (g ((s.b.eng e).ctx.get f.a) (BitVec.ofNat 32 f.b)) 0 1 := by
  refine aluGives_plain (retires_plain hexec hruns (engCtx_set_pc _ _ _) ?_)
  subst hfn
  exact legal_true (beq_self_eq_true _)

theorem aluI_gives {f : FormI} {g : Word → Word} {r : Word} (hruns : Runs s.b e a)
    (hexec : exec i s = .next { s with b := s.b.issue e (aluI f g) }) (hg : g ((s.b.eng e).ctx.get f.a) = r) :
    AluGives s i e a f.d r 0 1 := by
  subst hg
  exact aluGives_plain (retires_next hexec hruns (engCtx_set_pc _ _ _) rfl)

theorem insHik_gives {f : FormI} (hruns : Runs s.b e a) (ha : f.a = 0) :
    AluGives s (.insHik e f) e a f.d (BitVec.ofNat 32 (f.imm.toNat * 65536)) 0 1 := by
  rw [← zxImm_shiftLeft]
  refine aluGives_plain (retires_plain rfl hruns (engCtx_set_pc _ _ _) ?_)
  rw [ha]
  rfl

/-- A count below 32 is its own low 5 bits. -/
theorem ofNat_toNat_mod (k : Fin 32) : (BitVec.ofNat 32 k.val).toNat % 32 = k.val := by
  rw [BitVec.toNat_ofNat]
  omega

end

/-- Settles O1: each row by its operation, which takes the old operands, and by what that operation gives. -/
theorem integerInstructionsRetire : Obligations.IntegerInstructionsRetire := by
  unfold Obligations.IntegerInstructionsRetire
  refine ⟨?_, ?_, ?_⟩
  · intro s e a f hruns x y
    refine ⟨fun h => aluA_gives hruns h rfl rfl, fun h => aluA_gives hruns h rfl rfl, fun h => aluA_gives hruns h rfl rfl,
      fun h => aluA_gives hruns h rfl rfl, fun h => aluA_gives hruns h rfl rfl, fun h => aluA_gives hruns h rfl rfl,
      fun h => aluA_gives hruns h rfl rfl, fun h => aluA_gives hruns h rfl rfl, fun h => aluA_gives hruns h rfl ?_,
      fun h => aluA_gives hruns h rfl ?_, fun h => aluA_gives hruns h rfl ?_, fun h => aluA_gives hruns h rfl ?_⟩
    · rw [flagW_slt]
    · rw [flagW_ult]
    · rw [ite_slt]
    · rw [ite_slt]
  · intro s e a f hruns x y
    refine ⟨fun h => aluA_gives hruns h rfl ?_, fun h => aluA_gives hruns h rfl ?_, fun h => aluA_gives hruns h rfl rfl,
      fun h hy => aluA_gives hruns h rfl ?_, fun h hy => aluA_gives hruns h rfl ?_, fun h hy => aluA_gives hruns h rfl ?_,
      fun h hy => aluA_gives hruns h rfl ?_, fun h hy => aluA_gives hruns h rfl ?_, fun h hy => aluA_gives hruns h rfl ?_,
      fun h hx hy => aluA_gives hruns h rfl ?_, fun h hx hy => aluA_gives hruns h rfl ?_, fun hy hfits => ?_⟩
    · rw [mul_eq_ofInt]
    · rw [mulHigh_eq]
    · rw [divUnsigned_ne hy]
    · rw [divUnsigned_ne hy]
    · rw [divSigned_zero _ hy]
    · rw [divUnsigned_zero _ hy]
    · rw [divSigned_zero _ hy]
    · rw [divUnsigned_zero _ hy]
    · rw [divSigned_overflow hx hy]
    · rw [divSigned_overflow hx hy]
    · obtain ⟨q, r, hdiv, hlt, htrunc, hgives⟩ := divSigned_ne hy hfits
      exact ⟨q, r, hdiv, hlt, htrunc, fun h => aluA_gives hruns h rfl (by rw [hgives]),
        fun h => aluA_gives hruns h rfl (by rw [hgives])⟩
  · intro s e a hruns
    constructor
    · intro f x
      refine ⟨fun h => ?_, fun h => ?_, fun h => ?_⟩
      · simpa only [shlW, ofNat_toNat_mod] using shiftK_gives (g := shlW) hruns h rfl
      · simpa only [shrU, ofNat_toNat_mod] using shiftK_gives (g := shrU) hruns h rfl
      · simpa only [shrS, ofNat_toNat_mod] using shiftK_gives (g := shrS) hruns h rfl
    · intro f x
      exact ⟨aluI_gives hruns rfl rfl, aluI_gives hruns rfl (flagW_slt_sxImm _ _), aluI_gives hruns rfl rfl, aluI_gives hruns rfl rfl,
        aluI_gives hruns rfl rfl, insHik_gives hruns⟩

end Sys2Proof
end

section
/-! Engines (08): the binary32 instructions (R195, R196). -/

namespace Sys2Proof

open Sys2Proof.Machine

section
variable {s : State} {i : Instr} {e : Fin 40} {a : ActSt}

theorem fpA_gives {f : FormA} {n : BitVec 11} {cyc : Nat} {one : Bool} {r : Word × FFlags} {g : Word → Word → Word → Word × FFlags}
    (hruns : Runs s.b e a) (hfn : f.fn = n)
    (hexec : exec i s = .next { s with b := s.b.issue e (fpA n.toNat cyc one f g) }) (hb : one = true → f.b = 0)
    (hg : g ((s.b.eng e).ctx.get f.d) ((s.b.eng e).ctx.get f.a) ((s.b.eng e).ctx.get f.b) = r) : FpGives s i e a f.d r cyc := by
  subst hg hfn
  refine retires_next (evs := [0x0F]) (addr := 0) hexec hruns (engCtx_set_pc _ _ _) (legal_true ?_)
  cases one with
  | false => rw [beq_self_eq_true]; rfl
  | true => rw [hb rfl, beq_self_eq_true]; rfl

end

/-- Settles O2: each row by its operation, which takes the old operands. -/
theorem floatInstructionsRetire : Obligations.FloatInstructionsRetire := by
  unfold Obligations.FloatInstructionsRetire
  intro s e a f hruns x y z
  exact ⟨fun h => fpA_gives hruns h rfl nofun rfl, fun h => fpA_gives hruns h rfl nofun rfl, fun h => fpA_gives hruns h rfl nofun rfl,
    fun h => fpA_gives hruns h rfl nofun rfl, fun h hb => fpA_gives hruns h rfl (fun _ => hb) rfl, fun h => fpA_gives hruns h rfl nofun rfl,
    fun h => fpA_gives hruns h rfl nofun rfl, fun h => fpA_gives hruns h rfl nofun rfl, fun h hb => fpA_gives hruns h rfl (fun _ => hb) rfl,
    fun h hb => fpA_gives hruns h rfl (fun _ => hb) rfl, fun h => fpA_gives hruns h rfl nofun rfl, fun h => fpA_gives hruns h rfl nofun rfl,
    fun h => fpA_gives hruns h rfl nofun rfl, fun h hb => fpA_gives hruns h rfl (fun _ => hb) rfl,
    fun h hb => fpA_gives hruns h rfl (fun _ => hb) rfl⟩

/-! ### What the operations give (R195, R196) -/

section
variable {x y z : Word} {p q : Bool} {v w : Rat}

theorem isNaN32_fin (h : F32.decode x = .fin p v) : isNaN32 x = false := by rw [isNaN32, h]

theorem f32Rat_fin (h : F32.decode x = .fin p v) : f32Rat x = v := by rw [f32Rat, h]

theorem fpAdd_fin (k : Nat) (hx : F32.decode x = .fin p v) (hy : F32.decode y = .fin q w) :
    fpAdd k x y = fpRound (v + w) (p && q) := by rw [fpAdd, hx, hy]

theorem fpMul_fin (hx : F32.decode x = .fin p v) (hy : F32.decode y = .fin q w) :
    fpMul x y = fpRound (v * w) (fpSign x != fpSign y) := by rw [fpMul, hx, hy]

theorem fpDiv_fin (hx : F32.decode x = .fin p v) (hy : F32.decode y = .fin q w) (hw : w ≠ 0) :
    fpDiv x y = fpRound (v / w) (fpSign x != fpSign y) := by
  rw [fpDiv, hx, hy]
  exact if_neg hw

theorem fpDiv_zeroes (hx : F32.decode x = .fin p v) (hy : F32.decode y = .fin q w) (hw : w = 0) (hv : v = 0) :
    fpDiv x y = fpInvalid := by
  rw [fpDiv, hx, hy]
  exact (if_pos hw).trans (if_pos hv)

theorem fpMac_fin {r : Bool} {u : Rat} (hz : F32.decode z = .fin r u) (hx : F32.decode x = .fin p v) (hy : F32.decode y = .fin q w) :
    fpMac z x y = fpRound (u + v * w) (r && (fpSign x != fpSign y)) := by
  simp only [fpMac, isNaN32_fin hx, isNaN32_fin hy, f32Rat_fin hx, f32Rat_fin hy, hx, hy, hz, Bool.or_self, Bool.false_eq_true, if_false]

theorem fpAdd_inf (k : Nat) (hx : F32.decode x = .inf p) (hy : F32.decode y = .inf q) (hsign : p ≠ q) : fpAdd k x y = fpInvalid := by
  rw [fpAdd, hx, hy]
  exact if_neg hsign

theorem fpDiv_inf (hx : F32.decode x = .inf p) (hy : F32.decode y = .inf q) : fpDiv x y = fpInvalid := by rw [fpDiv, hx, hy]

theorem fpSqrt_neg (hx : F32.decode x = .fin p v) (hv : v < 0) : fpSqrt x = fpInvalid := by
  rw [fpSqrt, hx]
  exact (if_neg hv.ne).trans (if_pos hv)

theorem fpMinMax_nan (m : Bool) (hx : isNaN32 x = true) (hy : isNaN32 y = false) : fpMinMax m x y = y ∧ fpMinMax m y x = y := by
  simp only [fpMinMax, hx, hy, Bool.false_eq_true, if_false, if_true, and_self]

theorem fpCmp_nan (k : Nat) (f : Word → Word → Bool) (h : isNaN32 x = true ∨ isNaN32 y = true) : (fpCmp k f x y).1 = 0 := by
  rw [fpCmp, if_pos (Bool.or_eq_true_iff.2 h)]
  rfl

theorem fpCmp_num (k : Nat) (f : Word → Word → Bool) (hx : isNaN32 x = false) (hy : isNaN32 y = false) :
    fpCmp k f x y = (if f x y then 1 else 0, {}) := by
  simp only [fpCmp, hx, hy, Bool.or_self, Bool.false_eq_true, if_false, b2n]
  split
  · rfl
  · rfl

theorem fpToInt_nan (h : isNaN32 x = true) : fpToInt x = (0, { nv := true }) := by
  unfold isNaN32 at h
  unfold fpToInt
  split at h
  · next hdecode => rw [hdecode]; rfl
  · cases h

/-- FTOI of a finite operand: rounded to nearest even, then saturated. -/
theorem fpToInt_fin (hx : F32.decode x = .fin p v) :
    (rneInt v < -2147483648 → (fpToInt x).1 = 0x80000000) ∧ (2147483647 < rneInt v → (fpToInt x).1 = 0x7FFFFFFF) ∧
    (-2147483648 ≤ rneInt v → rneInt v ≤ 2147483647 → (fpToInt x).1 = BitVec.ofInt 32 (rneInt v)) := by
  simp only [fpToInt, hx]
  refine ⟨fun hlow => ?_, fun hhigh => ?_, fun hlow hhigh => ?_⟩
  · rw [if_pos hlow]
    rfl
  · rw [if_neg (by omega), if_pos hhigh]
    rfl
  · rw [if_neg (by omega), if_neg (by omega)]

end

/-- Settles O3: each operation by the classes of its operands. -/
theorem floatOperationsFollowIeee : Obligations.FloatOperationsFollowIeee := by
  unfold Obligations.FloatOperationsFollowIeee
  refine ⟨fun k x y p q v w hx hy => ?_, fun k x y p q hx hy => ⟨fpAdd_inf k hx hy, fpDiv_inf hx hy⟩, fun x p v => fpSqrt_neg,
    fun m x y => fpMinMax_nan m, fun k f x y => fpCmp_nan k f, fun k f x y => fpCmp_num k f, fun x => fpToInt_nan,
    fun x p v => fpToInt_fin, fun x => rfl⟩
  exact ⟨fpAdd_fin k hx hy, fpMul_fin hx hy, fpDiv_fin hx hy, fpDiv_zeroes hx hy, fun z r u hz => fpMac_fin hz hx hy⟩

end Sys2Proof
end

section
/-! Engines (08): branches and jumps (R195, R214). -/

namespace Sys2Proof

open Sys2Proof.Machine

section
variable {s : State} {i : Instr} {e : Fin 40} {a : ActSt}

/-- A branch on a condition goes where the condition says. -/
theorem branch_goes {f : FormB} {p : Word → Word → Bool} {q : Prop} (hruns : Runs s.b e a)
    (hexec : exec i s = .next { s with b := s.b.issue e (branch f p) })
    (hp : p ((s.b.eng e).ctx.get f.a) ((s.b.eng e).ctx.get f.b) = true ↔ q) :
    (q → Retires s i e s.b
      { (s.b.eng e).ctx with pc := ((s.b.eng e).ctx.pc + 4 + 4 * (f.imm.signExtend 32).toNat) % 2 ^ 32 } (spend a 2)) ∧
    (¬q → Retires s i e s.b (stepPc (s.b.eng e).ctx) (spend a 1)) := by
  refine ⟨fun hq => retires_jump (evs := [0x0E]) (addr := 0) hexec hruns (if_pos (hp.2 hq)),
    fun hq => retires_plain hexec hruns rfl (if_neg (mt hp.1 hq))⟩

theorem insJmpr_retires (f : FormI) (hruns : Runs s.b e a) :
    Retires s (.insJmpr e f) e s.b { (s.b.eng e).ctx.set f.d (BitVec.ofNat 32 ((s.b.eng e).ctx.pc + 4)) with
      pc := ((s.b.eng e).ctx.get f.a + f.imm.signExtend 32).toNat / 4 * 4 } (spend a 2) := by
  have hword (t : Word) : t.toNat / 4 * 4 = (t.toNat - t.toNat % 4) % 2 ^ 32 := by omega
  rw [hword]
  exact retires_jump rfl hruns rfl

end

theorem not_slt_iff (x y : Word) : (!x.slt y) = true ↔ y.toInt ≤ x.toInt := by
  rw [Bool.not_eq_true', ← Bool.not_eq_true, BitVec.slt_iff_toInt_lt, Int.not_lt]

theorem not_ult_iff (x y : Word) : (!x.ult y) = true ↔ y.toNat ≤ x.toNat := by
  rw [Bool.not_eq_true', ← Bool.not_eq_true, BitVec.ult_iff_toNat_lt, Nat.not_lt]

/-- Settles O4: each branch by its condition, the jumps by their targets. -/
theorem branchesAndJumpsRetire : Obligations.BranchesAndJumpsRetire := by
  unfold Obligations.BranchesAndJumpsRetire
  intro s e a hruns c
  refine ⟨?_, fun f => retires_jump rfl hruns rfl, fun f => insJmpr_retires f hruns⟩
  intro f x y goes
  exact ⟨branch_goes hruns rfl beq_iff_eq, branch_goes hruns rfl bne_iff_ne, branch_goes hruns rfl BitVec.slt_iff_toInt_lt,
    branch_goes hruns rfl (not_slt_iff x y), branch_goes hruns rfl BitVec.ult_iff_toNat_lt, branch_goes hruns rfl (not_ult_iff x y)⟩

end Sys2Proof
end

section
/-! Engines (08): the control words (R193, R209). -/

namespace Sys2Proof

open Sys2Proof.Machine

section
variable {s : State} {e : Fin 40} {a : ActSt} {f : FormI} {n v : Nat}

theorem insCwr_word (hruns : Runs s.b e a) (ha : f.a = 0) (hn : f.imm.toNat % 256 = n)
    (hmode : (cwKernel n && !(s.b.eng e).ctx.kernel) = false) (hnarrow : s.b.cw64 (s.b.eng e).ctx a n = none)
    (hlow : (if n = 0 then none else s.b.cw64 (s.b.eng e).ctx a (n - 1)) = none) (hread : s.b.cwRead e (s.b.eng e).ctx a n = some v) :
    Retires s (.insCwr e f) e s.b (stepPc ((s.b.eng e).ctx.set f.d (BitVec.ofNat 32 v))) (spend a 1) := by
  refine retires_plain rfl hruns (engCtx_set_pc _ _ _) ?_
  simp only [if_neg (reserved_zero ha), hn, hmode, hnarrow, hlow, hread, Bool.false_eq_true, if_false]

/-- The low half of a 64-bit control word, whose high half is latched. -/
theorem insCwr_low (hruns : Runs s.b e a) (ha : f.a = 0) (hn : f.imm.toNat % 256 = n)
    (hmode : (cwKernel n && !(s.b.eng e).ctx.kernel) = false) (hwide : s.b.cw64 (s.b.eng e).ctx a n = some v) :
    Retires s (.insCwr e f) e { s.b with latch := tput s.b.latch (2 + e.val) (BitVec.ofNat 32 (v / 2 ^ 32)) }
      (stepPc ((s.b.eng e).ctx.set f.d (BitVec.ofNat 32 v))) (spend a 1) := by
  refine retires_plain rfl hruns (engCtx_set_pc _ _ _) ?_
  simp only [if_neg (reserved_zero ha), hn, hmode, hwide, Bool.false_eq_true, if_false, Nat.shiftRight_eq_div_pow]

/-- The high half gives what the low half has latched. -/
theorem insCwr_high {h : Word} (hruns : Runs s.b e a) (ha : f.a = 0) (hn : f.imm.toNat % 256 = n + 1)
    (hmode : (cwKernel (n + 1) && !(s.b.eng e).ctx.kernel) = false) (hnarrow : s.b.cw64 (s.b.eng e).ctx a (n + 1) = none)
    (hwide : s.b.cw64 (s.b.eng e).ctx a n = some v) (hlatch : tget? s.b.latch (2 + e.val) = some h) :
    Retires s (.insCwr e f) e s.b (stepPc ((s.b.eng e).ctx.set f.d (BitVec.ofNat 32 h.toNat))) (spend a 1) := by
  refine retires_plain rfl hruns (engCtx_set_pc _ _ _) ?_
  simp only [if_neg (reserved_zero ha), hn, hmode, hnarrow, Nat.add_one_sub_one, hwide, hlatch, Option.getD_some, Nat.add_one_ne_zero,
    Bool.false_eq_true, if_false]

theorem insCwr_reserved (hruns : Runs s.b e a) (ha : f.a ≠ 0) :
    exec (.insCwr e f) s = .next { s with b := s.b.trapOn e 1 (wordI 0x28 f) } :=
  traps_of rfl hruns (if_pos (Fin.val_ne_of_ne ha))

theorem insCwr_privilege (hruns : Runs s.b e a) (ha : f.a = 0)
    (hmode : (cwKernel (f.imm.toNat % 256) && !(s.b.eng e).ctx.kernel) = true) :
    exec (.insCwr e f) s = .next { s with b := s.b.trapOn e 2 (wordI 0x28 f) } :=
  traps_of rfl hruns ((if_neg (reserved_zero ha)).trans (if_pos hmode))

theorem insCww_reserved (hruns : Runs s.b e a) (hd : f.d ≠ 0) :
    exec (.insCww e f) s = .next { s with b := s.b.trapOn e 1 (wordI 0x29 f) } :=
  traps_of rfl hruns (if_pos (Fin.val_ne_of_ne hd))

theorem insCww_privilege (hruns : Runs s.b e a) (hd : f.d = 0)
    (hmode : (cwKernel (f.imm.toNat % 256) && !(s.b.eng e).ctx.kernel) = true) :
    exec (.insCww e f) s = .next { s with b := s.b.trapOn e 2 (wordI 0x29 f) } :=
  traps_of rfl hruns ((if_neg (reserved_zero hd)).trans (if_pos hmode))

theorem insCww_word (hruns : Runs s.b e a) (hd : f.d = 0) (hn : f.imm.toNat % 256 = n) :
    let c := (s.b.eng e).ctx
    (n = 0x0E → Retires s (.insCww e f) e s.b (stepPc { c with fflags := (c.get f.a).toNat % 32 }) (spend a 1)) ∧
    (n = 0x0F → Retires s (.insCww e f) e s.b (stepPc { c with arith := (c.get f.a).toNat % 4 }) (spend a 1)) ∧
    (n = 0x21 → c.kernel = true → Retires s (.insCww e f) e s.b (stepPc { c with htable := (c.get f.a).toNat }) (spend a 1)) ∧
    (n = 0x20 → c.kernel = true → exec (.insCww e f) s = .next { s with b := s.b.trapOn e 1 (wordI 0x29 f) }) := by
  intro c
  have huser {k : Nat} (hk : n = k) (hmode : (cwKernel k && !c.kernel) = false) :
      ¬(cwKernel (f.imm.toNat % 256) && !c.kernel) = true := by rw [hn, hk, hmode]; decide
  refine ⟨fun hk => ?_, fun hk => ?_, fun hk hkernel => ?_, fun hk hkernel => ?_⟩
  · refine retires_plain rfl hruns rfl ((if_neg (reserved_zero hd)).trans ((if_neg (huser hk rfl)).trans ?_))
    rw [hn, hk]
    rfl
  · refine retires_plain rfl hruns rfl ((if_neg (reserved_zero hd)).trans ((if_neg (huser hk rfl)).trans ?_))
    rw [hn, hk]
    rfl
  · refine retires_plain rfl hruns rfl ((if_neg (reserved_zero hd)).trans ((if_neg (huser hk (by rw [hkernel]; rfl))).trans ?_))
    rw [hn, hk]
    rfl
  · refine traps_of rfl hruns ((if_neg (reserved_zero hd)).trans ((if_neg (huser hk (by rw [hkernel]; rfl))).trans ?_))
    rw [hn, hk]
    rfl

end

/-- Settles O8: each word of the table as the word it is: of 32 bits, the low or the high half of 64, or one of the kernel. -/
theorem controlWordInstructionsRetire : Obligations.ControlWordInstructionsRetire := by
  unfold Obligations.ControlWordInstructionsRetire
  intro s e a f hruns c n gives
  have hkernel (k : Nat) (h : c.kernel = true) : (cwKernel k && !c.kernel) = false := by rw [h, Bool.not_true, Bool.and_false]
  refine ⟨fun ha => ⟨fun hn => insCwr_word hruns ha hn rfl rfl rfl rfl, fun hn => insCwr_word hruns ha hn rfl rfl rfl rfl,
    fun hn => insCwr_word hruns ha hn rfl rfl rfl rfl, fun hn => insCwr_word hruns ha hn rfl rfl rfl rfl,
    fun hn => insCwr_word hruns ha hn rfl rfl rfl rfl, fun hn => insCwr_word hruns ha hn rfl rfl rfl rfl,
    fun hn => insCwr_word hruns ha hn rfl rfl rfl rfl, fun hn => insCwr_word hruns ha hn rfl rfl rfl rfl,
    fun hn => insCwr_word hruns ha hn rfl rfl rfl rfl, fun hn => insCwr_word hruns ha hn rfl rfl rfl rfl,
    fun hn => insCwr_word hruns ha hn rfl rfl rfl rfl, fun hn => insCwr_word hruns ha hn rfl rfl rfl rfl,
    fun hn => insCwr_word hruns ha hn rfl rfl rfl rfl, fun hn => insCwr_word hruns ha hn rfl rfl rfl rfl,
    fun hn hk => insCwr_word hruns ha hn (hkernel 0x20 hk) rfl rfl rfl, fun hn hk => insCwr_word hruns ha hn (hkernel 0x21 hk) rfl rfl rfl,
    ?_, ?_⟩, fun hd => insCww_word hruns hd rfl, ?_, insCwr_reserved hruns, insCww_reserved hruns⟩
  · rintro h hlatch (hn | hn | hn)
    · exact insCwr_high hruns ha hn rfl rfl rfl hlatch
    · exact insCwr_high hruns ha hn rfl rfl rfl hlatch
    · exact insCwr_high hruns ha hn rfl rfl rfl hlatch
  · rintro v (⟨hn, rfl⟩ | ⟨hn, rfl⟩ | ⟨hn, rfl⟩)
    · exact insCwr_low hruns ha hn rfl rfl
    · exact insCwr_low hruns ha hn rfl rfl
    · exact insCwr_low hruns ha hn rfl rfl
  · intro ha hd hn huser
    have hmode : (cwKernel n && !c.kernel) = true := by
      rw [huser]
      obtain hn | hn := hn
      · rw [hn]
        rfl
      · rw [hn]
        rfl
    exact ⟨insCwr_privilege hruns ha hmode, insCww_privilege hruns hd hmode⟩

end Sys2Proof
end

section
/-! Engines (08): the instructions that trap, return or end the activation (R204, R209–R213). -/

namespace Sys2Proof

open Sys2Proof.Machine

theorem u16_lt (l : List Byte) (k : Nat) : u16 l k < 2 ^ 16 := by
  have hlow := (l.getD k 0#8).isLt
  have hhigh := (l.getD (k + 1) 0#8).isLt
  unfold u16 u8
  omega

theorem u32_lt (l : List Byte) (k : Nat) : u32 l k < 2 ^ 32 := by
  have hlow := u16_lt l k
  have hhigh := u16_lt l (k + 2)
  unfold u32
  omega

section
variable {s : State} {e : Fin 40} {a : ActSt}

theorem insKcall_traps {f : FormI} (hruns : Runs s.b e a) (hd : f.d = 0) (ha : f.a = 0) :
    exec (.insKcall e f) s = .next { s with b := s.b.trapOn e 12 f.imm.toNat } :=
  traps_of rfl hruns (legal_true (by rw [hd, ha]; rfl))

section
variable {f : FormJ}

/-- TRET and ABORT are of the kernel. -/
theorem insTret_insAbort_privilege (hruns : Runs s.b e a) (himm : f.imm = 0) (huser : (s.b.eng e).ctx.kernel = false) :
    exec (.insTret e f) s = .next { s with b := s.b.trapOn e 2 (wordJ 0x3A f) } ∧
    exec (.insAbort e f) s = .next { s with b := s.b.trapOn e 2 (wordJ 0x3B f) } := by
  have hmode : (!(s.b.eng e).ctx.kernel) = true := by rw [huser]; rfl
  exact ⟨traps_of rfl hruns ((if_neg (not_not.2 himm)).trans (if_pos hmode)),
    traps_of rfl hruns ((if_neg (not_not.2 himm)).trans (if_pos hmode))⟩

theorem insTret_returns (hruns : Runs s.b e a) (himm : f.imm = 0) (hkernel : (s.b.eng e).ctx.kernel = true)
    (haligned : u32 (mread (s.b.eng e).dram 0xDFE0 32) 0 % 4 = 0) :
    let c := (s.b.eng e).ctx
    let r := mread (s.b.eng e).dram 0xDFE0 32
    Retires s (.insTret e f) e s.b { ((c.set 29 (w32 r 16)).set 30 (w32 r 20)).set 31 (w32 r 24) with
      kernel := (u32 r 4).testBit 8, handler := false, pc := u32 r 0 } (spend a 8) := by
  intro c r
  have hmode : ¬(!c.kernel) = true := by rw [hkernel]; decide
  rw [← Nat.mod_eq_of_lt (u32_lt r 0)]
  exact retires_jump (c' := { ((c.set 29 (w32 r 16)).set 30 (w32 r 20)).set 31 (w32 r 24) with
    kernel := (u32 r 4).testBit 8, handler := false }) rfl hruns
    ((if_neg (not_not.2 himm)).trans ((if_neg hmode).trans (if_neg (not_not.2 haligned))))

theorem insAbort_aborts (hruns : Runs s.b e a) (himm : f.imm = 0) (hkernel : (s.b.eng e).ctx.kernel = true) :
    ∃ b1, exec (.insAbort e f) s = .next { s with b := b1.abortAct e 4 } ∧ (b1.eng e).ctx = stepPc (s.b.eng e).ctx ∧
      (b1.eng e).act = some (spend a 1) ∧ EngFrame e s.b b1 := by
  have hmode : ¬(!(s.b.eng e).ctx.kernel) = true := by rw [hkernel]; decide
  exact aborts_of rfl hruns rfl ((if_neg (not_not.2 himm)).trans (if_neg hmode))

theorem insDone_commits (hruns : Runs s.b e a) (himm : f.imm = 0) :
    Retires s (.insDone e f) e s.b (stepPc (s.b.eng e).ctx) (spend { a with committing := true } 1) :=
  retires_plain rfl hruns rfl (legal_true (by rw [himm]; rfl))

theorem insDone_reserved (hruns : Runs s.b e a) (himm : f.imm ≠ 0) :
    exec (.insDone e f) s = .next { s with b := s.b.trapOn e 1 (wordJ 0x38 f) } :=
  traps_of rfl hruns (legal_false (beq_eq_false_iff_ne.2 himm))

end

/-- A commit in progress is never aborted for budget (R213). -/
theorem budgetExpiry_committing (hact : (s.b.eng e).act = some a) (hcommits : a.committing = true) :
    exec (.budgetExpiry e) s = .next s := by
  have hexec : exec (.budgetExpiry e) s = execBudgetExpiry e s := rfl
  rw [hexec, execBudgetExpiry, nextB_eq]
  simp only [hact, hcommits, if_true]

end

/-- Settles O9: each instruction by its own lemma. -/
theorem trapAndEndInstructionsComplete : Obligations.TrapAndEndInstructionsComplete := by
  unfold Obligations.TrapAndEndInstructionsComplete
  intro s e a hruns c r
  exact ⟨fun f => insKcall_traps hruns, fun f => insTret_returns hruns, fun f => insAbort_aborts hruns,
    fun f => insTret_insAbort_privilege hruns, fun f => insDone_commits hruns, fun f => insDone_reserved hruns⟩

/-- Settles O59: the DONE that retires leaves an activation that commits, and no expiry touches one. -/
theorem doneWinsOverTheBudget : Obligations.DoneWinsOverTheBudget := by
  unfold Obligations.DoneWinsOverTheBudget
  refine ⟨fun s e a f hruns himm => ?_, fun s e a => budgetExpiry_committing⟩
  obtain ⟨b, hexec, -, hact, -⟩ := insDone_commits hruns himm
  exact ⟨_, hexec, ⟨_, hact, rfl, rfl⟩, budgetExpiry_committing hact rfl⟩

end Sys2Proof
end

section
/-! Engines (08): the memory map, loads, stores, atomics and the fence (R189, R191, R195, R206–R208). -/

namespace Sys2Proof

open Sys2Proof.Machine

/-! ### Where an address lies (R189) -/

section
variable {ad : Nat}

theorem zoneOf_iram (h : ad < 0x10000) : zoneOf ad = .iram ad := if_pos h

theorem zoneOf_dram (hlow : 0x10000 ≤ ad) (hhigh : ad < 0x20000) : zoneOf ad = .dram (ad - 0x10000) := by
  rw [zoneOf, if_neg (by omega), if_pos hhigh]

theorem zoneOf_sram (hlow : 0x10000000 ≤ ad) (hhigh : ad < 0x11000000) : zoneOf ad = .sram (ad - 0x10000000) := by
  rw [zoneOf, if_neg (by omega), if_neg (by omega), if_neg (by omega), if_pos hhigh]

theorem zoneOf_cairn (hlow : 0x20000000 ≤ ad) (hhigh : ad < 0x20001000) : zoneOf ad = .cairn (ad - 0x20000000) := by
  rw [zoneOf, if_neg (by omega), if_neg (by omega), if_neg (by omega), if_neg (by omega), if_neg (by omega), if_pos hhigh]

theorem zoneOf_bar (hlow : 0x40000000 ≤ ad) (hhigh : ad < 0x43C00000) : zoneOf ad = .bar (ad - 0x40000000) := by
  rw [zoneOf, if_neg (by omega), if_neg (by omega), if_neg (by omega), if_neg (by omega), if_neg (by omega), if_neg (by omega),
    if_neg (by omega), if_pos hhigh]

/-- Between the regions lies nothing. -/
theorem zoneOf_none (h : (0x20000 ≤ ad ∧ ad < 0x10000000) ∨ (0x11000000 ≤ ad ∧ ad < 0x20000000) ∨
    (0x20001000 ≤ ad ∧ ad < 0x40000000) ∨ 0x43C00000 ≤ ad) : zoneOf ad = .none := by
  obtain ⟨hlow, hhigh⟩ | ⟨hlow, hhigh⟩ | ⟨hlow, hhigh⟩ | hlow := h
  · rw [zoneOf, if_neg (by omega), if_neg (by omega), if_pos hhigh]
  · rw [zoneOf, if_neg (by omega), if_neg (by omega), if_neg (by omega), if_neg (by omega), if_pos hhigh]
  · rw [zoneOf, if_neg (by omega), if_neg (by omega), if_neg (by omega), if_neg (by omega), if_neg (by omega), if_neg (by omega),
      if_pos hhigh]
  · rw [zoneOf, if_neg (by omega), if_neg (by omega), if_neg (by omega), if_neg (by omega), if_neg (by omega), if_neg (by omega),
      if_neg (by omega), if_neg (by omega)]

/-- Nothing outside the window of shared SRAM lies in shared SRAM. -/
theorem zoneOf_sram_inv {o : Nat} (h : zoneOf ad = .sram o) : ad < 0x11000000 ∧ ad = 0x10000000 + o := by
  unfold zoneOf at h
  split_ifs at h
  case pos =>
    injection h with ho
    omega

end

theorem sramSplit_lt (b : Block) : b.sramSplit < 0x1000000 := Nat.mod_lt _ (by decide)

/-! ### What each region answers (R189, R196) -/

section
variable {b : Block} {e : Nat} {c : EngCtx} {a : ActSt} {ad n : Nat} {bs : List Byte}

theorem engLoad_misaligned (h : ad % n ≠ 0) : b.engLoad e c a ad n = .trap 4 ad := if_pos h

theorem engStore_misaligned (h : ad % bs.length ≠ 0) : b.engStore e c ad bs = .trap 4 ad := if_pos h

section
variable (h : ad % n = 0)
include h

theorem engLoad_iram (hhigh : ad < 0x10000) :
    b.engLoad e c a ad n = if c.kernel then .val b (padTo n (slice (b.eng e).iram ad n)) 2 [] else .trap 3 ad := by
  rw [Block.engLoad, if_neg (not_not.2 h), zoneOf_iram hhigh]
  rfl

theorem engLoad_dram (hlow : 0x10000 ≤ ad) (hhigh : ad < 0x1DFE0) :
    b.engLoad e c a ad n = .val b (mread (b.eng e).dram (ad - 0x10000) n) 2 [] := by
  rw [Block.engLoad, if_neg (not_not.2 h), zoneOf_dram hlow (by omega)]
  exact if_pos (by omega)

/-- The trap record and the context frames are the kernel's. -/
theorem engLoad_dram_user (hlow : 0x1DFE0 ≤ ad) (hhigh : ad < 0x20000) (huser : c.kernel = false) :
    b.engLoad e c a ad n = .trap 3 ad := by
  rw [Block.engLoad, if_neg (not_not.2 h), zoneOf_dram (by omega) hhigh]
  exact (if_neg (by omega)).trans (if_pos (by rw [huser]; rfl))

theorem engLoad_trapRecord (hlow : 0x1DFE0 ≤ ad) (hhigh : ad < 0x1E000) (hkernel : c.kernel = true) :
    b.engLoad e c a ad n = .val b (mread (b.eng e).dram (ad - 0x10000) n) 2 [] := by
  rw [Block.engLoad, if_neg (not_not.2 h), zoneOf_dram (by omega) (by omega)]
  exact (if_neg (by omega)).trans ((if_neg (by rw [hkernel]; decide)).trans (if_pos (by omega)))

theorem engLoad_cairn (hlow : 0x20000000 ≤ ad) (hhigh : ad < 0x20001000) :
    b.engLoad e c a ad n = if b.cairnSize a.thread < ad - 0x20000000 + n then .trap 3 ad else
      .val b (if (b.th a.thread).cairned then mread b.cairn (u32 (b.thDesc a.thread) 16 + (ad - 0x20000000)) n else zeroBytes n)
        12 [0x08] := by
  rw [Block.engLoad, if_neg (not_not.2 h), zoneOf_cairn hlow hhigh]
  rfl

theorem engLoad_none (hnone : zoneOf ad = .none) : b.engLoad e c a ad n = .trap 3 ad := by
  rw [Block.engLoad, if_neg (not_not.2 h), hnone]
  rfl

end

section
variable (h : ad % bs.length = 0)
include h

theorem engStore_iram (hhigh : ad < 0x10000) : b.engStore e c ad bs = .trap 3 ad := by
  rw [Block.engStore, if_neg (not_not.2 h), zoneOf_iram hhigh]
  rfl

theorem engStore_dram (hlow : 0x10000 ≤ ad) (hhigh : ad < 0x1DFE0) :
    b.engStore e c ad bs = .done (b.putEng e { b.eng e with dram := mwrite (b.eng e).dram (ad - 0x10000) bs }) 2 := by
  rw [Block.engStore, if_neg (not_not.2 h), zoneOf_dram hlow (by omega)]
  exact if_pos (.inl (by omega))

theorem engStore_dram_user (hlow : 0x1DFE0 ≤ ad) (hhigh : ad < 0x20000) (huser : c.kernel = false) :
    b.engStore e c ad bs = .trap 3 ad := by
  rw [Block.engStore, if_neg (not_not.2 h), zoneOf_dram (by omega) hhigh]
  refine if_neg ?_
  rintro (hgeneral | ⟨hkernel, -⟩)
  · omega
  · rw [huser] at hkernel
    cases hkernel

/-- The context frames take no store, of whatever mode. -/
theorem engStore_frames (hlow : 0x1E000 ≤ ad) (hhigh : ad < 0x20000) : b.engStore e c ad bs = .trap 3 ad := by
  rw [Block.engStore, if_neg (not_not.2 h), zoneOf_dram (by omega) hhigh]
  exact if_neg (by omega)

theorem engStore_image (hlow : 0x10000000 ≤ ad) (hhigh : ad < 0x10000000 + b.sramSplit) : b.engStore e c ad bs = .trap 3 ad := by
  have hsplit := sramSplit_lt b
  rw [Block.engStore, if_neg (not_not.2 h), zoneOf_sram hlow (by omega)]
  exact if_pos (by omega)

theorem engStore_work (hlow : 0x10000000 + b.sramSplit ≤ ad) (hhigh : ad < 0x11000000) :
    b.engStore e c ad bs = .done (b.sramStore e (ad - 0x10000000) bs) 1 := by
  rw [Block.engStore, if_neg (not_not.2 h), zoneOf_sram (by omega) hhigh]
  exact if_neg (by omega)

theorem engStore_cairn (hlow : 0x20000000 ≤ ad) (hhigh : ad < 0x20001000) : b.engStore e c ad bs = .trap 3 ad := by
  rw [Block.engStore, if_neg (not_not.2 h), zoneOf_cairn hlow hhigh]
  rfl

theorem engStore_bar_user (hlow : 0x40000000 ≤ ad) (hhigh : ad < 0x43C00000) (huser : c.kernel = false) :
    b.engStore e c ad bs = .trap 3 ad := by
  rw [Block.engStore, if_neg (not_not.2 h), zoneOf_bar hlow hhigh]
  exact if_pos (by rw [huser]; rfl)

theorem engStore_none (hnone : zoneOf ad = .none) : b.engStore e c ad bs = .trap 3 ad := by
  rw [Block.engStore, if_neg (not_not.2 h), hnone]
  rfl

end

end

/-- Settles O6: region by region. -/
theorem engineMapIsEnforced : Obligations.EngineMapIsEnforced := by
  unfold Obligations.EngineMapIsEnforced
  rintro b e c a ad n bs - rfl
  refine ⟨fun h => ⟨engLoad_misaligned h, engStore_misaligned h⟩, fun h => ⟨?_, ?_, engLoad_trapRecord h, engStore_frames h,
    engStore_image h, ?_, engStore_bar_user h, fun hnone => ?_⟩⟩
  · intro hhigh
    refine ⟨engStore_iram h hhigh, fun huser => ?_, fun hkernel => ?_⟩
    · rw [engLoad_iram h hhigh, huser]
      rfl
    · rw [engLoad_iram h hhigh, hkernel]
      rfl
  · exact fun hlow hhigh huser => ⟨engLoad_dram_user h hlow hhigh huser, engStore_dram_user h hlow hhigh huser⟩
  · intro hlow hhigh
    rw [engLoad_cairn h hlow hhigh]
    refine ⟨engStore_cairn h hlow hhigh, fun hpast => if_pos hpast, fun hfits hnew => ?_, fun hfits hold => ?_⟩
    · rw [if_neg (Nat.not_lt.2 hfits), hnew]
      rfl
    · rw [if_neg (Nat.not_lt.2 hfits), hold]
      rfl
  · exact ⟨engLoad_none h (zoneOf_none hnone), engStore_none h (zoneOf_none hnone)⟩

/-! ### Loads (R195, R196, R214) -/

theorem toSigned_eq_toInt (n v : Nat) (hn : 0 < n) : toSigned n v = (BitVec.ofNat n v).toInt := by
  have htwo : 2 ^ n = 2 * 2 ^ (n - 1) := by rw [← Nat.pow_succ', Nat.succ_eq_add_one, Nat.sub_one_add_one hn.ne']
  rw [toSigned, BitVec.toInt_eq_toNat_cond, BitVec.toNat_ofNat]
  have hhalf : v % 2 ^ n < 2 ^ (n - 1) ↔ 2 * (v % 2 ^ n) < 2 ^ n := by omega
  simp only [hhalf]
  split
  · rfl
  · push_cast
    rfl

theorem sxN_eq (n v : Nat) (hn : 0 < n) : sxN n v = (BitVec.ofNat n v).signExtend 32 := by
  rw [sxN, toSigned_eq_toInt n v hn]
  rfl

/-- The load `i` of `n` bytes by engine `e`, which `put` writes into its registers: what it does with general D-RAM, and what it makes of
any answer. -/
def Loads (s : State) (e : Fin 40) (a : ActSt) (f : FormI) (i : Instr) (n : Nat) (put : EngCtx → List Byte → EngCtx) : Prop :=
  let c := (s.b.eng e).ctx
  let ad := (c.get f.a + f.imm.signExtend 32).toNat
  (ad % n = 0 → 0x10000 ≤ ad → ad < 0x1DFE0 →
    Retires s i e s.b (stepPc (put c (mread (s.b.eng e).dram (ad - 0x10000) n))) (spend a 2)) ∧
  (∀ b' bs cyc evs, s.b.engLoad e c a ad n = .val b' bs cyc evs → Retires s i e b' (stepPc (put c bs)) (spend a cyc)) ∧
  (∀ k v, s.b.engLoad e c a ad n = .trap k v → exec i s = .next { s with b := s.b.trapOn e k v })

section
variable {s : State} {i : Instr} {e : Fin 40} {a : ActSt} {f : FormI} {op : EngOp}

theorem loads_of {n : Nat} {put : EngCtx → List Byte → EngCtx} (hruns : Runs s.b e a)
    (hexec : exec i s = .next { s with b := s.b.issue e op }) (hpc : ∀ c bs, (put c bs).pc = c.pc)
    (hval : ∀ c b' bs cyc evs, s.b.engLoad e c a (effAddr c f) n = .val b' bs cyc evs →
      op s.b e c a = .ok { b := b', c := put c bs, a := a, cyc := cyc, evs := evs, addr := effAddr c f })
    (htrap : ∀ c k v, s.b.engLoad e c a (effAddr c f) n = .trap k v → op s.b e c a = .trap k v) : Loads s e a f i n put := by
  have hretires : ∀ b' bs cyc evs, s.b.engLoad e (s.b.eng e).ctx a (effAddr (s.b.eng e).ctx f) n = .val b' bs cyc evs →
      Retires s i e b' (stepPc (put (s.b.eng e).ctx bs)) (spend a cyc) := fun b' bs cyc evs h =>
    retires_next hexec hruns (hpc _ _) (hval _ _ _ _ _ h)
  exact ⟨fun haligned hlow hhigh => hretires _ _ _ _ (engLoad_dram haligned hlow hhigh), hretires,
    fun k v h => traps_of hexec hruns (htrap _ k v h)⟩

theorem loadI_loads {n : Nat} {g : Nat → Word} {put : EngCtx → List Byte → EngCtx} (hruns : Runs s.b e a)
    (hexec : exec i s = .next { s with b := s.b.issue e (loadI f n g) }) (hput : ∀ c bs, c.set f.d (g (leNat bs)) = put c bs) :
    Loads s e a f i n put := by
  obtain rfl : (fun c bs => c.set f.d (g (leNat bs))) = put := funext₂ hput
  exact loads_of hruns hexec (fun c bs => engCtx_set_pc _ _ _) (fun c b' bs cyc evs h => by rw [loadI, h])
    (fun c k v h => by rw [loadI, h])

theorem insLdp_loads (hruns : Runs s.b e a) (heven : f.d.val % 2 = 0) :
    Loads s e a f (.insLdp e f) 8 fun c bs => (c.set f.d (w32 bs 0)).set (f.d.val + 1) (w32 bs 4) := by
  refine loads_of hruns rfl (fun c bs => ?_) (fun c b' bs cyc evs h => (if_neg (not_not.2 heven)).trans ?_)
    (fun c k v h => (if_neg (not_not.2 heven)).trans ?_)
  · rw [engCtx_set_pc, engCtx_set_pc]
  · rw [h]
  · rw [h]

end

/-! ### Stores (R189, R191, R196, R206, R214) -/

/-- The store `i` of the bytes `bs` by engine `e`: what it does with general D-RAM and with the work region, and what it makes of any
answer. -/
def Stores (s : State) (e : Fin 40) (a : ActSt) (f : FormI) (i : Instr) (bs : List Byte) : Prop :=
  let c := (s.b.eng e).ctx
  let ad := (c.get f.a + f.imm.signExtend 32).toNat
  (ad % bs.length = 0 → 0x10000 ≤ ad → ad < 0x1DFE0 →
    Retires s i e (s.b.putEng e { s.b.eng e with dram := mwrite (s.b.eng e).dram (ad - 0x10000) bs }) (stepPc c) (spend a 2)) ∧
  (ad % bs.length = 0 → 0x10000000 + s.b.sramSplit ≤ ad → ad < 0x11000000 →
    Retires s i e (s.b.sramStore e (ad - 0x10000000) bs) (stepPc c) (spend a 1)) ∧
  (∀ b' cyc, s.b.engStore e c ad bs = .done b' cyc → Retires s i e b' (stepPc c) (spend a cyc)) ∧
  (∀ k v, s.b.engStore e c ad bs = .trap k v → exec i s = .next { s with b := s.b.trapOn e k v })

section
variable {s : State} {i : Instr} {e : Fin 40} {a : ActSt} {f : FormI} {op : EngOp} {bs : List Byte}

theorem stores_of (hruns : Runs s.b e a) (hexec : exec i s = .next { s with b := s.b.issue e op })
    (hdone : ∀ b' cyc, s.b.engStore e (s.b.eng e).ctx (effAddr (s.b.eng e).ctx f) bs = .done b' cyc →
      op s.b e (s.b.eng e).ctx a = .ok { b := b', c := (s.b.eng e).ctx, a := a, cyc := cyc, addr := effAddr (s.b.eng e).ctx f })
    (htrap : ∀ k v, s.b.engStore e (s.b.eng e).ctx (effAddr (s.b.eng e).ctx f) bs = .trap k v →
      op s.b e (s.b.eng e).ctx a = .trap k v) : Stores s e a f i bs := by
  have hretires : ∀ b' cyc, s.b.engStore e (s.b.eng e).ctx (effAddr (s.b.eng e).ctx f) bs = .done b' cyc →
      Retires s i e b' (stepPc (s.b.eng e).ctx) (spend a cyc) := fun b' cyc h => retires_next hexec hruns rfl (hdone _ _ h)
  exact ⟨fun haligned hlow hhigh => hretires _ _ (engStore_dram haligned hlow hhigh),
    fun haligned hlow hhigh => hretires _ _ (engStore_work haligned hlow hhigh), hretires,
    fun k v h => traps_of hexec hruns (htrap k v h)⟩

theorem storeI_stores {n : Nat} (hruns : Runs s.b e a) (hexec : exec i s = .next { s with b := s.b.issue e (storeI f n) }) :
    Stores s e a f i (leBytes n ((s.b.eng e).ctx.get f.d).toNat) :=
  stores_of hruns hexec (fun b' cyc h => by rw [storeI, h]) (fun k v h => by rw [storeI, h])

theorem insStp_stores (hruns : Runs s.b e a) (heven : f.d.val % 2 = 0) :
    Stores s e a f (.insStp e f)
      (leBytes 4 ((s.b.eng e).ctx.get f.d).toNat ++ leBytes 4 ((s.b.eng e).ctx.get (f.d.val + 1)).toNat) := by
  refine stores_of hruns rfl (fun b' cyc h => (if_neg (not_not.2 heven)).trans ?_) (fun k v h => (if_neg (not_not.2 heven)).trans ?_)
  · simp only [h]
  · simp only [h]

end

/-- Settles O5: loads of one word and of two, and stores of one word and of two. -/
theorem loadsAndStoresRetire : Obligations.LoadsAndStoresRetire := by
  unfold Obligations.LoadsAndStoresRetire
  constructor
  · intro s e a f hruns c ad loads
    exact ⟨loadI_loads hruns rfl fun c bs => rfl, loadI_loads hruns rfl fun c bs => congrArg _ (sxN_eq 16 _ (by decide)),
      loadI_loads hruns rfl fun c bs => rfl, loadI_loads hruns rfl fun c bs => congrArg _ (sxN_eq 8 _ (by decide)),
      loadI_loads hruns rfl fun c bs => rfl, insLdp_loads hruns⟩
  · intro s e a f hruns c ad stores
    exact ⟨storeI_stores hruns rfl, storeI_stores hruns rfl, storeI_stores hruns rfl, insStp_stores hruns⟩

/-! ### Atomics (R207, R208) -/

/-- What an atomic of engine `e` finds: the engine's own stores, and any number of the others', have become visible. -/
def beforeAtomic (b : Block) (e : Nat) : Block := (b.drainAll e).drainOthers e

/-- The word at an address of shared SRAM that an atomic of engine `e` reads. -/
def atomicWord (b : Block) (e ad : Nat) : Word := w32 (mread (beforeAtomic b e).sram (ad - 0x10000000) 4) 0

/-- The write of an atomic, where it writes at all: a stale engine's is counted and discarded (R191). -/
def atomicWrite (b : Block) (e ad : Nat) : Option Word → Block
  | some v => if b.stale e then b.fencedWrites e 1 else b.sramPut (ad - 0x10000000) (leBytes 4 v.toNat)
  | none => b

/-- The atomic `i` by engine `e`, which writes `w`: what it does on an aligned word of the work region, and that it traps elsewhere. -/
def Atomics (s : State) (e : Fin 40) (a : ActSt) (f : FormA) (i : Instr) (w : Option Word) : Prop :=
  let c := (s.b.eng e).ctx
  let ad := (c.get f.a).toNat
  (ad % 4 = 0 → 0x10000000 + s.b.sramSplit ≤ ad → ad < 0x11000000 →
    Retires s i e (atomicWrite (beforeAtomic s.b e) e ad w) (stepPc (c.set f.d (atomicWord s.b e ad))) (spend a 40)) ∧
  (ad % 4 ≠ 0 ∨ ad < 0x10000000 + s.b.sramSplit ∨ 0x11000000 ≤ ad → exec i s = .next { s with b := s.b.trapOn e 3 ad })

section
variable {s : State} {i : Instr} {e : Fin 40} {a : ActSt} {f : FormA} {n : BitVec 11} {g : Word → Word → Word → Option Word}
variable (hruns : Runs s.b e a) (hfn : f.fn = n) (hexec : exec i s = .next { s with b := s.b.issue e (atomic n.toNat f g) })
include hruns hfn hexec

theorem atomic_retires {w : Option Word} {ad : Nat} (had : ((s.b.eng e).ctx.get f.a).toNat = ad)
    (hw : g (atomicWord s.b e ad) ((s.b.eng e).ctx.get f.d) ((s.b.eng e).ctx.get f.b) = w) (haligned : ad % 4 = 0)
    (hlow : 0x10000000 + s.b.sramSplit ≤ ad) (hhigh : ad < 0x11000000) :
    Retires s i e (atomicWrite (beforeAtomic s.b e) e ad w) (stepPc ((s.b.eng e).ctx.set f.d (atomicWord s.b e ad))) (spend a 40) := by
  subst hfn hw
  refine retires_next (evs := [0x07]) (addr := ad) hexec hruns (engCtx_set_pc _ _ _) ?_
  have hzone : zoneOf ad = .sram (ad - 0x10000000) := zoneOf_sram (by omega) hhigh
  have hallowed : ¬(ad % 4 ≠ 0 ∨ ad - 0x10000000 < s.b.sramSplit) := by omega
  simp only [atomic, had, hzone, ne_eq, not_true_eq_false, if_false, if_neg hallowed]
  rfl

/-- An atomic elsewhere traps ACCESS. -/
theorem atomic_traps {ad : Nat} (had : ((s.b.eng e).ctx.get f.a).toNat = ad)
    (h : ad % 4 ≠ 0 ∨ ad < 0x10000000 + s.b.sramSplit ∨ 0x11000000 ≤ ad) : exec i s = .next { s with b := s.b.trapOn e 3 ad } := by
  subst hfn
  refine traps_of hexec hruns ?_
  simp only [atomic, had, ne_eq, not_true_eq_false, if_false]
  split
  · next o hzone =>
    obtain ⟨hhigh, hoffset⟩ := zoneOf_sram_inv hzone
    exact if_pos (by omega)
  · rfl

end

theorem atomics_act {s : State} {i : Instr} {e : Fin 40} {a : ActSt} {f : FormA} {n : BitVec 11}
    {g : Word → Word → Word → Option Word} {w : Option Word} (hruns : Runs s.b e a) (hfn : f.fn = n)
    (hexec : exec i s = .next { s with b := s.b.issue e (atomic n.toNat f g) })
    (hw : g (atomicWord s.b e ((s.b.eng e).ctx.get f.a).toNat) ((s.b.eng e).ctx.get f.d) ((s.b.eng e).ctx.get f.b) = w) :
    Atomics s e a f i w := ⟨atomic_retires hruns hfn hexec rfl hw, atomic_traps hruns hfn hexec rfl⟩

/-! ### The fence (R207) -/

theorem Retires.of_frame {s : State} {i : Instr} {e : Nat} {b b' : Block} {c : EngCtx} {a : ActSt} (hframe : EngFrame e b b')
    (h : Retires s i e b' c a) : Retires s i e b c a := by
  obtain ⟨t, hexec, hctx, hact, hrest⟩ := h
  exact ⟨t, hexec, hctx, hact, hframe.trans hrest⟩

/-- The block in which the stores of engine `e` have become visible, in order. -/
def fenced (b : Block) (e : Nat) (l : List (Nat × List Byte)) : Block :=
  ({ b with sram := l.foldl (fun (m : Mem) (x : Nat × List Byte) => mwrite m x.1 x.2) b.sram } : Block).putEng e
    { b.eng e with stores := [] }

theorem fenced_cons (b : Block) (e : Nat) (x : Nat × List Byte) (rest : List (Nat × List Byte)) :
    fenced ((b.putEng e { b.eng e with stores := rest }).sramPut x.1 x.2) e rest = fenced b e (x :: rest) := by
  have heng : ((b.putEng e { b.eng e with stores := rest }).sramPut x.1 x.2).eng e = { b.eng e with stores := rest } :=
    eng_putEng_same _ _ _
  rw [fenced, heng]
  simp only [fenced, Block.sramPut, Block.putEng, tput_tput, List.foldl_cons]

theorem drain_frame (b : Block) (e : Nat) (l : List (Nat × List Byte)) (h : (b.eng e).stores = l) :
    EngFrame e (fenced b e l) (b.drain e l.length) := by
  induction l generalizing b with
  | nil =>
    have hempty : { b.eng e with stores := [] } = b.eng e := by rw [← h]
    refine ⟨b.out, b.regs, b.free, b.engs, rfl, fun k hk => (eng_putEng_ne _ _ hk).symm, ?_, fun _ _ _ => rfl⟩
    rw [fenced, hempty, eng_putEng_same]
    rfl
  | cons x rest ih =>
    have hstep : b.drain e (rest.length + 1) =
        ((b.putEng e { b.eng e with stores := rest }).sramPut x.1 x.2).drain e rest.length := by rw [Block.drain, h]
    have hrest := ih ((b.putEng e { b.eng e with stores := rest }).sramPut x.1 x.2) (congrArg EngSt.stores (eng_putEng_same _ _ _))
    rwa [fenced_cons, ← hstep] at hrest

/-- FENCE draws its cycles, and the frame leaves the draw free. -/
theorem insFence_retires {s : State} {e : Fin 40} {a : ActSt} {f : FormA} (hruns : Runs s.b e a) (hfn : f.fn = 0) (hd : f.d = 0)
    (ha : f.a = 0) (hb : f.b = 0) :
    Retires s (.insFence e f) e (fenced s.b e (s.b.eng e).stores) (stepPc (s.b.eng e).ctx) (spend a s.b.drawCycles.1) := by
  refine Retires.of_frame ?_ (retires_plain (b' := s.b.drawCycles.2.drainAll e) rfl hruns rfl (legal_true ?_))
  · exact drain_frame s.b.drawCycles.2 e _ rfl
  · rw [hfn, hd, ha, hb]
    rfl

/-- Settles O7: an atomic by where its word lies, and the fence by what it drains. -/
theorem atomicsAndFenceRetire : Obligations.AtomicsAndFenceRetire := by
  unfold Obligations.AtomicsAndFenceRetire
  intro s e a f hruns c ad b1 t amo
  have shape (i : Instr) (n : BitVec 11) (w : Option Word) (h : f.fn = n → Atomics s e a f i w) : amo i n w := h
  clear_value amo
  exact ⟨shape _ _ _ fun hfn => atomics_act hruns hfn rfl rfl, shape _ _ _ fun hfn => atomics_act hruns hfn rfl rfl,
    shape _ _ _ fun hfn => atomics_act hruns hfn rfl rfl, fun hfn hd ha hb => ⟨_, insFence_retires hruns hfn hd ha hb⟩⟩

end Sys2Proof
end

section
/-! Engines (08): the instructions that read signals, objects and curves, and those that stage (R198–R203). -/

namespace Sys2Proof

open Sys2Proof.Machine

/-! ### What the operands say -/

/-- PAIR wants an even register. -/
theorem pair_legal {f : FormI} (h : f.imm.toNat.testBit 4 = false ∨ f.d.val % 2 = 0) :
    ¬(f.imm.toNat.testBit 4 && f.d.val % 2 == 1) = true := by
  rw [Bool.and_eq_true, beq_iff_eq]
  rintro ⟨hpair, hodd⟩
  obtain hone | heven := h
  · rw [hpair] at hone
    cases hone
  · omega

/-- The value that SIG.ST stages: two registers with PAIR, else one, sign-extended for the signed types (log 40). -/
def sigStValue (b : Block) (c : EngCtx) (f : FormI) (sid : Nat) : DWord :=
  if f.imm.toNat.testBit 4 then BitVec.ofNat 64 ((c.get f.d).toNat + 2 ^ 32 * (c.get (f.d.val + 1)).toNat)
  else if b.sigType sid = 1 ∨ b.sigType sid = 2 ∨ b.sigType sid = 3 ∨ b.sigType sid = 6 then (c.get f.d).signExtend 64
  else BitVec.ofNat 64 (c.get f.d).toNat

/-- The SIDs of output stages (R200). -/
theorem stage_legal {sid : Nat} (hlow : 0x500000 ≤ sid) (hhigh : sid < 0x500400) : ¬(!isStageSid sid) = true := by
  rw [isStageSid, decide_eq_true hlow, decide_eq_true hhigh]
  decide

/-- The SIDs of receive objects (R199). -/
theorem object_legal {sid : Nat} (hlow : 0x820000 ≤ sid) (hhigh : sid < 0x821000) :
    ¬(!(decide (0x820000 ≤ sid) && decide (sid < 0x821000))) = true := by
  rw [decide_eq_true hlow, decide_eq_true hhigh]
  decide

/-- Nothing is misaligned in a plan at 0: there is none. -/
theorem copyPlan_zero (b : Block) (e : Nat) (c : EngCtx) : b.copyPlan e c 0 = some ([], b, false) := if_pos rfl

theorem copyPlan_misaligned {b : Block} {e p : Nat} {c : EngCtx} (h : p % 8 ≠ 0) : b.copyPlan e c p = none := by
  have hp : p ≠ 0 := by rintro rfl; exact h rfl
  have hcopy : b.copyFrom e c p 8 = none := if_pos h
  rw [Block.copyPlan, if_neg hp, hcopy]

/-- May a post of this kind name this SID (R202)? -/
def PostTarget (kind sid : Nat) : Prop :=
  (kind = 0 ∧ sid / 0x10000 = 0x92) ∨ (kind = 1 ∧ sid / 0x10000 = 0x90) ∨ (kind = 3 ∧ sid / 0x10000 = 0x83) ∨
    (kind = 4 ∧ 0xB00000 ≤ sid ∧ sid < 0xB01000)

/-- Kinds 0 and 1 carry a code; the b field of the others is reserved. -/
theorem post_legal {f : FormI} (hd : f.d = 0) (h : f.imm.toNat % 2048 < 2 ∨ f.imm.toNat % 2048 ≤ 4 ∧ f.imm.toNat / 2048 = 0) :
    ¬(f.d.val ≠ 0 ∨ 4 < f.imm.toNat % 2048 ∨ (2 ≤ f.imm.toNat % 2048 ∧ f.imm.toNat / 2048 ≠ 0)) := by
  have hdz : f.d.val = 0 := congrArg Fin.val hd
  omega

section
variable {s : State} {e : Fin 40} {a : ActSt} (hruns : Runs s.b e a)
include hruns

/-! ### SIG.LD (R198) -/

section
variable {f : FormI}

section
variable {sid : Nat} (hsid : regSid ((s.b.eng e).ctx.get f.a) = sid)
include hsid

theorem insSigLd_one (hone : f.imm.toNat.testBit 4 = false) (hsignal : s.b.isSignal sid = true) (htype : s.b.ldType sid ≠ 6) :
    let v := s.b.ldVal sid
    Retires s (.insSigLd e f) e s.b (stepPc { (s.b.eng e).ctx.set f.d (s.b.ldWords sid (f.imm.toNat % 16) v.1).1 with
      sflags := v.2.2, stime := v.2.1 }) (spend a 12) := by
  subst hsid
  intro v
  have hfits : ¬(!s.b.isSignal (regSid ((s.b.eng e).ctx.get f.a)) ||
      (s.b.ldType (regSid ((s.b.eng e).ctx.get f.a)) == 6 && !f.imm.toNat.testBit 4)) = true := by
    rw [hsignal, beq_eq_false_iff_ne.2 htype]
    exact Bool.false_ne_true
  refine retires_next (evs := [0x08]) (addr := 0) rfl hruns (engCtx_set_pc _ _ _)
    ((if_neg (pair_legal (.inl hone))).trans ((if_neg hfits).trans ?_))
  rw [hone]
  rfl

theorem insSigLd_pair (hpair : f.imm.toNat.testBit 4 = true) (heven : f.d.val % 2 = 0) (hsignal : s.b.isSignal sid = true) :
    let v := s.b.ldVal sid
    let w := s.b.ldWords sid (f.imm.toNat % 16) v.1
    Retires s (.insSigLd e f) e s.b (stepPc (({ (s.b.eng e).ctx.set f.d w.1 with sflags := v.2.2, stime := v.2.1 } : EngCtx).set
      (f.d.val + 1) w.2)) (spend a 12) := by
  subst hsid
  intro v w
  have hfits : ¬(!s.b.isSignal (regSid ((s.b.eng e).ctx.get f.a)) ||
      (s.b.ldType (regSid ((s.b.eng e).ctx.get f.a)) == 6 && !f.imm.toNat.testBit 4)) = true := by
    rw [hsignal, hpair, Bool.not_true, Bool.and_false]
    decide
  refine retires_next (evs := [0x08]) (addr := 0) rfl hruns ((engCtx_set_pc _ _ _).trans (engCtx_set_pc _ _ _))
    ((if_neg (pair_legal (.inr heven))).trans ((if_neg hfits).trans ?_))
  rw [hpair]
  rfl

theorem insSigLd_traps (hshape : f.imm.toNat.testBit 4 = false ∨ f.d.val % 2 = 0)
    (h : s.b.isSignal sid = false ∨ (s.b.ldType sid = 6 ∧ f.imm.toNat.testBit 4 = false)) :
    exec (.insSigLd e f) s = .next { s with b := s.b.trapOn e 5 sid } := by
  subst hsid
  refine traps_of rfl hruns ((if_neg (pair_legal hshape)).trans (if_pos ?_))
  obtain hnone | ⟨htype, hone⟩ := h
  · rw [hnone]
    rfl
  · rw [htype, hone]
    exact Bool.or_true _

end

end

/-! ### OBJ.LD and CURVE (R199, R201) -/

section
variable {f : FormI}

theorem insObjLd_traps {sid : Nat} (hsid : regSid ((s.b.eng e).ctx.get f.a) = sid) (h : sid < 0x820000 ∨ 0x821000 ≤ sid) :
    exec (.insObjLd e f) s = .next { s with b := s.b.trapOn e 7 sid } := by
  subst hsid
  refine traps_of rfl hruns (if_pos ?_)
  simp only [Bool.not_eq_true', Bool.and_eq_false_iff, decide_eq_false_iff_not]
  omega

section
variable {sid : Nat} (hsid : regSid ((s.b.eng e).ctx.get f.a) = sid) (hlow : 0x820000 ≤ sid) (hhigh : sid < 0x821000)
include hsid hlow hhigh

theorem insObjLd_consumes (hsnap : f.imm.toNat.testBit 15 = true) :
    let c := (s.b.eng e).ctx
    let snap := padTo 64 (s.b.rxo (sid - 0x820000)).data
    Retires s (.insObjLd e f) e (s.b.consumeRxo (sid - 0x820000))
      (stepPc { c.set f.d (w32 snap (4 * (f.imm.toNat % 16))) with snap := snap, oflags := s.b.objFlags (sid - 0x820000) })
      (spend a 16) := by
  subst hsid
  exact retires_plain rfl hruns (engCtx_set_pc _ _ _) ((if_neg (object_legal hlow hhigh)).trans (if_pos hsnap))

/-- Without SNAP the last snapshot is read. -/
theorem insObjLd_reads (hkept : f.imm.toNat.testBit 15 = false) :
    let c := (s.b.eng e).ctx
    Retires s (.insObjLd e f) e s.b (stepPc (c.set f.d (w32 (padTo 64 c.snap) (4 * (f.imm.toNat % 16))))) (spend a 2) := by
  subst hsid
  exact retires_plain rfl hruns (engCtx_set_pc _ _ _)
    ((if_neg (object_legal hlow hhigh)).trans (if_neg (Bool.eq_false_iff.1 hkept)))

end

end

section
variable {f : FormA}

theorem insCurve_evaluates (hfn : f.fn = 0) (hk : ((s.b.eng e).ctx.get f.b).toNat ≤ 1023)
    (hdefined : u16 (ent s.b.bank tCurve ((s.b.eng e).ctx.get f.b).toNat) 0 ≠ 0) :
    let c := (s.b.eng e).ctx
    let r := (curveOf s.b.bank (c.get f.b).toNat).eval (c.get f.a)
    Retires s (.insCurve e f) e s.b (stepPc { c.set f.d r.1 with cflags := r.2 }) (spend a 40) := by
  intro c r
  exact retires_plain rfl hruns (engCtx_set_pc _ _ _)
    ((if_neg (not_not.2 hfn)).trans (if_neg (not_or.2 ⟨Nat.not_lt.2 hk, hdefined⟩)))

theorem insCurve_traps (hfn : f.fn = 0)
    (h : 1023 < ((s.b.eng e).ctx.get f.b).toNat ∨ u16 (ent s.b.bank tCurve ((s.b.eng e).ctx.get f.b).toNat) 0 = 0) :
    exec (.insCurve e f) s = .next { s with b := s.b.trapOn e 11 ((s.b.eng e).ctx.get f.b).toNat } :=
  traps_of rfl hruns ((if_neg (not_not.2 hfn)).trans (if_pos h))

end

/-! ### SIG.ST (R201, R203) -/

section
variable {f : FormI}

section
variable {sid : Nat} {x : List Byte} (hsid : regSid ((s.b.eng e).ctx.get f.a) = sid)
include hsid

theorem insSigSt_unknown (hone : f.imm.toNat.testBit 4 = false) (hentry : s.b.sigEntry sid = none) :
    exec (.insSigSt e f) s = .next { s with b := s.b.trapOn e 6 sid } := by
  subst hsid
  refine traps_of rfl hruns ((if_neg (pair_legal (.inl hone))).trans (if_pos ?_))
  rw [hentry]
  rfl

section
variable (hentry : s.b.sigEntry sid = some x) (hwritable : (u8 x 7).testBit 2 = true)
include hentry hwritable

theorem insSigSt_stages {v : DWord} (hshape : f.imm.toNat.testBit 4 = false ∨ f.d.val % 2 = 0) (hroom : a.sigs.length < 64)
    (hv : sigStValue s.b (s.b.eng e).ctx f sid = v) :
    Retires s (.insSigSt e f) e s.b (stepPc (s.b.eng e).ctx) (spend { a with sigs := a.sigs ++ [(sid, v)] } 2) := by
  subst hsid hv
  refine retires_plain rfl hruns rfl ((if_neg (pair_legal hshape)).trans ((if_neg ?_).trans (if_neg (Nat.not_le.2 hroom))))
  rw [hentry]
  simp only [hwritable, Bool.not_true, Bool.false_eq_true, not_false_eq_true]

theorem insSigSt_full (hone : f.imm.toNat.testBit 4 = false) (hfull : 64 ≤ a.sigs.length) :
    exec (.insSigSt e f) s = .next { s with b := s.b.trapOn e 8 (wordI 0x31 f) } := by
  subst hsid
  refine traps_of rfl hruns ((if_neg (pair_legal (.inl hone))).trans ((if_neg ?_).trans (if_pos hfull)))
  rw [hentry]
  simp only [hwritable, Bool.not_true, Bool.false_eq_true, not_false_eq_true]

theorem insSigSt_rows :
    let c := (s.b.eng e).ctx
    (f.imm.toNat.testBit 4 = true → f.d.val % 2 = 0 → a.sigs.length < 64 →
      Retires s (.insSigSt e f) e s.b (stepPc c)
        (spend { a with sigs := a.sigs ++ [(sid, BitVec.ofNat 64 ((c.get f.d).toNat + 2 ^ 32 * (c.get (f.d.val + 1)).toNat))] } 2)) ∧
    (f.imm.toNat.testBit 4 = false → a.sigs.length < 64 → s.b.sigType sid ∉ [1, 2, 3, 6] →
      Retires s (.insSigSt e f) e s.b (stepPc c) (spend { a with sigs := a.sigs ++ [(sid, BitVec.ofNat 64 (c.get f.d).toNat)] } 2)) ∧
    (f.imm.toNat.testBit 4 = false → a.sigs.length < 64 → s.b.sigType sid ∈ [1, 2, 3, 6] →
      Retires s (.insSigSt e f) e s.b (stepPc c) (spend { a with sigs := a.sigs ++ [(sid, (c.get f.d).signExtend 64)] } 2)) := by
  intro c
  have hsigned : s.b.sigType sid ∈ [1, 2, 3, 6] ↔
      (s.b.sigType sid = 1 ∨ s.b.sigType sid = 2 ∨ s.b.sigType sid = 3 ∨ s.b.sigType sid = 6) := by
    simp only [List.mem_cons, List.not_mem_nil, or_false]
  refine ⟨fun hpair heven hroom => insSigSt_stages hruns hsid hentry hwritable (.inr heven) hroom (if_pos hpair),
    fun hone hroom hplain => insSigSt_stages hruns hsid hentry hwritable (.inl hone) hroom ?_,
    fun hone hroom hsign => insSigSt_stages hruns hsid hentry hwritable (.inl hone) hroom ?_⟩
  · exact (if_neg (Bool.eq_false_iff.1 hone)).trans (if_neg (mt hsigned.2 hplain))
  · exact (if_neg (Bool.eq_false_iff.1 hone)).trans (if_pos (hsigned.1 hsign))

end

end

end

/-! ### OUT.SET (R200) -/

section
variable {f : FormA} {sid : Nat} (hfn : f.fn = 0) (hsid : regSid ((s.b.eng e).ctx.get f.a) = sid)
include hfn hsid

theorem insOutSet_noStage (h : sid < 0x500000 ∨ 0x500400 ≤ sid) :
    exec (.insOutSet e f) s = .next { s with b := s.b.trapOn e 5 sid } := by
  subst hsid
  refine traps_of rfl hruns ((if_neg (not_not.2 hfn)).trans (if_pos ?_))
  simp only [isStageSid, Bool.not_eq_true', Bool.and_eq_false_iff, decide_eq_false_iff_not]
  omega

section
variable (hlow : 0x500000 ≤ sid) (hhigh : sid < 0x500400)
include hlow hhigh

theorem insOutSet_stages {bs : List Byte} {b' : Block} {sram : Bool} {n : Nat}
    (hplan : s.b.copyPlan e (s.b.eng e).ctx ((s.b.eng e).ctx.get f.b).toNat = some (bs, b', sram)) (hroom : a.outs.length < 64)
    (hcycles : (4 + (if ((s.b.eng e).ctx.get f.b).toNat = 0 then 0 else u8 bs 0) + if sram then 20 else 0) = n) :
    Retires s (.insOutSet e f) e b' (stepPc (s.b.eng e).ctx)
      (spend { a with outs := a.outs ++ [(sid - 0x500000, (s.b.eng e).ctx.get f.d, bs)] } n) := by
  subst hsid hcycles
  refine retires_next (evs := [0x09]) (addr := 0) rfl hruns rfl
    ((if_neg (not_not.2 hfn)).trans ((if_neg (stage_legal hlow hhigh)).trans ?_))
  rw [hplan]
  exact if_neg (Nat.not_le.2 hroom)

theorem insOutSet_full (hnone : (s.b.eng e).ctx.get f.b = 0) (hfull : 64 ≤ a.outs.length) :
    exec (.insOutSet e f) s = .next { s with b := s.b.trapOn e 8 (wordA 0x33 f) } := by
  subst hsid
  refine traps_of rfl hruns ((if_neg (not_not.2 hfn)).trans ((if_neg (stage_legal hlow hhigh)).trans ?_))
  rw [hnone]
  exact if_pos hfull

theorem insOutSet_badPlan (hplan : s.b.copyPlan e (s.b.eng e).ctx ((s.b.eng e).ctx.get f.b).toNat = none) :
    exec (.insOutSet e f) s = .next { s with b := s.b.trapOn e 10 ((s.b.eng e).ctx.get f.b).toNat } := by
  subst hsid
  refine traps_of rfl hruns ((if_neg (not_not.2 hfn)).trans ((if_neg (stage_legal hlow hhigh)).trans ?_))
  rw [hplan]
  rfl

end

end

/-! ### CAIRN.W (R201, R203) -/

theorem insCairnW_stages {f : FormI} {o : Nat} (ho : effAddr (s.b.eng e).ctx f = o) (haligned : o % 4 = 0)
    (hfits : o < s.b.cairnSize a.thread) :
    Retires s (.insCairnW e f) e s.b (stepPc (s.b.eng e).ctx)
      (spend { a with cairn := tput a.cairn o ((s.b.eng e).ctx.get f.d) } 2) := by
  subst ho
  exact retires_plain rfl hruns rfl (if_neg (not_or.2 ⟨not_not.2 haligned, Nat.not_le.2 hfits⟩))

theorem insCairnW_traps {f : FormI} {o : Nat} (ho : effAddr (s.b.eng e).ctx f = o) (h : o % 4 ≠ 0 ∨ s.b.cairnSize a.thread ≤ o) :
    exec (.insCairnW e f) s = .next { s with b := s.b.trapOn e 9 o } := by
  subst ho
  exact traps_of rfl hruns (if_pos h)

/-! ### POST (R202, R203) -/

section
variable {f : FormI}

theorem insPost_illegal (hkind : 4 < f.imm.toNat % 2048) :
    exec (.insPost e f) s = .next { s with b := s.b.trapOn e 1 (wordI 0x35 f) } := traps_of rfl hruns (if_pos (.inr (.inl hkind)))

variable (hd : f.d = 0)
include hd

section
variable {kind sid : Nat} (hkind : f.imm.toNat % 2048 = kind) (hcode : kind < 2 ∨ kind ≤ 4 ∧ f.imm.toNat / 2048 = 0)
  (hsid : regSid ((s.b.eng e).ctx.get f.a) = sid)
include hkind hcode hsid

theorem insPost_stages {code : Nat} (htarget : PostTarget kind sid)
    (hvalue : ((s.b.eng e).ctx.get (f.imm.toNat / 2048)).toNat = code) (hroom : a.posts.length < 32) :
    Retires s (.insPost e f) e s.b (stepPc (s.b.eng e).ctx)
      (spend { a with posts := a.posts ++ [{ kind := kind, sid := sid, code := code, entry := [] }] } 2) := by
  have hother : ¬kind = 2 := by
    unfold PostTarget at htarget
    omega
  subst hkind hsid hvalue
  exact retires_next (evs := [0x0A]) (addr := 0) rfl hruns rfl ((if_neg (post_legal hd hcode)).trans ((if_neg hother).trans
    ((if_pos htarget).trans (if_neg (Nat.not_le.2 hroom)))))

theorem insPost_full (htarget : PostTarget kind sid) (hfull : 32 ≤ a.posts.length) :
    exec (.insPost e f) s = .next { s with b := s.b.trapOn e 8 (wordI 0x35 f) } := by
  have hother : ¬kind = 2 := by
    unfold PostTarget at htarget
    omega
  subst hkind hsid
  exact traps_of rfl hruns ((if_neg (post_legal hd hcode)).trans ((if_neg hother).trans ((if_pos htarget).trans (if_pos hfull))))

theorem insPost_noTarget (hother : ¬kind = 2) (htarget : ¬PostTarget kind sid) :
    exec (.insPost e f) s = .next { s with b := s.b.trapOn e 5 sid } := by
  subst hkind hsid
  exact traps_of rfl hruns ((if_neg (post_legal hd hcode)).trans ((if_neg hother).trans (if_neg htarget)))

end

/-- A posted action entry is copied from where the pointer says. -/
theorem insPost_entry {bs : List Byte} {b' : Block} {sram : Bool} (hkind : f.imm.toNat % 2048 = 2) (hcode : f.imm.toNat / 2048 = 0)
    (hcopy : s.b.copyFrom e (s.b.eng e).ctx ((s.b.eng e).ctx.get f.a).toNat 32 = some (bs, b', sram)) (hroom : a.posts.length < 32) :
    Retires s (.insPost e f) e b' (stepPc (s.b.eng e).ctx)
      (spend { a with posts := a.posts ++ [{ kind := 2, sid := 0, code := 0, entry := bs }] } 2) := by
  refine retires_next (evs := [0x0A]) (addr := 0) rfl hruns rfl
    ((if_neg (post_legal hd (.inr ⟨by omega, hcode⟩))).trans ((if_pos hkind).trans ?_))
  rw [hcopy]
  exact if_neg (Nat.not_le.2 hroom)

end

end

/-- Settles O11: what reads, and what stages, each instruction by its own lemmas. -/
theorem signalObjectCurveAndStagingInstructionsRetire : Obligations.SignalObjectCurveAndStagingInstructionsRetire := by
  unfold Obligations.SignalObjectCurveAndStagingInstructionsRetire
  constructor
  · intro s e a hruns c
    refine ⟨fun f => ?_, fun f => ?_, fun f hfn => ?_⟩
    · exact ⟨insSigLd_one hruns rfl, insSigLd_pair hruns rfl, insSigLd_traps hruns rfl⟩
    · exact ⟨insObjLd_consumes hruns rfl, insObjLd_reads hruns rfl, insObjLd_traps hruns rfl⟩
    · exact ⟨insCurve_evaluates hruns hfn, insCurve_traps hruns hfn⟩
  · intro s e a hruns c
    refine ⟨fun f x => ?_, fun f hone hentry => insSigSt_unknown hruns rfl hone hentry, fun f hfn => ?_, fun f => ?_, fun f hd => ?_⟩
    · intro sid hentry hwritable
      obtain ⟨hpair, hplain, hsigned⟩ := insSigSt_rows hruns rfl hentry hwritable
      exact ⟨hpair, hplain, hsigned, insSigSt_full hruns rfl hentry hwritable⟩
    · refine ⟨fun hlow hhigh hnone hroom => ?_, insOutSet_full hruns hfn rfl, fun bs b' sram hlow hhigh hsome hplan hroom => ?_,
        fun hlow hhigh h => insOutSet_badPlan hruns hfn rfl hlow hhigh (copyPlan_misaligned h), insOutSet_noStage hruns hfn rfl⟩
      · exact insOutSet_stages hruns hfn rfl hlow hhigh (sram := false) (by rw [hnone]; exact copyPlan_zero _ _ _) hroom
          (by rw [hnone]; rfl)
      · have hset : ¬((s.b.eng e).ctx.get f.b).toNat = 0 := fun h => hsome (BitVec.eq_of_toNat_eq h)
        exact insOutSet_stages hruns hfn rfl hlow hhigh hplan hroom (by rw [if_neg hset])
    · exact ⟨insCairnW_stages hruns rfl, insCairnW_traps hruns rfl⟩
    · intro kind bf sid posts
      refine ⟨fun hroom => ⟨?_, ?_, ?_, ?_, ?_⟩, insPost_illegal hruns, fun hkind hother => ?_, fun hkind htarget hfull => ?_⟩
      · exact fun hkind htarget => insPost_stages hruns hd hkind (.inl (by decide)) rfl (.inl ⟨rfl, htarget⟩) rfl hroom
      · exact fun hkind htarget => insPost_stages hruns hd hkind (.inl (by decide)) rfl (.inr (.inl ⟨rfl, htarget⟩)) rfl hroom
      · exact fun hkind hbf htarget => insPost_stages hruns hd hkind (.inr ⟨by decide, hbf⟩) rfl
          (.inr (.inr (.inl ⟨rfl, htarget⟩)))
          (congrArg (fun k => (c.get k).toNat) hbf) hroom
      · exact fun hkind hbf hlow hhigh => insPost_stages hruns hd hkind (.inr ⟨by decide, hbf⟩) rfl
          (.inr (.inr (.inr ⟨rfl, hlow, hhigh⟩))) (congrArg (fun k => (c.get k).toNat) hbf) hroom
      · exact fun bs b' sram hkind hbf hcopy => insPost_entry hruns hd hkind hbf hcopy hroom
      · refine insPost_noTarget hruns hd hkind (.inl (by decide)) rfl (by decide) ?_
        unfold PostTarget
        omega
      · exact insPost_full hruns hd hkind (.inl (by decide)) rfl (.inl ⟨rfl, htarget⟩) hfull

end Sys2Proof
end

section
/-! Engines (08): a trap enters its handler (R210). -/

namespace Sys2Proof

open Sys2Proof.Machine

/-! ### Registers of an engine (R221) -/

/-- The order of the registers that show a trap. -/
theorem engReg_order (e : Nat) : Reg.engFlags e + 4 < Reg.engTraps e ∧ Reg.engTraps e < Reg.engLastTrap e ∧
    Reg.engLastTrap e < Reg.engLastTrapPc e ∧ Reg.engLastTrapPc e < Reg.engLastTrapArg e := by
  unfold Reg.engFlags Reg.engTraps Reg.engLastTrap Reg.engLastTrapPc Reg.engLastTrapArg
  omega

/-- The registers of an engine from FLAGS up to what shows its last trap show no retirement, and count nothing. -/
theorem engReg_plain {e off : Nat} (he : e < 40) (hlow : Reg.engFlags e ≤ off) (hhigh : off ≤ Reg.engLastTrapArg e) :
    isOut off = false ∧ off / 0x100000 ≠ 0x15 ∧ off ∉ engShown e ∧ off ≠ Reg.sysStateConflicts := by
  unfold Reg.engFlags at hlow
  unfold Reg.engLastTrapArg at hhigh
  have hblock : off / 0x100000 = 8 := by omega
  refine ⟨by rw [isOut, hblock]; rfl, by omega, ?_, ?_⟩
  · simp only [engShown, Reg.engBusyCycles, Reg.engState, Reg.cntState, List.mem_cons, List.not_mem_nil, or_false]
    omega
  · unfold Reg.sysStateConflicts
    omega

theorem EngFrame.rd {e off : Nat} {b t : Block} (h : EngFrame e b t) (hin : isOut off = false) (hprf : off / 0x100000 ≠ 0x15)
    (hshown : off ∉ engShown e) : t.rd off = b.rd off := by
  obtain ⟨o, rs, fr, es, hb, -, -, hkeep⟩ := h
  rw [hb]
  simpa only [Block.rd, hin, Bool.false_eq_true, if_false] using hkeep off hprf hshown

theorem EngFrame.memories {e : Nat} {b t : Block} (h : EngFrame e b t) : t.sram = b.sram ∧ t.cairn = b.cairn := by
  obtain ⟨o, rs, fr, es, hb, -⟩ := h
  rw [hb]
  exact ⟨rfl, rfl⟩

theorem EngFrame.dram {e : Nat} {b t : Block} (h : EngFrame e b t) : (t.eng e).dram = (b.eng e).dram := by
  obtain ⟨o, rs, fr, es, -, -, heng, -⟩ := h
  rw [← heng]

theorem EngFrame.others {e : Nat} {b t : Block} (h : EngFrame e b t) : ∀ k, k ≠ e → t.eng k = b.eng k := by
  obtain ⟨o, rs, fr, es, -, hothers, -⟩ := h
  exact hothers

/-! ### What a trap shows -/

/-- The registers of engine `e` show a trap of the activation `a`. -/
def trapShown (b : Block) (e cause arg : Nat) (a : ActSt) : Block :=
  ((((b.count (Reg.engTraps e)).wrN (Reg.engLastTrap e) (cause + 256 * a.thread)).wrN (Reg.engLastTrapPc e) (b.eng e).ctx.pc).wrN
    (Reg.engLastTrapArg e) arg).raise (Reg.engFlags e) 0 (sidEngine e)

theorem raise_keeps (b : Block) (off bit sid : Nat) :
    (b.raise off bit sid).engs = b.engs ∧ (b.raise off bit sid).sram = b.sram ∧ (b.raise off bit sid).cairn = b.cairn := by
  have hreports := raise_reports b off bit sid []
  obtain ⟨o, rs, fr, al, lg, ev, ns, hraise, -⟩ := hreports
  rw [hraise]
  exact ⟨(wr_engs _ _ _).trans (wr_engs _ _ _), (wr_sram _ _ _).trans (wr_sram _ _ _), (wr_cairn _ _ _).trans (wr_cairn _ _ _)⟩

section
variable {b : Block} {e cause arg : Nat} {a : ActSt}

theorem trapShown_keeps : (trapShown b e cause arg a).engs = b.engs ∧ (trapShown b e cause arg a).sram = b.sram ∧
    (trapShown b e cause arg a).cairn = b.cairn := by
  obtain ⟨hengs, hsram, hcairn⟩ := raise_keeps ((((b.count (Reg.engTraps e)).wrN (Reg.engLastTrap e) (cause + 256 * a.thread)).wrN
    (Reg.engLastTrapPc e) (b.eng e).ctx.pc).wrN (Reg.engLastTrapArg e) arg) (Reg.engFlags e) 0 (sidEngine e)
  simp only [Block.wrN, Block.count, wr_engs, wr_sram, wr_cairn] at hengs hsram hcairn
  exact ⟨hengs, hsram, hcairn⟩

theorem trapShown_eng (k : Nat) : (trapShown b e cause arg a).eng k = b.eng k := by
  obtain ⟨hengs, -⟩ := trapShown_keeps (b := b) (e := e) (cause := cause) (arg := arg) (a := a)
  rw [Block.eng, hengs]
  rfl

/-- Raising the flag leaves what the other registers show of the trap. -/
theorem trapShown_rd {off : Nat} (he : e < 40) (hlow : Reg.engTraps e ≤ off) (hhigh : off ≤ Reg.engLastTrapArg e) :
    (trapShown b e cause arg a).rd off = if off = Reg.engLastTrapArg e then BitVec.ofNat 32 arg
      else if off = Reg.engLastTrapPc e then BitVec.ofNat 32 (b.eng e).ctx.pc
      else if off = Reg.engLastTrap e then BitVec.ofNat 32 (cause + 256 * a.thread)
      else if off = Reg.engTraps e then BitVec.ofNat 32 (b.rdN (Reg.engTraps e) + 1) else b.rd off := by
  obtain ⟨hflags, -⟩ := engReg_order e
  obtain ⟨hin, hprf, -, hconf⟩ := engReg_plain he (by omega) hhigh
  rw [trapShown, rd_raise_ne _ _ _ _ (by omega) (by omega) hin hprf hconf]
  simp only [Block.wrN, Block.count, rd_wr]

theorem trapShown_words (he : e < 40) :
    (trapShown b e cause arg a).rd (Reg.engTraps e) = BitVec.ofNat 32 (b.rdN (Reg.engTraps e) + 1) ∧
    (trapShown b e cause arg a).rd (Reg.engLastTrap e) = BitVec.ofNat 32 (cause + 256 * a.thread) ∧
    (trapShown b e cause arg a).rd (Reg.engLastTrapPc e) = BitVec.ofNat 32 (b.eng e).ctx.pc ∧
    (trapShown b e cause arg a).rd (Reg.engLastTrapArg e) = BitVec.ofNat 32 arg := by
  obtain ⟨-, htraps, hlast, hpc⟩ := engReg_order e
  refine ⟨?_, ?_, ?_, ?_⟩
  · rw [trapShown_rd he (by omega) (by omega), if_neg (by omega), if_neg (by omega), if_neg (by omega), if_pos rfl]
  · rw [trapShown_rd he (by omega) (by omega), if_neg (by omega), if_neg (by omega), if_pos rfl]
  · rw [trapShown_rd he (by omega) (by omega), if_neg (by omega), if_pos rfl]
  · rw [trapShown_rd he (by omega) (by omega), if_pos rfl]

theorem trapShown_flag (he : e < 40) : (trapShown b e cause arg a).bit (Reg.engFlags e) 0 = true := by
  obtain ⟨hflags, htraps, hlast, hpc⟩ := engReg_order e
  obtain ⟨hin, hprf, -, hconf⟩ := engReg_plain he (Nat.le_refl _) (by omega)
  rw [trapShown, bit_congr 0 ((raise_reports _ _ _ _ _).rd hin hprf hconf)]
  exact bit_setFlag_same _ _ (by decide)

end

/-! ### Entering the handler -/

/-- The trap record is in D-RAM. -/
def trapStored (b : Block) (e cause arg : Nat) (a : ActSt) : Block :=
  (trapShown b e cause arg a).putEng e
    { (trapShown b e cause arg a).eng e with dram := mwrite (b.eng e).dram 0xDFE0 (trapRecord (b.eng e).ctx cause arg) }

/-- The trap's 8 cycles are counted and charged. -/
def trapCharged (b : Block) (e cause arg : Nat) (a : ActSt) : Block :=
  (if (trapStored b e cause arg a).egState e = egRunning then
    (trapStored b e cause arg a).prfRetire e 8 [0x0C] (prfOf (b.eng e).ctx a 8 0)
  else trapStored b e cause arg a).charge e 8

/-- The registers with which a handler begins. -/
def handlerCtx (x : EngSt) (cause : Nat) : EngCtx := { x.ctx with kernel := true, handler := true, pc := x.handlerFor cause }

section
variable {b : Block} {e cause arg : Nat} {a : ActSt}

theorem trapOn_enters (hact : (b.eng e).act = some a) (houtside : (b.eng e).ctx.handler = false)
    (hentry : (b.eng e).handlerFor cause ≠ 0) :
    b.trapOn e cause arg = ((trapCharged b e cause arg a).putEng e
      { (trapCharged b e cause arg a).eng e with ctx := handlerCtx (b.eng e) cause }).setEg e
        ((trapCharged b e cause arg a).egState e) := by
  have htake : b.takeTrap e cause arg = (((trapCharged b e cause arg a).putEng e
      { (trapCharged b e cause arg a).eng e with ctx := handlerCtx (b.eng e) cause }).setEg e
        ((trapCharged b e cause arg a).egState e), 0) := by
    simp only [Block.takeTrap, hact, houtside, hentry, Bool.false_eq_true, if_false]
    rfl
  rw [Block.trapOn, htake]
  rfl

/-- From the stored record on, a trap changes what a retirement changes. -/
theorem trapOn_frame (he : e < 40) (hact : (b.eng e).act = some a) (houtside : (b.eng e).ctx.handler = false)
    (hentry : (b.eng e).handlerFor cause ≠ 0) :
    EngFrame e (trapStored b e cause arg a) (b.trapOn e cause arg) ∧
      ((b.trapOn e cause arg).eng e).ctx = handlerCtx (b.eng e) cause ∧ ((b.trapOn e cause arg).eng e).act = some (spend a 8) := by
  have hstored : ((trapStored b e cause arg a).eng e).act = some a := by
    rw [trapStored, eng_putEng_same, trapShown_eng]
    exact hact
  have hcounted : EngQuiet e (trapStored b e cause arg a) (if (trapStored b e cause arg a).egState e = egRunning then
      (trapStored b e cause arg a).prfRetire e 8 [0x0C] (prfOf (b.eng e).ctx a 8 0) else trapStored b e cause arg a) := by
    split
    · exact engQuiet_prfRetire _ _ _ _ _ he
    · exact .refl _ _
  obtain ⟨hcharge, -, hcharged⟩ := charge_frame _ e 8 a (hcounted.act.trans hstored) he
  have hput := engFrame_put (trapCharged b e cause arg a) e (handlerCtx (b.eng e) cause) ((trapCharged b e cause arg a).eng e).act
  obtain ⟨hset, heng⟩ := setEg_frame ((trapCharged b e cause arg a).putEng e
    { (trapCharged b e cause arg a).eng e with ctx := handlerCtx (b.eng e) cause }) e ((trapCharged b e cause arg a).egState e) he
  rw [trapOn_enters hact houtside hentry, heng, eng_putEng_same]
  exact ⟨hcounted.frame.trans (hcharge.trans (hput.trans hset)), rfl, hcharged⟩

theorem trapStored_dram : ((trapStored b e cause arg a).eng e).dram =
    mwrite (b.eng e).dram 0xDFE0 (trapRecord (b.eng e).ctx cause arg) := by rw [trapStored, eng_putEng_same]

theorem trapStored_others : ∀ k, k ≠ e → (trapStored b e cause arg a).eng k = b.eng k := fun k hk =>
  (eng_putEng_ne _ _ hk).trans (trapShown_eng k)

end

/-- Settles O10: what a trap shows and stores, and then what its 8 cycles and the entry change. -/
theorem trapEntrySavesAndEntersTheHandler : Obligations.TrapEntrySavesAndEntersTheHandler := by
  unfold Obligations.TrapEntrySavesAndEntersTheHandler
  intro b e a cause arg hact hthread hcause harg hpc houtside hentry c t
  obtain ⟨hframe, hctx, hactive⟩ := trapOn_frame (arg := arg) e.isLt hact houtside hentry
  obtain ⟨hsram, hcairn⟩ := hframe.memories
  have hshown {off : Nat} (hlow : Reg.engFlags e ≤ off) (hhigh : off ≤ Reg.engLastTrapArg e) :
      t.rd off = (trapShown b e cause arg a).rd off := by
    obtain ⟨hin, hprf, hquiet, -⟩ := engReg_plain e.isLt hlow hhigh
    exact hframe.rd hin hprf hquiet
  obtain ⟨hflags, htrap, hpast, hat⟩ := engReg_order e
  obtain ⟨-, hsramShown, hcairnShown⟩ := trapShown_keeps (b := b) (e := e) (cause := cause) (arg := arg) (a := a)
  obtain ⟨htraps, hlast, hlastPc, hlastArg⟩ := trapShown_words (b := b) (cause := cause) (arg := arg) (a := a) e.isLt
  refine ⟨hctx, hactive, hframe.dram.trans trapStored_dram, ?_, ?_, ?_, ?_, ?_, hsram.trans hsramShown, hcairn.trans hcairnShown,
    fun k hk => (hframe.others k hk).trans (trapStored_others k hk)⟩
  · rw [hshown (by omega) (by omega), htraps, BitVec.toNat_ofNat]
    rfl
  · rw [hshown (by omega) (by omega), hlast, BitVec.toNat_ofNat]
    omega
  · rw [hshown (by omega) (by omega), hlastPc, BitVec.toNat_ofNat]
    exact Nat.mod_eq_of_lt hpc
  · rw [hshown (by omega) (by omega), hlastArg, BitVec.toNat_ofNat]
    exact Nat.mod_eq_of_lt harg
  · exact (congrArg (fun w : Word => w.toNat.testBit 0) (hshown (Nat.le_refl _) (by omega))).trans (trapShown_flag e.isLt)

end Sys2Proof
end

section
/-! Dispatch (09): the thread commands (R224, R226, R235, R239, R240). -/

namespace Sys2Proof

open Sys2Proof.Machine

/-! ### A thread's entry and its records (R222, R238) -/

@[simp] theorem thDesc_setFld (b : Block) (off lo n x t : Nat) : (b.setFld off lo n x).thDesc t = b.thDesc t :=
  congrArg (fun cfg => ent cfg tThread t) (wr_cfg _ _ _)

theorem th_congr {b u : Block} (t : Nat) (h : u.threads = b.threads) : u.th t = b.th t := by
  rw [Block.th, h]
  rfl

@[simp] theorem th_setFld (b : Block) (off lo n x t : Nat) : (b.setFld off lo n x).th t = b.th t := th_congr t (wr_threads _ _ _)

@[simp] theorem now_setFld (b : Block) (off lo n x : Nat) : (b.setFld off lo n x).now = b.now := wr_now _ _ _

theorem quiet_trace (b : Block) (t ev eng detail used by_ : Nat) (always : Bool) :
    Quiet b (b.trace t ev eng detail used by_ always) := by
  unfold Block.trace
  split
  · exact quiet_record _ _ _ _ _ _
  · exact .refl b

/-! ### What a thread command does in each state (R224, R235) -/

section
variable {b : Block} {t : Nat}

theorem enableThread_dormant (h : b.thState t = thDormant) :
    b.enableThread t = (b.setFld (Reg.dspThreadState t) 0 3 thWaiting).setFld (Reg.dspThreadState t) 12 8 (u8 (b.thDesc t) 2) := by
  rw [Block.enableThread, if_pos (beq_iff_eq.2 h), Block.reload, Block.setThState, thDesc_setFld]

theorem disableThread_idle (h : b.thState t = thWaiting ∨ b.thState t = thSuspended) :
    b.disableThread t = (((b.setFld (Reg.dspThreadState t) 0 3 thDormant).setFld (Reg.dspThreadState t) 12 8
      (u8 (b.thDesc t) 2)).setFld (Reg.dspThreadState t) 20 2 0).setFld (Reg.dspThreadState t) 6 1 0 := by
  rw [Block.disableThread, if_pos (by simpa using h), Block.reload, Block.setThState, thDesc_setFld]

/-- A thread that became READY before this tick is disabled without a trace of it. -/
theorem disableThread_ready (h : b.thState t = thReady) (hearlier : (b.th t).readyAt ≠ b.now) :
    b.disableThread t = ((b.setFld (Reg.dspThreadState t) 0 3 thDormant).setFld (Reg.dspThreadState t) 12 8
      (u8 (b.thDesc t) 2)).holdFields t := by
  have hnow : ((((b.setThState t thDormant).reload t).holdFields t).th t).readyAt ≠
      (((b.setThState t thDormant).reload t).holdFields t).now := by
    simpa only [Block.holdFields, Block.reload, Block.setThState, th_setFld, now_setFld] using hearlier
  rw [Block.disableThread, h, if_neg (by decide), if_pos (by decide)]
  refine (if_pos (bne_iff_ne.2 hnow)).trans ?_
  rw [Block.reload, Block.setThState, thDesc_setFld]

theorem disableThread_begun (h : b.thState t = thRunning ∨ b.thState t = thPreempted) :
    b.disableThread t = (b.putTh t { b.th t with pendReq := 1 }).setFld (Reg.dspThreadState t) 3 1 1 := by
  obtain h | h := h <;> rw [Block.disableThread, h] <;> rfl

theorem suspendThread_waits (cause : Nat) (h : b.thState t = thWaiting ∨ b.thState t = thReady) :
    Quiet ((((b.setFld (Reg.dspThreadState t) 20 2 cause).setFld (Reg.dspThreadState t) 6 1 (b2n (b.thState t == thReady))).setFld
      (Reg.dspThreadState t) 0 3 thSuspended).holdFields t) (b.suspendThread t cause) := by
  rw [Block.suspendThread, if_pos (by simpa using h)]
  exact quiet_trace _ _ _ _ _ _ _ _

theorem suspendThread_begun (cause : Nat) (h : b.thState t = thRunning ∨ b.thState t = thPreempted) :
    b.suspendThread t cause = (b.putTh t { b.th t with pendReq := 2 }).setFld (Reg.dspThreadState t) 3 1 1 := by
  obtain h | h := h <;> rw [Block.suspendThread, h] <;> rfl

theorem resumeThread_counting (h : b.bit (Reg.dspThreadState t) 6 = false) :
    Quiet ((((b.setFld (Reg.dspThreadState t) 20 2 0).setFld (Reg.dspThreadState t) 6 1 0).setFld (Reg.dspThreadState t) 0 3
      thWaiting).setFld (Reg.dspThreadState t) 12 8 (u8 (b.thDesc t) 2)) (b.resumeThread t) := by
  rw [Block.resumeThread, h]
  simp only [Block.reload, Block.setThState, thDesc_setFld, Bool.false_eq_true, if_false]
  exact quiet_trace _ _ _ _ _ _ _ _

theorem resumeThread_pending (h : b.bit (Reg.dspThreadState t) 6 = true) :
    Quiet ((((b.setFld (Reg.dspThreadState t) 20 2 0).setFld (Reg.dspThreadState t) 6 1 0).setFld (Reg.dspThreadState t) 0 3
      thReady).holdFields t) (b.resumeThread t) := by
  rw [Block.resumeThread, h]
  exact (quiet_trace _ _ _ _ _ _ _ _).trans (quiet_trace _ _ _ _ _ _ _ _)

theorem decrement_counts (h : 1 < b.thCounter t) :
    b.decrement t = b.setFld (Reg.dspThreadState t) 12 8 (b.thCounter t - 1) := if_neg (Nat.not_le.2 h)

theorem decrement_ready (h : b.thCounter t ≤ 1) : b.decrement t = b.makeReady t := if_pos h

end

/-! ### What every thread command checks (R239, R240) -/

theorem completes_runDone_quiet {s : State} {i : Instr} {op : Nat} {c : Cmd} {l : List (Option Refuse)} {b' : Block} {eff : Block → Block}
    (h : exec i s = .next { s with b := s.b.runDone op c l eff }) (hl : firstRefusal l = none) (hq : Quiet b' (eff s.b)) :
    Completes s i op c b' stDone := by
  rw [runDone_eff _ _ _ _ _ hl] at h
  exact completes_of_quiet hq h

section
variable {s : State} {c : Cmd} {t : Nat} (hcmd : ThreadCmd s.b c t)
include hcmd

/-- The command's SID names the thread. -/
theorem thread_of_obj : cObj c - 0xB00000 = t := by
  obtain ⟨-, -, -, -, hobj, -⟩ := hcmd
  rw [hobj, sidThread]
  omega

/-- A thread command that may run is refused for a loop thread, or for its thread's state. -/
theorem firstRefusal_dspPre (loops : Bool) (states : List Nat) (l : List (Option Refuse)) :
    firstRefusal (s.b.dspPre c loops states ++ l) =
      if loops && (s.b.loopOf t).isSome then some { status := stConflict, reason := 0x01, code := s.b.thState t }
      else if states.contains (s.b.thState t) then firstRefusal l
      else some { status := stConflict, reason := 0, code := s.b.thState t } := by
  have ht := thread_of_obj hcmd
  obtain ⟨hauth, henv, hclk, hdev, hobj, hlt, hused, hservice⟩ := hcmd
  have hsid : isThreadSid (cObj c) = true := by
    rw [hobj, isThreadSid, sidThread, decide_eq_true (by omega), decide_eq_true (by omega)]
    rfl
  have hlegal : devCheck s.b [dsOperational, dsSafeStop] = none := by
    rw [devCheck, hclk]
    obtain hd | hd := hdev <;> rw [hd] <;> rfl
  have hlive : (s.b.dev == dsAwaitWorld || s.b.dev == dsRestart) = false := by
    obtain hd | hd := hdev <;> rw [hd] <;> rfl
  rw [Block.dspPre, ht, hauth, henv, hlegal, hsid, hused, hservice, hlive, Bool.and_false]
  cases loops && (s.b.loopOf t).isSome with
  | true => rfl
  | false => cases states.contains (s.b.thState t) <;> rfl

theorem firstRefusal_dspPre_loop {states : List Nat} (hloop : s.b.loopOf t ≠ none) (l : List (Option Refuse)) :
    firstRefusal (s.b.dspPre c true states ++ l) = some { status := stConflict, reason := 0x01, code := s.b.thState t } := by
  rw [firstRefusal_dspPre hcmd, Bool.true_and, if_pos (Option.isSome_iff_ne_none.2 hloop)]

section
variable {loops : Bool} {states : List Nat} (hfree : (loops && (s.b.loopOf t).isSome) = false)
include hfree

theorem firstRefusal_dspPre_legal (hstate : s.b.thState t ∈ states) (l : List (Option Refuse)) :
    firstRefusal (s.b.dspPre c loops states ++ l) = firstRefusal l := by
  rw [firstRefusal_dspPre hcmd, if_neg (Bool.eq_false_iff.1 hfree), if_pos (List.contains_iff_mem.2 hstate)]

theorem firstRefusal_dspPre_conflict (hstate : s.b.thState t ∉ states) (l : List (Option Refuse)) :
    firstRefusal (s.b.dspPre c loops states ++ l) = some { status := stConflict, reason := 0, code := s.b.thState t } := by
  rw [firstRefusal_dspPre hcmd, if_neg (Bool.eq_false_iff.1 hfree), if_neg (List.contains_iff_mem.not.2 hstate)]

end

/-- Continuity alone resumes and disables what it has suspended (R240). -/
theorem firstRefusal_dspCont :
    firstRefusal [s.b.dspCont c] =
      if s.b.thState t = thSuspended ∧ s.b.thCause t = 3 then some { status := stConflict, reason := 0x03, code := thSuspended }
      else none := by
  rw [Block.dspCont, thread_of_obj hcmd, firstRefusal_deny]
  simp only [Bool.and_eq_true, beq_iff_eq]
  rfl

/-! ### The commands (R239, R240) -/

section
variable (hloop : s.b.loopOf t = none)
include hloop

theorem dspEnable_done (hstate : s.b.thState t = thDormant) : Completes s (.dspEnable c) 0x0701 c
    ((s.b.setFld (Reg.dspThreadState t) 0 3 thWaiting).setFld (Reg.dspThreadState t) 12 8 (u8 (s.b.thDesc t) 2)) stDone := by
  have hpass := firstRefusal_dspPre_legal hcmd (loops := true) (congrArg Option.isSome hloop) (List.mem_singleton.2 hstate) []
  obtain rfl := thread_of_obj hcmd
  exact completes_runDone rfl hpass (enableThread_dormant hstate)

theorem dspEnable_conflict (hstate : s.b.thState t ≠ thDormant) : Completes s (.dspEnable c) 0x0701 c s.b stConflict :=
  completes_runDone_refused rfl
    (firstRefusal_dspPre_conflict hcmd (loops := true) (congrArg Option.isSome hloop) (List.mem_singleton.not.2 hstate) [])

theorem dspDisable_done {b' : Block} (hstate : s.b.thState t ∈ [thWaiting, thReady, thRunning, thPreempted, thSuspended])
    (hcause : s.b.thState t = thSuspended → s.b.thCause t ≠ 3) (heff : s.b.disableThread t = b') :
    Completes s (.dspDisable c) 0x0702 c b' stDone := by
  have hpass := firstRefusal_dspPre_legal hcmd (loops := true) (congrArg Option.isSome hloop) hstate [s.b.dspCont c]
  rw [firstRefusal_dspCont hcmd, if_neg (not_and.2 hcause)] at hpass
  obtain rfl := thread_of_obj hcmd
  exact completes_runDone rfl hpass heff

theorem dspDisable_idle (hstate : s.b.thState t = thWaiting ∨ (s.b.thState t = thSuspended ∧ s.b.thCause t ≠ 3)) :
    Completes s (.dspDisable c) 0x0702 c ((((s.b.setFld (Reg.dspThreadState t) 0 3 thDormant).setFld (Reg.dspThreadState t) 12 8
      (u8 (s.b.thDesc t) 2)).setFld (Reg.dspThreadState t) 20 2 0).setFld (Reg.dspThreadState t) 6 1 0) stDone := by
  obtain h | ⟨h, hcause⟩ := hstate
  · exact dspDisable_done hcmd hloop (by rw [h]; decide) (fun hsus => absurd (h.symm.trans hsus) (by decide)) (disableThread_idle (.inl h))
  · exact dspDisable_done hcmd hloop (by rw [h]; decide) (fun _ => hcause) (disableThread_idle (.inr h))

theorem dspDisable_ready (hstate : s.b.thState t = thReady) (hearlier : (s.b.th t).readyAt ≠ s.b.now) :
    Completes s (.dspDisable c) 0x0702 c (((s.b.setFld (Reg.dspThreadState t) 0 3 thDormant).setFld (Reg.dspThreadState t) 12 8
      (u8 (s.b.thDesc t) 2)).holdFields t) stDone :=
  dspDisable_done hcmd hloop (by rw [hstate]; decide) (fun hsus => absurd (hstate.symm.trans hsus) (by decide))
    (disableThread_ready hstate hearlier)

theorem dspDisable_begun (hstate : s.b.thState t = thRunning ∨ s.b.thState t = thPreempted) :
    Completes s (.dspDisable c) 0x0702 c ((s.b.putTh t { s.b.th t with pendReq := 1 }).setFld (Reg.dspThreadState t) 3 1 1) stDone := by
  refine dspDisable_done hcmd hloop ?_ (fun hsus => ?_) (disableThread_begun hstate)
  · obtain h | h := hstate <;> rw [h] <;> decide
  · rw [hsus] at hstate
    exact absurd hstate (by decide)

theorem dspDisable_dormant (hstate : s.b.thState t = thDormant) : Completes s (.dspDisable c) 0x0702 c s.b stConflict :=
  completes_runDone_refused rfl
    (firstRefusal_dspPre_conflict hcmd (loops := true) (congrArg Option.isSome hloop) (by rw [hstate]; decide) _)

theorem dspDisable_continuity (hstate : s.b.thState t = thSuspended) (hcause : s.b.thCause t = 3) :
    Completes s (.dspDisable c) 0x0702 c s.b stConflict 0x03 := by
  have hpass := firstRefusal_dspPre_legal hcmd (loops := true)
    (states := [thWaiting, thReady, thRunning, thPreempted, thSuspended]) (congrArg Option.isSome hloop) (by rw [hstate]; decide)
    [s.b.dspCont c]
  rw [firstRefusal_dspCont hcmd, if_pos ⟨hstate, hcause⟩] at hpass
  exact completes_runDone_refused rfl hpass

end

theorem dspEnable_dspDisable_loop (hloop : s.b.loopOf t ≠ none) : Completes s (.dspEnable c) 0x0701 c s.b stConflict 0x01 ∧
    Completes s (.dspDisable c) 0x0702 c s.b stConflict 0x01 :=
  ⟨completes_runDone_refused rfl (firstRefusal_dspPre_loop hcmd hloop []),
    completes_runDone_refused rfl (firstRefusal_dspPre_loop hcmd hloop [s.b.dspCont c])⟩

theorem dspSuspend_done {b' : Block} (hstate : s.b.thState t ∈ [thWaiting, thReady, thRunning, thPreempted])
    (hquiet : Quiet b' (s.b.suspendThread t 1)) : Completes s (.dspSuspend c) 0x0703 c b' stDone := by
  have hpass := firstRefusal_dspPre_legal hcmd (loops := false) rfl hstate []
  obtain rfl := thread_of_obj hcmd
  exact completes_runDone_quiet rfl hpass hquiet

theorem dspSuspend_waits (hstate : s.b.thState t = thWaiting ∨ s.b.thState t = thReady) : Completes s (.dspSuspend c) 0x0703 c
    ((((s.b.setFld (Reg.dspThreadState t) 20 2 1).setFld (Reg.dspThreadState t) 6 1 (b2n (s.b.thState t == thReady))).setFld
      (Reg.dspThreadState t) 0 3 thSuspended).holdFields t) stDone := by
  refine dspSuspend_done hcmd ?_ (suspendThread_waits 1 hstate)
  obtain h | h := hstate <;> rw [h] <;> decide

theorem dspSuspend_begun (hstate : s.b.thState t = thRunning ∨ s.b.thState t = thPreempted) :
    Completes s (.dspSuspend c) 0x0703 c ((s.b.putTh t { s.b.th t with pendReq := 2 }).setFld (Reg.dspThreadState t) 3 1 1) stDone := by
  rw [← suspendThread_begun 1 hstate]
  refine dspSuspend_done hcmd ?_ (.refl _)
  obtain h | h := hstate <;> rw [h] <;> decide

theorem dspSuspend_conflict (hstate : s.b.thState t = thDormant ∨ s.b.thState t = thSuspended) :
    Completes s (.dspSuspend c) 0x0703 c s.b stConflict := by
  refine completes_runDone_refused rfl (firstRefusal_dspPre_conflict hcmd (loops := false) rfl ?_ [])
  obtain h | h := hstate <;> rw [h] <;> decide

theorem dspResume_done {b' : Block} (hstate : s.b.thState t = thSuspended) (hcause : s.b.thCause t ≠ 3)
    (hquiet : Quiet b' (s.b.resumeThread t)) : Completes s (.dspResume c) 0x0704 c b' stDone := by
  have hpass := firstRefusal_dspPre_legal hcmd (loops := false) rfl (List.mem_singleton.2 hstate) [s.b.dspCont c]
  rw [firstRefusal_dspCont hcmd, if_neg fun h => hcause h.2] at hpass
  obtain rfl := thread_of_obj hcmd
  exact completes_runDone_quiet rfl hpass hquiet

theorem dspResume_conflict (hstate : s.b.thState t ≠ thSuspended) : Completes s (.dspResume c) 0x0704 c s.b stConflict :=
  completes_runDone_refused rfl (firstRefusal_dspPre_conflict hcmd (loops := false) rfl (List.mem_singleton.not.2 hstate) _)

/-- A kick is refused in no thread state (R240). -/
theorem firstRefusal_dspKick (hstate : s.b.thState t ≤ thSuspended) :
    firstRefusal (s.b.dspPre c false [thDormant, thWaiting, thReady, thRunning, thPreempted, thSuspended]) = none := by
  have hall : ∀ k ≤ thSuspended, k ∈ [thDormant, thWaiting, thReady, thRunning, thPreempted, thSuspended] := by decide
  exact firstRefusal_dspPre_legal hcmd rfl (hall _ hstate) []

theorem dspKick_decrements (hstate : s.b.thState t = thWaiting) :
    Completes s (.dspKick c) 0x0705 c (s.b.decrement t) stDone := by
  have hpass := firstRefusal_dspKick hcmd (by rw [hstate]; decide)
  obtain rfl := thread_of_obj hcmd
  exact completes_run rfl hpass (if_pos (beq_iff_eq.2 hstate))

theorem dspKick_abandoned (hstate : s.b.thState t ≠ thWaiting) (hle : s.b.thState t ≤ thSuspended) :
    Completes s (.dspKick c) 0x0705 c (s.b.discard t none) stAbandoned 5 := by
  have hpass := firstRefusal_dspKick hcmd hle
  obtain rfl := thread_of_obj hcmd
  exact completes_run rfl hpass (if_neg (beq_iff_eq.not.2 hstate))

end

/-- Settles O12: each command by the checks that thread commands share and by what it does in each state. -/
theorem threadCommandsComplete : Obligations.ThreadCommandsComplete := by
  unfold Obligations.ThreadCommandsComplete
  intro s c t hcmd st r n
  refine ⟨fun hloop => ⟨dspEnable_done hcmd hloop, dspEnable_conflict hcmd hloop, dspDisable_idle hcmd hloop,
      dspDisable_ready hcmd hloop, dspDisable_begun hcmd hloop, dspDisable_dormant hcmd hloop, dspDisable_continuity hcmd hloop⟩,
    dspEnable_dspDisable_loop hcmd, dspSuspend_waits hcmd, dspSuspend_begun hcmd, dspSuspend_conflict hcmd,
    fun hstate hcause hbit => dspResume_done hcmd hstate hcause (resumeThread_counting hbit),
    fun hstate hcause hbit => dspResume_done hcmd hstate hcause (resumeThread_pending hbit),
    dspResume_conflict hcmd, fun hstate hmore => ?_, fun hstate hlast => ?_, dspKick_abandoned hcmd⟩
  · rw [← decrement_counts hmore]
    exact dspKick_decrements hcmd hstate
  · rw [← decrement_ready hlast]
    exact dspKick_decrements hcmd hstate

end Sys2Proof
end

section
/-! Dispatch (09): a thread that is placed on an idle engine runs there (R228, R229). -/

namespace Sys2Proof

open Sys2Proof.Machine

theorem gives_unique {s : State} {i : Instr} {b b' : Block} (h : Gives s i b) (h' : Gives s i b') : b = b' := by
  have hnext := h.symm.trans h'
  injection hnext with hstate
  exact congrArg State.b hstate

/-! ### A thread placed on an idle engine (R229) -/

section
variable {s : State} {t : Fin 4096} {e : Fin 40}

theorem dispatch_runs (hmay : s.b.mayDispatch = true) (hoffered : t.val ∈ s.b.offered) (hplace : s.b.placeFor t = some e.val)
    (hidle : (s.b.eng e).act = none) (hfirst : ∀ u ∈ s.b.offered, s.b.before u t = true → s.b.placeFor u = none) :
    Gives s (.dispatch t e) (s.b.dispatchOn t e) := by
  have hturn : (s.b.offered.any fun u => s.b.before u t && (s.b.placeFor u).isSome) = false := by
    rw [List.any_eq_false]
    intro u hu hbefore
    obtain ⟨hb, hsome⟩ := (Bool.and_eq_true _ _).mp hbefore
    rw [hfirst u hu hb] at hsome
    exact absurd hsome (by decide)
  refine gives_of_eq rfl ?_
  simp only [hmay, List.contains_iff_mem.2 hoffered, hplace, hturn, hidle, bne_self_eq_false, Bool.not_true, Bool.or_self,
    Bool.false_eq_true, if_false, Option.isSome_none]

theorem minIntervalEnd_frees (hready : s.b.thState t = thReady) : Does s (.minIntervalEnd t) (s.b.holdFields t) :=
  does_of (gives_of_eq rfl (if_pos (beq_iff_eq.2 hready))) (.refl _)

end

@[simp] theorem th_putTh_same (b : Block) (t : Nat) (x : ThreadSt) : (b.putTh t x).th t = x := tget_tput_same _ _ _ _

theorem loopOf_congr {b u : Block} (t : Nat) (h : u.cfg = b.cfg) : u.loopOf t = b.loopOf t := by
  rw [Block.loopOf, h]
  rfl

/-! ### What a placement shows -/

theorem fld_holdFields (b : Block) (t : Nat) {lo n : Nat} (hfits : lo + n ≤ 32) (hapart : lo + n ≤ 4 ∨ 6 ≤ lo) :
    (b.holdFields t).fld (Reg.dspThreadState t) lo n = b.fld (Reg.dspThreadState t) lo n :=
  (fld_setFld_apart _ _ _ hfits (by omega)).trans (fld_setFld_apart _ _ _ hfits (by omega))

theorem egState_setEg (b : Block) (e : Nat) {x : Nat} (he : e < 40) (hx : x < 8) : (b.setEg e x).egState e = x := by
  have hcnt : Reg.engState e ≠ Reg.cntState := by
    unfold Reg.engState Reg.cntState
    omega
  unfold Block.setEg
  refine (fld_congr 0 3 (rd_setFld_ne _ _ _ _ hcnt)).trans ?_
  split
  · rw [Block.fld, rdN_wrN_same, field]
    omega
  · rw [Block.fld, rdN_wrN_same, field]
    omega

theorem EngFrame.tables {e : Nat} {b u : Block} (h : EngFrame e b u) : u.threads = b.threads ∧ u.cfg = b.cfg := by
  obtain ⟨o, rs, fr, es, hb, -⟩ := h
  rw [hb]
  exact ⟨rfl, rfl⟩

theorem dspThreadState_plain {t e : Nat} (ht : t < 4096) : isOut (Reg.dspThreadState t) = false ∧
    Reg.dspThreadState t / 0x100000 ≠ 0x15 ∧ (e < 40 → Reg.dspThreadState t ∉ engShown e) := by
  have hblock : Reg.dspThreadState t / 0x100000 = 7 := by
    unfold Reg.dspThreadState
    omega
  refine ⟨by rw [isOut, hblock]; rfl, by omega, fun he => ?_⟩
  simp only [engShown, Reg.dspThreadState, Reg.engBusyCycles, Reg.engState, Reg.cntState, List.mem_cons, List.not_mem_nil, or_false]
  omega

/-- Thread `t` enters RUNNING on engine `e`, and the engine too. -/
def enterRun (b : Block) (t e : Nat) : Block :=
  (((b.setThState t thRunning).setFld (Reg.dspThreadState t) 22 6 e).holdFields t).setEg e egRunning

theorem enterRun_shows (b : Block) {t e : Nat} (ht : t < 4096) (he : e < 40) :
    (enterRun b t e).eng e = b.eng e ∧ (enterRun b t e).th t = b.th t ∧ (enterRun b t e).cfg = b.cfg ∧
      (enterRun b t e).thState t = thRunning ∧ (enterRun b t e).thEngine t = e ∧ (enterRun b t e).egState e = egRunning := by
  obtain ⟨hframe, heng⟩ := setEg_frame (((b.setThState t thRunning).setFld (Reg.dspThreadState t) 22 6 e).holdFields t) e egRunning he
  obtain ⟨hin, hprf, hshown⟩ := dspThreadState_plain (e := e) ht
  have hword : (enterRun b t e).rd (Reg.dspThreadState t) = _ := hframe.rd hin hprf (hshown he)
  have hstate : (((b.setThState t thRunning).setFld (Reg.dspThreadState t) 22 6 e).holdFields t).thState t = thRunning :=
    (fld_holdFields _ t (by decide) (by decide)).trans
      ((fld_setFld_apart _ _ _ (by decide) (by decide)).trans (fld_setFld_same b _ (by decide) (by decide)))
  have hengine : (((b.setThState t thRunning).setFld (Reg.dspThreadState t) 22 6 e).holdFields t).thEngine t = e :=
    (fld_holdFields _ t (by decide) (by decide)).trans (fld_setFld_same _ _ (by decide) (by omega))
  obtain ⟨hthreads, hcfg⟩ := hframe.tables
  refine ⟨heng.trans ?_, (th_congr t hthreads).trans ?_, hcfg.trans ?_, (fld_congr 0 3 hword).trans hstate,
    (fld_congr 22 6 hword).trans hengine, egState_setEg _ _ he (by decide)⟩
  · simp only [Block.holdFields, Block.setThState, eng_setFld]
  · simp only [Block.holdFields, Block.setThState, th_setFld]
  · simp only [Block.holdFields, Block.setThState, Block.setFld, Block.wrN, wr_cfg]

/-- The activation that a dispatch begins (R203, R229). -/
def freshAct (b : Block) (t : Nat) : ActSt :=
  { thread := t, act := (b.rdN (Reg.dspThreadAct t) + 1) % 2 ^ 32, start := b.startBits t, disp := b.now, budget := u32 (b.thDesc t) 8 }

/-- Engine `e` holds the fresh activation of thread `t`, which has been dispatched now. -/
def loadAct (b : Block) (t e : Nat) : Block :=
  (b.putEng e { b.eng e with
    ctx := { (b.eng e).ctx with
      pc := 4 * ((slotOf (b.eng e).iram t).getD (0, 0)).1, kernel := (u8 (b.thDesc t) 1).testBit 2, handler := false }
    act := some (freshAct b t) }).putTh t
    { b.th t with lastDispatch := some b.now, replay := false, resumed := false, swapped := false }

/-- `u` shows thread `t` as running the activation `a` on engine `e` since `now`. -/
def ShowsRun (u : Block) (t e now : Nat) (a : ActSt) : Prop :=
  (u.eng e).act = some a ∧ u.thState t = thRunning ∧ u.thEngine t = e ∧ u.egState e = egRunning ∧ (u.th t).lastDispatch = some now

theorem enterRun_showsRun (b : Block) {t e : Nat} (ht : t < 4096) (he : e < 40) :
    ShowsRun (enterRun (loadAct b t e) t e) t e b.now (freshAct b t) := by
  obtain ⟨heng, hth, -, hstate, hengine, heg⟩ := enterRun_shows (loadAct b t e) ht he
  refine ⟨?_, hstate, hengine, heg, ?_⟩
  · rw [heng]
    exact congrArg EngSt.act (eng_putEng_same b e _)
  · rw [hth]
    exact congrArg ThreadSt.lastDispatch (th_putTh_same _ _ _)

/-! ### What counting and tracing a dispatch leave -/

/-- `u` keeps what `b` shows of thread `t` and of the activation on engine `e`, what is kept of the threads and
the fixed tables. -/
def KeepsRun (t e : Nat) (b u : Block) : Prop :=
  (u.eng e).act = (b.eng e).act ∧ u.rd (Reg.dspThreadState t) = b.rd (Reg.dspThreadState t) ∧
    u.rd (Reg.engState e) = b.rd (Reg.engState e) ∧ u.threads = b.threads ∧ u.cfg = b.cfg

section
variable {t e : Nat}

theorem KeepsRun.refl (b : Block) : KeepsRun t e b b := ⟨rfl, rfl, rfl, rfl, rfl⟩

theorem KeepsRun.trans {b u v : Block} (h : KeepsRun t e b u) (g : KeepsRun t e u v) : KeepsRun t e b v := by
  obtain ⟨hact, hthread, hengine, hthreads, hcfg⟩ := h
  obtain ⟨gact, gthread, gengine, gthreads, gcfg⟩ := g
  exact ⟨gact.trans hact, gthread.trans hthread, gengine.trans hengine, gthreads.trans hthreads, gcfg.trans hcfg⟩

theorem KeepsRun.showsRun {b u : Block} {now : Nat} {a : ActSt} (h : KeepsRun t e b u) (hb : ShowsRun b t e now a) :
    ShowsRun u t e now a := by
  obtain ⟨hact, hthread, hengine, hthreads, -⟩ := h
  obtain ⟨bact, bstate, bengine, beg, bdispatch⟩ := hb
  exact ⟨hact.trans bact, (fld_congr 0 3 hthread).trans bstate, (fld_congr 22 6 hthread).trans bengine, (fld_congr 0 3 hengine).trans beg,
    (congrArg ThreadSt.lastDispatch (th_congr t hthreads)).trans bdispatch⟩

theorem keepsRun_wr (b : Block) {off : Nat} (v : Word) (hthread : Reg.dspThreadState t ≠ off) (hengine : Reg.engState e ≠ off) :
    KeepsRun t e b (b.wr off v) :=
  ⟨congrArg EngSt.act (eng_wr b off v e), rd_wr_ne b v hthread, rd_wr_ne b v hengine, wr_threads b off v, wr_cfg b off v⟩

/-- The registers below those of the threads (R241). -/
theorem keepsRun_wr_below (b : Block) {off : Nat} (v : Word) (h : off < 0x701000) : KeepsRun t e b (b.wr off v) := by
  refine keepsRun_wr b v ?_ ?_
  · unfold Reg.dspThreadState
    omega
  · unfold Reg.engState
    omega

theorem keepsRun_count48_below (b : Block) {off : Nat} (n : Nat) (h : off + 4 < 0x701000) : KeepsRun t e b (b.count48 off n) :=
  (keepsRun_wr_below b _ (by omega)).trans (keepsRun_wr_below _ _ h)

theorem keepsRun_setFlag_below (b : Block) {off : Nat} (bit : Nat) (h : off + 4 < 0x701000) : KeepsRun t e b (b.setFlag off bit) :=
  (keepsRun_wr_below b _ (by omega)).trans (keepsRun_wr_below _ _ h)

section
variable (ht : t < 4096) (he : e < 40)
include he

theorem engQuiet_prfCount (b : Block) (ev n : Nat) (p : PrfAt) : EngQuiet e b (b.prfCount e ev n p) := by
  unfold Block.prfCount
  refine engQuiet_fold _ _ (fun i hi b => ?_) b
  have hone := (quiet_prfOne b e i n he (List.mem_range.1 hi)).engQuiet e
  dsimp only
  split
  · exact .refl e b
  · split
    · exact hone.trans (engQuiet_prfSkid _ _ _ _ _)
    · exact hone

include ht

/-- ACTIVATIONS and LAST_DISPATCH of the engine (R221). -/
theorem keepsRun_wr64_engine (b : Block) {off : Nat} (v : Nat) (h : Reg.engState e < off) :
    KeepsRun t e b (b.wr64 off v) := by
  have hthread (o : Nat) (ho : Reg.engState e < o) : Reg.dspThreadState t ≠ o := by
    unfold Reg.engState at ho
    unfold Reg.dspThreadState
    omega
  exact (keepsRun_wr b _ (hthread _ h) (by omega)).trans (keepsRun_wr _ _ (hthread _ (by omega)) (by omega))

theorem EngQuiet.keepsRun {b u : Block} (h : EngQuiet e b u) : KeepsRun t e b u := by
  have hact := h.act
  obtain ⟨hin, hprf, -⟩ := dspThreadState_plain (e := e) ht
  obtain ⟨o, rs, es, hu, -, -, hregs⟩ := h
  have hblock : Reg.engState e / 0x100000 = 8 := by
    unfold Reg.engState
    omega
  have hengIn : isOut (Reg.engState e) = false := by rw [isOut, hblock]; rfl
  refine ⟨hact, ?_, ?_, by rw [hu], by rw [hu]⟩
  · rw [hu]
    simpa only [Block.rd, hin, Bool.false_eq_true, if_false] using hregs _ hprf
  · rw [hu]
    simpa only [Block.rd, hengIn, Bool.false_eq_true, if_false] using hregs _ (by omega)

theorem Quiet.keepsRun {b u : Block} (h : Quiet b u) : KeepsRun t e b u := (h.engQuiet e).keepsRun ht he

/-- The accounting of a loop of the table writes that loop's registers (07 R166). -/
theorem keepsRun_loopDispatch (b : Block) {l : Nat} (hl : l < 1024) : KeepsRun t e b (b.loopDispatch l) := by
  have hwords : Reg.outLoopState l < 0x701000 ∧ Reg.outLoopPeriod l < 0x701000 ∧ Reg.outLoopPeriodMax l < 0x701000 ∧
      Reg.outLoopActivations l + 4 < 0x701000 := by
    unfold Reg.outLoopState Reg.outLoopPeriod Reg.outLoopPeriodMax Reg.outLoopActivations
    omega
  obtain ⟨hstate, hperiod, hmax, hactivations⟩ := hwords
  have hslow (y : Block) (us : Nat) : KeepsRun t e y
      ((y.putLp l { y.lp l with slowPosted := some y.now }).raisePost Reg.outFlags 3 (sidLoop l) (leBytes 4 us)) :=
    (keepsRun_setFlag_below (y.putLp l _) 3 (by decide)).trans ((quiet_event _ _ _ _ _ _ _ _ _ _).keepsRun ht he)
  unfold Block.loopDispatch
  extract_lets st b1 b2
  have hcounted : KeepsRun t e b b2 := keepsRun_count48_below b 1 hactivations
  split
  · exact hcounted
  · extract_lets us slow b3 b4 b5
    have h4 : KeepsRun t e b b4 := by
      have h3 := hcounted.trans (keepsRun_wr_below b2 (BitVec.ofNat 32 us) hperiod)
      simp only [b4]
      split
      · exact h3.trans (keepsRun_wr_below _ _ hmax)
      · exact h3
    have h5 : KeepsRun t e b b5 := h4.trans (keepsRun_wr_below _ _ hstate)
    split
    · exact h5
    · split
      · split
        · exact h5.trans (keepsRun_setFlag_below _ 3 (by decide))
        · exact h5.trans (hslow _ _)
      · exact h5.trans (hslow _ _)

theorem dispatchOn_keepsRun (b : Block) (hloop : ∀ l, b.loopOf t = some l → l < 1024) :
    KeepsRun t e (enterRun (loadAct b t e) t e) (b.dispatchOn t e) := by
  unfold Block.dispatchOn
  extract_lets d x start act slot a kern th wait c b2 b3 b4 b5 b6 b7 b8 b9 b10
  obtain ⟨-, -, hcfg, -⟩ := enterRun_shows (loadAct b t e) ht he
  have h6 : KeepsRun t e b5 b6 :=
    (keepsRun_wr64_engine ht he b5 _ (by unfold Reg.engState Reg.engActivations; omega)).trans
      (keepsRun_wr64_engine ht he _ _ (by unfold Reg.engState Reg.engLastDispatch; omega))
  have h7 : KeepsRun t e b5 b7 :=
    h6.trans ((keepsRun_count48_below b6 1 (by decide)).trans ((quiet_blkCount _ _ _).keepsRun ht he))
  have h8 : KeepsRun t e b5 b8 := by
    simp only [b8]
    split
    · exact h7.trans (keepsRun_wr_below b7 _ (by decide))
    · exact h7
  have h10 : KeepsRun t e b5 b10 :=
    h8.trans (((engQuiet_prfCount he b8 _ _ _).keepsRun ht he).trans ((quiet_trace _ _ _ _ _ _ _ _).keepsRun ht he))
  have htables : b10.cfg = b.cfg := by
    obtain ⟨-, -, -, -, htables⟩ := h10
    exact htables.trans hcfg
  split
  next l hnamed => exact h10.trans (keepsRun_loopDispatch ht he b10 (hloop l ((loopOf_congr t htables).symm.trans hnamed)))
  next => exact h10

end
end

/-- A thread that no loop names, or one of the 1,024 loops of 07, runs with a fresh activation. -/
theorem dispatch_showsRun {s : State} {t : Fin 4096} {e : Fin 40} (hmay : s.b.mayDispatch = true)
    (hoffered : t.val ∈ s.b.offered) (hplace : s.b.placeFor t = some e.val) (hidle : (s.b.eng e).act = none)
    (hfirst : ∀ u ∈ s.b.offered, s.b.before u t = true → s.b.placeFor u = none) (hloop : ∀ l, s.b.loopOf t = some l → l < 1024) :
    ∃ x, Gives s (.dispatch t e) x ∧ ShowsRun x t e s.b.now (freshAct s.b t) :=
  ⟨_, dispatch_runs hmay hoffered hplace hidle hfirst,
    (dispatchOn_keepsRun t.isLt e.isLt s.b hloop).showsRun (enterRun_showsRun s.b t.isLt e.isLt)⟩

/-! ### A loop past the table -/

/-- An OPERATIONAL controller whose loop thread 1 is READY, and whose engine 0 is idle. Its loop has the number 31,744, and
`OUT.LOOP[31744].PERIOD_MAX` would lie where `DSP.THREAD[1].STATE` does. -/
def loopPastTable : State :=
  { State.reset with b := { State.reset.b with
      refclk := true
      now := 4000
      regs := [(Reg.sysState, BitVec.ofNat 32 dsOperational), (Reg.dspThreadState 1, BitVec.ofNat 32 thReady),
        (Reg.engState 0, BitVec.ofNat 32 egIdle), (Reg.engRole 0, 0)]
      cfg := [(key tThread 1, [3#8, 1#8, 1#8]), (key tLoop 31744, [1#8])]
      loops := [(31744, { lastDispatch := some 0 })] } }

/-- The thread may be dispatched on the engine. -/
theorem loopPastTable_placed : loopPastTable.b.mayDispatch = true ∧ 1 ∈ loopPastTable.b.offered ∧ loopPastTable.b.placeFor 1 = some 0 ∧
    (loopPastTable.b.eng 0).act = none ∧
    ∀ u ∈ loopPastTable.b.offered, loopPastTable.b.before u 1 = true → loopPastTable.b.placeFor u = none := by
  decide +kernel

/-- The period of 4 µs replaces the thread's STATE, whose code 4 is PREEMPTED. -/
theorem loopPastTable_thState : (loopPastTable.b.dispatchOn 1 0).thState 1 = thPreempted := by decide +kernel

/-- Refutes O13: the model's fixed tables bound no loop's number, and the accounting at the dispatch of a loop past the 1,024 of 07 (R166)
writes over the thread's STATE. Where no such loop names the thread the clause holds (`dispatch_showsRun`), and so does the clause on
MIN_INTERVAL (`minIntervalEnd_frees`). -/
theorem not_dispatchStartsAnActivation : ¬ Obligations.DispatchStartsAnActivation := by
  unfold Obligations.DispatchStartsAnActivation
  rintro ⟨hdispatch, -⟩
  obtain ⟨hmay, hoffered, hplace, hidle, hfirst⟩ := loopPastTable_placed
  obtain ⟨x, hgives, -, hrunning, -⟩ := hdispatch loopPastTable 1 0 hmay hoffered hplace hidle hfirst
  have hblock := gives_unique (dispatch_runs (t := 1) (e := 0) hmay hoffered hplace hidle hfirst) hgives
  rw [← hblock] at hrunning
  exact absurd (hrunning.symm.trans loopPastTable_thState) (by decide)

end Sys2Proof
end

section
/-! Continuity (10): what a fence, a takeover, a release and an injected fault leave of an engine's entry and words (R242–R247, R253,
R254). -/

namespace Sys2Proof

open Sys2Proof.Machine

/-! ### Counters, flags and reports (02 R38, R40) -/

theorem Reports.engs {b t : Block} (h : Reports b t) : t.engs = b.engs := by
  obtain ⟨o, rs, fr, al, lg, ev, ns, rfl, -⟩ := h
  rfl

theorem Reports.eng {b t : Block} (h : Reports b t) (k : Nat) : t.eng k = b.eng k := by
  rw [Block.eng, h.engs]
  rfl

/-- A count carries a report along, where reporting does not itself count. -/
theorem Reports.count {b t : Block} (h : Reports b t) {off : Nat} (n : Nat) (hin : isOut off = false) (hprf : off / 0x100000 ≠ 0x15)
    (hconf : off ≠ Reg.sysStateConflicts) : Reports (b.count off n) (t.count off n) := by
  rw [Block.count, Block.count, Block.rdN, Block.rdN, h.rd hin hprf hconf]
  exact h.wr _ _

theorem Reports.setFlag_cntFlags {b t : Block} (h : Reports b t) (bit : Nat) :
    Reports (b.setFlag Reg.cntFlags bit) (t.setFlag Reg.cntFlags bit) := by
  have hset : Reports (b.wrN Reg.cntFlags (b.rdN Reg.cntFlags ||| 2 ^ bit)) (t.wrN Reg.cntFlags (t.rdN Reg.cntFlags ||| 2 ^ bit)) := by
    rw [Block.rdN, Block.rdN, h.rd (off := Reg.cntFlags) rfl (by decide) (by decide)]
    exact h.wr _ _
  exact hset.count 1 rfl (by decide) (by decide)

theorem raisePost_reports (b : Block) (off bit sid : Nat) (d : List Byte) :
    Reports (b.setFlag off bit) (b.raisePost off bit sid d) := (quiet_event _ _ _ _ _ _ _ _ _ _).reports

@[simp] theorem eng_count (b : Block) (off n k : Nat) : (b.count off n).eng k = b.eng k := eng_wr b off _ k

@[simp] theorem eng_setFlag (b : Block) (off bit k : Nat) : (b.setFlag off bit).eng k = b.eng k :=
  (eng_count _ _ _ k).trans (eng_wrN b off _ k)

@[simp] theorem eng_raise (b : Block) (off bit sid k : Nat) (d : List Byte) : (b.raise off bit sid d).eng k = b.eng k :=
  ((raise_reports b off bit sid d).eng k).trans (eng_setFlag b off bit k)

@[simp] theorem eng_raisePost (b : Block) (off bit sid k : Nat) (d : List Byte) : (b.raisePost off bit sid d).eng k = b.eng k :=
  ((raisePost_reports b off bit sid d).eng k).trans (eng_setFlag b off bit k)

/-! ### ROLE, EPOCH and the state of an engine (08 R221) -/

/-- ROLE and EPOCH of an engine stand apart from what a discarded write, a report and a change of state write. -/
theorem engIdentity_apart {e off : Nat} (he : e < 40) (h : off = Reg.engRole e ∨ off = Reg.engEpoch e) :
    (isOut off = false ∧ off / 0x100000 ≠ 0x15 ∧ off ≠ Reg.sysStateConflicts) ∧ off ∉ engShown e ∧
      off ≠ Reg.engFencedWrites e ∧ off ≠ Reg.engFlags e ∧ off ≠ Reg.engFlags e + 4 := by
  unfold Reg.engRole Reg.engEpoch at h
  have hblock : off / 0x100000 = 8 := by omega
  refine ⟨⟨by rw [isOut, hblock]; rfl, by omega, ?_⟩, ?_, ?_, ?_, ?_⟩
  · unfold Reg.sysStateConflicts
    omega
  · simp only [engShown, Reg.engBusyCycles, Reg.engState, Reg.cntState, List.mem_cons, List.not_mem_nil, or_false]
    omega
  · unfold Reg.engFencedWrites
    omega
  · unfold Reg.engFlags
    omega
  · unfold Reg.engFlags
    omega

theorem engState_plain {e : Nat} (he : e < 40) : isOut (Reg.engState e) = false ∧ Reg.engState e / 0x100000 ≠ 0x15 ∧
    Reg.engState e ≠ Reg.cntFlags ∧ Reg.engState e ≠ Reg.cntFlags + 4 := by
  have hblock : Reg.engState e / 0x100000 = 8 := by
    unfold Reg.engState
    omega
  exact ⟨by rw [isOut, hblock]; rfl, by omega, by unfold Reg.cntFlags; omega, by unfold Reg.cntFlags; omega⟩

section
variable (b : Block) {e : Nat} (he : e < 40)
include he

theorem eng_setEg (st k : Nat) : (b.setEg e st).eng k = b.eng k := by
  obtain ⟨hframe, hsame⟩ := setEg_frame b e st he
  by_cases hk : k = e
  · rw [hk, hsame]
  · exact hframe.others k hk

theorem egEpoch_setEg (st : Nat) : (b.setEg e st).egEpoch e = b.egEpoch e := by
  obtain ⟨⟨hin, hprf, -⟩, hshown, -⟩ := engIdentity_apart he (.inr rfl)
  exact fld_congr 0 16 ((setEg_frame b e st he).1.rd hin hprf hshown)

theorem egRole_setEg (st : Nat) : (b.setEg e st).egRole e = b.egRole e := by
  obtain ⟨⟨hin, hprf, -⟩, hshown, -⟩ := engIdentity_apart he (.inl rfl)
  exact fld_congr 0 2 ((setEg_frame b e st he).1.rd hin hprf hshown)

theorem egEpoch_raise_engFlags (bit sid : Nat) : (b.raise (Reg.engFlags e) bit sid).egEpoch e = b.egEpoch e := by
  obtain ⟨⟨hin, hprf, hconf⟩, -, -, hflags, hsets⟩ := engIdentity_apart he (.inr rfl)
  exact fld_congr 0 16 (rd_raise_ne b bit sid [] hflags hsets hin hprf hconf)

/-- Raising a continuity flag leaves the engine's state. -/
theorem egState_raisePost_cntFlags (bit sid : Nat) (d : List Byte) : (b.raisePost Reg.cntFlags bit sid d).egState e = b.egState e := by
  obtain ⟨hin, hprf, hflags, hsets⟩ := engState_plain he
  have hquiet : Quiet (b.setFlag Reg.cntFlags bit) (b.raisePost Reg.cntFlags bit sid d) := quiet_event _ _ _ _ _ _ _ _ _ _
  exact fld_congr 0 3 ((hquiet.rd hin hprf).trans (rd_setFlag_ne b bit hflags hsets))

end

theorem egEpoch_wrN_engEpoch (b : Block) (e v : Nat) : (b.wrN (Reg.engEpoch e) v).egEpoch e = v % 2 ^ 16 := by
  rw [Block.egEpoch, Block.fld, rdN_wrN_same, field]
  omega

theorem egRole_wrN_engRole (b : Block) (e v : Nat) : (b.wrN (Reg.engRole e) v).egRole e = v % 2 ^ 2 := by
  rw [Block.egRole, Block.fld, rdN_wrN_same, field]
  omega

theorem bit_raisePost_cntFlags (b : Block) {bit : Nat} (sid : Nat) (d : List Byte) (h : bit < 32) :
    (b.raisePost Reg.cntFlags bit sid d).bit Reg.cntFlags bit = true :=
  (bit_congr bit ((raisePost_reports b Reg.cntFlags bit sid d).rd rfl (by decide) (by decide))).trans (bit_setFlag_same b _ h)

/-- The writes of an engine in FENCED are stale whatever epoch they carry (R245). -/
theorem stale_of_fenced {b : Block} {e : Nat} (h : b.egState e = egFenced) : b.stale e = true := by
  rw [Block.stale, h]
  simp only [beq_self_eq_true, Bool.or_true, Bool.true_or]

/-! ### The fence (R244–R246) -/

section
variable (b : Block) (e : Nat)

@[simp] theorem eng_fencedWrites (n k : Nat) : (b.fencedWrites e n).eng k = b.eng k := by
  unfold Block.fencedWrites
  split
  · rfl
  · rw [eng_raise, eng_count]

theorem egEpoch_fencedWrites (n : Nat) (he : e < 40) : (b.fencedWrites e n).egEpoch e = b.egEpoch e := by
  obtain ⟨-, -, hwrites, -⟩ := engIdentity_apart he (.inr rfl)
  unfold Block.fencedWrites
  split
  · rfl
  · exact (egEpoch_raise_engFlags _ he _ _).trans (fld_congr 0 16 (rd_wr_ne _ _ hwrites))

/-- A new epoch and an empty store buffer. -/
def epochTaken : Block := (b.wrN (Reg.engEpoch e) ((b.egEpoch e + 1) % 65536)).dropStores e

theorem epochTaken_eng_same : (epochTaken b e).eng e = { b.eng e with stores := [] } := by
  rw [epochTaken, Block.dropStores, eng_fencedWrites, eng_putEng_same, eng_wrN]

theorem epochTaken_eng_ne {k : Nat} (h : k ≠ e) : (epochTaken b e).eng k = b.eng k := by
  rw [epochTaken, Block.dropStores, eng_fencedWrites, eng_putEng_ne _ _ h, eng_wrN]

theorem epochTaken_egEpoch (he : e < 40) : (epochTaken b e).egEpoch e = (b.egEpoch e + 1) % 65536 :=
  (egEpoch_fencedWrites _ e _ he).trans ((egEpoch_wrN_engEpoch b e _).trans (Nat.mod_mod _ _))

/-- The entry of a fenced engine. -/
def fencedEng (x : EngSt) (cause now : Nat) (hold : Bool) : EngSt :=
  { x with saved := [], act := if hold then none else x.act, inReset := hold, cause := cause, fencedAt := now }

/-- The engine is in FENCED with its new epoch. -/
def fencedEngine (cause : Nat) (hold : Bool) : Block :=
  ((epochTaken b e).putEng e (fencedEng ((epochTaken b e).eng e) cause (epochTaken b e).now hold)).setEg e egFenced

variable (cause : Nat) (hold : Bool) (he : e < 40)
include he

theorem fencedEngine_eng_same :
    (fencedEngine b e cause hold).eng e = fencedEng { b.eng e with stores := [] } cause (epochTaken b e).now hold := by
  rw [fencedEngine, eng_setEg _ he, eng_putEng_same, epochTaken_eng_same]

theorem fencedEngine_eng_ne {k : Nat} (h : k ≠ e) : (fencedEngine b e cause hold).eng k = b.eng k := by
  rw [fencedEngine, eng_setEg _ he, eng_putEng_ne _ _ h, epochTaken_eng_ne b e h]

theorem fencedEngine_egState : (fencedEngine b e cause hold).egState e = egFenced := egState_setEg _ _ he (by decide)

theorem fencedEngine_egEpoch : (fencedEngine b e cause hold).egEpoch e = (b.egEpoch e + 1) % 65536 :=
  (egEpoch_setEg _ he _).trans (epochTaken_egEpoch b e he)

end

/-- The threads that a fence suspends: none where the engine holds no set, those on the engine where the set runs elsewhere too, else all
of the set's. -/
def fencedThreads (b : Block) (e : Nat) : List Nat :=
  if b.egSet e = 0xFF then [] else if b.setElsewhere e (b.egSet e) then b.onEngine e else b.threadsOf (b.egSet e)

/-- Their stages coast, where no other engine runs the set, and they are suspended. -/
def threadsFenced (b y : Block) (e : Nat) : Block :=
  (fencedThreads b e).foldl (fun (z : Block) t => z.contSuspend t ((b.onEngine e).contains t))
    (if b.setElsewhere e (b.egSet e) then y
      else (fencedThreads b e).foldl (fun (z : Block) t => (z.stagesOf t).foldl (fun (z : Block) k => z.coastStage k) z) y)

/-- The fault in the registers: the failover is counted, the engine, its cause and the fault time are named (R271). -/
def faultShown (d : Block) (e cause at_ : Nat) : Block :=
  ((d.count Reg.cntFailovers).wrN Reg.cntLastFault (2 ^ 24 * cause + 0x3F0000 + e)).wr64 Reg.cntLastFaultAt at_

/-- The fault as it is reported: its record, its event and its log entry. -/
def faultReported (z : Block) (e cause n : Nat) : Block :=
  ((z.record (sidEngine e) 0x31 (leBytes 1 cause ++ zeroBytes 1 ++ leBytes 2 (z.egEpoch e) ++ leBytes 2 n ++
    leBytes 1 z.standins.length ++ zeroBytes 1)).raisePost Reg.cntFlags 0 (sidEngine e)).log 4 0x06 (leBytes 1 e ++ leBytes 1 cause)

theorem faultReported_reports (z : Block) (e cause n : Nat) : Reports (z.setFlag Reg.cntFlags 0) (faultReported z e cause n) :=
  (((quiet_record z _ _ _ _ _).reports.setFlag_cntFlags 0).trans (raisePost_reports _ _ _ _ _)).trans (reports_log _ _ _ _)

/-- A fence: the engine, its threads, the fault, and then where its code set goes. -/
theorem fence_eq (b : Block) (e cause at_ : Nat) (hold : Bool) :
    b.fence e cause at_ hold =
      ((faultReported (faultShown (threadsFenced b (fencedEngine b e cause hold) e) e cause at_) e cause (b.egSet e)).swapDrop e).fenceQueue
        e (b.egSet e) := rfl

end Sys2Proof
end

section
/-! Continuity (10): engines that fail, are taken over, are heard again and are released (R242–R250, R253, R254, R269). -/

namespace Sys2Proof

open Sys2Proof.Machine

/-! ### Faults (R242, R243) -/

section
variable {s : State} {e : Fin 40}

section
variable (hwatched : egWatched (s.b.egState e) = true)
include hwatched

theorem lockstepMismatch_fences : Gives s (.lockstepMismatch e) (s.b.fence e 1 s.b.now true) := gives_of_eq rfl (if_pos hwatched)

theorem eccUncorrectable_fences : Gives s (.eccUncorrectable e) (s.b.fence e 2 s.b.now true) := gives_of_eq rfl (if_pos hwatched)

theorem heartbeatTimeout_silent (hsilent : (s.b.eng e).silentTo = none) :
    Gives s (.heartbeatTimeout e) (s.b.fence e 3 (s.b.now - 10000) false) := by
  refine gives_of_eq rfl ?_
  simp only [hwatched, hsilent, Bool.not_true, Bool.false_eq_true, if_false]

theorem heartbeatTimeout_injected {t : Nat} (hsilent : (s.b.eng e).silentTo = some t) (hinjected : (s.b.eng e).injected = true) :
    Gives s (.heartbeatTimeout e) (s.b.fence e 5 (t - 12000) false) := by
  refine gives_of_eq rfl ?_
  simp only [hwatched, hsilent, hinjected, Bool.not_true, Bool.false_eq_true, if_false, if_true]

end

section
variable (hunwatched : egWatched (s.b.egState e) = false)
include hunwatched

theorem lockstepMismatch_unwatched : exec (.lockstepMismatch e) s = .next s :=
  gives_of_eq (b' := s.b) rfl (if_neg (Bool.eq_false_iff.1 hunwatched))

theorem eccUncorrectable_unwatched : exec (.eccUncorrectable e) s = .next s :=
  gives_of_eq (b' := s.b) rfl (if_neg (Bool.eq_false_iff.1 hunwatched))

theorem heartbeatTimeout_unwatched : exec (.heartbeatTimeout e) s = .next s := by
  refine gives_of_eq (b' := s.b) rfl ?_
  simp only [hunwatched, Bool.not_false, if_true]

end

/-! ### Takeover (R247, R250) -/

theorem standinLoadDone_takesOver {i : TakeItem} (hdev : s.b.dev ≠ dsRestart) (hcontrol : e.val < 36)
    (htaking : s.b.cont.taking = some (i, e.val)) :
    let b := ({ s.b with cont := { s.b.cont with taking := none } } : Block).takeOverSet i e
    Gives s (.standinLoadDone e) ((b.threadsOf i.set).foldl (fun (b : Block) t => b.contRestore t) b).nextTakeover := by
  refine gives_of_eq rfl ?_
  simp only [beq_eq_false_iff_ne.2 hdev, Nat.not_le.2 hcontrol, htaking, Bool.false_eq_true, if_false, ne_eq, not_true_eq_false]

theorem standinLoadDone_service (hdev : s.b.dev ≠ dsRestart) (hservice : 36 ≤ e.val)
    (helsewhere : s.b.setElsewhere e (s.b.egSet e) = true) : Gives s (.standinLoadDone e)
      ((s.b.threadsOf (s.b.egSet e)).foldl (fun (b : Block) t => b.contRestore t) s.b).serviceBack := by
  refine gives_of_eq rfl ?_
  simp only [beq_eq_false_iff_ne.2 hdev, hservice, helsewhere, Bool.false_eq_true, if_false, if_true]

/-! ### Quarantine (R253) -/

/-- The entry of an engine that is held in reset until a release. -/
def heldEng (x : EngSt) : EngSt := { x with act := none, saved := [], inReset := true, silentTo := none, injected := false }

/-- The engine is in QUARANTINED, and the event names it and the time it was silent. -/
def quarantined (b : Block) (e : Nat) : Block :=
  let u := (b.putEng e (heldEng (b.eng e))).setEg e egQuarantined
  u.raisePost Reg.cntFlags 2 (sidEngine e) (leBytes 1 e ++ zeroBytes 7 ++ leBytes 8 (u.now - ((b.eng e).fencedAt - 10000)))

theorem aliveAfterDeath_quarantines (hfenced : s.b.egState e = egFenced) (hlistening : (s.b.eng e).inReset = false) :
    Gives s (.aliveAfterDeath e) (quarantined s.b e) := by
  refine gives_of_eq rfl ?_
  simp only [hfenced, hlistening, bne_self_eq_false, Bool.or_self, Bool.false_eq_true, if_false]
  rfl

theorem quarantined_egState (b : Block) {e : Nat} (he : e < 40) : (quarantined b e).egState e = egQuarantined :=
  (egState_raisePost_cntFlags _ he _ _ _).trans (egState_setEg _ _ he (by decide))

theorem quarantined_eng (b : Block) {e : Nat} (he : e < 40) : (quarantined b e).eng e = heldEng (b.eng e) := by
  rw [quarantined, eng_raisePost, eng_setEg _ he, eng_putEng_same]

/-! ### The end of a release's self-test (R254) -/

theorem releaseSelftestDone_fails {o : ServiceOp} (hrelease : (s.b.eng e).release = some o) : Gives s (.releaseSelftestDone e false)
    (((s.b.putEng e { s.b.eng e with release := none, cause := 4 }).setEg e egFenced).settle o true stLimit 0x01) := by
  refine gives_of_eq rfl ?_
  simp only [hrelease, Bool.not_false, Bool.false_eq_true, if_true, if_false]

/-- The release is no longer under way, and the engine has a new epoch. -/
def selftestPassed (b : Block) (e : Nat) : Block :=
  let b := b.putEng e { b.eng e with release := none, cause := 0 }
  b.wrN (Reg.engEpoch e) ((b.egEpoch e + 1) % 65536)

/-- The engine is a stand-in: out of reset, empty, with no code set. -/
def releasedStandin (b : Block) (e : Nat) : Block :=
  ((b.putEng e { b.eng e with epoch := b.egEpoch e, inReset := false, ctx := {}, dram := [] }).wrN (Reg.engRole e) (1 + 256 * 0xFF)).setEg
    e egStandin

theorem releaseSelftestDone_passes {o : ServiceOp} (hrelease : (s.b.eng e).release = some o) (hcontrol : e.val < 36) :
    Gives s (.releaseSelftestDone e true) (((releasedStandin (selftestPassed s.b e) e).settle o true stDone).nextTakeover) := by
  refine gives_of_eq rfl ?_
  simp only [hrelease, Nat.not_le.2 hcontrol, Bool.not_true, Bool.false_eq_true, if_true, if_false]
  rfl

theorem releasedStandin_eng (b : Block) {e : Nat} (he : e < 40) :
    (releasedStandin b e).eng e = { b.eng e with epoch := b.egEpoch e, inReset := false, ctx := {}, dram := [] } := by
  rw [releasedStandin, eng_setEg _ he, eng_wrN, eng_putEng_same]

theorem releasedStandin_egRole (b : Block) {e : Nat} (he : e < 40) : (releasedStandin b e).egRole e = 1 :=
  (egRole_setEg _ he _).trans (egRole_wrN_engRole _ e _)

end

theorem injectSilenceEnd_speaks {s : State} {e : Fin 40} (hinjected : (s.b.eng e).injected = true) :
    Gives s (.injectSilenceEnd e) (s.b.putEng e { s.b.eng e with silentTo := none, injected := false }) :=
  gives_of_eq rfl (if_pos hinjected)

/-! ### The commands on an engine (R269, R270) -/

/-- A command on an engine's SID names that engine. -/
theorem engine_of_obj {c : Cmd} {e : Fin 40} (hobj : cObj c = sidEngine e) : isEngineSid (cObj c) = true ∧ cObj c - 0xB01000 = e.val := by
  rw [hobj, isEngineSid, sidEngine, decide_eq_true (by omega), decide_eq_true (by omega)]
  exact ⟨rfl, by omega⟩

/-- Beginning a release is answered QUEUED first; the answer leaves the engines. -/
theorem completes_putEng {s : State} {i : Instr} {op st : Nat} {c : Cmd} {b : Block} {e : Nat} {x : EngSt}
    (h : exec i s = .next { s with b := (b.complete op c st).putEng e x }) : Completes s i op c (b.putEng e x) st := by
  refine ⟨_, h, ?_, fun howed => complete_answered b op c st 0 [] 0 howed⟩
  obtain ⟨o, rs, fr, al, lg, ev, ns, ht, hkeep⟩ := reports_complete b op c st 0 [] 0
  rw [ht]
  exact ⟨o, rs, fr, al, lg, ev, ns, rfl, hkeep⟩

section
variable {s : State} {c : Cmd} {e : Fin 40} (hobj : cObj c = sidEngine e) (hsent : Sent s.b c roleMaintainer devCnt)
include hobj hsent

/-- A command that is sent to an engine passes the checks of its sender, its envelope and its object. -/
theorem firstRefusal_engineCmd (l : List (Option Refuse)) :
    firstRefusal (authCheck c roleMaintainer :: devCheck s.b devCnt :: envCheck c :: deny (!isEngineSid (cObj c)) stBadRef :: l) =
      firstRefusal l := by
  obtain ⟨hsid, -⟩ := engine_of_obj hobj
  obtain ⟨hauth, hdev, henv⟩ := hsent
  rw [hauth, hdev, henv, hsid]
  rfl

theorem cntRelease_queued (hstate : s.b.egState e = egFenced ∨ s.b.egState e = egQuarantined) (hnone : (s.b.eng e).release = none) :
    Completes s (.cntRelease c) 0x0902 c (s.b.putEng e { s.b.eng e with
      release := some (opOf c 0x0902), act := none, saved := [], inReset := true, silentTo := none, injected := false }) stQueued := by
  obtain ⟨-, he⟩ := engine_of_obj hobj
  refine completes_putEng (gives_accept rfl ((firstRefusal_engineCmd hobj hsent _).trans ?_) ?_)
  · rw [he, firstRefusal_deny, hnone]
    obtain hst | hst := hstate <;> rw [hst] <;> rfl
  · dsimp only
    rw [he, (reports_complete _ _ _ _ _ _ _).eng]

theorem cntRelease_conflict (hstate : ¬(s.b.egState e = egFenced ∨ s.b.egState e = egQuarantined)) :
    Completes s (.cntRelease c) 0x0902 c s.b stConflict := by
  obtain ⟨-, he⟩ := engine_of_obj hobj
  rw [not_or] at hstate
  obtain ⟨hfenced, hquarantined⟩ := hstate
  refine completes_accept_refused (r := { status := stConflict, code := s.b.egState e }) rfl
    ((firstRefusal_engineCmd hobj hsent _).trans ?_)
  rw [he, firstRefusal_deny, beq_eq_false_iff_ne.2 hfenced, beq_eq_false_iff_ne.2 hquarantined]
  rfl

theorem firstRefusal_cntInject (hcause : u8 (cArg c) 0 = 1 ∨ u8 (cArg c) 0 = 3) :
    firstRefusal [authCheck c roleMaintainer, devCheck s.b devCnt, envCheck c,
        deny (!(u8 (cArg c) 0 == 1 || u8 (cArg c) 0 == 3)) stBadArg, deny (!isEngineSid (cObj c)) stBadRef,
        deny (!egWatched (s.b.egState (cObj c - 0xB01000))) stConflict 0 (s.b.egState (cObj c - 0xB01000))] =
      if egWatched (s.b.egState e) then none else some { status := stConflict, reason := 0, code := s.b.egState e } := by
  obtain ⟨hsid, he⟩ := engine_of_obj hobj
  obtain ⟨hauth, hdev, henv⟩ := hsent
  have hlegal : (u8 (cArg c) 0 == 1 || u8 (cArg c) 0 == 3) = true := by simpa only [Bool.or_eq_true, beq_iff_eq] using hcause
  rw [hauth, hdev, henv, hlegal, hsid, he]
  cases egWatched (s.b.egState e) with
  | false => rfl
  | true => rfl

theorem cntInject_fences (hwatched : egWatched (s.b.egState e) = true) (hcause : u8 (cArg c) 0 = 1) :
    Completes s (.cntInject c) 0x0903 c (s.b.fence e 5 s.b.now true) stDone := by
  obtain ⟨-, he⟩ := engine_of_obj hobj
  refine completes_runDone rfl ((firstRefusal_cntInject hobj hsent (.inl hcause)).trans (if_pos hwatched)) ?_
  rw [if_pos hcause, he]

theorem cntInject_silences (hwatched : egWatched (s.b.egState e) = true) (hcause : u8 (cArg c) 0 = 3) :
    Completes s (.cntInject c) 0x0903 c
      (s.b.putEng e { s.b.eng e with silentTo := some (s.b.now + 12000), injected := true }) stDone := by
  obtain ⟨-, he⟩ := engine_of_obj hobj
  refine completes_runDone rfl ((firstRefusal_cntInject hobj hsent (.inr hcause)).trans (if_pos hwatched)) ?_
  rw [if_neg (by omega), he]

theorem cntInject_conflict (hunwatched : egWatched (s.b.egState e) = false) (hcause : u8 (cArg c) 0 = 1 ∨ u8 (cArg c) 0 = 3) :
    Completes s (.cntInject c) 0x0903 c s.b stConflict :=
  completes_runDone_refused rfl
    ((firstRefusal_cntInject hobj hsent hcause).trans (if_neg (Bool.eq_false_iff.1 hunwatched)))

end

/-- Settles O34: each fault, the takeover's end, quarantine, release and injection by its own lemma, and the fence by what it does to the
engine, to its threads and in the registers. -/
theorem engineFaultsAreFencedAndReleased : Obligations.EngineFaultsAreFencedAndReleased := by
  unfold Obligations.EngineFaultsAreFencedAndReleased
  refine ⟨fun s e hwatched => ⟨lockstepMismatch_fences hwatched, eccUncorrectable_fences hwatched, heartbeatTimeout_silent hwatched,
      fun t => heartbeatTimeout_injected hwatched⟩,
    fun s e hunwatched => ⟨lockstepMismatch_unwatched hunwatched, eccUncorrectable_unwatched hunwatched,
      heartbeatTimeout_unwatched hunwatched⟩,
    fun s e i => standinLoadDone_takesOver, fun s e => standinLoadDone_service, fun s e hfenced hlistening => ?_,
    fun s c e hobj hsent => ⟨cntRelease_queued hobj hsent, cntRelease_conflict hobj hsent⟩,
    fun s e o hrelease => ⟨releaseSelftestDone_fails hrelease, fun hcontrol => ?_⟩,
    fun s c e hobj hsent => ⟨cntInject_fences hobj hsent, cntInject_silences hobj hsent, cntInject_conflict hobj hsent⟩,
    fun s e => injectSilenceEnd_speaks, fun b e cause at_ hold he => ?_⟩
  · have heng := quarantined_eng s.b e.isLt
    exact ⟨_, aliveAfterDeath_quarantines hfenced hlistening, quarantined_egState _ e.isLt, congrArg EngSt.inReset heng,
      congrArg EngSt.act heng, bit_raisePost_cntFlags _ _ _ (by decide)⟩
  · have heng := releasedStandin_eng (selftestPassed s.b e) e.isLt
    exact ⟨_, releaseSelftestDone_passes hrelease hcontrol, egState_setEg _ _ e.isLt (by decide), congrArg EngSt.inReset heng,
      congrArg EngSt.ctx heng, congrArg EngSt.dram heng, releasedStandin_egRole _ e.isLt⟩
  · have hstate := fencedEngine_egState b e cause hold he
    have heng := fencedEngine_eng_same b e cause hold he
    exact ⟨fencedEngine b e cause hold, _, hstate, stale_of_fenced hstate, fencedEngine_egEpoch b e cause hold he,
      congrArg EngSt.stores heng, congrArg EngSt.saved heng, congrArg EngSt.inReset heng,
      fun hheld => (congrArg EngSt.act heng).trans (if_pos hheld), fun k => fencedEngine_eng_ne b e cause hold he,
      faultReported_reports _ e cause (b.egSet e), fence_eq b e cause at_ hold⟩

end Sys2Proof
end

section
/-! Time (12): a tick of the TIME domain (R291, R292). -/

namespace Sys2Proof

open Sys2Proof.Machine

theorem step_of_empty {s : State} (h : s.pending = []) : step s = .next { s with b := s.b.tick } := by
  unfold step
  rw [h]

/-- The nominal 4 ns with FREQ and SLEW, and the part of a nanosecond that the ticks before left over, in units of 2⁻³² ns (R291). -/
def steeredTotal (b : Block) : Nat :=
  (4 * (2 : Int) ^ 32 + (4 * (toSigned 32 (b.rdN Reg.tbFreq) + toSigned 32 (b.rdN Reg.tbSlew)) * (2 : Int) ^ 32) / 10 ^ 12 +
    (b.frac : Int)).toNat

section
variable {b : Block}

/-- A tick of a controller that runs moves the timebase, the part of a nanosecond and the elapsed time, and nothing else. -/
theorem timeTick_started (h : b.started = true) : b.timeTick =
    { b with now := b.now + steeredTotal b / 2 ^ 32, frac := steeredTotal b % 2 ^ 32, elapsed := b.elapsed + 4 } := by
  rw [Block.timeTick, h, steeredTotal]
  norm_num

theorem timeTick_stopped (h : b.started = false) : b.timeTick = { b with elapsed := b.elapsed + 4 } := by
  rw [Block.timeTick, h]
  rfl

theorem tick_started (h : b.started = true) : b.tick = b.timeTick.axesTick.dacsTick.ledgerTick.readyWait := if_pos h

theorem tick_stopped (h : b.started = false) : b.tick = b.timeTick := if_neg (Bool.eq_false_iff.1 h)

theorem timeTick_elapsed : b.timeTick.elapsed = b.elapsed + 4 := by
  cases h : b.started with
  | true => rw [timeTick_started h]
  | false => rw [timeTick_stopped h]

theorem timeTick_regs : b.timeTick.regs = b.regs := by
  cases h : b.started with
  | true => rw [timeTick_started h]
  | false => rw [timeTick_stopped h]

end

/-- Settles O17: a tick of a controller that runs is the steered one, and one of a controller that stands still moves the elapsed time
alone. -/
theorem emptyQueueTicksTheTimebase : Obligations.EmptyQueueTicksTheTimebase := by
  unfold Obligations.EmptyQueueTicksTheTimebase
  intro s hempty ppt total
  have htotal : total = steeredTotal s.b := rfl
  refine ⟨step_of_empty hempty, timeTick_elapsed, timeTick_regs, fun hruns => ?_, fun hstops => ?_⟩
  · rw [htotal, tick_started hruns, timeTick_started hruns]
    exact ⟨rfl, rfl, rfl⟩
  · rw [tick_stopped hstops, timeTick_stopped hstops]
    exact ⟨rfl, rfl⟩

end Sys2Proof
end

section
/-! Time (12): what the timebase's operations leave of the time and of its own state (R293, R297, R301). -/

namespace Sys2Proof

open Sys2Proof.Machine

theorem Reports.now {b t : Block} (h : Reports b t) : t.now = b.now := by
  obtain ⟨o, rs, fr, al, lg, ev, ns, rfl, -⟩ := h
  rfl

theorem Reports.tim {b t : Block} (h : Reports b t) : t.tim = b.tim := by
  obtain ⟨o, rs, fr, al, lg, ev, ns, rfl, -⟩ := h
  rfl

/-! ### Writes and reports (02 R34, R38) -/

section
variable (b : Block)

@[simp] theorem wrN_now (off v : Nat) : (b.wrN off v).now = b.now := wr_now _ _ _

@[simp] theorem wr64_now (off v : Nat) : (b.wr64 off v).now = b.now := (wr_now _ _ _).trans (wr_now _ _ _)

@[simp] theorem count_now (off n : Nat) : (b.count off n).now = b.now := wr_now _ _ _

@[simp] theorem count48_now (off n : Nat) : (b.count48 off n).now = b.now := wr64_now _ _ _

@[simp] theorem blkCount_now (ev n : Nat) : (b.blkCount ev n).now = b.now := (quiet_blkCount b ev n).now

@[simp] theorem record_now (sid typ : Nat) (payload : List Byte) (pass : Bool) (val : Option Rat) :
    (b.record sid typ payload pass val).now = b.now := (quiet_record _ _ _ _ _ _).now

@[simp] theorem raise_now (off bit sid : Nat) (d : List Byte) : (b.raise off bit sid d).now = b.now :=
  (raise_reports _ _ _ _ _).now.trans ((wr_now _ _ _).trans (wr_now _ _ _))

@[simp] theorem raise_tim (off bit sid : Nat) (d : List Byte) : (b.raise off bit sid d).tim = b.tim :=
  (raise_reports _ _ _ _ _).tim.trans ((wr_tim _ _ _).trans (wr_tim _ _ _))

@[simp] theorem setFld_tim (off lo n x : Nat) : (b.setFld off lo n x).tim = b.tim := wr_tim _ _ _

@[simp] theorem setTim_tim (x : TimeSt) : (b.setTim x).tim = x := rfl

/-! ### A step of the timebase (R297): what it does to actions and time pins takes no time -/

@[simp] theorem setQueue_now (q : List Pend) : (b.setQueue q).now = b.now :=
  (foldl_keeps Block.now _ (fun a _ => wr_now a _ _) _ _).trans (wr_now _ _ _)

@[simp] theorem actionRec_now (p : Pend) (st rs l : Nat) : (b.actionRec p st rs l).now = b.now := record_now _ _ _ _ _ _

@[simp] theorem lnFlag_now (n i : Nat) : (b.lnFlag n i).now = b.now := raise_now _ _ _ _ _

@[simp] theorem endAction_now (p : Pend) (st rs l : Nat) : (b.endAction p st rs l).now = b.now := by
  unfold Block.endAction
  extract_lets b1 b2 b3 b4
  have h2 : b2.now = b.now := by
    simp only [b2]
    split <;> simp [b1]
  have h3 : b3.now = b.now := by
    simp only [b3]
    split <;> simp [h2]
  have h4 : b4.now = b.now := (actionRec_now _ _ _ _ _).trans h3
  split
  · split_ifs <;> simp [h4]
  · exact h4

@[simp] theorem timeAction_now (p : Pend) (due : Nat) : (b.timeAction p due).1.now = b.now := by
  unfold Block.timeAction
  split
  · dsimp only
    split <;> simp
  · exact setQueue_now _ _

@[simp] theorem skipActions_now (old : Nat) : (b.skipActions old).now = b.now :=
  foldl_keeps Block.now _ (fun a _ => timeAction_now a _ _) _ _

@[simp] theorem putTout_now (n : Nat) (x : ToutSt) : (b.putTout n x).now = b.now := rfl

@[simp] theorem toutLate_now (n start : Nat) : (b.toutLate n start).now = b.now :=
  (record_now _ _ _ _ _ _).trans (raise_now _ _ _ _ _)

@[simp] theorem toutStep_now (n old : Nat) : (b.toutStep n old).now = b.now := by
  unfold Block.toutStep
  dsimp only
  split_ifs <;> simp

/-- Moving the relative instants leaves the time itself. -/
@[simp] theorem shift_now (d : Int) : (b.shift d).now = b.now := rfl

theorem stepTo_now (t : Nat) : (b.stepTo t).now = t := by
  refine (foldl_keeps Block.now _ (fun a n => toutStep_now a n _) _ _).trans ?_
  simp

end

end Sys2Proof
end

section
/-! Time (12): the states of the timebase (R293, R295, R303). -/

namespace Sys2Proof

open Sys2Proof.Machine

section
variable (b : Block)

/-- A word of the timebase, its flags apart, stays when one of them is raised. -/
theorem rd_raise_tbFlags {k : Nat} (bit sid : Nat) (hblock : k / 0x100000 = 0xB) (h : k ≠ Reg.tbFlags) (h4 : k ≠ Reg.tbFlags + 4) :
    (b.raise Reg.tbFlags bit sid).rd k = b.rd k := by
  have hin : isOut k = false := by
    simp only [isOut, hblock]
    decide
  have hconf : k ≠ Reg.sysStateConflicts := by
    rintro rfl
    exact absurd hblock (by decide)
  exact rd_raise_ne b bit sid _ h h4 hin (by omega) hconf

/-- A state entered with the flags that leaving LOCKED and entering HOLDOVER set, before the change is recorded (R293, R306). -/
def enteredTb (st : Nat) : Block :=
  let b1 := b.setFld Reg.tbState 0 2 st
  let b2 := if b.tbSt = tbLocked then b1.raise Reg.tbFlags 2 sidTime else b1
  if st = tbHoldover then b2.raise Reg.tbFlags 3 sidTime else b2

theorem setTb_same {st : Nat} (h : b.tbSt = st) : b.setTb st = b := if_pos h

theorem quiet_setTb {st : Nat} (h : b.tbSt ≠ st) : Quiet (enteredTb b st) (b.setTb st) := by
  rw [show b.setTb st = _ from if_neg h]
  exact quiet_record _ _ _ _ _ _

theorem enteredTb_rd (st : Nat) {k : Nat} (hblock : k / 0x100000 = 0xB) (h : k ≠ Reg.tbFlags) (h4 : k ≠ Reg.tbFlags + 4) :
    (enteredTb b st).rd k = (b.setFld Reg.tbState 0 2 st).rd k := by
  simp only [enteredTb, apply_ite (fun c : Block => c.rd k), rd_raise_tbFlags _ _ _ hblock h h4, ite_self]

theorem enteredTb_tim (st : Nat) : (enteredTb b st).tim = b.tim := by
  simp only [enteredTb, apply_ite Block.tim, raise_tim, setFld_tim, ite_self]

theorem setTb_tbSt {st : Nat} (hst : st < 4) : (b.setTb st).tbSt = st := by
  by_cases h : b.tbSt = st
  · rwa [setTb_same b h]
  · have hword : (b.setTb st).rd Reg.tbState = (b.setFld Reg.tbState 0 2 st).rd Reg.tbState :=
      ((quiet_setTb b h).rd rfl (by decide)).trans (enteredTb_rd b st (by decide) (by decide) (by decide))
    exact (fld_congr 0 2 hword).trans (fld_setFld_same b _ (by decide) hst)

theorem setTb_rdN_slew (st : Nat) : (b.setTb st).rdN Reg.tbSlew = b.rdN Reg.tbSlew := by
  by_cases h : b.tbSt = st
  · rw [setTb_same b h]
  · have hword : (b.setTb st).rd Reg.tbSlew = b.rd Reg.tbSlew :=
      ((quiet_setTb b h).rd rfl (by decide)).trans
        ((enteredTb_rd b st (by decide) (by decide) (by decide)).trans (rd_setFld_ne b _ _ _ (by decide)))
    exact congrArg BitVec.toNat hword

theorem setTb_tim (st : Nat) : (b.setTb st).tim = b.tim := by
  by_cases h : b.tbSt = st
  · rw [setTb_same b h]
  · exact (quiet_setTb b h).reports.tim.trans (enteredTb_tim b st)

end

/-! ### Moments of the timebase -/

section
variable {s : State}

theorem slewEnd_ends {t : Nat} (hend : s.b.tim.slewEnd = some t) (hdue : t ≤ s.b.now) :
    Gives s .slewEnd ((s.b.wrN Reg.tbSlew 0).setTim { s.b.tim with slewEnd := none }) := by
  refine gives_of_eq rfl ?_
  simp only [hend]
  exact if_neg (Nat.not_lt.2 hdue)

/-- HOLDOVER_MS without a sample ends the slew and enters HOLDOVER. -/
theorem holdoverTimeout_enters (hstate : s.b.tbSt = tbAcquiring ∨ s.b.tbSt = tbLocked)
    (hdue : s.b.tim.last + 1000000 * s.b.rdN Reg.tbHoldoverMs ≤ s.b.now) :
    Gives s .holdoverTimeout
      (((s.b.wrN Reg.tbSlew 0).setTim { s.b.tim with slewEnd := none, good := 0 }).setTb tbHoldover) := by
  refine gives_of_eq rfl (if_neg ?_)
  have hwaits : (s.b.tbSt == tbAcquiring || s.b.tbSt == tbLocked) = true := by simpa using hstate
  rw [hwaits, decide_eq_false (Nat.not_lt.2 hdue)]
  decide

theorem holdoverTimeout_holds (hstate : s.b.tbSt = tbAcquiring ∨ s.b.tbSt = tbLocked)
    (hdue : s.b.tim.last + 1000000 * s.b.rdN Reg.tbHoldoverMs ≤ s.b.now) :
    ∃ x, Gives s .holdoverTimeout x ∧ x.tbSt = tbHoldover ∧ x.rdN Reg.tbSlew = 0 ∧ x.tim.slewEnd = none :=
  ⟨_, holdoverTimeout_enters hstate hdue, setTb_tbSt _ (by decide), (setTb_rdN_slew _ _).trans (rdN_wrN_same s.b _ 0),
    congrArg TimeSt.slewEnd (setTb_tim _ _)⟩

end

end Sys2Proof
end

section
/-! Time (12): what reaches the timebase's ports and pins (R299, R301, R302). -/

namespace Sys2Proof

open Sys2Proof.Machine

/-! ### PTP stamps (R299) -/

@[simp] theorem showTxts_tim (b : Block) (p : Nat) : (b.showTxts p).tim = b.tim := by
  unfold Block.showTxts
  dsimp only
  split <;> simp only [Block.wr64, Block.wrN, wr_tim]

/-- The kinds of message whose egress is stamped: Delay_Req, Pdelay_Req and a two-step port's Pdelay_Resp. -/
def egressStamped (b : Block) (p k : Nat) : Prop := k = 1 ∨ k = 2 ∨ (k = 3 ∧ b.bit (Reg.tbPortCtrl p) 2 = false)

theorem egressStamped_iff (b : Block) (p k : Nat) :
    egressStamped b p k ↔ (k == 1 || k == 2 || (k == 3 && !b.bit (Reg.tbPortCtrl p) 2)) = true := by
  simp [egressStamped, or_assoc]

/-- The stamp of a message that leaves now, corrected by the PHY's latency. -/
def egressStamp (b : Block) (p k q : Nat) : TxStamp :=
  { time := b.now + b.fld (Reg.tbPortLatency p) 0 16, kind := k, seqId := q, lost := tget false b.tim.txtsLost p }

section
variable {s : State} {p : Fin 2} {k : Nat} (q : Nat)

theorem ptpMessageTx_unstamped (hkind : ¬egressStamped s.b p k) : exec (.ptpMessageTx p k q) s = .next s := by
  refine gives_of_eq (b' := s.b) rfl (if_pos ?_)
  rw [egressStamped_iff, Bool.not_eq_true] at hkind
  rw [hkind]
  rfl

section
variable (hkind : egressStamped s.b p k)
include hkind

theorem egress_taken : ¬(!(k == 1 || k == 2 || (k == 3 && !s.b.bit (Reg.tbPortCtrl p) 2))) = true := by
  rw [(egressStamped_iff s.b p k).1 hkind]
  decide

theorem ptpMessageTx_queues (hroom : (tget [] s.b.tim.txts p).length < 64) :
    Gives s (.ptpMessageTx p k q) ((s.b.setTim { s.b.tim with
      txts := tput s.b.tim.txts p (tget [] s.b.tim.txts p ++ [egressStamp s.b p k q]),
      txtsLost := tput s.b.tim.txtsLost p false }).showTxts p) :=
  gives_of_eq rfl ((if_neg (egress_taken hkind)).trans (if_neg (Nat.not_le.2 hroom)))

theorem ptpMessageTx_drops (hfull : 64 ≤ (tget [] s.b.tim.txts p).length) :
    Gives s (.ptpMessageTx p k q) (((s.b.count (Reg.tbPortTxtsDrops p)).raise Reg.tbFlags 5 (0xD00010 + p)).setTim
      { s.b.tim with txtsLost := tput s.b.tim.txtsLost p true }) :=
  gives_of_eq rfl ((if_neg (egress_taken hkind)).trans (if_pos hfull))

end

end

theorem rdN_txtsDrops_counted (b : Block) (p : Fin 2) (sid : Nat) (x : TimeSt) :
    (((b.count (Reg.tbPortTxtsDrops p)).raise Reg.tbFlags 5 sid).setTim x).rdN (Reg.tbPortTxtsDrops p) =
      (b.rdN (Reg.tbPortTxtsDrops p) + 1) % 2 ^ 32 := by
  have hword := rd_raise_tbFlags (b.count (Reg.tbPortTxtsDrops p)) (k := Reg.tbPortTxtsDrops p) 5 sid
    (by simp only [Reg.tbPortTxtsDrops]; omega) (by simp only [Reg.tbPortTxtsDrops, Reg.tbFlags]; omega)
    (by simp only [Reg.tbPortTxtsDrops, Reg.tbFlags]; omega)
  exact (congrArg BitVec.toNat hword).trans (rdN_wrN_same b _ _)

/-- A write that names TXTS_POP is that register's own operation. -/
theorem writeOp_txtsPop (b : Block) (ini : Ini) (p : Fin 2) (v : Word) :
    b.writeOp ini (Reg.tbPortTxtsPop p) v = some (b.onTxtsPop p v) := by
  match p with
  | 0 => rfl
  | 1 => rfl

/-- POP removes the head of the port's queue. -/
theorem txtsPop_pops {s : State} {ini : Ini} {p : Fin 2} {v : Word} {r : RegRow}
    (hreaches : Reaches s.b ini (Reg.tbPortTxtsPop p) r false) (hnarrow : r.wide = false) (hpop : v.toNat.testBit 0 = true) :
    Gives s (.txtsPop ini p v)
      ((s.b.setTim { s.b.tim with txts := tput s.b.tim.txts p ((tget [] s.b.tim.txts p).drop 1) }).showTxts p) := by
  refine gives_of_eq rfl ((writeBy_of_reaches v hreaches).trans ?_)
  rw [Block.writeIn, hnarrow, if_neg (by decide), Block.write32, writeOp_txtsPop]
  exact if_pos hpop

/-! ### Time outputs (R301) -/

@[simp] theorem tout_putTout_same (b : Block) (n : Nat) (x : ToutSt) : (b.putTout n x).tout n = x := tget_tput_same _ _ _ _

section
variable {s : State} {n : Fin 8} {t : Nat} (hnext : (s.b.tout n).next = some t) (hdue : t ≤ s.b.now)
include hnext hdue

theorem toutEdge_falls (hhigh : (s.b.tout n).level = true) :
    Gives s (.toutEdge n) (s.b.putTout n { s.b.tout n with
      level := false
      next := if s.b.toutMode n = 2 then some (nextPeriod (s.b.rd64 (Reg.tbToutStart n)) (s.b.rdN (Reg.tbToutPeriod n)) (t + 1))
        else none }) := by
  refine gives_of_eq rfl ?_
  simp only [hnext]
  exact (if_neg (Nat.not_lt.2 hdue)).trans (if_pos hhigh)

theorem toutEdge_rises (hlow : (s.b.tout n).level = false) :
    Gives s (.toutEdge n) (s.b.putTout n { s.b.tout n with
      level := true, fall := t + s.b.rdN (Reg.tbToutWidth n), next := some (t + s.b.rdN (Reg.tbToutWidth n)) }) := by
  refine gives_of_eq rfl ?_
  simp only [hnext]
  exact (if_neg (Nat.not_lt.2 hdue)).trans (if_neg (Bool.eq_false_iff.1 hlow))

theorem toutEdge_toggles : ∃ x, Gives s (.toutEdge n) x ∧ (x.tout n).level = !(s.b.tout n).level ∧
    ((s.b.tout n).level = false → (x.tout n).next = some (t + s.b.rdN (Reg.tbToutWidth n))) := by
  cases hlevel : (s.b.tout n).level with
  | true => exact ⟨_, toutEdge_falls hnext hdue hlevel, congrArg ToutSt.level (tout_putTout_same _ _ _), nofun⟩
  | false =>
    exact ⟨_, toutEdge_rises hnext hdue hlevel, congrArg ToutSt.level (tout_putTout_same _ _ _),
      fun _ => congrArg ToutSt.next (tout_putTout_same _ _ _)⟩

end

/-! ### Time inputs (R302) -/

/-- Storing a pin's stamp leaves the timebase's word. -/
theorem rd_tbState_stamped (b : Block) (n v : Nat) (x : TimeSt) :
    ((b.wr64 (Reg.tbTinLast n) v).setTim x).rd Reg.tbState = b.rd Reg.tbState :=
  rd_wr64_ne b v (by simp only [Reg.tbTinLast, Reg.tbState]; omega) (by simp only [Reg.tbTinLast, Reg.tbState]; omega)

section
variable {s : State} {n : Fin 8} {up : Bool} (hsel : (s.b.fld (Reg.tbTinCtrl n) 0 2).testBit (if up then 0 else 1) = true)
include hsel

theorem tinEdge_selected : ¬(!(s.b.fld (Reg.tbTinCtrl n) 0 2).testBit (if up then 0 else 1)) = true := by
  rw [hsel]
  decide

theorem tinEdge_drops {t : Nat} (hlast : tget? s.b.tim.tinAt n = some t) (hearly : s.b.now < t + 16) :
    Gives s (.tinEdge n up) ((s.b.count (Reg.tbTinDrops n)).raise Reg.tbFlags 7 (sidTin n)) := by
  refine gives_of_eq rfl ((if_neg (tinEdge_selected hsel)).trans ?_)
  simp only [hlast]
  exact if_pos (decide_eq_true hearly)

theorem tinEdge_stamps (hlater : ∀ t, tget? s.b.tim.tinAt n = some t → t + 16 ≤ s.b.now) :
    Gives s (.tinEdge n up) ((((((s.b.wr64 (Reg.tbTinLast n) s.b.now).setTim
      { s.b.tim with tinAt := tput s.b.tim.tinAt n s.b.now }).record (sidTin n) 0x48
        (leBytes 1 3 ++ leBytes 1 s.b.tbSt ++ leBytes 1 s.b.tbSource ++ zeroBytes 5 ++ leBytes 8 s.b.now)).arrive (sidTin n)
          (BitVec.ofNat 64 s.b.now)).zcAll n)) := by
  have htaken : (match tget? s.b.tim.tinAt n with | some t => decide (s.b.now < t + 16) | none => false) = false := by
    cases hlast : tget? s.b.tim.tinAt n with
    | none => rfl
    | some t => exact decide_eq_false (Nat.not_lt.2 (hlater t hlast))
  have hword := rd_tbState_stamped s.b n s.b.now { s.b.tim with tinAt := tput s.b.tim.tinAt n s.b.now }
  have hst : Block.tbSt _ = s.b.tbSt := fld_congr 0 2 hword
  have hsource : Block.tbSource _ = s.b.tbSource := fld_congr 8 2 hword
  refine gives_of_eq rfl ((if_neg (tinEdge_selected hsel)).trans ((if_neg (Bool.eq_false_iff.1 htaken)).trans ?_))
  simp only [hst, hsource, record_now, setTim_now, wr64_now]

end

end Sys2Proof
end

section
/-! Time (12): the timebase's commands (R296, R297, R301, R304, R305). -/

namespace Sys2Proof

open Sys2Proof.Machine

section
variable {s : State} {c : Cmd}

theorem firstRefusal_tbPre {role : Nat} (hsent : Sent s.b c role devLive) (l : List (Option Refuse)) :
    firstRefusal (s.b.tbPre c role ++ l) = firstRefusal l := by
  obtain ⟨hauth, hdev, henv⟩ := hsent
  rw [Block.tbPre, hauth, hdev, henv]
  rfl

section
variable (hobj : cObj c = 0)
include hobj

theorem firstRefusal_tbPre_noObject {role : Nat} (hsent : Sent s.b c role devLive) (l : List (Option Refuse)) :
    firstRefusal (s.b.tbPre c role ++ noObject c :: l) = firstRefusal l :=
  firstRefusal_sent hsent hobj l

/-- Selecting a source goes FREE. -/
theorem tbSource_done (hsent : Sent s.b c roleMaintainer devLive) (harg : u8 (cArg c) 0 ≤ 2) :
    Completes s (.tbSource c) 0x0B01 c
      (((s.b.setTb tbFree).setFld Reg.tbState 8 2 (u8 (cArg c) 0)).setTim { s.b.tim with good := 0 }) stDone := by
  refine completes_runDone rfl ((firstRefusal_tbPre_noObject hobj hsent _).trans ?_) rfl
  rw [firstRefusal_deny, decide_eq_false (Nat.not_lt.2 harg)]
  rfl

section
variable (hoff : s.b.tbSource = 0)
include hoff

omit hobj in
theorem tbSourceOff_none : s.b.tbSourceOff = none := by
  rw [Block.tbSourceOff, hoff]
  rfl

/-- With a tick's multiple and source OFF, only the lanes can refuse a step (R296, R304). -/
theorem firstRefusal_tbSet (hsent : Sent s.b c roleMaintainer devLive) (htick : u64 (cArg c) 0 % 4 = 0) :
    firstRefusal (s.b.tbPre c roleMaintainer ++ [noObject c, deny (u64 (cArg c) 0 % 4 != 0) stBadArg, s.b.tbSourceOff,
      deny (!s.b.stepAllowed) stConflict 0x01 s.b.tbSt]) =
    if !s.b.stepAllowed then some { status := stConflict, reason := 0x01, code := s.b.tbSt } else none := by
  rw [firstRefusal_tbPre_noObject hobj hsent, firstRefusal_deny, htick, tbSourceOff_none hoff]
  exact firstRefusal_deny _ _ _ _ _

theorem tbSet_done (hsent : Sent s.b c roleMaintainer devLive) (htick : u64 (cArg c) 0 % 4 = 0) (hallowed : s.b.stepAllowed = true) :
    Completes s (.tbSet c) 0x0B02 c (s.b.stepTo (u64 (cArg c) 0)) stDone :=
  completes_runDone rfl ((firstRefusal_tbSet hobj hoff hsent htick).trans (if_neg (by rw [hallowed]; decide))) rfl

theorem tbSet_conflict (hsent : Sent s.b c roleMaintainer devLive) (htick : u64 (cArg c) 0 % 4 = 0)
    (hlanes : s.b.stepAllowed = false) : Completes s (.tbSet c) 0x0B02 c s.b stConflict 0x01 :=
  completes_runDone_refused rfl ((firstRefusal_tbSet hobj hoff hsent htick).trans (if_pos (by rw [hlanes]; rfl)))

section
variable (hsent : Sent s.b c roleOperator devLive) (hsmall : (toSigned 64 (u64 (cArg c) 0)).natAbs ≤ 1000000000)
include hsent hsmall

theorem firstRefusal_tbAdjust :
    firstRefusal (s.b.tbPre c roleOperator ++ [noObject c,
      deny (decide (1000000000 < (toSigned 64 (u64 (cArg c) 0)).natAbs)) stBadArg, s.b.tbSourceOff]) = none := by
  rw [firstRefusal_tbPre_noObject hobj hsent, firstRefusal_deny, decide_eq_false (Nat.not_lt.2 hsmall), tbSourceOff_none hoff]
  rfl

theorem tbAdjust_stops (hnone : toSigned 64 (u64 (cArg c) 0) = 0 ∨ s.b.fld Reg.tbLimits 0 16 = 0) :
    Completes s (.tbAdjust c) 0x0B03 c ((s.b.wrN Reg.tbSlew 0).setTim { s.b.tim with slewEnd := none }) stDone :=
  completes_runDone rfl (firstRefusal_tbAdjust hobj hoff hsent hsmall) (if_pos hnone)

/-- The slew runs at SLEW_MAX in the offset's direction, for the time the offset takes. -/
theorem tbAdjust_slews (hoffset : toSigned 64 (u64 (cArg c) 0) ≠ 0) (hlimit : s.b.fld Reg.tbLimits 0 16 ≠ 0) :
    let x := toSigned 64 (u64 (cArg c) 0)
    let ppm := s.b.fld Reg.tbLimits 0 16
    Completes s (.tbAdjust c) 0x0B03 c
      ((s.b.wrN Reg.tbSlew (ofSigned 32 (if x < 0 then -(ppm * 1000000 : Int) else ppm * 1000000))).setTim
        { s.b.tim with slewEnd := some (s.b.now + (x.natAbs * 1000000 + ppm - 1) / ppm) }) stDone :=
  completes_runDone rfl (firstRefusal_tbAdjust hobj hoff hsent hsmall) (if_neg (not_or.2 ⟨hoffset, hlimit⟩))

end

end

end

/-! ### TB.TOUT and TB.TIN (R301, R304) -/

section
variable {n : Fin 8}

theorem toutPin (hobj : cObj c = sidTout n) : cObj c - 0xD00100 = n := by
  rw [hobj, sidTout]
  omega

/-- What can refuse TB.TOUT (R304). -/
def toutRefusals (b : Block) (c : Cmd) : List (Option Refuse) :=
  b.tbPre c roleOperator ++ [
    deny (3 < u8 (cArg c) 0 || 3 ≤ u8 (cArg c) 1 || u32 (cArg c) 16 % 4 != 0 || u32 (cArg c) 16 < 8 ||
      u32 (cArg c) 16 ≤ u32 (cArg c) 20) stBadArg,
    deny (!(0xD00100 ≤ cObj c && cObj c ≤ 0xD00107)) stBadRef]

theorem firstRefusal_toutRefusals (hsent : Sent s.b c roleOperator devLive) (hobj : cObj c = sidTout n) (hmode : u8 (cArg c) 0 ≤ 3)
    (hpolicy : u8 (cArg c) 1 < 3) (hticks : u32 (cArg c) 16 % 4 = 0) (hperiod : 8 ≤ u32 (cArg c) 16)
    (hwidth : u32 (cArg c) 20 < u32 (cArg c) 16) : firstRefusal (toutRefusals s.b c) = none := by
  have hargs : (decide (3 < u8 (cArg c) 0) || decide (3 ≤ u8 (cArg c) 1) || u32 (cArg c) 16 % 4 != 0 ||
      decide (u32 (cArg c) 16 < 8) || decide (u32 (cArg c) 16 ≤ u32 (cArg c) 20)) = false := by
    rw [decide_eq_false (Nat.not_lt.2 hmode), decide_eq_false (Nat.not_le.2 hpolicy), hticks, decide_eq_false (Nat.not_lt.2 hperiod),
      decide_eq_false (Nat.not_le.2 hwidth)]
    rfl
  have hpin : (!(decide (0xD00100 ≤ cObj c) && decide (cObj c ≤ 0xD00107))) = false := by
    have hn := n.isLt
    rw [hobj, sidTout, decide_eq_true (by omega), decide_eq_true (by omega)]
    rfl
  rw [toutRefusals, firstRefusal_tbPre hsent, firstRefusal_deny, hargs, if_neg (by decide), firstRefusal_deny, hpin]
  rfl

/-- A pin as TB.TOUT sets it: its mode, start, period and width, and the state it starts in, with its first edge at `run` (R301). -/
def setTout (b : Block) (n : Nat) (a : List Byte) (run : Nat) : Block :=
  ((((b.setFld (Reg.tbToutCtrl n) 0 2 (u8 a 0)).wr64 (Reg.tbToutStart n) (u64 a 8)).wrN
    (Reg.tbToutPeriod n) (u32 a 16)).wrN (Reg.tbToutWidth n) (u32 a 20)).putTout n
      (toutStart b.now (u8 a 0) (u64 a 8) (u32 a 16) run (u8 a 1))

section
variable (hobj : cObj c = sidTout n) (hpass : firstRefusal (toutRefusals s.b c) = none)
include hobj hpass

theorem tbTout_onTime (hpolicy : u8 (cArg c) 1 < 3) (hintime : u8 (cArg c) 0 ≠ 1 ∨ s.b.now + 2000 ≤ u64 (cArg c) 8) :
    Completes s (.tbTout c) 0x0B04 c (setTout s.b n (cArg c) (u64 (cArg c) 8)) stDone := by
  have hlate : (u8 (cArg c) 0 == 1 && decide (u64 (cArg c) 8 < s.b.now + 2000)) = false := by
    simpa [imp_iff_not_or] using hintime
  refine completes_run rfl hpass ?_
  simp only [hlate, toutPin hobj, Nat.mod_eq_of_lt (Nat.lt_succ_of_lt hpolicy)]
  simp [setTout]

section
variable (hpulse : u8 (cArg c) 0 = 1) (hnear : u64 (cArg c) 8 < s.b.now + 2000)
include hpulse hnear

omit hobj hpass in
theorem tbTout_late : (u8 (cArg c) 0 == 1 && decide (u64 (cArg c) 8 < s.b.now + 2000)) = true := by
  rw [hpulse, decide_eq_true hnear]
  rfl

theorem tbTout_dropped (hdrop : u8 (cArg c) 1 = 2) :
    Completes s (.tbTout c) 0x0B04 c (s.b.toutLate n (u64 (cArg c) 8)) stAbandoned 0x01 := by
  refine completes_run rfl hpass ?_
  simp only [tbTout_late hpulse hnear, toutPin hobj, hdrop]
  rfl

theorem tbTout_runsLate (hpolicy : u8 (cArg c) 1 < 3) (hrun : u8 (cArg c) 1 ≠ 2) :
    let b1 := s.b.toutLate n (u64 (cArg c) 8)
    let t := lateRun b1.now (u64 (cArg c) 8)
    Completes s (.tbTout c) 0x0B04 c (setTout b1 n (cArg c) t) stDoneLate 0 (leBytes 4 (t - u64 (cArg c) 8)) := by
  refine completes_run rfl hpass ?_
  simp only [tbTout_late hpulse hnear, toutPin hobj, Nat.mod_eq_of_lt (Nat.lt_succ_of_lt hpolicy)]
  simp [setTout, hrun]

end

end

theorem tbTin_done (hobj : cObj c = sidTin n) (hsent : Sent s.b c roleOperator devLive) (hedges : u8 (cArg c) 0 ≤ 3) :
    Completes s (.tbTin c) 0x0B05 c (s.b.setFld (Reg.tbTinCtrl n) 0 2 (u8 (cArg c) 0)) stDone := by
  have hpin : cObj c - 0xD00200 = n := by rw [hobj, sidTin]; omega
  have hrange : (!(decide (0xD00200 ≤ cObj c) && decide (cObj c ≤ 0xD00207))) = false := by
    have hn := n.isLt
    rw [hobj, sidTin, decide_eq_true (by omega), decide_eq_true (by omega)]
    rfl
  refine completes_runDone rfl ((firstRefusal_tbPre hsent _).trans ?_) ?_
  · rw [firstRefusal_deny, decide_eq_false (Nat.not_lt.2 hedges), if_neg (by decide), firstRefusal_deny, hrange]
    rfl
  · rw [hpin]

end

end

/-- Settles O19: each moment and each command by its own lemma; a step's time is the one it was given, whatever the step does to actions
and time pins. -/
theorem timeEventsAndCommandsComplete : Obligations.TimeEventsAndCommandsComplete := by
  unfold Obligations.TimeEventsAndCommandsComplete
  refine ⟨fun s t => slewEnd_ends, fun s => holdoverTimeout_holds, fun s p msg => does_of rfl (.refl _),
    fun s p k q hkind => ⟨fun hroom => ?_, fun hfull => ?_⟩, fun s p k q => ptpMessageTx_unstamped q,
    fun s ini p v r hreaches hnarrow hpop => ?_, fun s n t => toutEdge_toggles,
    fun s n up hsel => ⟨tinEdge_stamps hsel, fun t hlast hearly => does_of (tinEdge_drops hsel hlast hearly) (.refl _)⟩,
    fun s c hsent hobj => tbSource_done hobj hsent,
    fun s c hsent hobj htick hoff => ⟨fun hallowed => ⟨tbSet_done hobj hoff hsent htick hallowed, stepTo_now s.b _⟩,
      tbSet_conflict hobj hoff hsent htick⟩,
    fun s c hsent hobj hoff hsmall => ⟨tbAdjust_stops hobj hoff hsent hsmall, tbAdjust_slews hobj hoff hsent hsmall⟩,
    fun s c n hsent hobj hmode hpolicy hticks hperiod hwidth => ?_,
    fun s c n hsent hobj => tbTin_done hobj hsent⟩
  · exact ⟨_, ptpMessageTx_queues q hkind hroom, by rw [showTxts_tim]; exact tget_tput_same _ _ _ _⟩
  · exact ⟨_, ptpMessageTx_drops q hkind hfull, rfl, tget_tput_same _ _ _ _, rdN_txtsDrops_counted s.b p _ _⟩
  · exact ⟨_, txtsPop_pops hreaches hnarrow hpop, by rw [showTxts_tim]; exact tget_tput_same _ _ _ _⟩
  · have hpass := firstRefusal_toutRefusals hsent hobj hmode hpolicy hticks hperiod hwidth
    exact ⟨tbTout_onTime hobj hpass hpolicy, tbTout_dropped hobj hpass,
      fun hpulse hnear hrun => tbTout_runsLate hobj hpass hpulse hnear hpolicy hrun⟩

end Sys2Proof
end

section
/-! PWM (15): the commands of pairs, the writes that commit and shadow, and a pair's periods (R349–R358, R369, R370). -/

namespace Sys2Proof

open Sys2Proof.Machine

/-! ### Commands (R349, R356, R369, R370) -/

section
variable {s : State} {c : Cmd} (hsent : Sent s.b c roleOperator devLive) (hobj : cObj c = 0) (hpair : u8 (cArg c) 0 ≤ 47)
include hsent hobj hpair

/-- A pair command that is sent for one of the 48 pairs passes the checks that pair commands share. -/
theorem firstRefusal_pairPre (l : List (Option Refuse)) : firstRefusal (s.b.pairPre c ++ l) = firstRefusal l := by
  refine (firstRefusal_sent hsent hobj _).trans ((firstRefusal_deny _ _ _ _ _).trans ?_)
  rw [decide_eq_false (Nat.not_lt.2 hpair)]
  rfl

section
variable (hgood : pairCfgBad (u8 (cArg c) 0) (cArg c) = false)
include hgood

/-- A good configuration is refused for the pair's state alone. -/
theorem firstRefusal_pwmConfig :
    firstRefusal (s.b.pairPre c ++ [deny (pairCfgBad (u8 (cArg c) 0) (cArg c)) stBadArg,
      deny (s.b.prState (u8 (cArg c) 0) == pwRunning || s.b.prState (u8 (cArg c) 0) == pwRestarting) stConflict 0x01
        (s.b.prState (u8 (cArg c) 0))]) =
    if s.b.prState (u8 (cArg c) 0) == pwRunning || s.b.prState (u8 (cArg c) 0) == pwRestarting then
      some { status := stConflict, reason := 0x01, code := s.b.prState (u8 (cArg c) 0) } else none := by
  rw [firstRefusal_pairPre hsent hobj hpair, hgood, firstRefusal_deny, if_neg (by decide)]
  exact firstRefusal_deny _ _ _ _ _

section
variable (hoff : s.b.prState (u8 (cArg c) 0) = pwOff)
include hoff

/-- To a pair that is OFF the configuration is applied, and ENABLE then starts it. -/
theorem pwmConfig_applies {b' : Block}
    (hstart : (if (u8 (cArg c) 1).testBit 5 then
      ((((s.b.applyPairCfg (u8 (cArg c) 0) (cArg c)).putPr (u8 (cArg c) 0)
        { start := (s.b.applyPairCfg (u8 (cArg c) 0) (cArg c)).now + 4 }).setPrState (u8 (cArg c) 0) pwRunning).slowStart (u8 (cArg c) 0))
      else s.b.applyPairCfg (u8 (cArg c) 0) (cArg c)) = b') : Completes s (.pwmConfig c) 0x0E01 c b' stDone := by
  have huntripped : s.b.prState (u8 (cArg c) 0) ≠ pwTripped := by rw [hoff]; decide
  exact completes_runDone rfl ((firstRefusal_pwmConfig hsent hobj hpair hgood).trans (if_neg (by rw [hoff]; decide)))
    ((if_neg huntripped).trans hstart)

theorem pwmConfig_stays (hdisabled : (u8 (cArg c) 1).testBit 5 = false) :
    Completes s (.pwmConfig c) 0x0E01 c (s.b.applyPairCfg (u8 (cArg c) 0) (cArg c)) stDone :=
  pwmConfig_applies hsent hobj hpair hgood hoff (if_neg (Bool.eq_false_iff.1 hdisabled))

theorem pwmConfig_starts (henabled : (u8 (cArg c) 1).testBit 5 = true) :
    let b := s.b.applyPairCfg (u8 (cArg c) 0) (cArg c)
    Completes s (.pwmConfig c) 0x0E01 c
      (((b.putPr (u8 (cArg c) 0) { start := b.now + 4 }).setPrState (u8 (cArg c) 0) pwRunning).slowStart (u8 (cArg c) 0)) stDone :=
  pwmConfig_applies hsent hobj hpair hgood hoff (if_pos henabled)

end

theorem pwmConfig_conflict (hruns : s.b.prState (u8 (cArg c) 0) = pwRunning ∨ s.b.prState (u8 (cArg c) 0) = pwRestarting) :
    Completes s (.pwmConfig c) 0x0E01 c s.b stConflict 0x01 := by
  have hbusy : (s.b.prState (u8 (cArg c) 0) == pwRunning || s.b.prState (u8 (cArg c) 0) == pwRestarting) = true := by
    simpa only [Bool.or_eq_true, beq_iff_eq] using hruns
  exact completes_runDone_refused rfl ((firstRefusal_pwmConfig hsent hobj hpair hgood).trans (if_pos hbusy))

end

/-- A stop is refused for a pair that is OFF. -/
theorem firstRefusal_pwmStop :
    firstRefusal (s.b.pairPre c ++ [deny (s.b.prState (u8 (cArg c) 0) == pwOff) stConflict 0x02 (s.b.prState (u8 (cArg c) 0))]) =
    if s.b.prState (u8 (cArg c) 0) == pwOff then
      some { status := stConflict, reason := 0x02, code := s.b.prState (u8 (cArg c) 0) } else none := by
  rw [firstRefusal_pairPre hsent hobj hpair]
  exact firstRefusal_deny _ _ _ _ _

theorem pwmStop_done (hon : s.b.prState (u8 (cArg c) 0) ≠ pwOff) :
    Completes s (.pwmStop c) 0x0E02 c
      ((s.b.putPr (u8 (cArg c) 0) { s.b.pr (u8 (cArg c) 0) with
        stopAt := if s.b.prState (u8 (cArg c) 0) = pwTripped then 2 else 1 }).setFld (Reg.pwmPairState (u8 (cArg c) 0)) 3 1 1) stDone :=
  completes_runDone rfl ((firstRefusal_pwmStop hsent hobj hpair).trans (if_neg (by rwa [beq_iff_eq]))) rfl

theorem pwmStop_conflict (hoff : s.b.prState (u8 (cArg c) 0) = pwOff) : Completes s (.pwmStop c) 0x0E02 c s.b stConflict 0x02 :=
  completes_runDone_refused rfl ((firstRefusal_pwmStop hsent hobj hpair).trans (if_pos (beq_iff_eq.2 hoff)))

end

/-- Marking an override as waiting leaves the pair's state. -/
theorem prState_setFld_override (b : Block) (n : Nat) (x : PairSt) :
    ((b.putPr n x).setFld (Reg.pwmPairState n) 2 1 1).prState n = b.prState n :=
  (fld_setFld_apart _ _ 1 (by decide) (by decide)).trans (fld_congr 0 2 (putPr_rd b n x _))

/-- An override waits for the update point of a pair that runs, and takes effect at once on another (R356). -/
theorem pwmOverride_done {s : State} {c : Cmd} (hsent : Sent s.b c roleOperator devLive) (hobj : cObj c = 0)
    (hpair : u8 (cArg c) 0 ≤ 47) :
    let n := u8 (cArg c) 0
    let b := (s.b.putPr n { s.b.pr n with ovr := some (u8 (cArg c) 1 % 4) }).setFld (Reg.pwmPairState n) 2 1 1
    Completes s (.pwmOverride c) 0x0E03 c (if s.b.prState n = pwRunning then b else b.applyOverride n) stDone := by
  have hpass := firstRefusal_pairPre hsent hobj hpair []
  rw [List.append_nil] at hpass
  refine completes_runDone rfl hpass ?_
  rw [← prState_setFld_override s.b]

/-! ### Writes that act (R352, R355) -/

/-- A write of a pair's word is its period or duty shadow, its COMMIT, or no operation. -/
theorem writeOp_pwmPair (b : Block) (ini : Ini) (n : Fin 48) (v : Word) {off k : Nat} (hoff : off = 0xE01000 + 64 * n + k) (hk : k < 64) :
    b.writeOp ini off v = if k = 8 then some (b.writePeriodSh n v.toNat) else if k = 0xC then some (b.onDutySh n v)
      else if k = 0x20 then some (b.onPairCommit n v) else none := by
  have hpair : (off - 0xE01000) / 64 = n := by omega
  have hword : off % 64 = k := by omega
  rw [Block.writeOp, if_neg (by rw [Reg.clkTempCfg]; omega), if_neg (by rw [Reg.lgrThermal]; omega), if_pos (by omega), hpair, hword]

section
variable {s : State} {ini : Ini} {n : Fin 48} {r : RegRow} (v : Word) (hnarrow : r.wide = false)
include hnarrow

/-- A narrow register whose write names an operation does that operation. -/
theorem writeBy_of_writeOp {b x : Block} {off : Nat} (hreaches : Reaches b ini off r false) (hop : b.writeOp ini off v = some x) :
    b.writeBy ini off v = x := by
  rw [writeBy_of_reaches v hreaches, Block.writeIn, hnarrow, if_neg (by decide), Block.write32, hop]

section
variable (hreaches : Reaches s.b ini (Reg.pwmPairCommit n) r false)
include hreaches

theorem writeBy_pwmPairCommit : s.b.writeBy ini (Reg.pwmPairCommit n) v = s.b.onPairCommit n v :=
  writeBy_of_writeOp v hnarrow hreaches (writeOp_pwmPair s.b ini n v (k := 0x20) (by rw [Reg.pwmPairCommit]; omega) (by decide))

theorem pwmCommit_commits (hset : v.toNat.testBit 0 = true) : Gives s (.pwmCommit ini n v) (s.b.commitPair n) :=
  gives_of_eq rfl ((writeBy_pwmPairCommit v hnarrow hreaches).trans (if_pos hset))

theorem pwmCommit_idle (hclear : v.toNat.testBit 0 = false) : exec (.pwmCommit ini n v) s = .next s :=
  gives_of_eq (b' := s.b) rfl ((writeBy_pwmPairCommit v hnarrow hreaches).trans (if_neg (Bool.eq_false_iff.1 hclear)))

end

section
variable (hreaches : Reaches s.b ini (Reg.pwmPairDutySh n) r false)
include hreaches

theorem writeBy_pwmPairDutySh : s.b.writeBy ini (Reg.pwmPairDutySh n) v = s.b.onDutySh n v :=
  writeBy_of_writeOp v hnarrow hreaches (writeOp_pwmPair s.b ini n v (k := 0xC) (by rw [Reg.pwmPairDutySh]; omega) (by decide))

theorem dutyShWrite_shadows (hunbound : s.b.prBound n = false) : Gives s (.dutyShWrite ini n v) (s.b.writeDutySh n v.toNat) :=
  gives_of_eq rfl ((writeBy_pwmPairDutySh v hnarrow hreaches).trans (if_neg (Bool.eq_false_iff.1 hunbound)))

theorem dutyShWrite_discards (hbound : s.b.prBound n = true) : Gives s (.dutyShWrite ini n v) (s.b.prFlag n 2) :=
  gives_of_eq rfl ((writeBy_pwmPairDutySh v hnarrow hreaches).trans (if_pos hbound))

end

end

/-- The low word of COMMIT_MASK commits the pairs named by both halves. -/
theorem commitMaskWrite_commits {s : State} {ini : Ini} {r : RegRow} (lo : Word) (hwide : r.wide = true)
    (hreaches : Reaches s.b ini Reg.pwmCommitMask r false) :
    Gives s (.commitMaskWrite ini lo) (({ s.b with staging := tdel s.b.staging (stageKey ini Reg.pwmCommitMask) } : Block).onCommitMask
      (lo.toNat + 2 ^ 32 * ((tget? s.b.staging (stageKey ini Reg.pwmCommitMask)).getD (s.b.regNow (Reg.pwmCommitMask + 4))).toNat)) := by
  refine gives_of_eq rfl ((writeBy_of_reaches lo hreaches).trans ?_)
  rw [Block.writeIn, hwide, if_pos rfl, if_neg (by decide), Block.write64, if_neg (by decide), if_pos rfl]

/-! ### Periods (R350, R351, R357, R358) -/

section
variable {s : State} {n : Fin 48} (hon : s.b.prState n ≠ pwOff)
include hon

theorem updatePoint_mid (hmid : s.b.prMid n = true) (hhalf : (s.b.pr n).half = false) (hslow : s.b.prSlow n = false)
    (hdue : (s.b.pr n).start + s.b.rdN (Reg.pwmPairPeriod n) ≤ s.b.now) : Gives s (.updatePoint n) (s.b.pairMid n) :=
  gives_of_eq rfl ((if_neg hon).trans ((if_pos (by rw [hmid, hhalf, hslow]; rfl)).trans (if_pos hdue)))

section
variable (hwhole : s.b.prMid n = false ∨ (s.b.pr n).half = true ∨ s.b.prSlow n = true)
include hwhole

omit hon in
theorem midpoint_over : ¬(s.b.prMid n && !(s.b.pr n).half && !s.b.prSlow n) = true := by
  obtain h | h | h := hwhole <;> simp [h]

theorem updatePoint_boundary (hdue : (s.b.pr n).start + s.b.prLength n ≤ s.b.now) :
    Gives s (.updatePoint n) (s.b.pairBoundary n ((s.b.pr n).start + s.b.prLength n)) :=
  gives_of_eq rfl ((if_neg hon).trans ((if_neg (midpoint_over hwhole)).trans (if_pos hdue)))

theorem updatePoint_early (hearly : s.b.now < (s.b.pr n).start + s.b.prLength n) : exec (.updatePoint n) s = .next s :=
  gives_of_eq (b' := s.b) rfl ((if_neg hon).trans ((if_neg (midpoint_over hwhole)).trans (if_neg (Nat.not_le.2 hearly))))

end

/-- A pair starts its next period at its PHASE after a boundary of its master, once for each boundary (R358). -/
theorem syncRestart_restarts (hmaster : s.b.fld (Reg.pwmPairSync n) 16 8 ≤ 47)
    (hmasterOn : s.b.prState (s.b.fld (Reg.pwmPairSync n) 16 8) ≠ pwOff)
    (hnew : (s.b.pr n).synced ≠ some (s.b.pr (s.b.fld (Reg.pwmPairSync n) 16 8)).start)
    (hdue : (s.b.pr (s.b.fld (Reg.pwmPairSync n) 16 8)).start + 4 * s.b.fld (Reg.pwmPairSync n) 0 16 ≤ s.b.now) :
    Gives s (.syncRestart n)
      ((s.b.putPr n { s.b.pr n with synced := some (s.b.pr (s.b.fld (Reg.pwmPairSync n) 16 8)).start }).pairBoundary n s.b.now) := by
  refine gives_of_eq rfl (if_neg ?_)
  simp only [Bool.or_eq_true, decide_eq_true_eq, not_or]
  exact ⟨⟨⟨⟨hon, Nat.not_lt.2 hmaster⟩, hmasterOn⟩, hnew⟩, Nat.not_lt.2 hdue⟩

end

section
variable {s : State} {n : Fin 48} {t : Nat} (hruns : s.b.prState n = pwRunning) (hwaits : (s.b.pr n).waitOn = some t)
include hruns hwaits

theorem zcTimeout_places (hlate : t + 20000000 ≤ s.b.now) :
    Gives s (.zcTimeout n) ((s.b.putPr n { s.b.pr n with waitOn := none, slowHigh := true }).prFlag n 3) := by
  refine gives_of_eq rfl ((if_neg ?_).trans (if_pos ?_))
  · rw [hruns]
    decide
  · simpa only [hwaits, decide_eq_true_eq] using hlate

theorem zcTimeout_early (hearly : s.b.now < t + 20000000) (hplaced : (s.b.pr n).waitOff = none) :
    exec (.zcTimeout n) s = .next s := by
  refine gives_of_eq (b' := s.b) rfl ((if_neg ?_).trans ((if_neg ?_).trans (if_neg ?_)))
  · rw [hruns]
    decide
  · simpa only [hwaits, decide_eq_true_eq, Nat.not_le] using hearly
  · simp only [hplaced, Bool.false_eq_true, not_false_eq_true]

end

end Sys2Proof
end

section
/-! The trip network (15, 23): assertion, pins and windows, and the commands of its sources (R359–R367, R369, R371, R516, R517). -/

namespace Sys2Proof

open Sys2Proof.Machine

/-! ### Assertion (R359, R361, R364) -/

section
variable {b : Block} {n : Nat}

theorem activate_inactive (hinactive : b.trpBit Reg.trpActive n = false) :
    b.activate n = ((b.setTrpBit Reg.trpActive n true).putTrp n { b.trp n with assertAt := b.now }).assertSrc n :=
  if_neg (Bool.eq_false_iff.1 hinactive)

theorem activate_active (hactive : b.trpBit Reg.trpActive n = true) : b.activate n = b := if_pos hactive

theorem assertSrc_unarmed
    (hoff : (b.tripTriggers n (b.trp n).assertAt).tripArmed = false ∨
      ((b.tripTriggers n (b.trp n).assertAt).srcCfg n).testBit 0 = false) :
    b.assertSrc n = b.tripTriggers n (b.trp n).assertAt := by
  refine if_pos ?_
  obtain h | h := hoff
  · rw [h]
    rfl
  · rw [h, Bool.not_false, Bool.or_true]

section
variable (harmed : (b.tripTriggers n (b.trp n).assertAt).tripArmed = true)
  (henabled : ((b.tripTriggers n (b.trp n).assertAt).srcCfg n).testBit 0 = true)
include harmed henabled

theorem assertSrc_live :
    ¬(!(b.tripTriggers n (b.trp n).assertAt).tripArmed || !((b.tripTriggers n (b.trp n).assertAt).srcCfg n).testBit 0) = true := by
  rw [harmed, henabled]
  decide

theorem assertSrc_fires (hopen : (b.tripTriggers n (b.trp n).assertAt).srcBlanked n = false) :
    b.assertSrc n = (b.tripTriggers n (b.trp n).assertAt).fire n :=
  (if_neg (assertSrc_live harmed henabled)).trans (if_neg (Bool.eq_false_iff.1 hopen))

theorem assertSrc_blanks (hblanked : (b.tripTriggers n (b.trp n).assertAt).srcBlanked n = true) :
    b.assertSrc n = (b.tripTriggers n (b.trp n).assertAt).putTrp n { (b.tripTriggers n (b.trp n).assertAt).trp n with blanked := true } :=
  (if_neg (assertSrc_live harmed henabled)).trans (if_pos hblanked)

end

end

/-! ### Pins, windows and the bank (R362, R364, R516, R517) -/

section
variable {s : State} {n : Fin 16} {l : Bool}

theorem tripPinEdge_level : Gives s (.tripPinEdge n l 0) ((s.b.putTrp n { s.b.trp n with pin := l }).pinShow n) :=
  gives_of_eq rfl (if_pos rfl)

/-- A filter takes no pulse. -/
theorem tripPinEdge_filtered {w : Nat} (hpulse : w ≠ 0) (hfilter : s.b.srcFilter n ≠ 0) : exec (.tripPinEdge n l w) s = .next s :=
  gives_of_eq (b' := s.b) rfl ((if_neg hpulse).trans (if_pos (bne_iff_ne.2 hfilter)))

theorem tripFilterCount_activates (hfilter : s.b.srcFilter n ≠ 0) (hraw : s.b.trpBit Reg.trpRaw n = true)
    (hcounted : (s.b.trp n).since + 4 * s.b.srcFilter n ≤ s.b.now) :
    Gives s (.tripFilterCount n true) ((s.b.putTrp n { s.b.trp n with own := true }).activate n) := by
  refine gives_of_eq rfl ((if_neg ?_).trans (if_pos rfl))
  rw [decide_eq_false hfilter, hraw, decide_eq_false (Nat.not_lt.2 hcounted)]
  decide

theorem tripFilterCount_waits (hwaits : s.b.srcFilter n = 0 ∨ s.b.now < (s.b.trp n).since + 4 * s.b.srcFilter n) :
    exec (.tripFilterCount n l) s = .next s := by
  refine gives_of_eq (b' := s.b) rfl (if_pos ?_)
  obtain hnone | hearly := hwaits
  · rw [decide_eq_true hnone, Bool.true_or, Bool.true_or]
  · rw [decide_eq_true hearly, Bool.or_true]

end

theorem blankWindowEnd_fires {s : State} {n : Fin 64} (hblanked : (s.b.trp n).blanked = true)
    (hactive : s.b.trpBit Reg.trpActive n = true) (hopen : s.b.srcBlanked n = false) :
    Gives s (.blankWindowEnd n) (s.b.fire n true) :=
  gives_of_eq rfl (if_pos (by rw [hblanked, hactive, hopen]; rfl))

/-! ### Commands (R366, R369, R371) -/

/-- A command on a source's SID names that source. -/
theorem source_of_obj {c : Cmd} {n : Fin 64} (hobj : cObj c = sidSource n) : isSource (cObj c) = true ∧ cObj c - 0x601000 = n.val := by
  rw [hobj, isSource, sidSource, decide_eq_true (by omega), decide_eq_true (by omega)]
  exact ⟨rfl, by omega⟩

/-- A refused clear counts and sets its flag; what else it does is its report. -/
theorem quiet_refuseClear (b : Block) (n : Nat) : Quiet ((b.count Reg.trpClearsRefused).setFlag Reg.trpFlags 1) (b.refuseClear n) := by
  refine Quiet.trans ?_ (quiet_record _ _ _ _ _ _)
  unfold Block.raise
  dsimp only
  split
  · exact .refl _
  · exact quiet_event _ _ _ _ _ _ _ _ _ _

/-- What a clear of source `n` checks before the source's activity. -/
def clearPre (b : Block) (c : Cmd) (n : Nat) : List (Option Refuse) :=
  [authCheck c roleOperator, devCheck b devLive, envCheck c, deny (!isSource (cObj c)) stBadRef,
    deny (!b.trpBit Reg.trpLatched n) stConflict 0x02 (b.srcCode n)]

/-- The block on which a clear of source `n` completes: one of a latched source that is active has counted its refusal (R366). -/
def clearTried (b : Block) (n : Nat) : Block :=
  if b.trpBit Reg.trpLatched n && b.trpBit Reg.trpActive n then b.refuseClear n else b

section
variable {s : State} {c : Cmd} {n : Fin 64} (hobj : cObj c = sidSource n)
include hobj

section
variable (hsent : Sent s.b c roleOperator devLive)
include hsent

/-- A clear that is sent to a source is refused while that is not latched. -/
theorem firstRefusal_clearPre (l : List (Option Refuse)) :
    firstRefusal (clearPre s.b c n ++ l) =
    if !s.b.trpBit Reg.trpLatched n then some { status := stConflict, reason := 0x02, code := s.b.srcCode n } else firstRefusal l := by
  obtain ⟨hsid, -⟩ := source_of_obj hobj
  obtain ⟨hauth, hdev, henv⟩ := hsent
  rw [clearPre, hauth, hdev, henv, hsid]
  exact firstRefusal_deny (!s.b.trpBit Reg.trpLatched n) _ _ _ l

theorem trpClear_runs : exec (.trpClear c) s = .next { s with
    b := (clearTried s.b n).runDone 0x0E10 c (clearPre s.b c n ++
      [deny (s.b.trpBit Reg.trpLatched n && s.b.trpBit Reg.trpActive n) stConflict 0x01 ((clearTried s.b n).srcCode n)])
      fun b => b.clearSrc n } := by
  obtain ⟨-, hn⟩ := source_of_obj hobj
  have hcounts : ((firstRefusal (clearPre s.b c n)).isNone && (s.b.trpBit Reg.trpLatched n && s.b.trpBit Reg.trpActive n)) =
      (s.b.trpBit Reg.trpLatched n && s.b.trpBit Reg.trpActive n) := by
    rw [← List.append_nil (clearPre s.b c n), firstRefusal_clearPre hobj hsent]
    cases s.b.trpBit Reg.trpLatched n with
    | false => rfl
    | true => rfl
  have hexec : exec (.trpClear c) s = execTrpClear c s := rfl
  rw [clearPre] at hcounts
  rw [hexec, execTrpClear, nextB_eq]
  dsimp only
  rw [hn, hcounts]
  rfl

theorem trpClear_done (hlatched : s.b.trpBit Reg.trpLatched n = true) (hinactive : s.b.trpBit Reg.trpActive n = false) :
    Completes s (.trpClear c) 0x0E10 c (s.b.clearSrc n) stDone := by
  have hruns := trpClear_runs hobj hsent
  have hplain : clearTried s.b n = s.b := if_neg (by rw [hinactive, Bool.and_false]; decide)
  rw [hplain] at hruns
  refine completes_runDone hruns ((firstRefusal_clearPre hobj hsent _).trans ?_) rfl
  rw [hlatched, hinactive]
  rfl

theorem trpClear_refused (hlatched : s.b.trpBit Reg.trpLatched n = true) (hactive : s.b.trpBit Reg.trpActive n = true) :
    Completes s (.trpClear c) 0x0E10 c ((s.b.count Reg.trpClearsRefused).setFlag Reg.trpFlags 1) stConflict 0x01 := by
  have hruns := trpClear_runs hobj hsent
  have htried : clearTried s.b n = s.b.refuseClear n := if_pos (by rw [hlatched, hactive]; rfl)
  have hrefused := (firstRefusal_clearPre hobj hsent
    [deny (s.b.trpBit Reg.trpLatched n && s.b.trpBit Reg.trpActive n) stConflict 0x01 ((clearTried s.b n).srcCode n)]).trans
    (if_neg (by rw [hlatched]; decide))
  rw [firstRefusal_deny, if_pos (by rw [hlatched, hactive]; rfl)] at hrefused
  rw [Block.runDone, run_refused _ _ _ _ _ _ hrefused, htried] at hruns
  exact completes_of_quiet (quiet_refuseClear s.b n) hruns

theorem trpClear_unlatched (hunlatched : s.b.trpBit Reg.trpLatched n = false) :
    Completes s (.trpClear c) 0x0E10 c s.b stConflict 0x02 := by
  have hruns := trpClear_runs hobj hsent
  have hplain : clearTried s.b n = s.b := if_neg (by rw [hunlatched, Bool.false_and]; decide)
  rw [hplain] at hruns
  exact completes_runDone_refused hruns ((firstRefusal_clearPre hobj hsent _).trans (if_pos (by rw [hunlatched]; rfl)))

/-- The sources from 48 on are software's to assert. -/
theorem firstRefusal_trpAssert :
    firstRefusal [authCheck c roleOperator, devCheck s.b devLive, envCheck c,
      deny (!isSource (cObj c) || decide (cObj c - 0x601000 < 48)) stBadArg 0x02] =
    if decide (n.val < 48) then some { status := stBadArg, reason := 0x02 } else none := by
  obtain ⟨hsid, hn⟩ := source_of_obj hobj
  obtain ⟨hauth, hdev, henv⟩ := hsent
  rw [hauth, hdev, henv, hsid, hn, Bool.not_true, Bool.false_or]
  exact firstRefusal_deny _ _ _ _ _

theorem trpAssert_drives (hsoft : 48 ≤ n.val) :
    Completes s (.trpAssert c) 0x0E12 c (s.b.driveSrc n ((u8 (cArg c) 0).testBit 0)) stDone :=
  completes_runDone rfl ((firstRefusal_trpAssert hobj hsent).trans (if_neg (by rwa [decide_eq_true_eq, Nat.not_lt])))
    (by rw [(source_of_obj hobj).2])

theorem trpAssert_refused (hhard : n.val < 48) : Completes s (.trpAssert c) 0x0E12 c s.b stBadArg 0x02 :=
  completes_runDone_refused rfl ((firstRefusal_trpAssert hobj hsent).trans (if_pos (decide_eq_true hhard)))

end

section
variable (hsent : Sent s.b c roleMaintainer devLive)
include hsent

/-- The sources from 16 to 47 are not TRP.CONFIG's to configure. -/
theorem firstRefusal_trpConfig (l : List (Option Refuse)) :
    firstRefusal ([authCheck c roleMaintainer, devCheck s.b devLive, envCheck c,
      deny (isSource (cObj c) && decide (16 ≤ cObj c - 0x601000) && decide (cObj c - 0x601000 < 48)) stBadArg 0x01] ++ l) =
    if decide (16 ≤ n.val) && decide (n.val < 48) then some { status := stBadArg, reason := 0x01 } else firstRefusal l := by
  obtain ⟨hsid, hn⟩ := source_of_obj hobj
  obtain ⟨hauth, hdev, henv⟩ := hsent
  rw [hauth, hdev, henv, hsid, hn, Bool.true_and]
  exact firstRefusal_deny _ _ _ _ _

theorem trpConfig_done (hown : n.val < 16 ∨ 48 ≤ n.val) (hlatching : (u32 (cArg c) 0).testBit 2 = false)
    (hwindow : field (u32 (cArg c) 0) 4 7 ≤ 95) : Completes s (.trpConfig c) 0x0E11 c (s.b.configSrc n (u32 (cArg c) 0)) stDone := by
  obtain ⟨hsid, hn⟩ := source_of_obj hobj
  refine completes_runDone rfl ((firstRefusal_trpConfig hobj hsent _).trans ((if_neg ?_).trans ?_)) (by rw [hn])
  · simp only [Bool.and_eq_true, decide_eq_true_eq]
    omega
  · rw [hsid, hlatching, decide_eq_false (Nat.not_lt.2 hwindow)]
    rfl

theorem trpConfig_refused (hlow : 16 ≤ n.val) (hhigh : n.val < 48) : Completes s (.trpConfig c) 0x0E11 c s.b stBadArg 0x01 :=
  completes_runDone_refused rfl
    ((firstRefusal_trpConfig hobj hsent _).trans (if_pos (by rw [decide_eq_true hlow, decide_eq_true hhigh]; rfl)))

end

end

/-- Settles O39: the commands, writes and moments of pairs, and what asserts, fires and clears a source, each by its own lemma. -/
theorem pwmAndTripsAct : Obligations.PwmAndTripsAct := by
  unfold Obligations.PwmAndTripsAct
  exact ⟨fun s c hsent hobj hpair hgood => ⟨pwmConfig_stays hsent hobj hpair hgood, pwmConfig_starts hsent hobj hpair hgood,
      pwmConfig_conflict hsent hobj hpair hgood⟩,
    fun s c hsent hobj hpair => ⟨pwmStop_done hsent hobj hpair, pwmStop_conflict hsent hobj hpair, pwmOverride_done hsent hobj hpair⟩,
    fun s ini n v r hnarrow => ⟨fun hreaches => ⟨pwmCommit_commits v hnarrow hreaches, pwmCommit_idle v hnarrow hreaches⟩,
      fun hreaches => ⟨dutyShWrite_shadows v hnarrow hreaches, dutyShWrite_discards v hnarrow hreaches⟩⟩,
    fun s ini lo r hwide hreaches => commitMaskWrite_commits lo hwide hreaches,
    fun s n hon => ⟨updatePoint_mid hon, updatePoint_boundary hon, fun hmid => updatePoint_early hon (.inl hmid)⟩,
    fun s n hon => syncRestart_restarts hon,
    fun s n t hruns hwaits => ⟨zcTimeout_places hruns hwaits, zcTimeout_early hruns hwaits⟩,
    fun b n => activate_inactive, fun b n => activate_active,
    fun b n => ⟨assertSrc_fires, assertSrc_blanks, assertSrc_unarmed⟩,
    fun s n l => ⟨tripPinEdge_level, fun w => tripPinEdge_filtered, tripFilterCount_activates, tripFilterCount_waits⟩,
    fun s n => blankWindowEnd_fires,
    fun s => ⟨gives_of_eq rfl rfl, gives_of_eq rfl rfl⟩,
    fun s c n hobj hsent => ⟨trpClear_done hobj hsent, trpClear_refused hobj hsent, trpClear_unlatched hobj hsent⟩,
    fun s c n hobj hsent => ⟨trpConfig_done hobj hsent, trpConfig_refused hobj hsent⟩,
    fun s c n hobj hsent => ⟨trpAssert_drives hobj hsent, trpAssert_refused hobj hsent⟩⟩

end Sys2Proof
end

section
/-! Motion (16): the commands of axes and groups (R376, R379, R381, R382, R393, R395, R396). -/

namespace Sys2Proof

open Sys2Proof.Machine

section
variable {s : State} {c : Cmd} {role : Nat} (hsent : Sent s.b c role devWorld)
include hsent

/-- A motion command that is sent is refused by what comes after the checks that motion commands share. -/
theorem firstRefusal_motPre (l : List (Option Refuse)) : firstRefusal (s.b.motPre c role ++ l) = firstRefusal l := by
  obtain ⟨hauth, hdev, henv⟩ := hsent
  rw [Block.motPre, hauth, hdev, henv]
  rfl

end

/-! ### Moves and points -/

section
variable {s : State} {c : Cmd} (hsent : Sent s.b c roleOperator devWorld)
include hsent

theorem motMove_runs
    (hpass : firstRefusal (s.b.moveRefusals (cObj c) (u8 (cArg c) 0) (u8 (cArg c) 1) (w32 (cArg c) 4)) = none) :
    Completes s (.motMove c) 0x0F01 c (s.b.moveRun (cObj c) (u8 (cArg c) 0) (u8 (cArg c) 1) (w32 (cArg c) 4)) stDone :=
  completes_runDone rfl ((firstRefusal_motPre hsent _).trans hpass) rfl

theorem motMove_refused {r : Refuse}
    (hrefused : firstRefusal (s.b.moveRefusals (cObj c) (u8 (cArg c) 0) (u8 (cArg c) 1) (w32 (cArg c) 4)) = some r) :
    Completes s (.motMove c) 0x0F01 c s.b r.status r.reason :=
  completes_runDone_refused rfl ((firstRefusal_motPre hsent _).trans hrefused)

theorem motPoint_stores {g : Nat} (hobj : cObj c = 0x702000 + g) (hgroup : isGroupSid (cObj c) = true)
    (hmembers : s.b.groupMembers g ≠ []) (hpoint : u16 (cArg c) 0 < 1024) :
    Completes s (.motPoint c) 0x0F06 c
      { s.b with cfg := tput s.b.cfg (key tGroupPoint (1024 * g + u16 (cArg c) 0)) (padTo 32 (slice (cArg c) 4 32)) } stDone := by
  have hg : cObj c - 0x702000 = g := by omega
  refine completes_runDone rfl ((firstRefusal_motPre hsent _).trans ?_) (by rw [hg])
  rw [hg, hgroup, decide_eq_false (Nat.not_le.2 hpoint), List.isEmpty_eq_false_iff.2 hmembers]
  rfl

end

/-! ### Axes -/

section
variable {s : State} {c : Cmd} {n : Fin 64} (hobj : cObj c = sidAxis n)
include hobj

/-- A command on an axis's SID names that axis. -/
theorem axis_of_obj : isAxisSid (cObj c) = true ∧ cObj c - 0x700000 = n.val := by
  rw [hobj, isAxisSid, sidAxis, decide_eq_true (by omega), decide_eq_true (by omega)]
  exact ⟨rfl, by omega⟩

variable (hpresent : s.b.axPresent n = true)
include hpresent

theorem axisRef_present : s.b.axisRef c = none := by
  obtain ⟨hsid, hn⟩ := axis_of_obj hobj
  rw [Block.axisRef, hsid, hn, hpresent]
  rfl

/-- A command that is sent to an axis of the image is refused by what comes after the checks that the commands of axes share. -/
theorem firstRefusal_axisRef {role : Nat} (hsent : Sent s.b c role devWorld) (l : List (Option Refuse)) :
    firstRefusal (s.b.motPre c role ++ s.b.axisRef c :: l) = firstRefusal l := by
  rw [firstRefusal_motPre hsent, axisRef_present hobj hpresent]
  rfl

section
variable (hsent : Sent s.b c roleOperator devWorld)
include hsent

theorem firstRefusal_motEnable :
    firstRefusal (s.b.motPre c roleOperator ++ [s.b.axisRef c,
      deny (s.b.axState (cObj c - 0x700000) == axHalted) stConflict 0x04 (s.b.axState (cObj c - 0x700000)),
      deny (!(u8 (cArg c) 0).testBit 0 && (s.b.axState (cObj c - 0x700000) == axMoving || s.b.axState (cObj c - 0x700000) == axStopping))
        stConflict 0x07 (s.b.axState (cObj c - 0x700000))]) =
    if s.b.axState n == axHalted then some { status := stConflict, reason := 0x04, code := s.b.axState n }
    else if !(u8 (cArg c) 0).testBit 0 && (s.b.axState n == axMoving || s.b.axState n == axStopping) then
      some { status := stConflict, reason := 0x07, code := s.b.axState n }
    else none := by
  obtain ⟨-, hn⟩ := axis_of_obj hobj
  rw [firstRefusal_axisRef hobj hpresent hsent, hn, firstRefusal_deny, firstRefusal_deny]
  rfl

theorem motEnable_enables (hstate : s.b.axState n = axDisabled) (hon : (u8 (cArg c) 0).testBit 0 = true) :
    Completes s (.motEnable c) 0x0F02 c ((s.b.putAx n { s.b.ax n with restAt := s.b.now }).setAx n axStandstill 1) stDone := by
  obtain ⟨-, hn⟩ := axis_of_obj hobj
  refine completes_runDone rfl ((firstRefusal_motEnable hobj hpresent hsent).trans ?_) ?_
  · rw [hstate, hon]
    rfl
  · rw [hn]
    exact (if_pos hon).trans (if_pos hstate)

theorem motEnable_disables (hstate : s.b.axState n = axStandstill) (hoff : (u8 (cArg c) 0).testBit 0 = false) :
    Completes s (.motEnable c) 0x0F02 c (s.b.setAx n axDisabled 1) stDone := by
  obtain ⟨-, hn⟩ := axis_of_obj hobj
  refine completes_runDone rfl ((firstRefusal_motEnable hobj hpresent hsent).trans ?_) ?_
  · rw [hstate, hoff]
    rfl
  · rw [hn]
    exact if_neg (Bool.eq_false_iff.1 hoff)

theorem motEnable_halted (hstate : s.b.axState n = axHalted) : Completes s (.motEnable c) 0x0F02 c s.b stConflict 0x04 :=
  completes_runDone_refused rfl ((firstRefusal_motEnable hobj hpresent hsent).trans (if_pos (beq_iff_eq.2 hstate)))

theorem motEnable_moves (hstate : s.b.axState n = axMoving ∨ s.b.axState n = axStopping) (hoff : (u8 (cArg c) 0).testBit 0 = false) :
    Completes s (.motEnable c) 0x0F02 c s.b stConflict 0x07 := by
  refine completes_runDone_refused (r := { status := stConflict, reason := 0x07, code := s.b.axState n }) rfl
    ((firstRefusal_motEnable hobj hpresent hsent).trans ?_)
  obtain h | h := hstate
  · rw [h, hoff]
    rfl
  · rw [h, hoff]
    rfl

theorem motSetPosition_sets (hrest : s.b.axState n = axStandstill ∨ s.b.axState n = axDisabled) :
    let v := s32 (cArg c) 4
    let d := s.b.axDesc n
    let k := toSigned 32 (s.b.rdN (Reg.motAxEncCount n))
    Completes s (.motSetPosition c) 0x0F04 c (((s.b.putAx n { s.b.ax n with
      cmd := v, pos := (v : Rat), offset := v - divOpen (k * (u16 d 32 : Int)) (u16 d 34) }).encShow n k).axShow n) stDone := by
  obtain ⟨-, hn⟩ := axis_of_obj hobj
  refine completes_runDone rfl ((firstRefusal_axisRef hobj hpresent hsent _).trans ?_) (by rw [hn])
  rw [hn]
  obtain h | h := hrest
  · rw [h]
    rfl
  · rw [h]
    rfl

end

section
variable (hsent : Sent s.b c roleMaintainer devWorld)
include hsent

/-- A good set for an axis of the image is not refused. -/
theorem firstRefusal_motProfile (hset : u8 (cArg c) 0 ≤ 15)
    (hgood : profileBad (s.b.axMedium n) (f32Rat (w32 (s.b.axDesc n) 8)) (f32Rat (w32 (s.b.axDesc n) 12))
      (padTo 40 (slice (cArg c) 8 40)) = false) :
    firstRefusal (s.b.motPre c roleMaintainer ++ [deny (decide (15 < u8 (cArg c) 0)) stBadArg,
      deny (isAxisSid (cObj c) && (s.b.axPresent (cObj c - 0x700000) && profileBad (s.b.axMedium (cObj c - 0x700000))
        (f32Rat (w32 (s.b.axDesc (cObj c - 0x700000)) 8)) (f32Rat (w32 (s.b.axDesc (cObj c - 0x700000)) 12))
        (padTo 40 (slice (cArg c) 8 40)))) stBadArg, s.b.axisRef c]) = none := by
  obtain ⟨-, hn⟩ := axis_of_obj hobj
  rw [firstRefusal_motPre hsent, hn, hgood, axisRef_present hobj hpresent, decide_eq_false (Nat.not_lt.2 hset), Bool.and_false,
    Bool.and_false]
  rfl

section
variable (hset : u8 (cArg c) 0 ≤ 15)
  (hgood : profileBad (s.b.axMedium n) (f32Rat (w32 (s.b.axDesc n) 8)) (f32Rat (w32 (s.b.axDesc n) 12))
    (padTo 40 (slice (cArg c) 8 40)) = false)
include hset hgood

theorem motProfile_stores (hother : (s.b.ax n).set ≠ u8 (cArg c) 0) :
    Completes s (.motProfile c) 0x0F03 c
      { s.b with cfg := tput s.b.cfg (key tProfile (16 * n.val + u8 (cArg c) 0)) (padTo 40 (slice (cArg c) 8 40)) } stDone := by
  obtain ⟨-, hn⟩ := axis_of_obj hobj
  refine completes_runDone rfl (firstRefusal_motProfile hobj hpresent hsent hset hgood) ?_
  rw [hn]
  exact if_neg fun hforce => hother hforce.1

theorem motProfile_rewrites (hforce : (s.b.ax n).set = u8 (cArg c) 0) (hmoving : s.b.axState n = axMoving) :
    Completes s (.motProfile c) 0x0F03 c
      (({ s.b with cfg := tput s.b.cfg (key tProfile (16 * n.val + u8 (cArg c) 0)) (padTo 40 (slice (cArg c) 8 40)) } : Block).setRewritten
        n (padTo 40 (slice (cArg c) 8 40))) stDone := by
  obtain ⟨-, hn⟩ := axis_of_obj hobj
  refine completes_runDone rfl (firstRefusal_motProfile hobj hpresent hsent hset hgood) ?_
  rw [hn]
  exact if_pos ⟨hforce, .inl hmoving⟩

end

section
variable (hordered : s32 (cArg c) 4 < s32 (cArg c) 8)
include hordered

/-- Ordered limits are refused for the axis's state and for its position alone. -/
theorem firstRefusal_motLimits :
    firstRefusal (s.b.motPre c roleMaintainer ++ [deny (decide (s32 (cArg c) 8 ≤ s32 (cArg c) 4)) stBadArg, s.b.axisRef c,
      deny (s.b.axState (cObj c - 0x700000) == axMoving || s.b.axState (cObj c - 0x700000) == axStopping) stConflict 0x07
        (s.b.axState (cObj c - 0x700000)),
      deny (decide (toSigned 32 (s.b.rdN (Reg.motAxCmdPos (cObj c - 0x700000))) < s32 (cArg c) 4) ||
        decide (s32 (cArg c) 8 < toSigned 32 (s.b.rdN (Reg.motAxCmdPos (cObj c - 0x700000))))) stConflict 0x08
        (s.b.axState (cObj c - 0x700000))]) =
    if s.b.axState n == axMoving || s.b.axState n == axStopping then
      some { status := stConflict, reason := 0x07, code := s.b.axState n }
    else if decide (toSigned 32 (s.b.rdN (Reg.motAxCmdPos n)) < s32 (cArg c) 4) ||
        decide (s32 (cArg c) 8 < toSigned 32 (s.b.rdN (Reg.motAxCmdPos n))) then
      some { status := stConflict, reason := 0x08, code := s.b.axState n }
    else none := by
  obtain ⟨-, hn⟩ := axis_of_obj hobj
  rw [firstRefusal_motPre hsent, hn, axisRef_present hobj hpresent, firstRefusal_deny, decide_eq_false (Int.not_le.2 hordered),
    if_neg Bool.false_ne_true]
  exact (firstRefusal_deny _ _ _ _ _).trans (by rw [firstRefusal_deny]; rfl)

theorem motLimits_moving (hmoving : s.b.axState n = axMoving) : Completes s (.motLimits c) 0x0F05 c s.b stConflict 0x07 :=
  completes_runDone_refused rfl ((firstRefusal_motLimits hobj hpresent hsent hordered).trans (if_pos (by rw [hmoving]; rfl)))

section
variable (hstill : s.b.axState n = axStandstill)
include hstill

theorem motLimits_sets (hlow : s32 (cArg c) 4 ≤ toSigned 32 (s.b.rdN (Reg.motAxCmdPos n)))
    (hhigh : toSigned 32 (s.b.rdN (Reg.motAxCmdPos n)) ≤ s32 (cArg c) 8) :
    Completes s (.motLimits c) 0x0F05 c
      (((s.b.wr (Reg.motAxLimitLo n) (w32 (cArg c) 4)).wr (Reg.motAxLimitHi n) (w32 (cArg c) 8)).setFld (Reg.motAxCfg n) 3 1
        (u8 (cArg c) 12 % 2)) stDone := by
  obtain ⟨-, hn⟩ := axis_of_obj hobj
  refine completes_runDone rfl ((firstRefusal_motLimits hobj hpresent hsent hordered).trans ?_) (by rw [hn])
  rw [hstill, decide_eq_false (Int.not_lt.2 hlow), decide_eq_false (Int.not_lt.2 hhigh)]
  rfl

theorem motLimits_outside
    (hout : toSigned 32 (s.b.rdN (Reg.motAxCmdPos n)) < s32 (cArg c) 4 ∨ s32 (cArg c) 8 < toSigned 32 (s.b.rdN (Reg.motAxCmdPos n))) :
    Completes s (.motLimits c) 0x0F05 c s.b stConflict 0x08 := by
  refine completes_runDone_refused (r := { status := stConflict, reason := 0x08, code := s.b.axState n }) rfl
    ((firstRefusal_motLimits hobj hpresent hsent hordered).trans ((if_neg ?_).trans (if_pos ?_)))
  · rw [hstill]
    decide
  · simpa only [Bool.or_eq_true, decide_eq_true_eq] using hout

end
end
end
end

end Sys2Proof
end

section
/-! Motion (16): an axis in time, its encoder and its records (R377, R380, R384, R385, R390, R391, R394). -/

namespace Sys2Proof

open Sys2Proof.Machine

/-- A MOTION record marks the axis's entry and reports (R394). -/
theorem quiet_motionRec (b : Block) (n cause : Nat) :
    Quiet (b.putAx n { b.ax n with lastRec := b.now }) (b.motionRec n cause) := quiet_record _ _ _ _ _ _

theorem motionRec_rd (b : Block) (n cause : Nat) {off : Nat} (hin : isOut off = false) (hprf : off / 0x100000 ≠ 0x15) :
    (b.motionRec n cause).rd off = b.rd off := ((quiet_motionRec b n cause).rd hin hprf).trans (putAx_rd b n _ off)

section
variable {s : State} {n : Fin 64}

theorem axisAtTarget_rests (hstate : s.b.axState n = axMoving ∨ s.b.axState n = axStopping) (hending : (s.b.ax n).ending = true)
    (hnext : (s.b.ax n).next = none) : Gives s (.axisAtTarget n) (s.b.axRest n) :=
  gives_of_eq rfl (if_pos ⟨hstate, hending, hnext⟩)

theorem axisAtSpeed_shows (hstate : s.b.axState n = axMoving) (hmode : (s.b.ax n).mode = 2) (hspeed : (s.b.ax n).s = (s.b.ax n).speed)
    (hnext : (s.b.ax n).next = none) (hnew : s.b.bit (Reg.motAxState n) 6 = false) :
    Gives s (.axisAtSpeed n) ((s.b.setFld (Reg.motAxState n) 6 1 1).axShow n) :=
  gives_of_eq rfl (if_pos ⟨hstate, hmode, hspeed, hnext, hnew⟩)

section
variable {m set : Nat} {t : Rat} (hnext : (s.b.ax n).next = some (m, t, set))
include hnext

theorem reversal_turns (hending : (s.b.ax n).ending = true) (hdue : (s.b.ax n).restAt + 4 * u8 (s.b.axDesc n) 42 ≤ s.b.now) :
    Gives s (.reversal n) (((s.b.putAx n { s.b.ax n with s := 0, a := 0, next := none, ending := false }).axRaise n 5).axBegin
      n m set t (s.b.ax n).scale (s.b.ax n).grp) := by
  refine gives_of_eq rfl ?_
  simp only [hnext, hending, decide_eq_true hdue, Bool.and_self, if_true]

theorem reversal_early (hearly : s.b.now < (s.b.ax n).restAt + 4 * u8 (s.b.axDesc n) 42) : exec (.reversal n) s = .next s := by
  refine gives_of_eq (b' := s.b) rfl ?_
  simp only [hnext, decide_eq_false (Nat.not_le.2 hearly), Bool.and_false, Bool.false_eq_true, if_false]

end

theorem resolutionSwitch_sends (hpresent : s.b.axPresent n = true) (hidle : (s.b.ax n).switching = none)
    (hswitch : (s.b.ax n).atSwitch (s.b.axDesc n) = true) :
    let w := wantEntry (s.b.axDesc n) (s.b.ax n).entry (s.b.ax n).s
    Gives s (.resolutionSwitch n) ((s.b.putAx n { s.b.ax n with switching := some w }).dcpSend n (u8 (s.b.axDesc n) (44 + w))) :=
  gives_of_eq rfl (if_pos (by rw [hpresent, hidle, hswitch]; rfl))

theorem standstillDelayExpiry_sends (hpresent : s.b.axPresent n = true) (hstill : s.b.axState n = axStandstill)
    (hunsent : (s.b.ax n).templ = false) (hdue : (s.b.ax n).restAt + 1000000 * u16 (s.b.axDesc n) 2 ≤ s.b.now) :
    let d := s.b.axDesc n
    Gives s (.standstillDelayExpiry n)
      ((s.b.putAx n { s.b.ax n with templ := true }).dcpSend n (if u8 d 1 % 4 = 1 then tmOff else if u8 d 1 % 4 = 2 then tmShort else tmHold)) :=
  gives_of_eq rfl (if_pos (by rw [hpresent, hstill, hunsent, decide_eq_true hdue]; rfl))

theorem motionRecord_writes (hpresent : s.b.axPresent n = true) (hperiod : u16 (s.b.axDesc n) 62 ≠ 0)
    (hdue : (s.b.ax n).lastRec + 1000000 * u16 (s.b.axDesc n) 62 ≤ s.b.now) : Gives s (.motionRecord n) (s.b.motionRec n 0) :=
  gives_of_eq rfl (if_pos (by rw [hpresent, bne_iff_ne.2 hperiod, decide_eq_true hdue]; rfl))

theorem motionRecord_early (hearly : s.b.now < (s.b.ax n).lastRec + 1000000 * u16 (s.b.axDesc n) 62) :
    exec (.motionRecord n) s = .next s :=
  gives_of_eq (b' := s.b) rfl (if_neg (by rw [decide_eq_false (Nat.not_le.2 hearly), Bool.and_false]; exact Bool.false_ne_true))

/-! ### Deviation (R391) -/

/-- What a deviation shows before it acts: DEVIATION in the status word and in FLAGS, and its record. -/
def deviationShown (b : Block) (n : Nat) : Block :=
  ((((b.setFld (Reg.motAxState n) 9 1 1).axShow n).raisePost (Reg.motAxFlags n) 2 (sidAxis n)).raise Reg.motFlags 2).motionRec n 3

/-- The flags of the 64 axes lie among the words of motion, apart from the block's own flags. -/
theorem motAxFlags_plain (n : Fin 64) : isOut (Reg.motAxFlags n) = false ∧ Reg.motAxFlags n / 0x100000 = 0xF ∧
    Reg.motFlags + 4 < Reg.motAxFlags n := by
  have hblock : Reg.motAxFlags n / 0x100000 = 0xF := by
    unfold Reg.motAxFlags
    omega
  refine ⟨by rw [isOut, hblock]; rfl, hblock, ?_⟩
  unfold Reg.motAxFlags Reg.motFlags
  omega

theorem deviationShown_axis (b : Block) (n : Fin 64) : (deviationShown b n).bit (Reg.motAxFlags n) 2 = true := by
  obtain ⟨hin, hblock, hapart⟩ := motAxFlags_plain n
  have hprf : Reg.motAxFlags n / 0x100000 ≠ 0x15 := by omega
  have hconf : Reg.motAxFlags n ≠ Reg.sysStateConflicts := by
    unfold Reg.motFlags at hapart
    unfold Reg.sysStateConflicts
    omega
  have hraised := raisePost_reports ((b.setFld (Reg.motAxState n) 9 1 1).axShow n) (Reg.motAxFlags n) 2 (sidAxis n) []
  refine (bit_congr 2 (((motionRec_rd _ n 3 hin hprf).trans ?_).trans (hraised.rd hin hprf hconf))).trans
    (bit_setFlag_same _ _ (by decide))
  exact rd_raise_ne _ 2 sidDevice [] (by omega) (by omega) hin hprf hconf

theorem deviationShown_summary (b : Block) (n : Nat) : (deviationShown b n).bit Reg.motFlags 2 = true :=
  (bit_congr 2 ((motionRec_rd _ n 3 rfl (by decide)).trans ((raise_reports _ Reg.motFlags 2 sidDevice []).rd rfl (by decide) (by decide)))).trans
    (bit_setFlag_same _ _ (by decide))

section
variable {t : Nat} (hsince : (s.b.ax n).devSince = some t)
include hsince

theorem deviation_enters (hnew : s.b.bit (Reg.motAxState n) 9 = false) (hdue : t + 1000 * u16 (s.b.axDesc n) 28 ≤ s.b.now) :
    Gives s (.deviation n) ((deviationShown s.b n).devAct n) := by
  refine gives_of_eq rfl ?_
  simp only [hsince, hnew, decide_eq_false (Nat.not_lt.2 hdue), Bool.or_self, Bool.false_eq_true, if_false]
  rfl

theorem deviation_early (hearly : s.b.now < t + 1000 * u16 (s.b.axDesc n) 28) : exec (.deviation n) s = .next s := by
  refine gives_of_eq (b' := s.b) rfl ?_
  simp only [hsince, decide_eq_true hearly, Bool.or_true, if_true]

end

end

/-! ### Encoders (R390) -/

/-- How far an edge moves the pair of levels in its cycle (log 20). -/
def edgeMoved (x : AxisSt) (a z : Bool) : Nat := (quadPhase a z + 4 - quadPhase x.encA x.encB) % 4

/-- What an edge of an A/B encoder does. -/
def edgeTaken (b : Block) (n : Nat) (a z : Bool) : Block :=
  let x := b.ax n
  let b' := b.putAx n { x with encA := a, encB := z, lastEdge := b.now }
  if edgeMoved x a z = 0 then b
  else if edgeMoved x a z = 2 ∨ (x.lastEdge ≠ 0 ∧ b.now < x.lastEdge + 10) then b'.encError n
  else b'.encShow n (toSigned 32 (b.rdN (Reg.motAxEncCount n)) + (if edgeMoved x a z = 1 then 1 else -1))

section
variable {b : Block} {n : Nat} {a z : Bool}

theorem edgeTaken_still (hmoved : edgeMoved (b.ax n) a z = 0) : edgeTaken b n a z = b := if_pos hmoved

theorem edgeTaken_error (hbad : edgeMoved (b.ax n) a z = 2 ∨
      (edgeMoved (b.ax n) a z ≠ 0 ∧ ((b.ax n).lastEdge ≠ 0 ∧ b.now < (b.ax n).lastEdge + 10))) :
    edgeTaken b n a z = (b.putAx n { b.ax n with encA := a, encB := z, lastEdge := b.now }).encError n := by
  obtain hboth | ⟨hmoved, hsoon⟩ := hbad
  · exact (if_neg (by rw [hboth]; decide)).trans (if_pos (.inl hboth))
  · exact (if_neg hmoved).trans (if_pos (.inr hsoon))

section
variable (hlater : ¬((b.ax n).lastEdge ≠ 0 ∧ b.now < (b.ax n).lastEdge + 10))
include hlater

theorem edgeTaken_up (hmoved : edgeMoved (b.ax n) a z = 1) :
    edgeTaken b n a z = (b.putAx n { b.ax n with encA := a, encB := z, lastEdge := b.now }).encShow n
      (toSigned 32 (b.rdN (Reg.motAxEncCount n)) + 1) := by
  rw [edgeTaken, hmoved]
  exact (if_neg (by decide)).trans (if_neg (not_or.2 ⟨by decide, hlater⟩))

theorem edgeTaken_down (hmoved : edgeMoved (b.ax n) a z = 3) :
    edgeTaken b n a z = (b.putAx n { b.ax n with encA := a, encB := z, lastEdge := b.now }).encShow n
      (toSigned 32 (b.rdN (Reg.motAxEncCount n)) - 1) := by
  rw [edgeTaken, hmoved]
  exact (if_neg (by decide)).trans (if_neg (not_or.2 ⟨by decide, hlater⟩))

end
end

section
variable {s : State} {n : Fin 64} (hfitted : s.b.axFlag n 6 = true)
include hfitted

section
variable (hquad : s.b.axFlag n 5 = false)
include hquad

theorem encoderEdge_takes {a z : Bool} {b' : Block} (htaken : edgeTaken s.b n a z = b') : Gives s (.encoderEdge n a z) b' :=
  gives_of_eq rfl ((if_neg (by rw [hfitted, hquad]; decide)).trans htaken)

theorem encoderIndex_latches : Gives s (.encoderIndex n) (s.b.wr (Reg.motAxIndex n) (s.b.rd (Reg.motAxEncCount n))) :=
  gives_of_eq rfl (if_pos (by rw [hfitted, hquad]; rfl))

end

section
variable (hssi : s.b.axFlag n 5 = true)
include hssi

theorem ssiFrame_taken : ¬(!s.b.axFlag n 6 || !s.b.axFlag n 5) = true := by
  rw [hfitted, hssi]
  decide

theorem ssiFrame_error (raw : Nat) : Gives s (.ssiFrame n false raw) (s.b.encError n) :=
  gives_of_eq rfl ((if_neg (ssiFrame_taken hfitted hssi)).trans (if_pos rfl))

theorem ssiFrame_shows {raw v : Nat}
    (hvalue : (if (u8 (s.b.axDesc n) 37).testBit 0 then ungray (u8 (s.b.axDesc n) 36 - 1) (raw % 2 ^ u8 (s.b.axDesc n) 36)
      else raw % 2 ^ u8 (s.b.axDesc n) 36) = v) : Gives s (.ssiFrame n true raw) (s.b.encShow n v) :=
  gives_of_eq rfl ((if_neg (ssiFrame_taken hfitted hssi)).trans ((if_neg (by decide)).trans (by rw [← hvalue])))

end
end

end Sys2Proof
end

section
/-! Motion (16): the frames of driver-control ports (R384, R387, R392), and what holds of an axis past the 64. -/

namespace Sys2Proof

open Sys2Proof.Machine

/-! ### The end of a frame -/

/-- The block once port `p` has stored the answer to its frame and counted it. -/
def frameAnswered (b : Block) (p miso : Nat) (rest : List (Nat × Nat)) : Block :=
  let b := { b with dcp := tput b.dcp p rest }
  let b := b.setFld (Reg.motDcpState p) 16 16 (b.fld (Reg.motDcpState p) 16 16 + 1)
  let b := (b.setFld (Reg.motDcpState p) 0 1 (b2n (!rest.isEmpty))).setFld (Reg.motDcpState p) 4 4 (satNat 15 (rest.length - 1))
  b.wr64 (Reg.motDcpLastRx p) (miso % 2 ^ 40)

/-- Does the answer show a bit that the port's template marks as a fault? -/
def frameFault (b : Block) (p miso : Nat) : Bool :=
  (miso % 2 ^ 40) &&& leNat (slice (b.fix tTemplate (16 * p + tmMask)) 0 5) != 0

/-- Axis `n` takes its frame: it goes on at the resolution that was sent, or from the end of its RUN template (R384, R387). -/
def frameTaken (b : Block) (n kind : Nat) : Block :=
  let x := b.ax n
  if kind ≤ 8 then
    match x.switching with
    | some w => ((b.putAx n { x with entry := w, switching := none }).axShow n).motionRec n 2
    | none => b
  else if kind = tmRun then b.putAx n { x with hold := false, startAt := b.now + 1000 * u8 (b.axDesc n) 61 }
  else b

/-- What the end of a frame of port `p` to axis `n` does. -/
def frameEnded (b : Block) (p miso n kind : Nat) (rest : List (Nat × Nat)) : Block :=
  let b := frameAnswered b p miso rest
  let fault := frameFault b p miso
  let b := frameTaken (b.setFld (Reg.motDcpState p) (8 + n % 8) 1 (b2n fault)) n kind
  if fault then (b.axRaise n 3).devAct n else b

theorem dcpFrameEnd_ends {s : State} {p : Fin 8} {n k : Nat} {rest : List (Nat × Nat)} (miso : Nat)
    (hqueue : tget [] s.b.dcp p = (n, k) :: rest) : Gives s (.dcpFrameEnd p miso) (frameEnded s.b p miso n k rest) := by
  have hexec : exec (.dcpFrameEnd p miso) s = .next { s with
      b := match tget [] s.b.dcp p with
        | [] => s.b
        | (n, k) :: rest => frameEnded s.b p miso n k rest } := rfl
  rw [hqueue] at hexec
  exact hexec

theorem wr64_cfg (b : Block) (off v : Nat) : (b.wr64 off v).cfg = b.cfg := (wr_cfg _ _ _).trans (wr_cfg _ _ _)

theorem frameAnswered_cfg (b : Block) (p miso : Nat) (rest : List (Nat × Nat)) : (frameAnswered b p miso rest).cfg = b.cfg :=
  (wr64_cfg _ _ _).trans ((wr_cfg _ _ _).trans ((wr_cfg _ _ _).trans (wr_cfg _ _ _)))

theorem frameAnswered_now (b : Block) (p miso : Nat) (rest : List (Nat × Nat)) : (frameAnswered b p miso rest).now = b.now :=
  (wr64_now _ _ _).trans ((wr_now _ _ _).trans ((wr_now _ _ _).trans (wr_now _ _ _)))

theorem frameAnswered_dcp (b : Block) (p miso : Nat) (rest : List (Nat × Nat)) :
    (frameAnswered b p miso rest).dcp = tput b.dcp p rest :=
  (wr_dcp _ _ _).trans ((wr_dcp _ _ _).trans ((wr_dcp _ _ _).trans ((wr_dcp _ _ _).trans (wr_dcp _ _ _))))

theorem frameFault_congr {b t : Block} (p miso : Nat) (h : t.cfg = b.cfg) : frameFault t p miso = frameFault b p miso := by
  rw [frameFault, Block.fix, h]
  rfl

theorem frameEnded_clean {b : Block} {p miso : Nat} (n kind : Nat) (rest : List (Nat × Nat)) (hclean : frameFault b p miso = false) :
    frameEnded b p miso n kind rest = frameTaken ((frameAnswered b p miso rest).setFld (Reg.motDcpState p) (8 + n % 8) 1 0) n kind := by
  have hfault := (frameFault_congr p miso (frameAnswered_cfg b p miso rest)).trans hclean
  rw [frameEnded, hfault]
  rfl

theorem frameAnswered_lastRx (b : Block) (p miso : Nat) (rest : List (Nat × Nat)) :
    (frameAnswered b p miso rest).rd64 (Reg.motDcpLastRx p) = miso % 2 ^ 40 :=
  (rd64_wr64_same _ _ _).trans (Nat.mod_eq_of_lt ((Nat.mod_lt _ (by decide)).trans (by decide)))

/-- A field takes the low bits of what is set. -/
theorem fld_setFld_mod (b : Block) (off x : Nat) {lo n : Nat} (hfits : lo + n ≤ 32) : (b.setFld off lo n x).fld off lo n = x % 2 ^ n := by
  have hlow : b.setFld off lo n x = b.setFld off lo n (x % 2 ^ n) := by
    rw [Block.setFld, Block.setFld, setField, setField, Nat.mod_mod]
  rw [hlow, fld_setFld_same b off hfits (Nat.mod_lt _ (Nat.two_pow_pos n))]

/-- The frames of the port are counted in 16 bits. -/
theorem frameAnswered_count (b : Block) (p miso : Nat) (rest : List (Nat × Nat)) :
    (frameAnswered b p miso rest).fld (Reg.motDcpState p) 16 16 = (b.fld (Reg.motDcpState p) 16 16 + 1) % 65536 := by
  have hapart : Reg.motDcpState p ≠ Reg.motDcpLastRx p ∧ Reg.motDcpState p ≠ Reg.motDcpLastRx p + 4 := by
    unfold Reg.motDcpState Reg.motDcpLastRx
    omega
  exact (fld_congr 16 16 (rd_wr64_ne _ _ hapart.1 hapart.2)).trans ((fld_setFld_apart _ _ _ (by decide) (by decide)).trans
    ((fld_setFld_apart _ _ _ (by decide) (by decide)).trans (fld_setFld_mod _ _ _ (by decide))))

/-! ### What a port shows -/

/-- Port `p`'s queue, its count of frames and its last answer are as before. -/
def KeepsPort (p : Nat) (b t : Block) : Prop :=
  t.dcp = b.dcp ∧ t.fld (Reg.motDcpState p) 16 16 = b.fld (Reg.motDcpState p) 16 16 ∧
    t.rd64 (Reg.motDcpLastRx p) = b.rd64 (Reg.motDcpLastRx p)

section
variable {p : Nat}

theorem KeepsPort.refl (b : Block) : KeepsPort p b b := ⟨rfl, rfl, rfl⟩

theorem KeepsPort.trans {a b c : Block} (h : KeepsPort p a b) (g : KeepsPort p b c) : KeepsPort p a c := by
  obtain ⟨hdcp, hcount, hlast⟩ := h
  obtain ⟨gdcp, gcount, glast⟩ := g
  exact ⟨gdcp.trans hdcp, gcount.trans hcount, glast.trans hlast⟩

/-- The words of axes and groups lie below those of the ports. -/
theorem keepsPort_wr_below (b : Block) {off : Nat} (v : Word) (h : off < 0xF03000) : KeepsPort p b (b.wr off v) := by
  have hstate : Reg.motDcpState p ≠ off := by
    unfold Reg.motDcpState
    omega
  have hlast : Reg.motDcpLastRx p ≠ off ∧ Reg.motDcpLastRx p + 4 ≠ off := by
    unfold Reg.motDcpLastRx
    omega
  exact ⟨wr_dcp _ _ _, fld_congr 16 16 (rd_wr_ne b v hstate), rd64_congr (rd_wr_ne b v hlast.1) (rd_wr_ne b v hlast.2)⟩

/-- A low field of a word that holds no answer is neither a count of frames nor an answer. -/
theorem keepsPort_setFld_low (b : Block) {off lo w : Nat} (x : Nat) (hlow : lo + w ≤ 16) (hoff : off % 16 = 0) :
    KeepsPort p b (b.setFld off lo w x) := by
  have hlast : Reg.motDcpLastRx p ≠ off ∧ Reg.motDcpLastRx p + 4 ≠ off := by
    unfold Reg.motDcpLastRx
    omega
  exact ⟨wr_dcp _ _ _, fld_setFld_disjoint b _ _ x (by decide) (.inr hlow),
    rd64_congr (rd_setFld_ne b _ _ _ hlast.1) (rd_setFld_ne b _ _ _ hlast.2)⟩

theorem keepsPort_groupShow (b : Block) (n : Nat) : KeepsPort p b (b.groupShow n) := by
  have hword (g : Nat) : Reg.motGrpState g % 16 = 0 := by
    unfold Reg.motGrpState
    omega
  unfold Block.groupShow
  split
  next g e _ => exact (keepsPort_setFld_low b _ (by decide) (hword g)).trans (keepsPort_setFld_low _ _ (by decide) (hword g))
  next => exact .refl b

theorem keepsPort_axShow (b : Block) {n : Nat} (hn : n < 64) : KeepsPort p b (b.axShow n) := by
  have hwords : Reg.motAxCmdPos n < 0xF03000 ∧ Reg.motAxVelocity n < 0xF03000 ∧ Reg.motAxState n < 0xF03000 := by
    unfold Reg.motAxCmdPos Reg.motAxVelocity Reg.motAxState
    omega
  obtain ⟨hcmd, hvelocity, hstate⟩ := hwords
  exact ((keepsPort_wr_below b _ hcmd).trans (keepsPort_wr_below _ _ hvelocity)).trans
    (((keepsPort_wr_below _ _ hstate).trans (keepsPort_wr_below _ _ hstate)).trans (keepsPort_groupShow _ n))

theorem Quiet.keepsPort {b t : Block} (h : Quiet b t) (hport : p < 8) : KeepsPort p b t := by
  have hin {off : Nat} (hblock : off / 0x100000 = 0xF) : t.rd off = b.rd off :=
    h.rd (by rw [isOut, hblock]; rfl) (by omega)
  have hwords : Reg.motDcpState p / 0x100000 = 0xF ∧ Reg.motDcpLastRx p / 0x100000 = 0xF ∧ (Reg.motDcpLastRx p + 4) / 0x100000 = 0xF := by
    unfold Reg.motDcpState Reg.motDcpLastRx
    omega
  obtain ⟨hstate, hlast, hlast4⟩ := hwords
  refine ⟨?_, fld_congr 16 16 (hin hstate), rd64_congr (hin hlast) (hin hlast4)⟩
  obtain ⟨o, rs, rfl, -, -⟩ := h
  rfl

theorem keepsPort_putAx (b : Block) (n : Nat) (x : AxisSt) : KeepsPort p b (b.putAx n x) := ⟨rfl, rfl, rfl⟩

theorem keepsPort_motionRec (b : Block) (n cause : Nat) (hport : p < 8) : KeepsPort p b (b.motionRec n cause) :=
  (keepsPort_putAx b n _).trans ((quiet_motionRec b n cause).keepsPort hport)

/-- What one of the 64 axes does with its frame leaves what the port shows. -/
theorem keepsPort_frameTaken (b : Block) {n : Nat} (kind : Nat) (hport : p < 8) (hn : n < 64) : KeepsPort p b (frameTaken b n kind) := by
  unfold frameTaken
  extract_lets x
  split
  · split
    next => exact (keepsPort_putAx b n _).trans ((keepsPort_axShow _ hn).trans (keepsPort_motionRec _ n 2 hport))
    next => exact .refl b
  · split
    · exact keepsPort_putAx b n _
    · exact .refl b

end

theorem frameTaken_run (b : Block) (n : Nat) :
    ((frameTaken b n tmRun).ax n).hold = false ∧ ((frameTaken b n tmRun).ax n).startAt = b.now + 1000 * u8 (b.axDesc n) 61 := by
  have hentry : (frameTaken b n tmRun).ax n = { b.ax n with hold := false, startAt := b.now + 1000 * u8 (b.axDesc n) 61 } :=
    tget_tput_same _ _ _ _
  rw [hentry]
  exact ⟨rfl, rfl⟩

/-- A frame to axis `n` of kind `k` ends: the next of the queue is sent, the answer is stored and counted, and the end of a RUN template
frees the axis's first step. -/
def FrameShows (s : State) (p : Fin 8) (miso n k : Nat) (rest : List (Nat × Nat)) : Prop :=
  ∃ x : Block, Gives s (.dcpFrameEnd p miso) x ∧ tget [] x.dcp p = rest ∧ x.rd64 (Reg.motDcpLastRx p) = miso % 2 ^ 40 ∧
    x.fld (Reg.motDcpState p) 16 16 = (s.b.fld (Reg.motDcpState p) 16 16 + 1) % 65536 ∧
    (k = tmRun → (x.ax n).hold = false ∧ (x.ax n).startAt = s.b.now + 1000 * u8 (s.b.axDesc n) 61)

theorem dcpFrameEnd_shows {s : State} {p : Fin 8} {miso n k : Nat} {rest : List (Nat × Nat)} (hn : n < 64)
    (hqueue : tget [] s.b.dcp p = (n, k) :: rest)
    (hclean : (miso % 2 ^ 40) &&& leNat (slice (s.b.fix tTemplate (16 * p.val + tmMask)) 0 5) = 0) : FrameShows s p miso n k rest := by
  have hgives := dcpFrameEnd_ends miso hqueue
  rw [frameEnded_clean n k rest (bne_eq_false_iff_eq.2 hclean)] at hgives
  have hword : Reg.motDcpState p % 16 = 0 := by
    unfold Reg.motDcpState
    omega
  obtain ⟨hdcp, hcount, hlast⟩ : KeepsPort p (frameAnswered s.b p miso rest) _ :=
    (keepsPort_setFld_low _ (lo := 8 + n % 8) (w := 1) 0 (by omega) hword).trans (keepsPort_frameTaken _ k p.isLt hn)
  refine ⟨_, hgives, ?_, hlast.trans (frameAnswered_lastRx _ _ _ _), hcount.trans (frameAnswered_count _ _ _ _), ?_⟩
  · rw [hdcp, frameAnswered_dcp]
    exact tget_tput_same _ _ _ _
  · rintro rfl
    obtain ⟨hhold, hstart⟩ := frameTaken_run ((frameAnswered s.b p miso rest).setFld (Reg.motDcpState p) (8 + n % 8) 1 0) n
    refine ⟨hhold, hstart.trans ?_⟩
    rw [Block.axDesc, Block.fix, Block.setFld, Block.wrN, wr_now, wr_cfg, frameAnswered_now, frameAnswered_cfg]
    rfl

/-! ### The statement -/

/-- Every clause holds but the one on frames, and the statement stands or falls with that. -/
theorem motionCommandsAndAxesProceed_iff :
    Obligations.MotionCommandsAndAxesProceed ↔
      ∀ (s : State) (p : Fin 8) (miso n k : Nat) (rest : List (Nat × Nat)), tget [] s.b.dcp p = (n, k) :: rest →
        (miso % 2 ^ 40) &&& leNat (slice (s.b.fix tTemplate (16 * p.val + tmMask)) 0 5) = 0 → FrameShows s p miso n k rest := by
  unfold Obligations.MotionCommandsAndAxesProceed
  refine ⟨fun ⟨_, _, _, _, _, _, _, _, _, _, _, _, _, _, hframe, _⟩ => hframe, fun hframe => ?_⟩
  exact ⟨fun s c hsent => ⟨motMove_runs hsent, fun r => motMove_refused hsent⟩,
    fun s c n hobj hsent hpresent => ⟨motEnable_enables hobj hpresent hsent, motEnable_disables hobj hpresent hsent,
      motEnable_halted hobj hpresent hsent, motEnable_moves hobj hpresent hsent⟩,
    fun s c n hobj hsent hpresent hset hgood => ⟨motProfile_stores hobj hpresent hsent hset hgood,
      motProfile_rewrites hobj hpresent hsent hset hgood⟩,
    fun s c n hobj hsent hpresent => motSetPosition_sets hobj hpresent hsent,
    fun s c n hobj hsent hpresent hordered => ⟨motLimits_sets hobj hpresent hsent hordered,
      motLimits_outside hobj hpresent hsent hordered, motLimits_moving hobj hpresent hsent hordered⟩,
    fun s c g hobj hgroup hsent => motPoint_stores hsent hobj hgroup,
    fun s n => axisAtTarget_rests, fun s n => axisAtSpeed_shows,
    fun s n m set t hnext hending => ⟨reversal_turns hnext hending, reversal_early hnext⟩,
    fun s n => resolutionSwitch_sends,
    fun s n t hsince hnew => ⟨fun hdue => ⟨_, deviation_enters hsince hnew hdue, deviationShown_axis s.b n, deviationShown_summary s.b n⟩,
      deviation_early hsince⟩,
    fun s n => standstillDelayExpiry_sends,
    fun s n a z hfitted hquad => ⟨fun hmoved hlater => encoderEdge_takes hfitted hquad (edgeTaken_up hlater hmoved),
      fun hmoved hlater => encoderEdge_takes hfitted hquad (edgeTaken_down hlater hmoved),
      fun hbad => encoderEdge_takes hfitted hquad (edgeTaken_error hbad),
      fun hmoved => encoderEdge_takes hfitted hquad (edgeTaken_still hmoved), encoderIndex_latches hfitted hquad⟩,
    fun s n raw hfitted hssi => ⟨ssiFrame_error hfitted hssi raw,
      fun hbinary => ssiFrame_shows hfitted hssi (if_neg (Bool.eq_false_iff.1 hbinary)),
      fun hgray => ssiFrame_shows hfitted hssi (if_pos hgray)⟩,
    hframe,
    fun s n hpresent hperiod => ⟨motionRecord_writes hpresent hperiod, motionRecord_early⟩⟩

/-- Port 0 has a frame queued for an axis 128, past the 64, that waits for another resolution: `MOT.AX[128].CMD_POS` would lie where
`MOT.DCP[0].LAST_RX` does. -/
def axisPastTable : State :=
  { State.reset with b := { State.reset.b with
      axes := [(128, { cmd := 1, switching := some 0 })]
      dcp := [(0, [(128, 0)])] } }

/-- The axis's position 1 replaces the answer 0. -/
theorem axisPastTable_lastRx : (frameEnded axisPastTable.b 0 0 128 0 []).rd64 (Reg.motDcpLastRx 0) = 1 := by decide +kernel

/-- Refutes O40: its clause on frames bounds no axis's number, and an axis past the 64 of 16 that takes a resolution writes its position
over the port's answer. For the 64 axes the clause holds (`dcpFrameEnd_shows`), and every other clause holds
(`motionCommandsAndAxesProceed_iff`). -/
theorem not_motionCommandsAndAxesProceed : ¬ Obligations.MotionCommandsAndAxesProceed := by
  rw [motionCommandsAndAxesProceed_iff]
  intro hframe
  have hqueue : tget [] axisPastTable.b.dcp (0 : Fin 8) = [(128, 0)] := rfl
  obtain ⟨x, hgives, -, hlast, -⟩ := hframe axisPastTable 0 0 128 0 [] hqueue (Nat.zero_and _)
  have hblock := gives_unique (dcpFrameEnd_ends 0 hqueue) hgives
  rw [← hblock] at hlast
  exact absurd (axisPastTable_lastRx.symm.trans hlast) (by decide)

end Sys2Proof
end

section
/-! Safety (18): what the island's own operations leave of its state code, and what SAFE_STATE stops (R427, R428). -/

namespace Sys2Proof

open Sys2Proof.Machine

/-! ### The island's tables -/

section

variable (x : SiSt) (k : Nat)

@[simp] theorem inp_putIn_same (v : SafIn) : (x.putIn k v).inp k = v := tget_tput_same _ _ _ _

theorem inp_putIn_ne {j : Nat} (v : SafIn) (h : j ≠ k) : (x.putIn k v).inp j = x.inp j := tget_tput_ne _ _ _ h

@[simp] theorem brk_putBrk_same (v : SafBrk) : (x.putBrk k v).brk k = v := tget_tput_same _ _ _ _

@[simp] theorem conn_putConn_same (v : SafConn) : (x.putConn k v).conn k = v := tget_tput_same _ _ _ _

@[simp] theorem fn_putFn_same (v : SafFn) : (x.putFn k v).fn k = v := tget_tput_same _ _ _ _

end

/-- What a table holds whose values are all changed by one rule that keeps the default. -/
theorem tget_map {α : Type} {d : α} {f : α → α} (hd : f d = d) (t : Tab α) (k : Nat) :
    tget d (t.map fun p => (p.1, f p.2)) k = f (tget d t k) := by
  induction t with
  | nil => exact hd.symm
  | cons p r ih =>
    obtain ⟨i, w⟩ := p
    by_cases h : k = i
    · simp [tget, tget?, h]
    · simpa [tget, tget?, h] using ih

/-! ### The state code (R427) under the operations of a cycle and of the events -/

theorem ite_state {p : Prop} [Decidable p] {x y : SiSt} {n : Nat} (hx : x.state = n) (hy : y.state = n) :
    (if p then x else y).state = n := by
  split
  · exact hx
  · exact hy

section

variable (x : SiSt) (t : Nat)

theorem sample_state (s : SafetyInputs) (i : Nat) : (x.sample t s i).state = x.state := ite_state rfl rfl

theorem discrepancy_state (i : Nat) : (x.discrepancy t i).state = x.state := by
  unfold SiSt.discrepancy
  dsimp only
  split
  · exact ite_state rfl rfl
  · rfl

theorem counterEdge_state (i : Nat) (a b : Bool) : (x.counterEdge t i a b).state = x.state := by
  refine ite_state rfl ?_
  exact foldl_keeps SiSt.state _ (fun y k => by exact ite_state rfl rfl) _ _

theorem copy_state (net : Nat) (f : CanFrame) : (x.copy t net f).state = x.state := by
  refine ite_state rfl ?_
  split
  · rfl
  · refine ite_state rfl (ite_state rfl ?_)
    split
    · rfl
    · rfl

theorem skew_state (c : Nat) : (x.skew t c).state = x.state := by
  refine ite_state rfl ?_
  split
  · rfl
  · exact ite_state rfl (ite_state rfl (ite_state rfl rfl))

theorem connTimeout_state (c : Nat) : (x.connTimeout t c).state = x.state := ite_state rfl rfl

theorem graceEnds_state (c : Nat) : (x.graceEnds t c).state = x.state := ite_state rfl rfl

theorem brkFault_state (k : Nat) : (x.brkFault k).state = x.state := ite_state rfl rfl

theorem testRequest_state (k : Nat) (f : CanFrame) : (x.testRequest t k f).state = x.state :=
  ite_state rfl (ite_state rfl rfl)

theorem testWindow_state (k : Nat) : (x.testWindow t k).state = x.state := ite_state rfl rfl

theorem testDone_state (k : Nat) : (x.testDone t k).state = x.state := ite_state rfl rfl

theorem overdue_state (k : Nat) : (x.overdue k).state = x.state := by
  refine ite_state rfl ?_
  split
  · exact ite_state rfl rfl
  · rfl

theorem graceOver_state (k : Nat) : (x.graceOver k).state = x.state := ite_state rfl rfl

theorem fnCycle_state (f : Nat) : (x.fnCycle t f).state = x.state := by
  unfold SiSt.fnCycle
  dsimp only
  refine ite_state rfl (ite_state (ite_state rfl rfl) (ite_state (ite_state rfl rfl) (ite_state rfl ?_)))
  exact ite_state rfl (ite_state rfl (ite_state rfl rfl))

theorem driveOut_state (edm o : Nat) : (x.driveOut t edm o).state = x.state := by
  refine ite_state rfl ?_
  split
  · exact ite_state rfl rfl
  · exact ite_state rfl rfl
  · rfl

theorem driveBrk_state (edm k : Nat) : (x.driveBrk t edm k).state = x.state := by
  refine ite_state rfl ?_
  split
  · exact ite_state rfl rfl
  · exact ite_state rfl rfl
  · rfl

theorem drive_state (edm : Nat) : (x.drive t edm).state = x.state := by
  refine ite_state rfl ?_
  exact (foldl_keeps SiSt.state _ (fun y k => driveBrk_state y t edm k) _ _).trans
    (foldl_keeps SiSt.state _ (fun y o => driveOut_state y t edm o) _ _)

theorem edmSeen_state : x.edmSeen.state = x.state :=
  (foldl_keeps SiSt.state _ (fun y k => by exact ite_state rfl rfl) _ _).trans
    (foldl_keeps SiSt.state _ (fun y o => by exact ite_state rfl rfl) _ _)

theorem edmTime_state (o : Nat) : (x.edmTime t o).state = x.state := by
  unfold SiSt.edmTime
  dsimp only
  split
  · exact ite_state (drive_state _ _ _) rfl
  · rfl

theorem brkEdmTime_state (k : Nat) : (x.brkEdmTime t k).state = x.state := by
  unfold SiSt.brkEdmTime
  split
  · exact ite_state (brkFault_state _ _) rfl
  · rfl

theorem outTest_state (o : Nat) (ok : Bool) : (x.outTest t o ok).state = x.state :=
  ite_state rfl (drive_state _ _ _)

theorem brkTest_state (k : Nat) (ok : Bool) : (x.brkTest t k ok).state = x.state :=
  ite_state rfl ((drive_state _ _ _).trans (brkFault_state _ _))

theorem abortTests_state : x.abortTests.state = x.state :=
  foldl_keeps SiSt.state _ (fun _ _ => by exact ite_state rfl rfl) _ _

theorem stopDelay_state (f : Nat) : (x.stopDelay t f).state = x.state :=
  ite_state (drive_state _ _ _) rfl

/-- A press of a RESET input releases or refuses functions and then clears faults (R442); neither changes the state code. -/
theorem press_state (i : Nat) : (x.press t i).state = x.state := by
  refine ite_state rfl ((drive_state _ _ _).trans ?_)
  refine (foldl_keeps SiSt.state _ (fun y f => ?_) _ _).trans (foldl_keeps SiSt.state _ (fun y f => ?_) _ _)
  · exact (foldl_keeps SiSt.state _ (fun _ _ => by exact ite_state rfl rfl) _ _).trans
      (foldl_keeps SiSt.state _ (fun _ _ => by exact ite_state rfl rfl) _ _)
  · exact ite_state rfl (ite_state rfl rfl)

end

/-! ### SAFE_STATE (R428) -/

/-- An output that the entry to SAFE_STATE de-energises. -/
def deEnergised (v : SafOut) : SafOut := { v with state := if v.state = 1 then 0 else v.state, due := none }

/-- A brake that the entry to SAFE_STATE applies; one in FAULT is applied already. -/
def appliedBrake (v : SafBrk) : SafBrk := { v with state := if v.state = bkFault then bkFault else bkApplied, due := none }

theorem deEnergised_state (v : SafOut) : (deEnergised v).state ≠ 1 := by
  unfold deEnergised
  dsimp only
  split
  · decide
  · next hoff => exact hoff

theorem appliedBrake_state (v : SafBrk) : (appliedBrake v).state = bkApplied ∨ (appliedBrake v).state = bkFault := by
  unfold appliedBrake
  dsimp only
  split
  · exact .inr rfl
  · exact .inl rfl

/-- The entry to SAFE_STATE from anywhere: it is the state code that results. -/
theorem toSafe_state (x : SiSt) (c : Nat) : (x.toSafe c).state = siSafe := by
  unfold SiSt.toSafe
  split
  · next h => exact h
  · rfl

theorem toSafe_of_safe {x : SiSt} (c : Nat) (h : x.state = siSafe) : x.toSafe c = x := if_pos h

theorem run_of_safe {x : SiSt} (h : x.state = siSafe) : x.run = false := by
  unfold SiSt.run
  rw [h]
  decide

theorem run_of_run {x : SiSt} (h : x.state = siRun) : x.run = true := by
  unfold SiSt.run
  rw [h]
  decide

section

variable {x : SiSt} (c : Nat) (h : x.state ≠ siSafe)
include h

theorem toSafe_outp (o : Nat) : (x.toSafe c).outp o = deEnergised (x.outp o) :=
  (congrArg (SiSt.outp · o) (if_neg h)).trans (tget_map (f := deEnergised) rfl x.outs o)

theorem toSafe_brk (k : Nat) : (x.toSafe c).brk k = appliedBrake (x.brk k) :=
  (congrArg (SiSt.brk · k) (if_neg h)).trans (tget_map (f := appliedBrake) rfl x.brks k)

theorem toSafe_fault : (x.toSafe c).fault = c := congrArg SiSt.fault (if_neg h)

theorem toSafe_sd : (x.toSafe c).sd = 0xF := congrArg SiSt.sd (if_neg h)

end

/-! ### The events in SAFE_STATE and in RUN (R427, R428) -/

theorem discrepancy_rests {x : SiSt} (t i : Nat) (h : x.run = false) : x.discrepancy t i = x := by
  unfold SiSt.discrepancy
  dsimp only
  split
  · exact if_neg (by simp [h])
  · rfl

theorem edmTime_rests {x : SiSt} (t o : Nat) (h : x.run = false) : x.edmTime t o = x := by
  unfold SiSt.edmTime
  dsimp only
  split
  · exact if_neg (by simp [h])
  · rfl

/-- A result that keeps the state code of an island in RUN leaves it in RUN; so far every event but the entries to SAFE_STATE. -/
theorem run_kept {x y : SiSt} (hrun : x.state = siRun) (h : y.state = x.state) : y.state = siRun ∨ y.state = siSafe := .inl (h.trans hrun)

section

variable {inp : Fin 12} {out brk : Fin 4} {fn conn : Fin 16} {net : Fin 2} {fr : CanFrame} {ok l m : Bool}
  {q : Instr × (Nat → SiSt → SiSt)} (h : SiEvent inp out brk fn conn net fr ok l m q)
include h

/-- Every event of the island is a step of the island. -/
theorem siEvent_exec (s : State) : exec q.1 s = siStep s q.2 := by
  simp only [SiEvent, List.mem_cons, List.not_mem_nil, or_false] at h
  rcases h with rfl | rfl | rfl | rfl | rfl | rfl | rfl | rfl | rfl | rfl | rfl | rfl | rfl | rfl | rfl | rfl | rfl | rfl | rfl | rfl
  all_goals rfl

/-- In SAFE_STATE no event acts: all but the entries to a state ask for RUN, for SELF_TEST or for AWAIT_PARAMS, and an entry to SAFE_STATE
is none there. -/
theorem siEvent_safe (t : Nat) {x : SiSt} (hsafe : x.state = siSafe) : q.2 t x = x := by
  have hrun : x.run = false := run_of_safe hsafe
  simp only [SiEvent, List.mem_cons, List.not_mem_nil, or_false] at h
  rcases h with rfl | rfl | rfl | rfl | rfl | rfl | rfl | rfl | rfl | rfl | rfl | rfl | rfl | rfl | rfl | rfl | rfl | rfl | rfl | rfl
  · exact if_pos (by rw [hsafe]; decide)
  · exact if_pos (.inl (by rw [hsafe]; decide))
  · exact ite_eq_left_iff.2 fun _ => toSafe_of_safe 5 hsafe
  · exact toSafe_of_safe 4 hsafe
  · exact if_pos (by simp [hrun])
  · exact if_pos (by simp [hrun])
  · exact if_neg (by simp [hrun])
  · exact if_neg (by simp [hrun])
  · exact discrepancy_rests t _ hrun
  · exact if_pos (by simp [hrun])
  · exact if_neg (by simp [hrun])
  · exact if_pos (by simp [hrun])
  · exact edmTime_rests t _ hrun
  · exact if_pos (by simp [hrun])
  · exact if_pos (by simp [hrun])
  · exact if_neg (by simp [hrun])
  · exact if_neg (by simp [hrun])
  · exact if_pos (by simp [hrun])
  · exact if_neg (by simp [hrun])
  · exact if_pos (by simp [hrun])

/-- In RUN an event keeps the state code or enters SAFE_STATE. -/
theorem siEvent_run (t : Nat) {x : SiSt} (hrun : x.state = siRun) : (q.2 t x).state = siRun ∨ (q.2 t x).state = siSafe := by
  simp only [SiEvent, List.mem_cons, List.not_mem_nil, or_false] at h
  rcases h with rfl | rfl | rfl | rfl | rfl | rfl | rfl | rfl | rfl | rfl | rfl | rfl | rfl | rfl | rfl | rfl | rfl | rfl | rfl | rfl
  · exact run_kept hrun (congrArg SiSt.state (if_pos (by rw [hrun]; decide)))
  · exact run_kept hrun (congrArg SiSt.state (if_pos (.inl (by rw [hrun]; decide))))
  · cases ok with
    | true => exact run_kept hrun rfl
    | false => exact .inr (toSafe_state x 5)
  · exact .inr (toSafe_state x 4)
  · exact run_kept hrun (copy_state _ _ _ _)
  · exact run_kept hrun (skew_state _ _ _)
  · exact run_kept hrun (connTimeout_state _ _ _)
  · exact run_kept hrun (graceEnds_state _ _ _)
  · exact run_kept hrun (discrepancy_state _ _ _)
  · exact run_kept hrun (press_state _ _ _)
  · exact run_kept hrun (stopDelay_state _ _ _)
  · exact run_kept hrun (outTest_state _ _ _ _)
  · exact run_kept hrun (edmTime_state _ _ _)
  · exact run_kept hrun (brkTest_state _ _ _ _)
  · exact run_kept hrun (testRequest_state _ _ _ _)
  · exact run_kept hrun (testWindow_state _ _ _)
  · exact run_kept hrun (testDone_state _ _ _)
  · exact run_kept hrun (overdue_state _ _)
  · exact run_kept hrun (graceOver_state _ _)
  · exact run_kept hrun (counterEdge_state _ _ _ _ _)

end

end Sys2Proof
end

section
/-! Safety (18): the island at a cycle's end, its own decisions, and what reaches it at all (R426–R429, R432–R449). -/

namespace Sys2Proof

open Sys2Proof.Machine

/-! ### A cycle (R426) -/

theorem cycle_of_safe {x : SiSt} (t : Nat) (ref : Bool) (inp : SafetyInputs) (h : x.state = siSafe) : x.cycle t ref inp = x :=
  if_pos (by simp [run_of_safe h])

/-- The faults that a cycle found enter SAFE_STATE; without one its result stands (R428). -/
theorem faults_state (y : SiSt) (p q r : Bool) {n : Nat} (h : y.state = n) :
    (if p then y.toSafe 1 else if q then y.toSafe 2 else if r then y.toSafe 7 else y).state = n ∨
      (if p then y.toSafe 1 else if q then y.toSafe 2 else if r then y.toSafe 7 else y).state = siSafe := by
  split
  · exact .inr (toSafe_state _ _)
  · split
    · exact .inr (toSafe_state _ _)
    · split
      · exact .inr (toSafe_state _ _)
      · exact .inl h

theorem cycle_of_run {x : SiSt} (t : Nat) (ref : Bool) (inp : SafetyInputs) (h : x.state = siRun) :
    (x.cycle t ref inp).state = siRun ∨ (x.cycle t ref inp).state = siSafe := by
  have hrun : ¬(!x.run) = true := by simp [run_of_run h]
  unfold SiSt.cycle
  rw [if_neg hrun]
  refine faults_state _ _ _ _ ?_
  refine (foldl_keeps SiSt.state _ (fun y k => brkEdmTime_state y t k) _ _).trans ?_
  refine (drive_state _ _ _).trans ((edmSeen_state _).trans ?_)
  refine (foldl_keeps SiSt.state _ (fun y f => fnCycle_state y t f) _ _).trans ((abortTests_state _).trans ?_)
  refine (foldl_keeps SiSt.state _ (fun y c => by exact ite_state rfl rfl) _ _).trans ?_
  exact (foldl_keeps SiSt.state _ (fun y i => sample_state y t inp i) _ _).trans h

/-! ### What the island decides in RUN (R432, R438, R441, R446, R447) -/

section

variable {x : SiSt} (t : Nat)

theorem discrepancy_fault {i s : Nat} (hrun : x.state = siRun) (hsplit : (x.inp i).split = some s) (hdiffers : (x.inp i).state = 2)
    (hheld : s + 1000000 * u16 (prmIn x.params i) 2 ≤ t) :
    x.discrepancy t i = x.putIn i { x.inp i with state := 3 } := by
  unfold SiSt.discrepancy
  dsimp only
  rw [hsplit]
  exact if_pos (by simp [run_of_run hrun, hdiffers, msNs, hheld])

theorem connTimeout_loses {c : Nat} (hrun : x.state = siRun) (hused : flagUsed (prmConn x.params c) = true)
    (hsilent : (x.conn c).accepted + 1000000 * u16 (prmConn x.params c) 8 ≤ t) :
    x.connTimeout t c = x.putConn c (x.conn c).lose :=
  if_pos (by simp [run_of_run hrun, hused, msNs, hsilent])

theorem graceEnds_loses {c : Nat} (hrun : x.state = siRun) (hgrace : (x.conn c).state = cnGrace) (hover : (x.conn c).graceEnd ≤ t) :
    x.graceEnds t c = x.putConn c { (x.conn c).lose with graceUsed := true } :=
  if_pos (by simp [run_of_run hrun, hgrace, hover])

/-- A demanded function is RELEASED and leaves it, is STOPPING until its delay is over, or is STOPPED (R441). -/
theorem fnCycle_demanded {f : Nat} (hused : flagUsed (prmFn x.params f) = true) (hdemand : x.demanded f = true) :
    x.fnCycle t f = if (x.fn f).state = fnReleased then
        x.putFn f { x.fn f with state := if (u8 (prmFn x.params f) 0).testBit 1 then fnStopping else fnStopped, demandAt := t, refused := false }
      else if (x.fn f).state = fnStopping then
        if (x.fn f).demandAt + msNs (u16 (prmFn x.params f) 10) ≤ t then x.putFn f { x.fn f with state := fnStopped } else x
      else x.putFn f { x.fn f with state := fnStopped, refused := false } := by
  unfold SiSt.fnCycle
  dsimp only
  rw [if_neg (by simp [hused]), hdemand, if_pos rfl, if_pos rfl]

section

variable {f : Nat} (hused : flagUsed (prmFn x.params f) = true) (hdemand : x.demanded f = true)
include hused hdemand

theorem fnCycle_leaves (hreleased : (x.fn f).state = fnReleased) :
    ((x.fnCycle t f).fn f).state = if (u8 (prmFn x.params f) 0).testBit 1 then fnStopping else fnStopped := by
  rw [fnCycle_demanded t hused hdemand, if_pos hreleased, fn_putFn_same]

theorem fnCycle_stops (hother : (x.fn f).state ≠ fnReleased) (hidle : (x.fn f).state ≠ fnStopping) :
    ((x.fnCycle t f).fn f).state = fnStopped := by
  rw [fnCycle_demanded t hused hdemand, if_neg hother, if_neg hidle, fn_putFn_same]

theorem fnCycle_notReleased : ((x.fnCycle t f).fn f).state ≠ fnReleased := by
  by_cases hreleased : (x.fn f).state = fnReleased
  · rw [fnCycle_leaves t hused hdemand hreleased]
    split <;> decide
  · by_cases hstopping : (x.fn f).state = fnStopping
    · rw [fnCycle_demanded t hused hdemand, if_neg hreleased, if_pos hstopping]
      split
      · exact fun h => absurd ((congrArg SafFn.state (fn_putFn_same x f _)).symm.trans h) (by decide : ¬fnStopped = fnReleased)
      · exact hreleased
    · rw [fnCycle_stops t hused hdemand hreleased hstopping]
      decide

end

theorem testDone_ends {k : Nat} (hrun : x.state = siRun) (hwindow : (x.brk k).state = bkTestWindow)
    (hover : (x.brk k).phase + 1000000 * u16 (prmBrk x.params k) 8 ≤ t) :
    x.testDone t k = x.testEnds k (if (x.brk k).slip ≤ u16 (prmBrk x.params k) 10 then 1 else 2) bkApplied :=
  if_pos (by simp [run_of_run hrun, hwindow, msNs, hover])

/-- What a brake holds once a test of it has ended (R446). -/
theorem testEnds_brk (k result st : Nat) :
    (x.testEnds k result st).brk k =
      (let v : SafBrk := { x.brk k with state := st, result := result, failed := result == 2 || ((x.brk k).failed && result != 1) }
       if result = 1 then { v with overdue := false, graceOut := false, passed := some x.cycles } else v) :=
  brk_putBrk_same x k _

theorem testEnds_passes (k : Nat) : ((x.testEnds k 1 bkApplied).brk k).state = bkApplied ∧ ((x.testEnds k 1 bkApplied).brk k).result = 1 ∧
    ((x.testEnds k 1 bkApplied).brk k).overdue = false := by
  rw [testEnds_brk]
  exact ⟨rfl, rfl, rfl⟩

theorem testEnds_fails (k : Nat) : ((x.testEnds k 2 bkApplied).brk k).state = bkApplied ∧ ((x.testEnds k 2 bkApplied).brk k).result = 2 ∧
    ((x.testEnds k 2 bkApplied).brk k).lockedOut = true := by
  rw [testEnds_brk]
  exact ⟨rfl, rfl, rfl⟩

theorem overdue_becomes {k n : Nat} (hrun : x.state = siRun) (hused : flagUsed (prmBrk x.params k) = true)
    (hinterval : u16 (prmBrk x.params k) 12 ≠ 0) (hnot : (x.brk k).overdue = false) (hpassed : (x.brk k).passed = some n) :
    x.overdue k = if n + u16 (prmBrk x.params k) 12 * cyclesPerHour < x.cycles then x.becomeOverdue k else x := by
  unfold SiSt.overdue
  dsimp only
  rw [if_neg (by simp [run_of_run hrun, hused, hinterval, hnot]), hpassed]

theorem becomeOverdue_shows (k : Nat) : ((x.becomeOverdue k).brk k).overdue = true ∧ 4 ∈ (x.becomeOverdue k).flags :=
  ⟨congrArg SafBrk.overdue (brk_putBrk_same x k _), by simp [SiSt.becomeOverdue, SiSt.flag]⟩

end

/-- Settles O45: SAFE_STATE by what enters it and by what each event asks for, and each decision by its own lemma. -/
theorem safetyIslandDecidesAndItsSafeStateIsFinal : Obligations.SafetyIslandDecidesAndItsSafeStateIsFinal := by
  unfold Obligations.SafetyIslandDecidesAndItsSafeStateIsFinal
  refine ⟨?_, ?_, ?_, ?_, ?_, ?_, ?_, ?_, ?_⟩
  · intro x c hother
    exact ⟨toSafe_state x c, toSafe_fault c hother, toSafe_sd c hother, fun o => toSafe_outp c hother o ▸ deEnergised_state _,
      fun k => toSafe_brk c hother k ▸ appliedBrake_state _⟩
  · intro inp out brk fn conn net fr ok l m q x t hevent
    exact ⟨siEvent_safe hevent t, siEvent_run hevent t⟩
  · intro x t r inp
    exact ⟨cycle_of_safe t r inp, cycle_of_run t r inp⟩
  · intro x t i s hrun hsplit hdiffers hheld
    rw [discrepancy_fault t hrun hsplit hdiffers hheld]
    exact ⟨by rw [inp_putIn_same], fun j hj => inp_putIn_ne x i _ hj⟩
  · intro x t c hrun hused hsilent
    rw [connTimeout_loses t hrun hused hsilent, conn_putConn_same]
    exact ⟨rfl, rfl⟩
  · intro x t c hrun hgrace hover
    rw [graceEnds_loses t hrun hgrace hover, conn_putConn_same]
    exact ⟨rfl, rfl, rfl⟩
  · intro x t f hused hdemand
    refine ⟨fun hreleased hdelay => ?_, fun hreleased hnone => ?_, fun hawaits => ?_, fnCycle_notReleased t hused hdemand⟩
    · rw [fnCycle_leaves t hused hdemand hreleased, if_pos hdelay]
    · rw [fnCycle_leaves t hused hdemand hreleased, if_neg (by simp [hnone])]
    · exact fnCycle_stops t hused hdemand (by rw [hawaits]; decide) (by rw [hawaits]; decide)
  · intro x t k hrun hwindow hover
    rw [testDone_ends t hrun hwindow hover]
    by_cases hslip : (x.brk k).slip ≤ u16 (prmBrk x.params k) 10
    · rw [if_pos hslip]
      obtain ⟨hstate, hresult, hoverdue⟩ := testEnds_passes (x := x) k
      exact ⟨hstate, fun _ => ⟨hresult, hoverdue⟩, fun hover => absurd hslip (Nat.not_le.2 hover)⟩
    · rw [if_neg hslip]
      obtain ⟨hstate, hresult, hlocked⟩ := testEnds_fails (x := x) k
      exact ⟨hstate, fun h => absurd h hslip, fun _ => ⟨hresult, hlocked⟩⟩
  · intro x k n hrun hused hinterval hnot hpassed
    rw [overdue_becomes hrun hused hinterval hnot hpassed]
    refine ⟨fun hold => ?_, fun hyoung => if_neg (Nat.not_lt.2 hyoung)⟩
    rw [if_pos (c := n + u16 (prmBrk x.params k) 12 * cyclesPerHour < x.cycles) hold]
    exact becomeOverdue_shows k

/-! ### The end of a cycle (R443, R453): notes, flags and the times of a PASS apart, the island's state is the one that was decided -/

/-- `y` is `x` but for its brakes' times of a PASS and the notes and flags that the mirror takes over. -/
def SameDecided (x y : SiSt) : Prop := ∃ l n f, y = { x with brks := l, notes := n, flags := f }

theorem SameDecided.refl (x : SiSt) : SameDecided x x := ⟨_, _, _, rfl⟩

theorem SameDecided.trans {x y z : SiSt} (h : SameDecided x y) (g : SameDecided y z) : SameDecided x z := by
  obtain ⟨l, n, f, rfl⟩ := h
  obtain ⟨l', n', f', rfl⟩ := g
  exact ⟨l', n', f', rfl⟩

theorem SameDecided.ite {p : Prop} [Decidable p] {x y z : SiSt} (hy : SameDecided x y) (hz : SameDecided x z) :
    SameDecided x (if p then y else z) := by
  split
  · exact hy
  · exact hz

theorem sameDecided_note (x : SiSt) (sid kind idx old new detail : Nat) : SameDecided x (x.note sid kind idx old new detail) :=
  ⟨_, _, _, rfl⟩

theorem sameDecided_flag (x : SiSt) (i : Nat) : SameDecided x (x.flag i) := ⟨_, _, _, rfl⟩

theorem sameDecided_putBrk (x : SiSt) (k : Nat) (v : SafBrk) : SameDecided x (x.putBrk k v) := ⟨_, _, _, rfl⟩

theorem sameDecided_fold {β : Type} (f : SiSt → β → SiSt) (h : ∀ x b, SameDecided x (f x b)) (l : List β) (x : SiSt) :
    SameDecided x (l.foldl f x) := by
  induction l generalizing x with
  | nil => exact .refl x
  | cons b r ih => exact (h x b).trans (ih _)

/-- A change that is noted, and a flag that goes with it. -/
theorem sameDecided_change (x : SiSt) (sid kind idx old new detail i : Nat) {p q : Prop} [Decidable p] [Decidable q] :
    SameDecided x (if q then (if p then x else x.note sid kind idx old new detail).flag i
      else if p then x else x.note sid kind idx old new detail) := by
  have hnote : SameDecided x (if p then x else x.note sid kind idx old new detail) := (SameDecided.refl x).ite (sameDecided_note ..)
  exact (hnote.trans (sameDecided_flag _ i)).ite hnote

theorem notesOn_same (old x : SiSt) : SameDecided x (old.notesOn x) := by
  unfold SiSt.notesOn
  dsimp only
  refine SameDecided.trans ?_ (sameDecided_fold _ (fun _ _ => sameDecided_change ..) _ _)
  refine SameDecided.trans ?_ (sameDecided_fold _ (fun _ _ => sameDecided_change ..) _ _)
  refine SameDecided.trans ?_ (sameDecided_fold _ (fun _ _ => sameDecided_change ..) _ _)
  refine SameDecided.trans ?_ (sameDecided_fold _ (fun _ _ => sameDecided_change ..) _ _)
  refine SameDecided.trans ?_ (sameDecided_fold _ (fun _ _ => sameDecided_change ..) _ _)
  exact (SameDecided.refl x).ite (sameDecided_note ..)

theorem stampPass_same (old x : SiSt) (now : Nat) : SameDecided x (old.stampPass x now) :=
  sameDecided_fold _ (fun y k => (sameDecided_putBrk y k _).ite (.refl y)) _ _

theorem siTo_si (s : State) (x : SiSt) (all : Bool) : SameDecided x (s.siTo x all).si := by
  have hsame : SameDecided x (s.si.notesOn (s.si.stampPass x s.b.now)) := (stampPass_same s.si x s.b.now).trans (notesOn_same s.si _)
  unfold State.siTo
  extract_lets old y b b'
  split
  · exact hsame.trans ⟨_, _, _, rfl⟩
  · exact hsame

theorem siTo_state (s : State) (x : SiSt) (all : Bool) : (s.siTo x all).si.state = x.state := by
  obtain ⟨l, n, f, h⟩ := siTo_si s x all
  rw [h]

theorem siTo_fuses (s : State) (x : SiSt) (all : Bool) : (s.siTo x all).fuses = s.fuses := by
  unfold State.siTo
  extract_lets old y b b'
  split
  · rfl
  · rfl

/-! ### What reaches the island at all (R426–R429) -/

/-- The outcome is a next state, and the island in it is that of `s`. -/
def KeepsIsland (s : State) (o : Host.Outcome State Fault Refusal) : Prop := ∃ t, o = .next t ∧ t.si = s.si

theorem keepsIsland_next {s t : State} (h : t.si = s.si) : KeepsIsland s (.next t) := ⟨t, rfl, h⟩

theorem ite_si {p : Prop} [Decidable p] {s t u : State} (ht : t.si = s.si) (hu : u.si = s.si) : (if p then t else u).si = s.si := by
  split
  · exact ht
  · exact hu

/-- A row that the link can run changes the block and the fuses alone (20 R482). -/
theorem rowOf_keepsIsland {op : Nat} {row : Cmd → State → Host.Outcome State Fault Refusal} (h : rowOf op = some row)
    (c : Cmd) (s : State) : KeepsIsland s (row c s) := by
  unfold rowOf at h
  split at h
  all_goals cases h
  all_goals exact ⟨_, rfl, rfl⟩

theorem linkRun_si (s : State) (role counter op : Nat) (body : List Byte) : (s.linkRun role counter op body).si = s.si := by
  unfold State.linkRun
  dsimp only
  split
  · rfl
  · next row hrow =>
    obtain ⟨t, ht, hsi⟩ := rowOf_keepsIsland hrow (linkCmd role body) s
    rw [ht]
    exact ite_si hsi hsi

theorem linkFrame_si (s : State) (fr : List Byte) : (s.linkFrame fr).si = s.si :=
  ite_si rfl (ite_si rfl (ite_si rfl (ite_si rfl (ite_si rfl (ite_si rfl (linkRun_si _ _ _ _ _))))))

/-- A command that does not reach the island writes the block and the fuses alone, requests over the link included. -/
theorem exec_keepsIsland {i : Instr} (h : reachesIsland i = false) (s : State) : KeepsIsland s (exec i s) := by
  cases i
  case shavorRequest frame gapOk => exact keepsIsland_next (ite_si rfl (ite_si (linkFrame_si s frame) rfl))
  case smbusBlockWrite last piece pecOk => exact keepsIsland_next (ite_si rfl (ite_si rfl (ite_si (linkFrame_si _ _) rfl)))
  case safetyCycle | siSelfTestEnd | siParamsAccepted | periodicSelfTest | siClockFail | safeCopyReceived | skewExpiry |
      connectionTimeout | graceExpiry | discrepancyExpiry | resetPress | stopDelayExpiry | testPulse | edmTimeExpiry |
      brakeTestPulse | brakeTestRequest | applyMsExpiry | testWindowEnd | brakeOverdue | brakeGraceExpiry | safetyCounterEdge |
      safParamApply | signatureVerified | porNAssert | porNRelease | refclkValidAtBoot | coldRestartReset | refclkLost |
      refclkRestored | pllUnlock | supplyEvaluation | brownout | thermalEvaluation | vddAonLow =>
    cases h
  all_goals exact ⟨_, rfl, rfl⟩

/-- Settles O54: the front command runs on the queue's rest; a tick changes the block alone. -/
theorem theSafetyIslandIsIsolated : Obligations.TheSafetyIslandIsIsolated := by
  unfold Obligations.TheSafetyIslandIsIsolated
  obtain ⟨hrun, htick⟩ := aStepRunsTheFrontCommand
  constructor
  · intro s t c rest hfront hreach hstep
    obtain ⟨u, hu, hsi⟩ := exec_keepsIsland hreach { s with pending := rest }
    rw [hrun s c rest hfront, hu] at hstep
    cases hstep
    exact hsi
  · intro s t hempty hstep
    obtain ⟨b, hb⟩ := htick s hempty
    rw [hb] at hstep
    cases hstep
    rfl

/-! ### What leaves SAFE_STATE (R427) -/

/-- Out of SAFE_STATE a command leads at most to SELF_TEST, and only a reset does so. -/
def KeepsSafe (i : Instr) (o : Host.Outcome State Fault Refusal) : Prop :=
  ∃ t, o = .next t ∧ (t.si.state = siSafe ∨ (t.si.state = siSelfTest ∧ resetsIsland i = true))

theorem keepsSafe_stays {i : Instr} {t : State} (h : t.si.state = siSafe) : KeepsSafe i (.next t) := ⟨t, rfl, .inl h⟩

/-- A choice between states in each of which the island is in SAFE_STATE. -/
theorem ite_safe {p : Prop} [Decidable p] {t u : State} (ht : t.si.state = siSafe) (hu : u.si.state = siSafe) :
    (if p then t else u).si.state = siSafe := by
  split
  · exact ht
  · exact hu

/-- A reset that acts puts the island into SELF_TEST; one that does not act leaves it. -/
theorem keepsSafe_reset {i : Instr} {p : Prop} [Decidable p] {t u : State} (hi : resetsIsland i = true)
    (ht : t.si.state = siSafe ∨ t.si.state = siSelfTest) (hu : u.si.state = siSafe ∨ u.si.state = siSelfTest) :
    KeepsSafe i (.next (if p then t else u)) := by
  refine ⟨_, rfl, ?_⟩
  split
  · exact ht.imp_right fun h => ⟨h, hi⟩
  · exact hu.imp_right fun h => ⟨h, hi⟩

section

variable {s : State} (hsafe : s.si.state = siSafe)
include hsafe

theorem siStep_safe (i : Instr) {f : Nat → SiSt → SiSt} (h : ∀ t, f t s.si = s.si) : KeepsSafe i (siStep s f) := by
  refine keepsSafe_stays (ite_safe ?_ hsafe)
  rw [h, siTo_state]
  exact hsafe

theorem safetyCycle_safe (i : Instr) (inp : SafetyInputs) : KeepsSafe i (execSafetyCycle inp s) := by
  refine keepsSafe_stays (ite_safe hsafe ?_)
  dsimp only
  rw [cycle_of_safe _ _ _ hsafe]
  split
  · rw [if_neg (by simp [run_of_safe hsafe])]
    exact (siTo_state _ _ _).trans hsafe
  · exact (siTo_state _ _ _).trans hsafe

theorem safParamApply_safe (i : Instr) : KeepsSafe i (execSafParamApply s) := by
  refine keepsSafe_stays ?_
  split
  · exact hsafe
  · exact ite_safe hsafe (ite_safe hsafe hsafe)

theorem refclkRestored_safe (i : Instr) : KeepsSafe i (execRefclkRestored s) := by
  refine keepsSafe_stays ?_
  simp only [apply_ite State.si, apply_ite SiSt.state, hsafe, ite_self]

theorem coldRestartReset_safe : KeepsSafe .coldRestartReset (execColdRestartReset s) := by
  refine ⟨_, rfl, ?_⟩
  split
  · exact .inr ⟨rfl, rfl⟩
  · exact .inl hsafe

theorem porNAssert_safe (lowNs : Nat) : KeepsSafe (.porNAssert lowNs) (execPorNAssert lowNs s) := by
  refine keepsSafe_reset rfl (.inl hsafe) ?_
  split
  · exact .inr rfl
  · dsimp only
    split
    · exact .inr rfl
    · exact .inl hsafe

theorem pllUnlock_safe (pll : Fin 4) : KeepsSafe (.pllUnlock pll) (execPllUnlock pll s) := by
  refine keepsSafe_stays (ite_safe hsafe ?_)
  dsimp only
  split
  · exact ite_safe hsafe hsafe
  all_goals exact hsafe

theorem supplyEvaluation_safe (mv : List Nat) : KeepsSafe (.supplyEvaluation mv) (execSupplyEvaluation mv s) := by
  refine keepsSafe_stays (ite_safe hsafe (ite_safe ?_ hsafe))
  exact (siTo_state _ _ _).trans (toSafe_state _ _)

theorem thermalEvaluation_safe (temps : List Int) : KeepsSafe (.thermalEvaluation temps) (execThermalEvaluation temps s) := by
  refine keepsSafe_reset rfl (.inl hsafe) ?_
  split
  · split
    · exact .inr rfl
    · exact .inl hsafe
  · split
    · exact .inr rfl
    · exact .inl hsafe

/-- An event of the island's own does nothing in SAFE_STATE. -/
theorem islandEvent_safe {i : Instr} {f : Nat → SiSt → SiSt} (inp : Fin 12 := 0) (out : Fin 4 := 0) (brk : Fin 4 := 0)
    (fn : Fin 16 := 0) (conn : Fin 16 := 0) (net : Fin 2 := 0) (fr : CanFrame := {}) (ok : Bool := true) (l : Bool := true)
    (m : Bool := true) (h : SiEvent inp out brk fn conn net fr ok l m (i, f)) : KeepsSafe i (exec i s) := by
  rw [siEvent_exec h s]
  exact siStep_safe hsafe i fun t => siEvent_safe h t hsafe

theorem exec_safe (i : Instr) : KeepsSafe i (exec i s) := by
  by_cases hreach : reachesIsland i = false
  · obtain ⟨t, ht, hsi⟩ := exec_keepsIsland hreach s
    rw [ht]
    exact keepsSafe_stays (by rw [hsi]; exact hsafe)
  · cases i
    case siSelfTestEnd ok => exact islandEvent_safe hsafe (ok := ok) (h := List.mem_of_getElem? (i := 0) rfl)
    case siParamsAccepted => exact islandEvent_safe hsafe (h := List.mem_of_getElem? (i := 1) rfl)
    case periodicSelfTest ok => exact islandEvent_safe hsafe (ok := ok) (h := List.mem_of_getElem? (i := 2) rfl)
    case siClockFail => exact islandEvent_safe hsafe (h := List.mem_of_getElem? (i := 3) rfl)
    case safeCopyReceived net fr => exact islandEvent_safe hsafe (net := net) (fr := fr) (h := List.mem_of_getElem? (i := 4) rfl)
    case skewExpiry conn => exact islandEvent_safe hsafe (conn := conn) (h := List.mem_of_getElem? (i := 5) rfl)
    case connectionTimeout conn => exact islandEvent_safe hsafe (conn := conn) (h := List.mem_of_getElem? (i := 6) rfl)
    case graceExpiry conn => exact islandEvent_safe hsafe (conn := conn) (h := List.mem_of_getElem? (i := 7) rfl)
    case discrepancyExpiry inp => exact islandEvent_safe hsafe (inp := inp) (h := List.mem_of_getElem? (i := 8) rfl)
    case resetPress inp => exact islandEvent_safe hsafe (inp := inp) (h := List.mem_of_getElem? (i := 9) rfl)
    case stopDelayExpiry fn => exact islandEvent_safe hsafe (fn := fn) (h := List.mem_of_getElem? (i := 10) rfl)
    case testPulse out ok => exact islandEvent_safe hsafe (out := out) (ok := ok) (h := List.mem_of_getElem? (i := 11) rfl)
    case edmTimeExpiry out => exact islandEvent_safe hsafe (out := out) (h := List.mem_of_getElem? (i := 12) rfl)
    case brakeTestPulse brk ok => exact islandEvent_safe hsafe (brk := brk) (ok := ok) (h := List.mem_of_getElem? (i := 13) rfl)
    case brakeTestRequest brk fr => exact islandEvent_safe hsafe (brk := brk) (fr := fr) (h := List.mem_of_getElem? (i := 14) rfl)
    case applyMsExpiry brk => exact islandEvent_safe hsafe (brk := brk) (h := List.mem_of_getElem? (i := 15) rfl)
    case testWindowEnd brk => exact islandEvent_safe hsafe (brk := brk) (h := List.mem_of_getElem? (i := 16) rfl)
    case brakeOverdue brk => exact islandEvent_safe hsafe (brk := brk) (h := List.mem_of_getElem? (i := 17) rfl)
    case brakeGraceExpiry brk => exact islandEvent_safe hsafe (brk := brk) (h := List.mem_of_getElem? (i := 18) rfl)
    case safetyCounterEdge inp l m => exact islandEvent_safe hsafe (inp := inp) (l := l) (m := m) (h := List.mem_of_getElem? (i := 19) rfl)
    case safetyCycle inp => exact safetyCycle_safe hsafe _ inp
    case safParamApply => exact safParamApply_safe hsafe _
    case coldRestartReset => exact coldRestartReset_safe hsafe
    case porNAssert lowNs => exact porNAssert_safe hsafe lowNs
    case pllUnlock pll => exact pllUnlock_safe hsafe pll
    case supplyEvaluation mv => exact supplyEvaluation_safe hsafe mv
    case thermalEvaluation temps => exact thermalEvaluation_safe hsafe temps
    case signatureVerified => exact keepsSafe_stays (ite_safe hsafe (ite_safe hsafe hsafe))
    case refclkValidAtBoot => exact keepsSafe_stays (ite_safe hsafe hsafe)
    case refclkLost => exact keepsSafe_stays (ite_safe hsafe hsafe)
    case refclkRestored => exact refclkRestored_safe hsafe _
    case porNRelease refclkOk panelLow testEn => exact keepsSafe_reset rfl (.inl hsafe) (.inr rfl)
    case brownout => exact keepsSafe_reset rfl (.inl hsafe) (.inr rfl)
    case vddAonLow => exact ⟨_, rfl, .inr ⟨rfl, rfl⟩⟩
    all_goals exact absurd rfl hreach

end

/-- Settles O55: the front command is exec'd in the same island state, and a tick changes the block alone. -/
theorem safeStateIsLeftOnlyByAReset : Obligations.SafeStateIsLeftOnlyByAReset := by
  unfold Obligations.SafeStateIsLeftOnlyByAReset
  intro s t hsafe hstep
  obtain ⟨hrun, htick⟩ := aStepRunsTheFrontCommand
  cases hpending : s.pending with
  | nil =>
    obtain ⟨b, hb⟩ := htick s hpending
    rw [hb] at hstep
    cases hstep
    exact .inl hsafe
  | cons c rest =>
    obtain ⟨u, hu, hkept⟩ := exec_safe (s := { s with pending := rest }) hsafe c
    rw [hrun s c rest hpending, hu] at hstep
    cases hstep
    exact hkept.imp_right fun ⟨hself, hreset⟩ => ⟨hself, c, rest, rfl, hreset⟩

end Sys2Proof
end

section
/-! Performance counters (21 R493, R496): wraps, samples and writes of a counter. -/

namespace Sys2Proof

open Sys2Proof.Machine

/-! ### Wraps and samples -/

/-- A counter at its last count counts one more, and a sample that it then owes waits for the next retirement. -/
theorem counterWrap_wraps {s : State} {e : Fin 40} {i : Fin 8} (hlast : s.b.rd64 (Reg.prfEngCtr e i) = 2 ^ 48 - 1) :
    ((s.b.prfOne e i 1).2 = none → Gives s (.counterWrap e i) (s.b.prfOne e i 1).1) ∧
    (∀ o, (s.b.prfOne e i 1).2 = some o → Gives s (.counterWrap e i) ((s.b.prfOne e i 1).1.putEng e
      { (s.b.prfOne e i 1).1.eng e with skids := tput ((s.b.prfOne e i 1).1.eng e).skids i o })) := by
  refine ⟨fun hnone => gives_of_eq rfl ((if_neg (not_not_intro hlast)).trans ?_),
    fun o hsome => gives_of_eq rfl ((if_neg (not_not_intro hlast)).trans ?_)⟩
  · simp only [hnone]
  · simp only [hsome]

theorem counterWrap_rests {s : State} {e : Fin 40} {i : Fin 8} (hnot : s.b.rd64 (Reg.prfEngCtr e i) ≠ 2 ^ 48 - 1) :
    exec (.counterWrap e i) s = .next s := by
  have hexec : exec (.counterWrap e i) s = execCounterWrap e i s := rfl
  rw [hexec, execCounterWrap, nextB_eq, if_pos hnot]

theorem Quiet.engs {b t : Block} (h : Quiet b t) : t.engs = b.engs := h.reports.engs

/-- The samples that wait are recorded, and none waits any more. -/
theorem skidSample_records (s : State) (e : Fin 40) :
    ∃ x, Gives s (.skidSample e) x ∧ (x.eng e).skids = [] ∧ Reports { s.b with engs := x.engs } x := by
  have hquiet (p : PrfAt) (b : Block) (l : Tab Nat) :
      Quiet b (l.foldl (fun (b : Block) k => b.prfSample e k.1 p true 32) b) :=
    quiet_fold _ _ (fun _ _ _ => quiet_prfSample ..) b
  refine ⟨_, rfl, ?_, ?_⟩
  · rw [Block.eng, (hquiet _ _ _).engs]
    exact congrArg EngSt.skids (tget_tput_same _ _ _ _)
  · rw [(hquiet _ _ _).engs]
    exact (hquiet _ _ _).reports

/-! ### Sums of 48 bits -/

theorem prfAdd_fits {v n : Nat} (r : Nat) (h : v + n < 2 ^ 48) : prfAdd v n r = (v + n, 0) := if_pos h

theorem prfAdd_wraps {v n : Nat} (r : Nat) (h : 2 ^ 48 ≤ v + n) :
    prfAdd v n r = (r % 2 ^ 48 + (v + n - 2 ^ 48) % (2 ^ 48 - r % 2 ^ 48), 1 + (v + n - 2 ^ 48) / (2 ^ 48 - r % 2 ^ 48)) :=
  if_neg (Nat.not_lt.2 h)

theorem prfAdd_lt (v n r : Nat) : (prfAdd v n r).1 < 2 ^ 48 := by
  by_cases h : v + n < 2 ^ 48
  · rw [prfAdd_fits r h]
    exact h
  · have hreload : r % 2 ^ 48 < 2 ^ 48 := Nat.mod_lt _ (by decide)
    have hover : (v + n - 2 ^ 48) % (2 ^ 48 - r % 2 ^ 48) < 2 ^ 48 - r % 2 ^ 48 := Nat.mod_lt _ (by omega)
    rw [prfAdd_wraps r (Nat.not_lt.1 h)]
    dsimp only
    omega

/-- Less than a whole span past the wrap, the counter has wrapped once. -/
theorem prfAdd_wraps_once {v n r : Nat} (h : 2 ^ 48 ≤ v + n) (hspan : v + n < 2 ^ 48 + (2 ^ 48 - r % 2 ^ 48)) :
    prfAdd v n r = (r % 2 ^ 48 + (v + n - 2 ^ 48), 1) := by
  have hover : v + n - 2 ^ 48 < 2 ^ 48 - r % 2 ^ 48 := by omega
  rw [prfAdd_wraps r h, Nat.mod_eq_of_lt hover, Nat.div_eq_of_lt hover]

/-! ### Writes (R492, R493): both halves are set, and OVF clears -/

/-- A counter as written, with OVF of its configuration word clear. -/
def counterWritten (b : Block) (off : Nat) (lo hi : Word) : Block :=
  ((b.wr off lo).wrN (off + 4) (hi.toNat % 65536)).setFld (off + 0x10) 31 1 0

section

variable (b : Block) (off : Nat) (lo hi : Word)

theorem counterWritten_low : (counterWritten b off lo hi).rd off = lo := by
  rw [counterWritten, rd_setFld_ne _ _ _ _ (by omega), Block.wrN, rd_wr_ne _ _ (by omega), rd_wr_same]

theorem counterWritten_high : (counterWritten b off lo hi).rdN (off + 4) = hi.toNat % 65536 := by
  rw [counterWritten, Block.rdN, rd_setFld_ne _ _ _ _ (by omega)]
  exact (rdN_wrN_same _ _ _).trans (Nat.mod_eq_of_lt (by omega))

theorem counterWritten_ovf : (counterWritten b off lo hi).bit (off + 0x10) 31 = false := by
  rw [counterWritten, setFld_testBit _ _ _ _ _ _ (by decide), if_pos (by decide)]
  rfl

theorem counterWritten_staging : (counterWritten b off lo hi).staging = b.staging := by
  simp only [counterWritten, Block.setFld, Block.wrN, wr_staging]

/-- A write of a counter's low word. -/
theorem write64_counter (ini : Ini) (hblk : off / 0x100000 = 0x15) (hctr : off % 0x20 = 0) :
    b.write64 ini off lo hi = counterWritten b off lo hi := by
  rw [Block.write64, if_neg (by rintro rfl; revert hblk; decide), if_neg (by rintro rfl; revert hblk; decide),
    if_neg (by rintro (rfl | rfl) <;> revert hblk <;> decide), if_pos hblk]
  exact if_pos hctr

end

/-- A write that reaches a counter sets both halves and empties its staging register. -/
theorem writeBy_counter {b : Block} {ini : Ini} {off : Nat} {lo : Word} {r : RegRow} (hreaches : Reaches b ini off r false)
    (hwide : r.wide = true) (hblk : off / 0x100000 = 0x15) (hctr : off % 0x20 = 0) :
    b.writeBy ini off lo = counterWritten { b with staging := tdel b.staging (stageKey ini off) } off lo
      ((tget? b.staging (stageKey ini off)).getD (b.regNow (off + 4))) := by
  rw [writeBy_of_reaches lo hreaches, Block.writeIn, hwide, if_pos rfl, if_neg (by decide)]
  exact write64_counter _ _ _ _ _ hblk hctr

/-- Settles O24: the wrap and the samples by their events, the sums by arithmetic, the writes by what a counter's write stores. -/
theorem performanceCountersWrap : Obligations.PerformanceCountersWrap := by
  unfold Obligations.PerformanceCountersWrap
  refine ⟨fun s e i hlast => counterWrap_wraps hlast, fun s e i hnot => counterWrap_rests hnot, skidSample_records, ?_, ?_, ?_⟩
  · exact fun v n r _ => ⟨prfAdd_lt v n r, prfAdd_fits r, prfAdd_wraps_once⟩
  · intro s ini e i lo r he hi hreaches hwide
    have hwrite := writeBy_counter (lo := lo) hreaches hwide (by unfold Reg.prfEngCtr; omega) (by unfold Reg.prfEngCtr; omega)
    refine ⟨_, gives_of_eq rfl ((if_neg (by decide)).trans ((if_pos ⟨he, hi⟩).trans hwrite)), counterWritten_low ..,
      counterWritten_high .., ?_, counterWritten_staging ..⟩
    rw [show Reg.prfEngCfg e i = Reg.prfEngCtr e i + 0x10 by unfold Reg.prfEngCfg Reg.prfEngCtr; omega]
    exact counterWritten_ovf ..
  · intro s ini i lo r hi hreaches hwide
    have hwrite := writeBy_counter (lo := lo) hreaches hwide (by unfold Reg.prfBlkCtr; omega) (by unfold Reg.prfBlkCtr; omega)
    refine ⟨_, gives_of_eq rfl ((if_pos rfl).trans ((if_pos hi).trans hwrite)), counterWritten_low .., counterWritten_high .., ?_⟩
    rw [show Reg.prfBlkCfg i = Reg.prfBlkCtr i + 0x10 by unfold Reg.prfBlkCfg Reg.prfBlkCtr; omega]
    exact counterWritten_ovf ..

end Sys2Proof
end

section
/-! Trips and what they force (15 R359–R371): what the network's actions leave of the clocks, the start-up, the management interface and the
device's own registers (02, 22). -/

namespace Sys2Proof

open Sys2Proof.Machine

theorem isOut_low {off : Nat} (h : off < 0x200000) : isOut off = false := by
  have hblk : off / 0x100000 < 2 := Nat.div_lt_of_lt_mul h
  simp only [isOut, Bool.or_eq_false_iff, beq_eq_false_iff_ne]
  omega

/-- What no output side of the controller reaches: the clocks, the start-up, the MI, and the registers of the SYS and CLK blocks. -/
def footing (b : Block) : Bool × Nat × Boot × Mgmt × (Nat → Word) :=
  (b.refclk, b.elapsed, b.boot, b.mgmt, fun off => if off < 0x200000 then b.rd off else 0)

theorem footing_rd {b t : Block} (h : footing t = footing b) {off : Nat} (hlow : off < 0x200000) : t.rd off = b.rd off := by
  have hregs := congrArg (fun v => v.2.2.2.2 off) h
  simpa only [footing, if_pos hlow] using hregs

theorem footing_boot {b t : Block} (h : footing t = footing b) : t.boot = b.boot := congrArg (fun v => v.2.2.1) h

theorem footing_mgmt {b t : Block} (h : footing t = footing b) : t.mgmt = b.mgmt := congrArg (fun v => v.2.2.2.1) h

theorem footing_refclk {b t : Block} (h : footing t = footing b) : t.refclk = b.refclk := congrArg (fun v => v.1) h

theorem footing_elapsed {b t : Block} (h : footing t = footing b) : t.elapsed = b.elapsed := congrArg (fun v => v.2.1) h

theorem footing_started {b t : Block} (h : footing t = footing b) : t.started = b.started := by
  rw [Block.started, footing_refclk h, footing_boot h, footing_mgmt h]
  rfl

/-! ### Stores and reports -/

section

variable (b : Block)

@[simp] theorem footing_wr {off : Nat} (v : Word) (h : 0x200000 ≤ off) : footing (b.wr off v) = footing b := by
  have hrd : (fun k => if k < 0x200000 then (b.wr off v).rd k else 0) = fun k => if k < 0x200000 then b.rd k else 0 := by
    funext k
    split
    · exact rd_wr_ne b v (by omega)
    · rfl
  simp only [footing, wr_refclk, wr_elapsed, wr_boot, wr_mgmt, hrd]

@[simp] theorem footing_wrN {off : Nat} (v : Nat) (h : 0x200000 ≤ off) : footing (b.wrN off v) = footing b := footing_wr b _ h

@[simp] theorem footing_setFld {off : Nat} (lo n x : Nat) (h : 0x200000 ≤ off) : footing (b.setFld off lo n x) = footing b := footing_wr b _ h

@[simp] theorem footing_count {off : Nat} (n : Nat) (h : 0x200000 ≤ off) : footing (b.count off n) = footing b := footing_wr b _ h

@[simp] theorem footing_wr64 {off : Nat} (v : Nat) (h : 0x200000 ≤ off) : footing (b.wr64 off v) = footing b :=
  (footing_wr _ _ (by omega)).trans (footing_wr b _ h)

@[simp] theorem footing_setFlag {off : Nat} (bit : Nat) (h : 0x200000 ≤ off) : footing (b.setFlag off bit) = footing b :=
  (footing_count _ _ (by omega)).trans (footing_wrN b _ h)

theorem footing_quiet {b t : Block} (h : Quiet b t) : footing t = footing b := by
  have hrd : (fun k => if k < 0x200000 then t.rd k else 0) = fun k => if k < 0x200000 then b.rd k else 0 := by
    funext k
    split
    · exact h.rd (isOut_low (by omega)) (by omega)
    · rfl
  obtain ⟨o, rs, rfl, -, -⟩ := h
  simp only [footing, hrd]

@[simp] theorem footing_event (blk sid kind status reason source wher bit : Nat) (detail : List Byte) :
    footing (b.event blk sid kind status reason source wher bit detail) = footing b := footing_quiet (quiet_event ..)

@[simp] theorem footing_record (sid typ : Nat) (payload : List Byte) (pass : Bool) (val : Option Rat) :
    footing (b.record sid typ payload pass val) = footing b := footing_quiet (quiet_record ..)

@[simp] theorem footing_raise {off : Nat} (bit sid : Nat) (detail : List Byte) (h : 0x200000 ≤ off) :
    footing (b.raise off bit sid detail) = footing b := by
  simp only [Block.raise, apply_ite footing, footing_event, footing_setFlag b bit h, ite_self]

@[simp] theorem footing_raisePost {off : Nat} (bit sid : Nat) (detail : List Byte) (h : 0x200000 ≤ off) :
    footing (b.raisePost off bit sid detail) = footing b := (footing_event ..).trans (footing_setFlag b bit h)

end

theorem footing_ite (p : Prop) [Decidable p] (x y : Block) : footing (if p then x else y) = if p then footing x else footing y :=
  apply_ite footing p x y

theorem footing_fold {β : Type} {f : Block → β → Block} (h : ∀ b x, footing (f b x) = footing b) (l : List β) (b : Block) :
    footing (l.foldl f b) = footing b := foldl_keeps footing f h l b

/-! ### The controller's tables -/

section

variable (b : Block) (n : Nat)

@[simp] theorem footing_putSig (v : DWord) (flags : Nat) : footing (b.putSig n v flags) = footing b := rfl
@[simp] theorem footing_putPr (x : PairSt) : footing (b.putPr n x) = footing b := rfl
@[simp] theorem footing_putAx (x : AxisSt) : footing (b.putAx n x) = footing b := rfl
@[simp] theorem footing_putDio (x : DioSt) : footing (b.putDio n x) = footing b := rfl
@[simp] theorem footing_putTxo (x : TxoSt) : footing (b.putTxo n x) = footing b := rfl
@[simp] theorem footing_putDac (x : DacSt) : footing (b.putDac n x) = footing b := rfl
@[simp] theorem footing_putSg (x : StageSt) : footing (b.putSg n x) = footing b := rfl
@[simp] theorem footing_putTrp (x : TripSt) : footing (b.putTrp n x) = footing b := rfl
@[simp] theorem footing_putFch (x : FchSt) : footing (b.putFch n x) = footing b := rfl
@[simp] theorem footing_putTake (x : TakeSt) : footing (b.putTake n x) = footing b := rfl

end

/-! ### Pairs, axes, lines, bus fields and DACs -/

section

variable (b : Block) (n : Nat)

@[simp] theorem footing_setPrState (s : Nat) : footing (b.setPrState n s) = footing b :=
  (footing_setFld _ _ _ _ (by simp only [Reg.pwmRunning]; omega)).trans (footing_setFld _ _ _ _ (by simp only [Reg.pwmPairState]; omega))

@[simp] theorem footing_writeDutySh (v : Nat) : footing (b.writeDutySh n v) = footing b :=
  (footing_setFld _ _ _ _ (by simp only [Reg.pwmPairState]; omega)).trans (footing_wrN _ _ (by simp only [Reg.pwmPairDutySh]; omega))

@[simp] theorem footing_commitPair : footing (b.commitPair n) = footing b := rfl

@[simp] theorem footing_handPair (v : Word) : footing (b.handPair n v) = footing b := by
  simp only [Block.handPair, footing_ite, footing_commitPair, footing_writeDutySh, ite_self]

@[simp] theorem footing_groupShow : footing (b.groupShow n) = footing b := by
  unfold Block.groupShow
  split
  · simp (disch := (simp only [Reg.motGrpState]; omega)) only [footing_putSig, footing_setFld]
  · rfl

@[simp] theorem footing_axShow : footing (b.axShow n) = footing b := by
  simp (disch := (simp only [Reg.motAxState, Reg.motAxVelocity, Reg.motAxCmdPos]; omega)) only [Block.axShow, footing_groupShow,
    footing_putSig, footing_setFld, footing_wr, footing_wrN]

@[simp] theorem footing_motionRec (cause : Nat) : footing (b.motionRec n cause) = footing b := by
  simp only [Block.motionRec, footing_record, footing_putAx]

@[simp] theorem footing_axRaise (i : Nat) : footing (b.axRaise n i) = footing b := by
  have hown : footing (b.raise (Reg.motAxFlags n) i (sidAxis n)) = footing b :=
    footing_raise _ _ _ _ (by simp only [Reg.motAxFlags]; omega)
  unfold Block.axRaise
  split
  · exact (footing_raise _ _ _ _ (by decide)).trans hown
  · exact (footing_raise _ _ _ _ (by decide)).trans hown
  · exact (footing_raise _ _ _ _ (by decide)).trans hown
  · exact (footing_raise _ _ _ _ (by decide)).trans hown
  · exact hown

@[simp] theorem footing_setAx (s cause : Nat) : footing (b.setAx n s cause) = footing b := by
  simp (disch := (simp only [Reg.motAxState, Reg.motMoving]; omega)) only [Block.setAx, footing_ite, footing_motionRec,
    footing_axShow, footing_setFld, ite_self]

@[simp] theorem footing_dcpSend (kind : Nat) : footing (b.dcpSend n kind) = footing b := by
  simp (disch := (simp only [Reg.motDcpState]; omega)) only [Block.dcpSend, footing_setFld]
  rfl

@[simp] theorem footing_axLeave : footing (b.axLeave n) = footing b := by
  simp only [Block.axLeave, footing_ite, footing_dcpSend, footing_putAx, ite_self]

@[simp] theorem footing_axBegin (mode set : Nat) (t scale : Rat) (grp : Option Nat) :
    footing (b.axBegin n mode set t scale grp) = footing b := by
  simp (disch := (simp only [Reg.motAxState, Reg.motAxTarget]; omega)) only [Block.axBegin, footing_ite, footing_setAx,
    footing_setFld, footing_wrN, footing_axLeave, footing_putAx, ite_self]

@[simp] theorem footing_axStop (mode set : Nat) : footing (b.axStop n mode set) = footing b := by
  simp (disch := (simp only [Reg.motAxState]; omega)) only [Block.axStop, footing_ite, footing_setAx, footing_axRaise,
    footing_setFld, footing_putAx, ite_self]

@[simp] theorem footing_axEmergency (cause : Nat) : footing (b.axEmergency n cause) = footing b := by
  simp (disch := (simp only [Reg.motAxState]; omega)) only [Block.axEmergency, footing_ite, footing_setAx, footing_axRaise,
    footing_setFld, footing_putAx, ite_self]

@[simp] theorem footing_axMove (mode set : Nat) (v : Word) (scale : Rat) (grp : Option Nat) :
    footing (b.axMove n mode set v scale grp) = footing b := by
  unfold Block.axMove
  extract_lets x p t y dr jj z b1 b2 vm sp jj' ahead held need w b3 b4 b5 b6
  have hraised : footing b2 = footing b := by simp only [b2, b1, footing_ite, footing_axRaise, footing_putAx, ite_self]
  have hheld : footing b4 = footing b := by simp only [b4, b3, footing_ite, footing_axRaise, footing_putAx, ite_self]
  have hshown : footing b6 = footing b := by
    simp (disch := (simp only [Reg.motAxState, Reg.motAxTarget]; omega)) only [b6, b5, footing_ite, footing_setFld, footing_wrN, hheld,
      ite_self]
  split
  · exact footing_axStop ..
  · split
    · exact (footing_axShow ..).trans (footing_setFld _ _ _ _ (by simp only [Reg.motAxState]; omega))
    · split
      · exact footing_axBegin ..
      · split
        · split
          · exact footing_setAx ..
          · exact (footing_setAx ..).trans hraised
        · exact (footing_setAx ..).trans hshown

@[simp] theorem footing_handAxis (v : Word) : footing (b.handAxis n v) = footing b := by
  simp only [Block.handAxis, footing_ite, footing_axMove, ite_self]

@[simp] theorem footing_axHalt : footing (b.axHalt n) = footing b := by
  unfold Block.axHalt
  extract_lets x g b1 b2 b3 b4
  have hhalted : footing b4 = footing b := by
    simp (disch := (simp only [Reg.motAxState]; omega)) only [b4, b3, b2, b1, footing_axRaise, footing_setAx, footing_ite, footing_setFld,
      footing_putAx, ite_self]
  clear_value g
  split
  · rfl
  · split
    · refine (footing_groupShow ..).trans ((footing_setFld _ _ _ _ (by simp only [Reg.motGrpState]; omega)).trans (Eq.trans ?_ hhalted))
      exact footing_fold (fun y m => by rw [footing_ite, footing_axEmergency, ite_self]) _ _
    · exact hhalted

@[simp] theorem footing_axRelease : footing (b.axRelease n) = footing b := by
  simp only [Block.axRelease, footing_ite, footing_setAx, footing_putAx, ite_self]

@[simp] theorem footing_dioRecord (edges : Nat) (level : Bool) : footing (b.dioRecord n edges level) = footing b := by
  simp only [Block.dioRecord, footing_record, footing_putDio]

@[simp] theorem footing_dioEdge (level : Bool) : footing (b.dioEdge n level) = footing b := by
  unfold Block.dioEdge
  split
  · rfl
  · split
    · simp only [footing_ite, footing_putDio, footing_dioRecord, ite_self]
    · exact footing_dioRecord ..

@[simp] theorem footing_dioPut (l : Bool) : footing (b.dioPut n l) = footing b := by
  simp (disch := (simp only [Reg.dioOut, Reg.dioIn]; omega)) only [Block.dioPut, footing_ite, footing_dioEdge, footing_putSig,
    footing_setFld, ite_self]

@[simp] theorem footing_dioDrive (l : Bool) : footing (b.dioDrive n l) = footing b := by
  simp (disch := (simp only [Reg.dioForced]; omega)) only [Block.dioDrive, footing_ite, footing_dioPut, footing_putDio,
    footing_setFld, ite_self]

@[simp] theorem footing_dioTrip : footing (b.dioTrip n) = footing b := by
  simp (disch := (simp only [Reg.dioForced]; omega)) only [Block.dioTrip, footing_ite, footing_dioPut, footing_setFld, ite_self]

@[simp] theorem footing_dioUntrip : footing (b.dioUntrip n) = footing b := by
  simp (disch := (simp only [Reg.dioForced]; omega)) only [Block.dioUntrip, footing_ite, footing_dioPut, footing_setFld, ite_self]

@[simp] theorem footing_fieldWrite (v : DWord) : footing (b.fieldWrite n v) = footing b := by
  unfold Block.fieldWrite
  split
  · simp (disch := (simp only [Reg.canFlags]; omega)) only [footing_putSig, footing_putTxo, footing_ite, footing_raise, ite_self]
  · rfl

@[simp] theorem footing_dacLoad (code : Nat) : footing (b.dacLoad n code) = footing b :=
  footing_setFld _ _ _ _ (by simp only [Reg.anaDacState]; omega)

@[simp] theorem footing_handDac (v : Word) : footing (b.handDac n v) = footing b := by
  unfold Block.handDac
  dsimp only
  split
  · rfl
  · split
    · simp only [footing_ite, footing_putDac, footing_dacLoad, ite_self]
    · exact footing_dacLoad ..

@[simp] theorem footing_dacTrip : footing (b.dacTrip n) = footing b := by
  unfold Block.dacTrip
  split
  · exact footing_dacLoad ..
  · exact (footing_setFld _ _ _ _ (by simp only [Reg.anaDacState]; omega)).trans (footing_dacLoad ..)

@[simp] theorem footing_dacUntrip : footing (b.dacUntrip n) = footing b :=
  footing_setFld _ _ _ _ (by simp only [Reg.anaDacState]; omega)

end

/-! ### Stages -/

section

variable (b : Block) (n : Nat)

@[simp] theorem footing_outputRec (fresh : Bool) : footing (b.outputRec n fresh) = footing b := footing_record ..

@[simp] theorem footing_handOut (v : Word) : footing (b.handOut n v) = footing b := by
  unfold Block.handOut
  dsimp only
  split
  · exact footing_handDac ..
  · exact footing_handPair ..
  · exact footing_handAxis ..
  · split
    · rfl
    · split
      · exact footing_dioDrive ..
      · exact footing_count _ _ (by decide)
  · exact footing_fieldWrite ..
  · rfl

@[simp] theorem footing_applyStage (quiet : Bool) : footing (b.applyStage n quiet) = footing b := by
  unfold Block.applyStage
  extract_lets d st s forced v0 lo hi range v1 cons c ceil v2 tripping out acc old before b1 b2 b3 b4 b5 b6
  have hclamped : footing b4 = footing b := by
    simp (disch := (simp only [Reg.outStageValue, Reg.outStageState, Reg.outStageFlags, Reg.outFlags]; omega)) only [b4, b3, b2, b1,
      footing_ite, footing_raise, footing_setFld, footing_wr, footing_putSg, ite_self]
  have hceiling : footing b5 = footing b := by
    simp only [b5]
    clear_value cons b4
    split
    · simp (disch := (simp only [Reg.lgrConsStatus]; omega)) only [footing_ite, footing_setFld, hclamped, ite_self]
    · exact hclamped
  have hrecorded : footing b6 = footing b := by simp only [b6, footing_ite, footing_outputRec, hceiling, ite_self]
  simp only [footing_ite, footing_handPair, footing_handOut, hrecorded, ite_self]

@[simp] theorem footing_endCoast : footing (b.endCoast n) = footing b := by
  unfold Block.endCoast
  split
  · simp (disch := decide) only [footing_ite, footing_wrN, footing_putSg, ite_self]
  · rfl

@[simp] theorem footing_setSg (s : Nat) : footing (b.setSg n s) = footing b := by
  simp (disch := (simp only [Reg.outStageState]; omega)) only [Block.setSg, footing_setFld, footing_ite, footing_endCoast, ite_self]

@[simp] theorem footing_forceStage (r : Nat) : footing (b.forceStage n r) = footing b := by
  simp (disch := (simp only [Reg.outStageState]; omega)) only [Block.forceStage, footing_ite, footing_outputRec, footing_applyStage,
    footing_setSg, footing_setFld, ite_self]

@[simp] theorem footing_unforceStage (r : Nat) : footing (b.unforceStage n r) = footing b := by
  simp (disch := (simp only [Reg.outStageState]; omega)) only [Block.unforceStage, footing_ite, footing_outputRec, footing_applyStage,
    footing_setSg, footing_putSg, footing_setFld, ite_self]

/-! ### Trips and takes -/

@[simp] theorem footing_releaseTarget (kind : Nat) : footing (b.releaseTarget kind n) = footing b := by
  refine (footing_fold (fun y m => footing_unforceStage y m frTrip) _ _).trans ?_
  simp only [footing_ite, footing_dioUntrip, footing_dacUntrip, footing_axRelease, ite_self]
  rfl

@[simp] theorem footing_setTrpBit {reg : Nat} (v : Bool) (h : 0x200000 ≤ reg) : footing (b.setTrpBit reg n v) = footing b :=
  footing_setFld _ _ _ _ (by omega)

@[simp] theorem footing_quietSrc : footing (b.quietSrc n) = footing b := by
  refine (footing_fold (fun y p => by rw [footing_ite, footing_releaseTarget, ite_self]) _ _).trans ?_
  simp (disch := decide) only [footing_putTrp, footing_setTrpBit]

@[simp] theorem footing_setTake (s : Nat) : footing (b.setTake n s) = footing b :=
  footing_setFld _ _ _ _ (by simp only [Reg.acqTakeState]; omega)

@[simp] theorem footing_showHold : footing (b.showHold n) = footing b :=
  footing_fold (fun y k => footing_setFld _ _ _ _ (by simp only [Reg.acqTakeState]; omega)) _ _

@[simp] theorem footing_missTrigger (instant : Nat) : footing (b.missTrigger n instant) = footing b := by
  simp (disch := (simp only [Reg.acqChMissed, Reg.acqFlags]; omega)) only [Block.missTrigger, footing_showHold, footing_raise, footing_count,
    footing_putFch]

@[simp] theorem footing_trigger1 (kind instant : Nat) (late : Bool) : footing (b.trigger1 n kind instant late).1 = footing b := by
  unfold Block.trigger1
  split
  · rfl
  · dsimp only
    split
    · exact footing_missTrigger ..
    · split
      · rfl
      · split
        · exact (footing_raise _ _ _ _ (by decide)).trans (footing_count _ _ (by simp only [Reg.acqChEarlyIgnored]; omega))
        · simp (disch := (simp only [Reg.acqChLastTrigger, Reg.acqFlags]; omega)) only [footing_showHold, footing_putFch, footing_ite,
            footing_raise, footing_wr64, footing_setTake, footing_putTake, ite_self]

@[simp] theorem footing_takeTrigger (kind instant : Nat) (late : Bool) : footing (b.takeTrigger n kind instant late) = footing b := by
  unfold Block.takeTrigger
  dsimp only
  split
  · exact footing_trigger1 ..
  · refine (footing_fold (fun y m => ?_) _ _).trans (footing_trigger1 ..)
    split
    · rw [footing_ite, footing_trigger1, ite_self]
    · rfl

@[simp] theorem footing_tripTriggers (instant : Nat) : footing (b.tripTriggers n instant) = footing b := by
  refine footing_fold (fun y m => ?_) _ _
  split
  · rw [footing_ite, footing_takeTrigger, ite_self]
  · rfl

@[simp] theorem footing_forceTarget (p : Nat × Nat) : footing (b.forceTarget n p) = footing b := by
  obtain ⟨kind, t⟩ := p
  refine (footing_fold (fun y m => footing_forceStage y m frTrip) _ _).trans ?_
  simp (disch := (simp only [Reg.pwmPairTrips]; omega)) only [footing_ite, footing_count, footing_setPrState, footing_putPr,
    footing_dioTrip, footing_dacTrip, footing_axHalt, ite_self]
  rfl

@[simp] theorem footing_fire (atEnd : Bool) : footing (b.fire n atEnd) = footing b := by
  have hforced (y : Block) : footing ((y.targetsOf n).foldl (fun b p => b.forceTarget n p) y) = footing y :=
    footing_fold (fun y p => footing_forceTarget y n p) _ _
  simp (disch := (simp only [Reg.trpFlags, Reg.trpSrcFires, Reg.trpSrcLast, Reg.trpLatched]; omega)) only [Block.fire, Block.tripRecord,
    footing_ite, footing_raise, footing_raisePost, footing_setFlag, footing_putTrp, footing_record, hforced, footing_setTrpBit,
    footing_wr64, footing_count, ite_self]

@[simp] theorem footing_assertSrc : footing (b.assertSrc n) = footing b := by
  simp only [Block.assertSrc, footing_ite, footing_fire, footing_putTrp, footing_tripTriggers, ite_self]

@[simp] theorem footing_activate : footing (b.activate n) = footing b := by
  simp (disch := decide) only [Block.activate, footing_ite, footing_assertSrc, footing_putTrp, footing_setTrpBit, ite_self]

/-- Whatever a trip source's driver does, the clocks, the start-up, the MI and the SYS and CLK registers are as before. -/
@[simp] theorem footing_driveSrc (on : Bool) : footing (b.driveSrc n on) = footing b := by
  simp (disch := decide) only [Block.driveSrc, footing_ite, footing_quietSrc, footing_activate, footing_setTrpBit, footing_putTrp, ite_self]

end

end Sys2Proof
end

section
/-! Safety (18 R426, R443, R449, R453): the island's events and cycles as steps of the controller. -/

namespace Sys2Proof

open Sys2Proof.Machine

/-! ### The end of a cycle -/

/-- The island's demands act on trip sources alone. -/
theorem footing_demands (b : Block) (old new : Nat) : footing (b.demands old new) = footing b :=
  footing_fold (fun y k => by rw [footing_ite, footing_driveSrc, ite_self]) _ _

theorem started_log (b : Block) (source code : Nat) (detail : List Byte) : (b.log source code detail).started = b.started := rfl

/-- Where the CP runs, it has taken over the notes and flags of the cycle. -/
theorem siTo_taken (s : State) (x : SiSt) (all : Bool) (hstarted : s.b.started = true) :
    (s.siTo x all).si.notes = [] ∧ (s.siTo x all).si.flags = [] := by
  unfold State.siTo
  extract_lets old y b b'
  have hruns : b'.started = true := by
    have hdemands : b.started = true := (footing_started (footing_demands _ _ _)).trans hstarted
    simp only [b', apply_ite Block.started, started_log, hdemands, ite_self]
  rw [if_pos hruns]
  exact ⟨rfl, rfl⟩

/-! ### Events and cycles -/

theorem run_iff (x : SiSt) : x.run = true ↔ x.state = siRun := beq_iff_eq

section

variable {s : State} (f : Nat → SiSt → SiSt) (inp : SafetyInputs)

theorem siStep_up (hup : s.b.islandUp = true) : siStep s f = .next (s.siTo (f s.b.elapsed s.si) false) :=
  congrArg Host.Outcome.next (if_pos hup)

theorem siStep_down (hdown : s.b.islandUp = false) : siStep s f = .next s :=
  congrArg Host.Outcome.next (if_neg (Bool.eq_false_iff.1 hdown))

theorem safetyCycle_down (hdown : s.b.islandUp = false) : execSafetyCycle inp s = .next s :=
  congrArg Host.Outcome.next (if_pos (by rw [hdown]; rfl))

/-- The island as a cycle leaves it, before what the cycle brings into force. -/
def cycled (s : State) (inp : SafetyInputs) : SiSt := s.si.cycle s.b.elapsed (s.b.refclk || s.b.mgmt.refRestored.isSome) inp

/-- What a cycle of a running island does with the set that waits for it (R449). -/
theorem safetyCycle_up (hup : s.b.islandUp = true) : execSafetyCycle inp s = .next (match (cycled s inp).next with
    | some q =>
      if (cycled s inp).run then
        let u := s.siTo ((cycled s inp).applySet s.b.elapsed q s.b.saf.count) true
        { u with b := u.b.stageEnds stDone 0 }
      else
        let u := s.siTo { cycled s inp with next := none } true
        { u with b := u.b.stageEnds stInternal 0 }
    | none => s.siTo (cycled s inp) true) :=
  congrArg Host.Outcome.next ((if_neg (by rw [hup]; decide)).trans rfl)

end

/-- Settles O44: every event is a step of the island, a cycle is one with the set it brings into force, and what a step leaves of the island
is what was decided. -/
theorem safetyIslandEventsComplete : Obligations.SafetyIslandEventsComplete := by
  unfold Obligations.SafetyIslandEventsComplete
  refine ⟨?_, ?_, ?_⟩
  · intro s inp out brk fn conn net fr ok l m q hevent
    rw [siEvent_exec hevent]
    exact ⟨siStep_up q.2, siStep_down q.2⟩
  · intro s inp
    refine ⟨safetyCycle_down inp, fun hup hnone => ?_, fun q hup hset hrun => ?_, fun q hup hset hrun => ?_⟩
    · refine (safetyCycle_up inp hup).trans ?_
      rw [show (cycled s inp).next = none from hnone]
      rfl
    · refine (safetyCycle_up inp hup).trans ?_
      rw [show (cycled s inp).next = some q from hset]
      exact congrArg Host.Outcome.next (if_pos ((run_iff _).2 hrun))
    · refine (safetyCycle_up inp hup).trans ?_
      rw [show (cycled s inp).next = some q from hset]
      exact congrArg Host.Outcome.next (if_neg (mt (run_iff _).1 hrun))
  · intro s x all
    obtain ⟨brks, notes, flags, hsi⟩ := siTo_si s x all
    refine ⟨siTo_pending s x all, siTo_fuses s x all, siTo_state s x all, ?_, ?_, ?_, ?_, ?_, siTo_taken s x all⟩
    all_goals rw [hsi]

end Sys2Proof
end

section
/-! Clocks, supplies and temperatures (22 R501–R510): what each event leaves in its registers. -/

namespace Sys2Proof

open Sys2Proof.Machine

/-! ### Flags, the log and the outward side -/

section

variable (b : Block)

theorem raise_quiet (off bit sid : Nat) (d : List Byte) : Quiet (b.setFlag off bit) (b.raise off bit sid d) := by
  unfold Block.raise
  dsimp only
  split
  · exact Quiet.refl _
  · exact quiet_event ..

theorem raisePost_quiet (off bit sid : Nat) (d : List Byte) : Quiet (b.setFlag off bit) (b.raisePost off bit sid d) := quiet_event ..

theorem Quiet.refclk {b t : Block} (h : Quiet b t) : t.refclk = b.refclk := by
  obtain ⟨o, rs, rfl, -, -⟩ := h
  rfl

theorem Quiet.mgmt {b t : Block} (h : Quiet b t) : t.mgmt = b.mgmt := by
  obtain ⟨o, rs, rfl, -, -⟩ := h
  rfl

theorem rd_log (source code off : Nat) (detail : List Byte) : (b.log source code detail).rd off = b.rd off := rfl

theorem rd_onOut (f : OutSt → OutSt) {off : Nat} (hin : isOut off = false) : (b.onOut f).rd off = b.rd off := by
  simp only [Block.rd, Block.onOut, hin, Bool.false_eq_true, if_false]

theorem bit_setFld_one (off x : Nat) {i : Nat} (hi : i < 32) : (b.setFld off i 1 x).bit off i = x.testBit 0 := by
  rw [setFld_testBit b off i 1 x i hi, if_pos ⟨Nat.le_refl i, Nat.lt_succ_self i⟩, Nat.sub_self]

theorem bit_setFld_other (off x : Nat) {i k : Nat} (hk : k < 32) (hne : k ≠ i) : (b.setFld off i 1 x).bit off k = b.bit off k := by
  rw [setFld_testBit b off i 1 x k hk, if_neg (by omega)]

/-- A field within a field that was set. -/
theorem fld_setFld_within (off x : Nat) {lo n i k : Nat} (hfits : lo + n ≤ 32) (hin : i + k ≤ n) :
    (b.setFld off lo n x).fld off (lo + i) k = field x i k := by
  refine Nat.eq_of_testBit_eq fun j => ?_
  rw [Block.fld, field_testBit, field_testBit]
  by_cases hj : j < k
  · have hbit := setFld_testBit b off lo n x (lo + i + j) (by omega)
    rw [if_pos (by omega), show lo + i + j - lo = i + j by omega] at hbit
    rw [← hbit]
    rfl
  · simp only [hj, decide_false, Bool.false_and]

end

/-! ### Losing REFCLK (R501) -/

section

variable (b : Block)

/-- The block with REFCLK declared lost, before the clock registers show it. -/
def refGone (b : Block) : Block :=
  let y := b.driveSrc srcClockLoss true
  let y := { y with refclk := false, mgmt := { y.mgmt with refRestored := none } }
  if y.dev = dsBoot then { y with boot := { y.boot with waitRefclk := true, milestone := 0 } } else y

theorem refGone_rd {off : Nat} (hlow : off < 0x200000) : (refGone b).rd off = b.rd off := by
  have hdrive : (b.driveSrc srcClockLoss true).rd off = b.rd off := footing_rd (footing_driveSrc ..) hlow
  unfold refGone
  extract_lets y y'
  split
  · exact hdrive
  · exact hdrive

theorem refGone_refclk : (refGone b).refclk = false := by
  unfold refGone
  extract_lets y y'
  split
  · rfl
  · rfl

theorem refGone_restored : (refGone b).mgmt.refRestored = none := by
  unfold refGone
  extract_lets y y'
  split
  · rfl
  · rfl

theorem refGone_waits (hboot : b.dev = dsBoot) : (refGone b).boot.waitRefclk = true ∧ (refGone b).boot.milestone = 0 := by
  have hdev : (b.driveSrc srcClockLoss true).dev = dsBoot := (dev_congr (footing_rd (footing_driveSrc ..) (by decide))).trans hboot
  unfold refGone
  extract_lets y m y' bt
  rw [if_pos (c := y'.dev = dsBoot) hdev]
  exact ⟨rfl, rfl⟩

/-- The clock registers of a lost REFCLK, and its flag and count. -/
def showLoss (b : Block) : Block :=
  (((((b.setFld Reg.clkState 0 1 0).setFld Reg.clkState 5 1 1).count Reg.clkRefclkLosses).raise Reg.clkFlags 0).onOut (·.pcieReset)).log 1 0x02

theorem loseRef_eq : b.loseRef = showLoss (refGone b) := rfl

theorem showLoss_raised {off : Nat} (hlow : off < 0x200000) : (showLoss b).rd off =
    ((((b.setFld Reg.clkState 0 1 0).setFld Reg.clkState 5 1 1).count Reg.clkRefclkLosses).setFlag Reg.clkFlags 0).rd off := by
  rw [showLoss, rd_log, rd_onOut _ _ (isOut_low hlow)]
  exact (raise_quiet ..).rd (isOut_low hlow) (by omega)

theorem showLoss_state : (showLoss b).rd Reg.clkState = ((b.setFld Reg.clkState 0 1 0).setFld Reg.clkState 5 1 1).rd Reg.clkState :=
  (showLoss_raised b (by decide)).trans ((rd_setFlag_ne _ _ (by decide) (by decide)).trans (rd_wr_ne _ _ (by decide)))

theorem showLoss_losses : (showLoss b).rdN Reg.clkRefclkLosses = (b.rdN Reg.clkRefclkLosses + 1) % 2 ^ 32 := by
  have hcounted : (showLoss b).rd Reg.clkRefclkLosses =
      (((b.setFld Reg.clkState 0 1 0).setFld Reg.clkState 5 1 1).count Reg.clkRefclkLosses).rd Reg.clkRefclkLosses :=
    (showLoss_raised b (by decide)).trans (rd_setFlag_ne _ _ (by decide) (by decide))
  have hbefore : ((b.setFld Reg.clkState 0 1 0).setFld Reg.clkState 5 1 1).rd Reg.clkRefclkLosses = b.rd Reg.clkRefclkLosses :=
    (rd_setFld_ne _ _ _ _ (by decide)).trans (rd_setFld_ne _ _ _ _ (by decide))
  rw [Block.rdN, hcounted]
  refine (rdN_wrN_same _ _ _).trans ?_
  rw [Block.rdN, hbefore]
  rfl

theorem showLoss_flag : (showLoss b).bit Reg.clkFlags 0 = true :=
  (bit_congr 0 (showLoss_raised b (by decide))).trans (bit_setFlag_same _ _ (by decide))

theorem showLoss_keeps : (showLoss b).refclk = b.refclk ∧ (showLoss b).mgmt.refRestored = b.mgmt.refRestored ∧ (showLoss b).boot = b.boot := by
  have hquiet := raise_quiet (((b.setFld Reg.clkState 0 1 0).setFld Reg.clkState 5 1 1).count Reg.clkRefclkLosses) Reg.clkFlags 0 sidDevice []
  refine ⟨hquiet.refclk.trans ?_, (congrArg Mgmt.refRestored hquiet.mgmt).trans ?_, hquiet.boot.trans ?_⟩
  · simp only [Block.setFlag, Block.count, Block.setFld, Block.wrN, wr_refclk]
  · simp only [Block.setFlag, Block.count, Block.setFld, Block.wrN, wr_mgmt]
  · simp only [Block.setFlag, Block.count, Block.setFld, Block.wrN, wr_boot]

/-- What shows of a lost REFCLK. -/
theorem loseRef_shows : (b.loseRef).refclk = false ∧ b.loseRef.bit Reg.clkState 0 = false ∧ b.loseRef.bit Reg.clkState 5 = true ∧
    b.loseRef.bit Reg.clkFlags 0 = true ∧ b.loseRef.rdN Reg.clkRefclkLosses = (b.rdN Reg.clkRefclkLosses + 1) % 2 ^ 32 ∧
    b.loseRef.mgmt.refRestored = none ∧ b.loseRef.dev = b.dev ∧
    (b.dev = dsBoot → b.loseRef.boot.waitRefclk = true ∧ b.loseRef.boot.milestone = 0) := by
  rw [loseRef_eq]
  obtain ⟨hrefclk, hrestored, hboot⟩ := showLoss_keeps (refGone b)
  have hdev : (showLoss (refGone b)).rd Reg.sysState = b.rd Reg.sysState :=
    (showLoss_raised _ (by decide)).trans ((rd_setFlag_ne _ _ (by decide) (by decide)).trans ((rd_wr_ne _ _ (by decide)).trans
      ((rd_setFld_ne _ _ _ _ (by decide)).trans ((rd_setFld_ne _ _ _ _ (by decide)).trans (refGone_rd b (by decide))))))
  refine ⟨hrefclk.trans (refGone_refclk b), ?_, ?_, showLoss_flag _, ?_, hrestored.trans (refGone_restored b), dev_congr hdev, ?_⟩
  · rw [bit_congr 0 (showLoss_state _), bit_setFld_other _ _ _ (by decide) (by decide), bit_setFld_one _ _ _ (by decide)]
    rfl
  · rw [bit_congr 5 (showLoss_state _), bit_setFld_one _ _ _ (by decide)]
    rfl
  · rw [showLoss_losses, Block.rdN, refGone_rd b (by decide)]
    rfl
  · rw [hboot]
    exact refGone_waits b

end

/-! ### REFCLK comes back (R502) -/

/-- The clock registers of a REFCLK that has come back, with CLOCK_LOSS ended and the entry in the log. -/
def refBack (b : Block) : Block :=
  (((b.setFld Reg.clkState 0 1 1).setFld Reg.clkState 5 1 0).driveSrc srcClockLoss false).log 1 0x03

/-- The MI has asked for the cold restart, at the time `t`. -/
def askRestart (b : Block) (t : Nat) : Block :=
  { b with boot := { b.boot with restartBy := some 3 }, mgmt := { b.mgmt with refRestored := some t } }

section

variable (b : Block)

theorem log_elapsed (source code : Nat) (detail : List Byte) : (b.log source code detail).elapsed = b.elapsed := rfl

theorem log_refclk (source code : Nat) (detail : List Byte) : (b.log source code detail).refclk = b.refclk := rfl

theorem refBack_elapsed : (refBack b).elapsed = b.elapsed := by
  rw [refBack, log_elapsed, footing_elapsed (footing_driveSrc ..)]
  simp only [Block.setFld, Block.wrN, wr_elapsed]

theorem refBack_refclk : (refBack b).refclk = b.refclk := by
  rw [refBack, log_refclk, footing_refclk (footing_driveSrc ..)]
  simp only [Block.setFld, Block.wrN, wr_refclk]

theorem refBack_state : (refBack b).rd Reg.clkState = ((b.setFld Reg.clkState 0 1 1).setFld Reg.clkState 5 1 0).rd Reg.clkState := by
  rw [refBack, rd_log, footing_rd (footing_driveSrc ..) (by decide)]

end

theorem refclkRestored_asks {s : State} (hlost : s.b.refclk = false) (hpor : s.b.boot.por = false) (hwait : s.b.boot.waitRefclk = false)
    (hfirst : s.b.mgmt.refRestored = none) : exec .refclkRestored s =
      .next { s with b := askRestart (refBack s.b) s.b.elapsed, si := { s.si with refSince := s.b.elapsed - 2000000 } } := by
  have hexec : exec .refclkRestored s = execRefclkRestored s := rfl
  rw [hexec, execRefclkRestored]
  dsimp only
  rw [if_neg (by simp [hlost, hpor, hwait, hfirst])]
  rw [← refBack_elapsed s.b]
  rfl

/-! ### PLLs and the PCIe link (R503; 19 R458) -/

/-- Dropping the records that waited for the reel is no more than a report. -/
theorem quiet_reelBack (b : Block) :
    Quiet b (b.onOut fun o => { o with rcd := { o.rcd with ddrDown := false, waitRecs := [] } }) := ⟨_, b.regs, rfl, rfl, fun _ _ => rfl⟩

section

variable {s : State} {p : Fin 4}

theorem pllUnlock_drops (hpor : s.b.boot.por = false) (hlocked : s.b.bit Reg.clkState (1 + p.val) = true) :
    exec (.pllUnlock p) s = .next (
      let b := (s.b.setFld Reg.clkState (1 + p.val) 1 0).raisePost Reg.clkFlags 1
      match p.val with
      | 0 => ({ s with b := b } : State).loseRef
      | 1 => { s with b := b.onOut fun o => { o with rcd := { o.rcd with ddrDown := true } } }
      | 2 => { s with b := (b.onOut (·.pcieReset)).emit (.flag Reg.hstFlags 0 false []) }
      | _ => { s with b := (b.portDown 0).portDown 1 }) :=
  congrArg Host.Outcome.next ((if_neg (by rw [hpor, hlocked]; decide)).trans rfl)

/-- The block once a PLL has locked again; what waited for the reel is written with the second. -/
def relocked (b : Block) (p : Nat) : Block :=
  let b := b.setFld Reg.clkState (1 + p) 1 1
  if p ≠ 1 then b
  else b.out.rcd.waitRecs.foldl (fun (b : Block) r => b.emit (.write r))
    (b.onOut fun o => { o with rcd := { o.rcd with ddrDown := false, waitRecs := [] } })

theorem pllRelock_gives (hpor : s.b.boot.por = false) (hunlocked : s.b.bit Reg.clkState (1 + p.val) = false) :
    Gives s (.pllRelock p) (relocked s.b p) :=
  gives_of_eq rfl ((if_neg (by rw [hpor, hunlocked]; decide)).trans rfl)

theorem relocked_quiet (b : Block) (p : Nat) : Quiet (b.setFld Reg.clkState (1 + p) 1 1) (relocked b p) := by
  unfold relocked
  dsimp only
  split
  · exact Quiet.refl _
  · exact (quiet_reelBack _).trans (quiet_fold _ _ (fun _ _ _ => quiet_emit ..) _)

theorem linkCode_rate : ∀ (g : Fin 4) (w : Fin 3), field (g.val + 4 * 2 ^ w.val) 0 2 = g.val := by decide

theorem linkCode_width : ∀ (g : Fin 4) (w : Fin 3), field (g.val + 4 * 2 ^ w.val) 2 3 = 2 ^ w.val := by decide

theorem pcieLinkUp_shows {g : Fin 4} {w : Fin 3} (hstarted : s.b.started = true) : ∃ x, Gives s (.pcieLinkUp g w) x ∧
    x.fld Reg.hstState 0 2 = g.val ∧ x.fld Reg.hstState 2 3 = 2 ^ w.val ∧ x.fld Reg.hstState 5 27 = s.b.fld Reg.hstState 5 27 := by
  refine ⟨_, gives_of_eq rfl (if_pos hstarted), ?_, ?_, fld_setFld_apart _ _ _ (by decide) (by decide)⟩
  · exact (fld_setFld_within _ _ _ (lo := 0) (i := 0) (by decide) (by decide)).trans (linkCode_rate g w)
  · exact (fld_setFld_within _ _ _ (lo := 0) (i := 2) (by decide) (by decide)).trans (linkCode_width g w)

end

/-! ### Supplies (R504–R506) -/

/-- The sum of the powers of the places of a word that meet `p` shows at each place whether it does. -/
theorem testBit_sum_filter (p : Nat → Bool) (n v : Nat) :
    ((((List.range n).filter p).map fun v => 2 ^ v).sum).testBit v = ((List.range n).filter p).contains v := by
  have hsorted : ((List.range n).filter p).SortedLT := (List.pairwise_lt_range.filter p).sortedLT
  rw [Bool.eq_iff_iff, ← Nat.mem_bitIndices, Nat.bitIndices_sum_map_two_pow hsorted, List.contains_iff_mem]

/-- A rail that leaves its tolerance has its flag, its event and its entry in the log. -/
def railLeaves (mv : List Nat) (b : Block) (v : Nat) : Block :=
  (b.raisePost Reg.clkFlags 4 sidDevice (leBytes 1 v)).log 1 0x04 (leBytes 1 v ++ leBytes 4 (mv.getD v 0))

theorem railLeaves_rd (mv : List Nat) (b : Block) (v : Nat) {off : Nat} (hin : isOut off = false) (hprf : off / 0x100000 ≠ 0x15)
    (hflags : off ≠ Reg.clkFlags) (hsets : off ≠ Reg.clkFlags + 4) : (railLeaves mv b v).rd off = b.rd off := by
  rw [railLeaves, rd_log, (raisePost_quiet ..).rd hin hprf, rd_setFlag_ne _ _ hflags hsets]

theorem railLeaves_flag (mv : List Nat) (b : Block) (v : Nat) : (railLeaves mv b v).bit Reg.clkFlags 4 = true := by
  have hword : (railLeaves mv b v).rd Reg.clkFlags = (b.setFlag Reg.clkFlags 4).rd Reg.clkFlags := by
    rw [railLeaves, rd_log, (raisePost_quiet ..).rd rfl (by decide)]
  rw [bit_congr 4 hword, bit_setFlag_same _ _ (by decide)]

/-- After one or more rails have left, the flag shows. -/
theorem railsLeave_flag (mv : List Nat) {l : List Nat} (hsome : l ≠ []) (b : Block) : (l.foldl (railLeaves mv) b).bit Reg.clkFlags 4 = true := by
  obtain ⟨l, v, rfl⟩ := List.eq_nil_or_concat l |>.resolve_left hsome
  rw [List.concat_eq_append, List.foldl_append]
  exact railLeaves_flag ..

section

variable (b : Block) (mv : List Nat)

/-- The rails outside their tolerance. -/
def badRails : List Nat := (List.range 11).filter fun v => !b.railOk v (mv.getD v 0)

/-- Those of them that were within it. -/
def newlyBad : List Nat := (badRails b mv).filter fun v => !b.bit Reg.clkSupplyState v

/-- The block after an evaluation of the supplies. -/
def suppliesShown : Block :=
  (newlyBad b mv).foldl (railLeaves mv) (b.wrN Reg.clkSupplyState (((badRails b mv).map fun v => 2 ^ v).sum))

/-- Neither the rails' words nor the flags apart, an evaluation leaves a register as it was. -/
theorem railsLeave_rd (l : List Nat) {off : Nat} (hin : isOut off = false) (hprf : off / 0x100000 ≠ 0x15)
    (hflags : off ≠ Reg.clkFlags) (hsets : off ≠ Reg.clkFlags + 4) : (l.foldl (railLeaves mv) b).rd off = b.rd off :=
  foldl_keeps (fun b : Block => b.rd off) _ (fun y v => railLeaves_rd mv y v hin hprf hflags hsets) l b

theorem suppliesShown_bit {v : Nat} (hv : v < 11) : (suppliesShown b mv).bit Reg.clkSupplyState v = (badRails b mv).contains v := by
  rw [suppliesShown, bit_congr v (railsLeave_rd _ _ _ rfl (by decide) (by decide) (by decide)), Block.bit, rdN_wrN_same,
    Nat.testBit_mod_two_pow, decide_eq_true (by omega), Bool.true_and]
  exact testBit_sum_filter _ 11 v

theorem suppliesShown_flag (hnew : ∃ v ∈ badRails b mv, b.bit Reg.clkSupplyState v = false) :
    (suppliesShown b mv).bit Reg.clkFlags 4 = true := by
  obtain ⟨v, hbad, hbit⟩ := hnew
  refine railsLeave_flag mv (List.ne_nil_of_mem (a := v) ?_) _
  exact List.mem_filter.2 ⟨hbad, by rw [hbit]; rfl⟩

theorem suppliesShown_rd {off : Nat} (hin : isOut off = false) (hoff : off ∉ [Reg.clkSupplyState, Reg.clkFlags, Reg.clkFlags + 4])
    (hprf : off / 0x100000 ≠ 0x15) : (suppliesShown b mv).rd off = b.rd off := by
  simp only [List.mem_cons, List.not_mem_nil, or_false, not_or] at hoff
  obtain ⟨hstate, hflags, hsets⟩ := hoff
  exact (railsLeave_rd _ _ _ hin hprf hflags hsets).trans (rd_wr_ne _ _ hstate)

theorem newlyBad_contains (v : Nat) : (newlyBad b mv).contains v = ((badRails b mv).contains v && !b.bit Reg.clkSupplyState v) := by
  rw [Bool.eq_iff_iff, Bool.and_eq_true, List.contains_iff_mem, List.contains_iff_mem]
  exact List.mem_filter

end

theorem supplyEvaluation_next {s : State} (mv : List Nat) (hpor : s.b.boot.por = false) : exec (.supplyEvaluation mv) s = .next (
    if (newlyBad s.b mv).contains 3 then ({ s with b := suppliesShown s.b mv } : State).siTo (s.si.toSafe 3) false
    else { s with b := suppliesShown s.b mv }) :=
  congrArg Host.Outcome.next ((if_neg (by rw [hpor]; decide)).trans rfl)

/-! ### Temperatures (R508, R509) -/

theorem writeOp_tempCfg (b : Block) (ini : Ini) (v : Word) : b.writeOp ini Reg.clkTempCfg v = some (b.onTempCfg ini v.toNat) := if_pos rfl

theorem tempCfgWrite_gives {s : State} {ini : Ini} {v : Word} {r : RegRow} (hreaches : Reaches s.b ini Reg.clkTempCfg r false)
    (hnarrow : r.wide = false) : Gives s (.tempCfgWrite ini v) (s.b.onTempCfg ini v.toNat) := by
  refine gives_of_eq rfl ((writeBy_of_reaches v hreaches).trans ?_)
  rw [Block.writeIn, hnarrow, if_neg (by decide), Block.write32, writeOp_tempCfg]

/-- A store above the SYS and CLK blocks, by a thread's hold fields. -/
@[simp] theorem footing_holdFields (b : Block) (t : Nat) : footing (b.holdFields t) = footing b :=
  (footing_setFld _ _ _ _ (by simp only [Reg.dspThreadState]; omega)).trans (footing_setFld _ _ _ _ (by simp only [Reg.dspThreadState]; omega))

@[simp] theorem footing_thermalFloor (b : Block) (on : Bool) : footing (b.thermalFloor on) = footing b := by
  refine (footing_fold (fun y p => by rw [footing_ite, footing_holdFields, ite_self]) _ _).trans ?_
  simp (disch := decide) only [footing_ite, footing_raisePost, footing_count, footing_setFld, ite_self]

/-- A condition that has begun raises its flag and has its entry; that leaves CLK.STATE. -/
theorem clkState_entered (b : Block) (p : Prop) [Decidable p] (bit : Nat) (detail : List Byte) :
    (if p then (b.raise Reg.clkFlags bit).log 1 0x04 detail else b).rd Reg.clkState = b.rd Reg.clkState := by
  split
  · exact (rd_log ..).trans (rd_raise_ne _ _ _ _ (by decide) (by decide) rfl (by decide) (by decide))
  · rfl

/-- WARN after an evaluation that found `warn`. -/
def warnStep (b : Block) (temps : List Int) (warn : Bool) : Block :=
  if warn = b.bit Reg.clkState 6 then b
  else
    let y := (b.setFld Reg.clkState 6 1 (b2n warn)).thermalFloor warn
    if warn then (y.raise Reg.clkFlags 2).log 1 0x04 (tempDetail temps) else y

/-- LIMIT after an evaluation that found `lim`. -/
def limitStep (b : Block) (temps : List Int) (lim : Bool) : Block :=
  if lim = b.bit Reg.clkState 7 then b
  else
    let y := (b.setFld Reg.clkState 7 1 (b2n lim)).driveSrc 45 lim
    if lim then (y.raise Reg.clkFlags 3).log 1 0x04 (tempDetail temps) else y

section

variable (b : Block) (temps : List Int)

theorem b2n_testBit (p : Bool) : (b2n p).testBit 0 = p := by cases p <;> rfl

theorem warnStep_shows (warn : Bool) :
    (warnStep b temps warn).bit Reg.clkState 6 = warn ∧ (warnStep b temps warn).bit Reg.clkState 7 = b.bit Reg.clkState 7 := by
  unfold warnStep
  split
  · next hsame => exact ⟨hsame.symm, rfl⟩
  · have hword := (clkState_entered ((b.setFld Reg.clkState 6 1 (b2n warn)).thermalFloor warn) (warn = true) 2 (tempDetail temps)).trans
      (footing_rd (footing_thermalFloor _ _) (by decide))
    refine ⟨(bit_congr 6 hword).trans ?_, (bit_congr 7 hword).trans (bit_setFld_other _ _ _ (by decide) (by decide))⟩
    rw [bit_setFld_one _ _ _ (by decide), b2n_testBit]

theorem limitStep_shows (lim : Bool) :
    (limitStep b temps lim).bit Reg.clkState 7 = lim ∧ (limitStep b temps lim).bit Reg.clkState 6 = b.bit Reg.clkState 6 := by
  unfold limitStep
  split
  · next hsame => exact ⟨hsame.symm, rfl⟩
  · have hword := (clkState_entered ((b.setFld Reg.clkState 7 1 (b2n lim)).driveSrc 45 lim) (lim = true) 3 (tempDetail temps)).trans
      (footing_rd (footing_driveSrc _ _ _) (by decide))
    refine ⟨(bit_congr 7 hword).trans ?_, (bit_congr 6 hword).trans (bit_setFld_other _ _ _ (by decide) (by decide))⟩
    rw [bit_setFld_one _ _ _ (by decide), b2n_testBit]

/-- The finding on WARN. -/
def warnFound : Bool :=
  thermalOn (b.bit Reg.clkState 6) temps (field (b.rdN Reg.clkTempCfg) 8 8) (field (b.rdN Reg.clkTempCfg) 0 4)

/-- The finding on LIMIT. -/
def limitFound : Bool :=
  thermalOn (b.bit Reg.clkState 7) temps (field (b.rdN Reg.clkTempCfg) 16 8) (field (b.rdN Reg.clkTempCfg) 0 4)

theorem thermalSteps_eq : b.thermalSteps temps = limitStep (warnStep b temps (warnFound b temps)) temps (limitFound b temps) := rfl

/-- WARN and LIMIT are what the evaluation found (R508). -/
theorem thermalSteps_show :
    (b.thermalSteps temps).bit Reg.clkState 6 = warnFound b temps ∧ (b.thermalSteps temps).bit Reg.clkState 7 = limitFound b temps := by
  obtain ⟨hwarn, -⟩ := warnStep_shows b temps (warnFound b temps)
  obtain ⟨hlimit, hkept⟩ := limitStep_shows (warnStep b temps (warnFound b temps)) temps (limitFound b temps)
  rw [thermalSteps_eq]
  exact ⟨hkept.trans hwarn, hlimit⟩

end

/-! ### Resets by a supply or the temperature (R506, R508) -/

theorem tget?_filter_of_not {α : Type} {f : Nat × α → Bool} {k : Nat} (h : ∀ v, f (k, v) = false) (t : Tab α) :
    tget? (t.filter f) k = none := by
  induction t with
  | nil => rfl
  | cons p r ih =>
    obtain ⟨i, v⟩ := p
    rw [List.filter_cons]
    split
    · next hkeeps =>
      have hne : k ≠ i := by
        rintro rfl
        rw [h v] at hkeeps
        exact Bool.noConfusion hkeeps
      rw [tget?, if_neg hne, ih]
    · exact ih

/-- A reset puts SYS.STATE at its reset value. -/
theorem keptRegs_sysState (rs : Tab Word) (mi : Bool) (keep : Nat) : rdR (keptRegs rs mi keep) Reg.sysState = regReset Reg.sysState := by
  rw [keptRegs, rdR_tput_ne _ _ (by decide), rdR_tput_ne _ _ (by decide), rdR, tget?_filter_of_not (fun v => by dsimp only; cases mi <;> decide)]
  rfl

theorem resetAll_sysState (b : Block) (mi : Bool) (keep : Nat) : (b.resetAll mi keep).rd Reg.sysState = regReset Reg.sysState :=
  keptRegs_sysState _ _ _

/-- A cold start shows its cause; no driver of a trip source reaches the word. -/
theorem newStart_sysState (b : Block) (cause : Nat) : (b.newStart cause).rd Reg.sysState = (b.setFld Reg.sysState 16 8 cause).rd Reg.sysState := by
  unfold Block.newStart
  extract_lets bt b1 b2 b3 b4
  have hdemands : footing b4 = footing b3 := footing_fold (fun y s => footing_driveSrc y s true) _ _
  rw [rd_log, footing_rd (footing_driveSrc ..) (by decide), footing_rd hdemands (by decide)]
  exact (rd_wr_ne _ _ (by decide)).trans ((rd_setFld_ne _ _ _ _ (by decide)).trans rfl)

/-- The controller that a commanded cold restart has reset, before its start shows. -/
def restarted (b : Block) (keep : Nat) : Block :=
  { b.resetAll false keep with
    boot := { (b.resetAll false keep).boot with por := false }
    mgmt := { (b.resetAll false keep).mgmt with refRestored := none }
    refclk := (b.resetAll false keep).refclk || b.mgmt.refRestored.isSome }

theorem coldRestart_eq (b : Block) (cause keep : Nat) : b.coldRestart cause keep = (restarted b keep).newStart cause := rfl

theorem restarted_sysState (b : Block) (keep : Nat) : (restarted b keep).rd Reg.sysState = regReset Reg.sysState :=
  resetAll_sysState b false keep

/-- A cold restart leads to BOOT and shows its cause. -/
theorem coldRestart_sysState (b : Block) (cause keep : Nat) (hcause : cause < 2 ^ 8) :
    (b.coldRestart cause keep).dev = dsBoot ∧ (b.coldRestart cause keep).fld Reg.sysState 16 8 = cause := by
  rw [coldRestart_eq, Block.dev, fld_congr 0 8 (newStart_sysState _ _), fld_congr 16 8 (newStart_sysState _ _)]
  refine ⟨?_, fld_setFld_same _ _ (by decide) hcause⟩
  rw [fld_setFld_apart _ _ _ (by decide) (by decide), Block.fld, Block.rdN, restarted_sysState]
  decide

theorem drawBytes_mgmt (b : Block) (n : Nat) : (b.drawBytes n).2.mgmt = b.mgmt := by
  induction n generalizing b with
  | zero => rfl
  | succ n ih => exact (ih _).trans rfl

theorem breakWrite_mgmt (b : Block) : b.breakWrite.mgmt = b.mgmt := by
  unfold Block.breakWrite
  split
  · split
    · exact drawBytes_mgmt b _
    · rfl
  · rfl

/-- Without VDD_AON the log comes back from its copy, and the clock flags and the count of losses are gone (R506). -/
theorem vddAonLow_resets (s : State) : ∃ x : Block, exec .vddAonLow s = .next { s.porAssert with b := x } ∧ x.boot.por = true ∧
    x.rdN Reg.clkFlags = 0 ∧ x.rdN Reg.clkRefclkLosses = 0 ∧
    x.mgmt.log = s.b.mgmt.nvmLog.map (fun (e : LogEntry) => { e with fromNvm := true }) ∧ x.mgmt.thermalHold = false := by
  have hflags : ((s.porAssert.b.wrN Reg.clkFlags 0).wrN Reg.clkRefclkLosses 0).rdN Reg.clkFlags = 0 :=
    (congrArg BitVec.toNat (rd_wr_ne _ _ (by decide))).trans (rdN_wrN_same _ _ _)
  have hlosses : ((s.porAssert.b.wrN Reg.clkFlags 0).wrN Reg.clkRefclkLosses 0).rdN Reg.clkRefclkLosses = 0 := rdN_wrN_same _ _ _
  have hlog : s.porAssert.b.mgmt.nvmLog = s.b.mgmt.nvmLog := congrArg (fun m => (Mgmt.kept m).nvmLog) (breakWrite_mgmt s.b)
  refine ⟨_, rfl, ?_, hflags, hlosses, ?_, rfl⟩
  · rfl
  · exact congrArg (List.map fun (e : LogEntry) => { e with fromNvm := true }) hlog

theorem thermalEvaluation_resets {s : State} {temps : List Int} (hpor : s.b.boot.por = false) (hsome : temps ≠ [])
    (hheld : s.b.mgmt.thermalHold = false) (hhot : ∃ t ∈ temps, 1120 ≤ t) : ∃ x : Block,
    exec (.thermalEvaluation temps) s = .next { s with b := x, si := islandReset x.refclk x.elapsed } ∧
      x.mgmt.thermalHold = true ∧ x.dev = dsBoot ∧ x.fld Reg.sysState 16 8 = 3 := by
  obtain ⟨hdev, hcause⟩ := coldRestart_sysState (s.b.log 1 0x04 (tempDetail temps)) 3 0 (by decide)
  have hstep : exec (.thermalEvaluation temps) s = execThermalEvaluation temps s := rfl
  rw [hstep, execThermalEvaluation, if_neg (by simp [hpor, hsome]), if_neg (by simp [hheld]), if_pos (by simpa using hhot)]
  let y := (s.b.log 1 0x04 (tempDetail temps)).coldRestart 3 0
  exact ⟨{ y with mgmt := { y.mgmt with thermalHold := true } }, rfl, rfl, hdev, hcause⟩

theorem thermalEvaluation_cools {s : State} {temps : List Int} (hpor : s.b.boot.por = false) (hsome : temps ≠ [])
    (hheld : s.b.mgmt.thermalHold = true) :
    ((∀ t ∈ temps, t < 960) → ∃ x : Block,
      exec (.thermalEvaluation temps) s = .next { s with b := x, si := islandReset x.refclk x.elapsed } ∧
        x.mgmt.thermalHold = false ∧ x.boot.t0 = s.b.elapsed) ∧
    ((∃ t ∈ temps, 960 ≤ t) → exec (.thermalEvaluation temps) s = .next s) := by
  have hstep : exec (.thermalEvaluation temps) s = execThermalEvaluation temps s := rfl
  rw [hstep, execThermalEvaluation, if_neg (by simp [hpor, hsome]), if_pos hheld]
  constructor
  · intro hcool
    rw [if_pos (by simpa using hcool)]
    exact ⟨{ s.b with mgmt := { s.b.mgmt with thermalHold := false }, boot := { s.b.boot with t0 := s.b.elapsed } }, rfl, rfl, rfl⟩
  · intro hwarm
    rw [if_neg (by simpa using hwarm)]

theorem thermalEvaluation_shows {s : State} {temps : List Int} (hpor : s.b.boot.por = false) (hsome : temps ≠ [])
    (hheld : s.b.mgmt.thermalHold = false) (hbelow : ∀ t ∈ temps, t < 1120) :
    Gives s (.thermalEvaluation temps) ((s.b.tempMax temps).thermalSteps temps) := by
  have hstep : exec (.thermalEvaluation temps) s = execThermalEvaluation temps s := rfl
  rw [Gives, hstep, execThermalEvaluation, if_neg (by simp [hpor, hsome]), if_neg (by simp [hheld]), if_neg (by simpa using hbelow)]

theorem brownout_resets {s : State} (hpor : s.b.boot.por = false) :
    exec .brownout s = .next { s.coldRestart 3 0 with b := (s.coldRestart 3 0).b.raise Reg.clkFlags 5 } :=
  congrArg Host.Outcome.next ((if_neg (by rw [hpor]; decide)).trans rfl)

/-- What shows of a REFCLK that has come back. -/
theorem askRestart_shows (b : Block) (t : Nat) (hlost : b.refclk = false) :
    (askRestart (refBack b) t).bit Reg.clkState 0 = true ∧ (askRestart (refBack b) t).bit Reg.clkState 5 = false ∧
    (askRestart (refBack b) t).refclk = false := by
  have hword : (askRestart (refBack b) t).rd Reg.clkState = ((b.setFld Reg.clkState 0 1 1).setFld Reg.clkState 5 1 0).rd Reg.clkState :=
    refBack_state b
  refine ⟨?_, ?_, (refBack_refclk b).trans hlost⟩
  · rw [bit_congr 0 hword, bit_setFld_other _ _ _ (by decide) (by decide), bit_setFld_one _ _ _ (by decide)]
    rfl
  · rw [bit_congr 5 hword, bit_setFld_one _ _ _ (by decide)]
    rfl

theorem refclkLost_shows {s : State} (hpresent : s.b.refPresent = true) :
    exec .refclkLost s = .next { s with b := s.b.loseRef, si := { s.si with refLost := true } } :=
  congrArg Host.Outcome.next (if_pos hpresent)

theorem refclkLost_absent {s : State} (habsent : s.b.refPresent = false) : exec .refclkLost s = .next s :=
  congrArg Host.Outcome.next (if_neg (Bool.eq_false_iff.1 habsent))

/-- Settles O23: the clocks by what the loss, the return and the PLLs leave, the supplies by their word, the temperature by its steps. -/
theorem clockSupplyAndThermalEventsComplete : Obligations.ClockSupplyAndThermalEventsComplete := by
  unfold Obligations.ClockSupplyAndThermalEventsComplete
  refine ⟨fun s hpresent => ⟨_, refclkLost_shows hpresent, loseRef_shows s.b⟩, fun s habsent => refclkLost_absent habsent, ?_, ?_, ?_,
    fun s g w hstarted => pcieLinkUp_shows hstarted, ?_, ?_, fun s hpor => brownout_resets hpor, vddAonLow_resets, ?_, ?_,
    fun b ts _ => thermalSteps_show b ts⟩
  · intro s hlost hpor hwait hfirst
    obtain ⟨hvalid, hloss, hrefclk⟩ := askRestart_shows s.b s.b.elapsed hlost
    exact ⟨_, refclkRestored_asks hlost hpor hwait hfirst, rfl, rfl, hvalid, hloss, hrefclk⟩
  · intro s p hpor hlocked
    exact (pllUnlock_drops hpor hlocked).trans rfl
  · intro s p hpor hunlocked
    refine ⟨⟨_, pllRelock_gives hpor hunlocked, (relocked_quiet s.b p).reports⟩, fun hp => ⟨_, pllRelock_gives hpor hunlocked, ?_⟩⟩
    rw [relocked, hp]
    rfl
  · intro s mv hpor
    refine ⟨suppliesShown s.b mv, _, supplyEvaluation_next mv hpor, fun v => suppliesShown_bit s.b mv, suppliesShown_flag s.b mv,
      fun off hin hoff hprf => suppliesShown_rd s.b mv hin hoff hprf, fun hbad hbit => if_pos ?_, fun hnone => if_neg ?_⟩
    · rw [newlyBad_contains, show (badRails s.b mv).contains 3 = true from hbad, hbit]
      rfl
    · rw [newlyBad_contains]
      rcases hnone with hgood | hbit
      · rw [show (badRails s.b mv).contains 3 = false from hgood, Bool.false_and]
        decide
      · rw [hbit, Bool.not_true, Bool.and_false]
        decide
  · intro s ini v r hreaches hnarrow
    have hgives := tempCfgWrite_gives (v := v) hreaches hnarrow
    exact ⟨fun hok => by rwa [Block.onTempCfg, if_pos hok] at hgives, fun hbad => by rwa [Block.onTempCfg, if_neg hbad] at hgives⟩
  · exact fun s ts hpor hsome hheld => ⟨thermalEvaluation_shows hpor hsome hheld, thermalEvaluation_resets hpor hsome hheld⟩
  · exact fun s ts hpor hsome hheld => thermalEvaluation_cools hpor hsome hheld

end Sys2Proof
end

section
/-! Host queues (19 R461, R473, R474): a queue as it is made, and the HST commands. -/

namespace Sys2Proof

open Sys2Proof.Machine

/-! ### Fields of a register file -/

section

variable (rs : Tab Word)

theorem fldR_setFldR_same (off : Nat) {lo n x : Nat} (hfits : lo + n ≤ 32) (hx : x < 2 ^ n) : fldR (setFldR rs off lo n x) off lo n = x := by
  refine Nat.eq_of_testBit_eq fun i => ?_
  rw [fldR, setFldR, rdR_tput_same, field_testBit, BitVec.toNat_ofNat, Nat.testBit_mod_two_pow, setField_testBit]
  by_cases hi : i < n
  · rw [decide_eq_true hi, decide_eq_true (show lo + i < 32 by omega), if_pos (by omega), Nat.add_sub_cancel_left, Bool.true_and, Bool.true_and]
  · rw [decide_eq_false hi, Bool.false_and, Nat.testBit_lt_two_pow (Nat.lt_of_lt_of_le hx (Nat.pow_le_pow_right (by decide) (by omega)))]

theorem fldR_setFldR_apart (off x : Nat) {lo n lo' n' : Nat} (hfits : lo' + n' ≤ 32) (happart : lo' + n' ≤ lo ∨ lo + n ≤ lo') :
    fldR (setFldR rs off lo n x) off lo' n' = fldR rs off lo' n' := by
  refine Nat.eq_of_testBit_eq fun i => ?_
  rw [fldR, fldR, setFldR, rdR_tput_same, field_testBit, field_testBit, BitVec.toNat_ofNat, Nat.testBit_mod_two_pow, setField_testBit]
  by_cases hi : i < n'
  · rw [decide_eq_true (show lo' + i < 32 by omega), if_neg (by omega), Bool.true_and]
  · rw [decide_eq_false hi, Bool.false_and, Bool.false_and]

theorem fldR_congr {rs rs' : Tab Word} {off : Nat} (lo n : Nat) (h : rdR rs' off = rdR rs off) : fldR rs' off lo n = fldR rs off lo n := by
  rw [fldR, fldR, h]

theorem rdR_setFldR_ne {off k : Nat} (lo n x : Nat) (h : k ≠ off) : rdR (setFldR rs off lo n x) k = rdR rs k := rdR_tput_ne rs _ h

end

/-! ### A queue's state and what makes one (R461) -/

section

variable (o : OutSt) {q : Nat}

/-- Setting a queue's state leaves every word but its configuration and ADMIN_STATUS. -/
theorem setQ_rd (st : Nat) {off : Nat} (hcfg : off ≠ Reg.hstQCfg q) (hadmin : off ≠ Reg.adminStatus) :
    rdR (o.setQ q st).regs off = rdR o.regs off := by
  unfold OutSt.setQ
  dsimp only
  split
  · rw [rdR_setFldR_ne _ _ _ _ hadmin, rdR_setFldR_ne _ _ _ _ hcfg]
  · split
    · rw [rdR_setFldR_ne _ _ _ _ hadmin, rdR_setFldR_ne _ _ _ _ hcfg]
    · exact rdR_setFldR_ne _ _ _ _ hcfg

theorem setQ_cfg (st : Nat) (hq : q < 64) :
    rdR (o.setQ q st).regs (Reg.hstQCfg q) = rdR (setFldR o.regs (Reg.hstQCfg q) 30 2 st) (Reg.hstQCfg q) := by
  have hadmin : Reg.hstQCfg q ≠ Reg.adminStatus := by simp only [Reg.hstQCfg, Reg.adminStatus]; omega
  unfold OutSt.setQ
  dsimp only
  split
  · rw [rdR_setFldR_ne _ _ _ _ hadmin]
  · split
    · rw [rdR_setFldR_ne _ _ _ _ hadmin]
    · rfl

/-- The configuration word of a new queue. -/
def madeCfg (q size vec : Nat) (inten : Bool) : Nat :=
  size % 8192 + 2 ^ 22 * b2n (decide (16 ≤ q)) + 2 ^ 23 * b2n inten + 2 ^ 24 * (vec % 64)

theorem madeCfg_size (q vec : Nat) (inten : Bool) {size : Nat} (hsize : size ≤ 4096) :
    field (BitVec.ofNat 32 (madeCfg q size vec inten)).toNat 0 13 = size := by
  rw [field, BitVec.toNat_ofNat, Nat.shiftRight_zero, madeCfg]
  omega

/-- The register file of a new queue, before its state shows. -/
def madeRegs (o : OutSt) (q size vec : Nat) (inten : Bool) (base coal us : Nat) : Tab Word :=
  tput (tput (wr64R (tput o.regs (Reg.hstQCfg q) (BitVec.ofNat 32 (madeCfg q size vec inten))) (Reg.hstQBase q) base) (Reg.hstQIndex q) 0#32)
    (Reg.hstQCoal q) (BitVec.ofNat 32 (coal % 256 + 65536 * (us % 1024)))

variable (size vec base coal us : Nat) (ie r : Bool)

theorem makeQ_eq : o.makeQ q size vec ie base coal us r =
    ({ o with regs := madeRegs o q size vec ie base coal us, q := tput o.q q {} } : OutSt).setQ q (if r then qRestarting else qReady) := rfl

theorem madeRegs_cfg : rdR (madeRegs o q size vec ie base coal us) (Reg.hstQCfg q) = BitVec.ofNat 32 (madeCfg q size vec ie) := by
  rw [madeRegs, rdR_tput_ne _ _ (by simp only [Reg.hstQCfg, Reg.hstQCoal]; omega), rdR_tput_ne _ _ (by simp only [Reg.hstQCfg, Reg.hstQIndex]; omega),
    wr64R, rdR_tput_ne _ _ (by simp only [Reg.hstQCfg, Reg.hstQBase]; omega), rdR_tput_ne _ _ (by simp only [Reg.hstQCfg, Reg.hstQBase]; omega),
    rdR_tput_same]

theorem madeRegs_index : rdR (madeRegs o q size vec ie base coal us) (Reg.hstQIndex q) = 0#32 := by
  rw [madeRegs, rdR_tput_ne _ _ (by simp only [Reg.hstQIndex, Reg.hstQCoal]; omega), rdR_tput_same]

/-- A register that is none of the new queue's keeps its word. -/
theorem madeRegs_ne {off : Nat} (hoff : off < Reg.hstQCfg q ∨ Reg.hstQCfg q + 0x20 ≤ off) :
    rdR (madeRegs o q size vec ie base coal us) off = rdR o.regs off := by
  simp only [Reg.hstQCfg] at hoff
  rw [madeRegs, rdR_tput_ne _ _ (by simp only [Reg.hstQCoal]; omega), rdR_tput_ne _ _ (by simp only [Reg.hstQIndex]; omega),
    wr64R, rdR_tput_ne _ _ (by simp only [Reg.hstQBase]; omega), rdR_tput_ne _ _ (by simp only [Reg.hstQBase]; omega),
    rdR_tput_ne _ _ (by simp only [Reg.hstQCfg]; omega)]

theorem makeQ_index (hq : q < 64) : rdR (o.makeQ q size vec ie base coal us r).regs (Reg.hstQIndex q) = 0#32 := by
  rw [makeQ_eq, setQ_rd _ _ (by simp only [Reg.hstQIndex, Reg.hstQCfg]; omega) (by simp only [Reg.hstQIndex, Reg.adminStatus]; omega)]
  exact madeRegs_index ..

theorem makeQ_cfg (hq : q < 64) : rdR (o.makeQ q size vec ie base coal us r).regs (Reg.hstQCfg q) =
    rdR (setFldR (madeRegs o q size vec ie base coal us) (Reg.hstQCfg q) 30 2 (if r then qRestarting else qReady)) (Reg.hstQCfg q) := by
  rw [makeQ_eq, setQ_cfg _ _ hq]

theorem makeQ_other {k off : Nat} (hne : k ≠ q) (hoff : off = Reg.hstQCfg k ∨ off = Reg.hstQIndex k) :
    rdR (o.makeQ q size vec ie base coal us r).regs off = rdR o.regs off := by
  simp only [Reg.hstQCfg, Reg.hstQIndex] at hoff
  rw [makeQ_eq, setQ_rd _ _ (by simp only [Reg.hstQCfg]; omega) (by simp only [Reg.adminStatus]; omega)]
  exact madeRegs_ne _ _ _ _ _ _ _ (by simp only [Reg.hstQCfg]; omega)

/-- A new queue is empty, of its size, and READY or RESTARTING; the others are as before. -/
theorem makeQ_shows (hq : q < 64) (hsize : size ≤ 4096) :
    (o.makeQ q size vec ie base coal us r).qState q = (if r then qRestarting else qReady) ∧
    (o.makeQ q size vec ie base coal us r).qSize q = size ∧ (o.makeQ q size vec ie base coal us r).qHead q = 0 ∧
    (o.makeQ q size vec ie base coal us r).qTail q = 0 := by
  have hcfg := makeQ_cfg o size vec base coal us ie r hq
  have hindex := makeQ_index o size vec base coal us ie r hq
  refine ⟨?_, ?_, ?_, ?_⟩
  · rw [OutSt.qState, fldR_congr 30 2 hcfg]
    exact fldR_setFldR_same _ _ (by decide) (by cases r <;> decide)
  · rw [OutSt.qSize, fldR_congr 0 13 hcfg, fldR_setFldR_apart _ _ _ (by decide) (by decide), fldR, madeRegs_cfg]
    exact madeCfg_size q vec ie hsize
  · rw [OutSt.qHead, fldR, hindex]
    rfl
  · rw [OutSt.qTail, fldR, hindex]
    rfl

theorem makeQ_leaves {k : Nat} (hne : k ≠ q) :
    (o.makeQ q size vec ie base coal us r).qState k = o.qState k ∧ (o.makeQ q size vec ie base coal us r).qHead k = o.qHead k ∧
    (o.makeQ q size vec ie base coal us r).qTail k = o.qTail k :=
  ⟨fldR_congr _ _ (makeQ_other o size vec base coal us ie r hne (.inl rfl)),
    fldR_congr _ _ (makeQ_other o size vec base coal us ie r hne (.inr rfl)),
    fldR_congr _ _ (makeQ_other o size vec base coal us ie r hne (.inr rfl))⟩

end

/-! ### The HST commands (R473, R474) -/

theorem gives_runDone {s : State} {i : Instr} {op : Nat} {c : Cmd} {l : List (Option Refuse)} {eff : Block → Block}
    (h : exec i s = .next { s with b := s.b.runDone op c l eff }) (hl : firstRefusal l = none) :
    Gives s i ((eff s.b).complete op c stDone) :=
  gives_of_eq h (runDone_eff _ _ _ _ _ hl)

/-- The queue that `HST.QUEUE_CREATE` asks for, made. -/
def createdQueue (c : Cmd) (b : Block) : Block :=
  b.onOut fun o => o.makeQ (u8 (cArg c) 0) (u32 (cArg c) 4) (u8 (cArg c) 2) (decide (16 ≤ u8 (cArg c) 0) && (u8 (cArg c) 1).testBit 0)
    (u64 (cArg c) 8) (if u8 (cArg c) 0 < 16 then 0 else u8 (cArg c) 16) (if u8 (cArg c) 0 < 16 then 0 else u16 (cArg c) 18) (b.dev == dsRestart)

/-- With arguments in order and no such queue, what is asked of a command queue is that its pair be up. -/
theorem firstRefusal_hstCreate {s : State} {c : Cmd} (hargs : createArgsOk (cArg c) = true)
    (hfree : s.b.out.qState (u8 (cArg c) 0) = qDisabled) :
    firstRefusal [deny (!createArgsOk (cArg c)) stBadArg,
      deny (s.b.out.qState (u8 (cArg c) 0) != qDisabled) stConflict 0x01 (s.b.out.qState (u8 (cArg c) 0)),
      deny (decide (u8 (cArg c) 0 < 16) && !s.b.out.qUp (u8 (cArg c) 0 + 16)) stConflict 0x02 (s.b.out.qState (u8 (cArg c) 0))] =
    if decide (u8 (cArg c) 0 < 16) && !s.b.out.qUp (u8 (cArg c) 0 + 16) then
      some { status := stConflict, reason := 0x02, code := s.b.out.qState (u8 (cArg c) 0) } else none := by
  rw [firstRefusal_deny, hargs, hfree, if_neg (by decide), firstRefusal_deny, if_neg (by decide), firstRefusal_deny]
  rfl

/-- With such a queue, what is asked of a completion queue is that its pair be gone. -/
theorem firstRefusal_hstDelete {s : State} {c : Cmd} (hq64 : u8 (cArg c) 0 < 64)
    (hlive : s.b.out.qState (u8 (cArg c) 0) ≠ qDisabled) :
    firstRefusal [deny (decide (64 ≤ u8 (cArg c) 0)) stBadArg, deny (s.b.out.qState (u8 (cArg c) 0) == qDisabled) stConflict 0x04 qDisabled,
      deny (decide (16 < u8 (cArg c) 0) && decide (u8 (cArg c) 0 < 32) && s.b.out.qState (u8 (cArg c) 0 - 16) != qDisabled) stConflict 0x03
        (s.b.out.qState (u8 (cArg c) 0))] =
    if decide (16 < u8 (cArg c) 0) && decide (u8 (cArg c) 0 < 32) && s.b.out.qState (u8 (cArg c) 0 - 16) != qDisabled then
      some { status := stConflict, reason := 0x03, code := s.b.out.qState (u8 (cArg c) 0) } else none := by
  rw [firstRefusal_deny, if_neg (by simpa using hq64), firstRefusal_deny, if_neg (by simpa using hlive), firstRefusal_deny]
  rfl

section

variable {s : State} {c : Cmd} (hsent : Sent s.b c roleOperator [dsAwaitWorld, dsOperational, dsRestart, dsSafeStop]) (hobj : cObj c = 0)
include hsent hobj

theorem firstRefusal_hstPre (l : List (Option Refuse)) :
    firstRefusal (hstPre s.b c ++ l) = if notAdmin c then some { status := stBadArg } else firstRefusal l :=
  (firstRefusal_sent hsent hobj _).trans (firstRefusal_deny _ _ _ _ _)

/-- From another queue than Q0 every HST command is refused. -/
theorem hst_notAdmin (hnot : notAdmin c = true) : Completes s (.hstQueueCreate c) 0x1301 c s.b stBadArg ∧
    Completes s (.hstQueueDelete c) 0x1302 c s.b stBadArg ∧ Completes s (.hstEventRoute c) 0x1303 c s.b stBadArg := by
  have hrefused (l : List (Option Refuse)) : firstRefusal (hstPre s.b c ++ l) = some { status := stBadArg } := by
    rw [firstRefusal_hstPre hsent hobj, if_pos hnot]
  exact ⟨completes_runDone_refused rfl (hrefused _), completes_runDone_refused rfl (hrefused _), completes_runDone_refused rfl (hrefused _)⟩

variable (hadmin : notAdmin c = false)
include hadmin

theorem firstRefusal_hst (l : List (Option Refuse)) : firstRefusal (hstPre s.b c ++ l) = firstRefusal l := by
  rw [firstRefusal_hstPre hsent hobj, hadmin]
  rfl

theorem hstEventRoute_routes (hblock : u8 (cArg c) 0 ≤ 0x15) (hlow : 32 ≤ u8 (cArg c) 1) (hhigh : u8 (cArg c) 1 ≤ 47) :
    Gives s (.hstEventRoute c) ((s.b.wrN (Reg.hstEvtRoute (u8 (cArg c) 0)) (u8 (cArg c) 1)).complete 0x1303 c stDone) := by
  refine gives_runDone (eff := fun b => b.wrN (Reg.hstEvtRoute (u8 (cArg c) 0)) (u8 (cArg c) 1)) rfl
    ((firstRefusal_hst hsent hobj hadmin _).trans ((firstRefusal_deny ..).trans ?_))
  rw [decide_eq_false (Nat.not_lt.2 hblock), decide_eq_false (Nat.not_lt.2 hlow), decide_eq_false (Nat.not_lt.2 hhigh)]
  rfl

theorem hstEventRoute_refused (hbad : 0x15 < u8 (cArg c) 0 ∨ u8 (cArg c) 1 < 32 ∨ 47 < u8 (cArg c) 1) :
    Completes s (.hstEventRoute c) 0x1303 c s.b stBadArg := by
  refine completes_runDone_refused rfl ((firstRefusal_hst hsent hobj hadmin _).trans ((firstRefusal_deny ..).trans (if_pos ?_)))
  simpa only [Bool.or_eq_true, decide_eq_true_eq, or_assoc] using hbad

theorem hstQueue_admin (hq : u8 (cArg c) 0 = 0 ∨ u8 (cArg c) 0 = 16) : Completes s (.hstQueueCreate c) 0x1301 c s.b stBadArg 0x01 ∧
    Completes s (.hstQueueDelete c) 0x1302 c s.b stBadArg 0x01 := by
  have hrefused (l : List (Option Refuse)) : firstRefusal (hstPre s.b c ++ (deny (u8 (cArg c) 0 == 0 || u8 (cArg c) 0 == 16) stBadArg 0x01 :: l)) =
      some { status := stBadArg, reason := 0x01 } := by
    rw [firstRefusal_hst hsent hobj hadmin, firstRefusal_deny, if_pos (by simpa using hq)]
  exact ⟨completes_runDone_refused rfl (hrefused _), completes_runDone_refused rfl (hrefused _)⟩

variable (hq0 : u8 (cArg c) 0 ≠ 0) (hq16 : u8 (cArg c) 0 ≠ 16)
include hq0 hq16

/-- What a command that names neither Q0 nor Q16 is still refused for. -/
theorem firstRefusal_hstQueue (l : List (Option Refuse)) :
    firstRefusal (hstPre s.b c ++ (deny (u8 (cArg c) 0 == 0 || u8 (cArg c) 0 == 16) stBadArg 0x01 :: l)) = firstRefusal l := by
  rw [firstRefusal_hst hsent hobj hadmin, firstRefusal_deny, if_neg (by simp [hq0, hq16])]

theorem hstQueueCreate_badArgs (hbad : createArgsOk (cArg c) = false) : Completes s (.hstQueueCreate c) 0x1301 c s.b stBadArg := by
  refine completes_runDone_refused rfl ((firstRefusal_hstQueue hsent hobj hadmin hq0 hq16 _).trans ((firstRefusal_deny ..).trans (if_pos ?_)))
  rw [hbad]
  rfl

section

variable (hargs : createArgsOk (cArg c) = true) (hfree : s.b.out.qState (u8 (cArg c) 0) = qDisabled)
include hargs hfree

theorem hstQueueCreate_makes (hpair : 16 ≤ u8 (cArg c) 0 ∨ s.b.out.qUp (u8 (cArg c) 0 + 16) = true) :
    Gives s (.hstQueueCreate c) ((createdQueue c s.b).complete 0x1301 c stDone) := by
  refine gives_runDone (eff := createdQueue c) rfl ((firstRefusal_hstQueue hsent hobj hadmin hq0 hq16 _).trans
    ((firstRefusal_hstCreate hargs hfree).trans (if_neg ?_)))
  rcases hpair with hlarge | hup
  · simp [Nat.not_lt.2 hlarge]
  · simp [hup]

theorem hstQueueCreate_noPair (hsmall : u8 (cArg c) 0 < 16) (hdown : s.b.out.qUp (u8 (cArg c) 0 + 16) = false) :
    Completes s (.hstQueueCreate c) 0x1301 c s.b stConflict 0x02 := by
  refine completes_runDone_refused rfl ((firstRefusal_hstQueue hsent hobj hadmin hq0 hq16 _).trans
    ((firstRefusal_hstCreate hargs hfree).trans (if_pos ?_)))
  simp [hsmall, hdown]

end

section

variable (hq64 : u8 (cArg c) 0 < 64) (hlive : s.b.out.qState (u8 (cArg c) 0) ≠ qDisabled)
include hq64 hlive

theorem hstQueueDelete_deletes
    (hpair : u8 (cArg c) 0 < 16 ∨ 32 ≤ u8 (cArg c) 0 ∨ s.b.out.qState (u8 (cArg c) 0 - 16) = qDisabled) :
    Gives s (.hstQueueDelete c) ((s.b.onOut (·.deleteQ (u8 (cArg c) 0))).complete 0x1302 c stDone) := by
  refine gives_runDone (eff := fun b => b.onOut (·.deleteQ (u8 (cArg c) 0))) rfl ((firstRefusal_hstQueue hsent hobj hadmin hq0 hq16 _).trans
    ((firstRefusal_hstDelete hq64 hlive).trans (if_neg ?_)))
  rcases hpair with hcmd | hother | hgone
  · simp [Nat.not_lt.2 (Nat.le_of_lt hcmd)]
  · simp [Nat.not_lt.2 hother]
  · simp [hgone]

theorem hstQueueDelete_paired (hlow : 16 < u8 (cArg c) 0) (hhigh : u8 (cArg c) 0 < 32)
    (hpair : s.b.out.qState (u8 (cArg c) 0 - 16) ≠ qDisabled) : Completes s (.hstQueueDelete c) 0x1302 c s.b stConflict 0x03 := by
  refine completes_runDone_refused rfl ((firstRefusal_hstQueue hsent hobj hadmin hq0 hq16 _).trans
    ((firstRefusal_hstDelete hq64 hlive).trans (if_pos ?_)))
  simp [hlow, hhigh, hpair]

end

end

theorem notAdmin_host {c : Cmd} {q : Fin 16} (hissuer : c.issuer = .host q) (hq : q.val ≠ 0) : notAdmin c = true := by
  rw [notAdmin, hissuer]
  exact bne_iff_ne.2 hq

/-- Settles O47: each command by the first of its refusals or by its effect, a new queue by the words that make it. -/
theorem hostQueueCommandsComplete : Obligations.HostQueueCommandsComplete := by
  unfold Obligations.HostQueueCommandsComplete
  refine ⟨?_, ?_, ?_⟩
  · intro s c b a q hsent hobj hadmin
    exact ⟨fun hq0 hq16 hargs hfree => hstQueueCreate_makes hsent hobj hadmin hq0 hq16 hargs hfree,
      hstQueue_admin hsent hobj hadmin,
      fun hq0 hq16 => hstQueueCreate_badArgs hsent hobj hadmin hq0 hq16,
      fun hq0 hsmall hargs hfree => hstQueueCreate_noPair hsent hobj hadmin hq0 (Nat.ne_of_lt hsmall) hargs hfree hsmall,
      fun hq0 hq16 hq64 hlive => hstQueueDelete_deletes hsent hobj hadmin hq0 hq16 hq64 hlive,
      fun hlow hhigh hlive => hstQueueDelete_paired hsent hobj hadmin (Nat.ne_of_gt (Nat.lt_trans (by decide) hlow)) (Nat.ne_of_gt hlow)
        (Nat.lt_trans hhigh (by decide)) hlive hlow hhigh,
      hstEventRoute_routes hsent hobj hadmin, hstEventRoute_refused hsent hobj hadmin⟩
  · exact fun s c q hissuer hq hsent hobj => hst_notAdmin hsent hobj (notAdmin_host hissuer hq)
  · intro o q size vec base coal us ie r hq hsize
    obtain ⟨hstate, hqsize, hhead, htail⟩ := makeQ_shows o size vec base coal us ie r hq hsize
    exact ⟨hstate, hqsize, hhead, htail, fun k _ hne => makeQ_leaves o size vec base coal us ie r hne⟩

end Sys2Proof
end

section
/-! Management (20): what a register access through the link leaves of the management interface itself. -/

namespace Sys2Proof

open Sys2Proof.Machine

/-! ### Stores, flags and reports -/

section

variable (b : Block)

theorem ite_mgmt (p : Prop) [Decidable p] (x y : Block) : (if p then x else y).mgmt = if p then x.mgmt else y.mgmt := apply_ite Block.mgmt p x y

theorem fold_mgmt {β : Type} {f : Block → β → Block} (h : ∀ b x, (f b x).mgmt = b.mgmt) (l : List β) : (l.foldl f b).mgmt = b.mgmt :=
  foldl_keeps Block.mgmt f h l b

@[simp] theorem wrN_mgmt (off v : Nat) : (b.wrN off v).mgmt = b.mgmt := wr_mgmt b off _
@[simp] theorem setFld_mgmt (off lo n x : Nat) : (b.setFld off lo n x).mgmt = b.mgmt := wr_mgmt b off _
@[simp] theorem count_mgmt (off n : Nat) : (b.count off n).mgmt = b.mgmt := wr_mgmt b off _
@[simp] theorem wr64_mgmt (off v : Nat) : (b.wr64 off v).mgmt = b.mgmt := (wr_mgmt _ _ _).trans (wr_mgmt b off _)
@[simp] theorem count48_mgmt (off n : Nat) : (b.count48 off n).mgmt = b.mgmt := wr64_mgmt b off _
@[simp] theorem setFlag_mgmt (off bit : Nat) : (b.setFlag off bit).mgmt = b.mgmt := (wr_mgmt _ _ _).trans (wr_mgmt b off _)
@[simp] theorem emit_mgmt (j : Job) : (b.emit j).mgmt = b.mgmt := (quiet_emit b j).mgmt
@[simp] theorem record_mgmt (sid typ : Nat) (payload : List Byte) (pass : Bool) (val : Option Rat) :
    (b.record sid typ payload pass val).mgmt = b.mgmt := (quiet_record ..).mgmt
@[simp] theorem raise_mgmt (off bit sid : Nat) (d : List Byte) : (b.raise off bit sid d).mgmt = b.mgmt :=
  (raise_quiet ..).mgmt.trans (setFlag_mgmt b off bit)
@[simp] theorem blkCount_mgmt (ev n : Nat) : (b.blkCount ev n).mgmt = b.mgmt := (quiet_blkCount b ev n).mgmt

end

/-! ### Actions and the timebase -/

section

variable (b : Block)

@[simp] theorem setQueue_mgmt (q : List Pend) : (b.setQueue q).mgmt = b.mgmt :=
  (fold_mgmt _ (fun _ _ => setFld_mgmt ..) _).trans (wrN_mgmt _ _ _)

@[simp] theorem lnFlag_mgmt (n i : Nat) : (b.lnFlag n i).mgmt = b.mgmt := raise_mgmt ..

@[simp] theorem endAction_mgmt (p : Pend) (status reason lateness : Nat) : (b.endAction p status reason lateness).mgmt = b.mgmt := by
  unfold Block.endAction
  extract_lets b1 b2 b3 b4
  have hrecorded : b4.mgmt = b.mgmt := by
    simp only [b4, b3, b2, b1, Block.actionRec, record_mgmt, ite_mgmt, count_mgmt, blkCount_mgmt, count48_mgmt, setQueue_mgmt, ite_self]
  split
  · simp only [ite_mgmt, lnFlag_mgmt, hrecorded, ite_self]
  · exact hrecorded

@[simp] theorem timeAction_mgmt (p : Pend) (due : Nat) : (b.timeAction p due).1.mgmt = b.mgmt := by
  unfold Block.timeAction
  split
  · dsimp only
    split
    · simp only [endAction_mgmt, blkCount_mgmt, count_mgmt]
    · simp only [setQueue_mgmt, blkCount_mgmt, count_mgmt]
  · exact setQueue_mgmt ..

@[simp] theorem timeStatus_mgmt (kind bits : Nat) (o : Int) : (b.timeStatus kind bits o).mgmt = b.mgmt := record_mgmt ..

@[simp] theorem setTb_mgmt (st : Nat) : (b.setTb st).mgmt = b.mgmt := by
  simp only [Block.setTb, ite_mgmt, timeStatus_mgmt, raise_mgmt, setFld_mgmt, ite_self]

@[simp] theorem putTout_mgmt (n : Nat) (x : ToutSt) : (b.putTout n x).mgmt = b.mgmt := rfl

@[simp] theorem toutLate_mgmt (n start : Nat) : (b.toutLate n start).mgmt = b.mgmt := by
  simp only [Block.toutLate, record_mgmt, raise_mgmt]

@[simp] theorem toutStep_mgmt (n old : Nat) : (b.toutStep n old).mgmt = b.mgmt := by
  simp only [Block.toutStep, ite_mgmt, putTout_mgmt, toutLate_mgmt, ite_self]

@[simp] theorem shift_mgmt (d : Int) : (b.shift d).mgmt = b.mgmt := rfl

@[simp] theorem skipActions_mgmt (old : Nat) : (b.skipActions old).mgmt = b.mgmt := fold_mgmt _ (fun _ _ => timeAction_mgmt ..) _

@[simp] theorem stepTo_mgmt (t : Nat) : (b.stepTo t).mgmt = b.mgmt := by
  refine (fold_mgmt _ (fun _ _ => toutStep_mgmt ..) _).trans ?_
  simp only [skipActions_mgmt, raise_mgmt, record_mgmt, count_mgmt, shift_mgmt]

@[simp] theorem slewFor_mgmt (s : Int) (ns : Nat) : (b.slewFor s ns).mgmt = b.mgmt := wrN_mgmt ..

@[simp] theorem sampleState_mgmt (o : Nat) : (b.sampleState o).mgmt = b.mgmt := by
  simp only [Block.sampleState, ite_mgmt, setTb_mgmt, setTim_mgmt, ite_self]

@[simp] theorem servo_mgmt (o : Int) (t : Nat) : (b.servo o t).mgmt = b.mgmt := by
  simp only [Block.servo, ite_mgmt, timeStatus_mgmt, sampleState_mgmt, slewFor_mgmt, stepTo_mgmt, raise_mgmt, wrN_mgmt, setTim_mgmt, ite_self]

@[simp] theorem onSample_mgmt (lo hi : Word) : (b.onSample lo hi).mgmt = b.mgmt := by
  simp only [Block.onSample, ite_mgmt, servo_mgmt, raise_mgmt, ite_self]

end

/-! ### The registers that do something -/

section

variable (b : Block)

@[simp] theorem showTxts_mgmt (p : Nat) : (b.showTxts p).mgmt = b.mgmt := by
  unfold Block.showTxts
  dsimp only
  split
  · simp only [wrN_mgmt, wr64_mgmt]
  · simp only [wrN_mgmt, wr64_mgmt]

@[simp] theorem onTxtsPop_mgmt (p : Nat) (v : Word) : (b.onTxtsPop p v).mgmt = b.mgmt := by
  simp only [Block.onTxtsPop, ite_mgmt, showTxts_mgmt, setTim_mgmt, ite_self]

@[simp] theorem showConvQueue_mgmt (c : Nat) : (b.showConvQueue c).mgmt = b.mgmt := by
  unfold Block.showConvQueue
  split
  · simp only [wrN_mgmt, wr64_mgmt]
  · simp only [wrN_mgmt, wr64_mgmt]

@[simp] theorem onQPop_mgmt (c : Nat) (v : Word) : (b.onQPop c v).mgmt = b.mgmt := by
  simp only [Block.onQPop, ite_mgmt, showConvQueue_mgmt, putConv_mgmt, ite_self]

@[simp] theorem setConv_mgmt (c st : Nat) : (b.setConv c st).mgmt = b.mgmt := (setFld_mgmt ..).trans (setFld_mgmt ..)

@[simp] theorem showUrgent_mgmt (c : Nat) : (b.showUrgent c).mgmt = b.mgmt := setFld_mgmt ..

@[simp] theorem onConvUrgent_mgmt (c : Nat) (v : Word) : (b.onConvUrgent c v).mgmt = b.mgmt := by
  simp only [Block.onConvUrgent, Block.urgentAsk, ite_mgmt, raise_mgmt, count_mgmt, setConv_mgmt, showUrgent_mgmt, putConv_mgmt, ite_self]

@[simp] theorem commitPair_mgmt (n : Nat) : (b.commitPair n).mgmt = b.mgmt := rfl

@[simp] theorem onPairCommit_mgmt (n : Nat) (v : Word) : (b.onPairCommit n v).mgmt = b.mgmt := by
  simp only [Block.onPairCommit, ite_mgmt, commitPair_mgmt, ite_self]

@[simp] theorem onCommitMask_mgmt (v : Nat) : (b.onCommitMask v).mgmt = b.mgmt :=
  fold_mgmt _ (fun _ _ => by rw [ite_mgmt, commitPair_mgmt, ite_self]) _

@[simp] theorem writePeriodSh_mgmt (n v : Nat) : (b.writePeriodSh n v).mgmt = b.mgmt := (setFld_mgmt ..).trans (wrN_mgmt ..)

@[simp] theorem onDutySh_mgmt (n : Nat) (v : Word) : (b.onDutySh n v).mgmt = b.mgmt := by
  simp only [Block.onDutySh, Block.prFlag, Block.writeDutySh, ite_mgmt, raise_mgmt, setFld_mgmt, wrN_mgmt, ite_self]

@[simp] theorem refuseWrite_mgmt (ini : Ini) : (b.refuseWrite ini).mgmt = b.mgmt := by
  simp only [Block.refuseWrite, ite_mgmt, count_mgmt, ite_self]

@[simp] theorem onTempCfg_mgmt (ini : Ini) (v : Nat) : (b.onTempCfg ini v).mgmt = b.mgmt := by
  simp only [Block.onTempCfg, ite_mgmt, refuseWrite_mgmt, wrN_mgmt, ite_self]

@[simp] theorem holdFields_mgmt (t : Nat) : (b.holdFields t).mgmt = b.mgmt := (setFld_mgmt ..).trans (setFld_mgmt ..)

@[simp] theorem onOut_mgmt (f : OutSt → OutSt) : (b.onOut f).mgmt = b.mgmt := rfl

@[simp] theorem onDoorbell_mgmt (q : Nat) (v : Word) : (b.onDoorbell q v).mgmt = b.mgmt := by
  simp only [Block.onDoorbell, ite_mgmt, emit_mgmt, onOut_mgmt, setFld_mgmt, count_mgmt, ite_self]

@[simp] theorem onAdminCtrl_mgmt (v : Word) : (b.onAdminCtrl v).mgmt = b.mgmt := by
  simp only [Block.onAdminCtrl, ite_mgmt, emit_mgmt, onOut_mgmt, setFld_mgmt, wrN_mgmt, ite_self]

@[simp] theorem onMsix_mgmt (off : Nat) (v : Word) : (b.onMsix off v).mgmt = b.mgmt := by
  rw [Block.onMsix]
  dsimp only
  rw [ite_mgmt, wr_mgmt, ite_mgmt, onOut_mgmt, wr64_mgmt, wrN_mgmt, ite_self, ite_self]

/-- Where an outcome is a block, its MI is that of `b`. -/
def LeavesMgmt (b : Block) (o : Option Block) : Prop := ∀ t, o = some t → t.mgmt = b.mgmt

theorem leavesMgmt_none : LeavesMgmt b none := fun t hsome => absurd hsome (Option.some_ne_none t).symm

theorem leavesMgmt_some {b t : Block} (h : t.mgmt = b.mgmt) : LeavesMgmt b (some t) := fun _ hsome => Option.some.inj hsome ▸ h

theorem leavesMgmt_ite {b : Block} {p : Prop} [Decidable p] {o o' : Option Block} (h : LeavesMgmt b o) (h' : LeavesMgmt b o') :
    LeavesMgmt b (if p then o else o') := by
  split
  · exact h
  · exact h'

theorem writeOp_mgmt (ini : Ini) (off : Nat) (v : Word) : LeavesMgmt b (b.writeOp ini off v) := by
  refine leavesMgmt_ite (leavesMgmt_some (onTempCfg_mgmt ..)) (leavesMgmt_ite (leavesMgmt_some ?thermal) (leavesMgmt_ite ?pairs
    (leavesMgmt_ite (leavesMgmt_some (onTxtsPop_mgmt ..)) (leavesMgmt_ite (leavesMgmt_some (onTxtsPop_mgmt ..))
      (leavesMgmt_ite ?convs (leavesMgmt_ite ?host (leavesMgmt_none b)))))))
  case thermal => exact (fold_mgmt _ (fun _ _ => by rw [ite_mgmt, holdFields_mgmt, ite_self]) _).trans (wrN_mgmt ..)
  case pairs =>
    exact leavesMgmt_ite (leavesMgmt_some (writePeriodSh_mgmt ..)) (leavesMgmt_ite (leavesMgmt_some (onDutySh_mgmt ..))
      (leavesMgmt_ite (leavesMgmt_some (onPairCommit_mgmt ..)) (leavesMgmt_none b)))
  case convs =>
    split
    · exact leavesMgmt_some (by rw [ite_mgmt, onConvUrgent_mgmt, onQPop_mgmt, ite_self])
    · exact leavesMgmt_none b
  case host =>
    exact leavesMgmt_ite (leavesMgmt_some (onDoorbell_mgmt ..)) (leavesMgmt_ite (leavesMgmt_some (onAdminCtrl_mgmt ..))
      (leavesMgmt_ite (leavesMgmt_some (refuseWrite_mgmt ..)) (leavesMgmt_ite (leavesMgmt_some (onMsix_mgmt ..)) (leavesMgmt_none b))))

theorem write32_mgmt (ini : Ini) (r : RegRow) (off : Nat) (v : Word) : (b.write32 ini r off v).mgmt = b.mgmt := by
  unfold Block.write32
  split
  · next t ht => exact writeOp_mgmt b ini off v t ht
  · dsimp only
    split
    · exact wrN_mgmt ..
    · exact wrN_mgmt ..
    · exact wrN_mgmt ..
    · exact wrN_mgmt ..
    · rfl

theorem write64_mgmt (ini : Ini) (off : Nat) (lo hi : Word) : (b.write64 ini off lo hi).mgmt = b.mgmt := by
  simp only [Block.write64, ite_mgmt, onSample_mgmt, onCommitMask_mgmt, refuseWrite_mgmt, setFld_mgmt, wrN_mgmt, wr_mgmt, ite_self]

/-- A write by whatever initiator leaves the MI's own state as it was. -/
theorem regWrite_mgmt (ini : Ini) (off : Nat) (v : Word) : (b.regWrite ini off v).mgmt = b.mgmt := by
  unfold Block.regWrite
  split
  · exact refuseWrite_mgmt ..
  · split
    · exact refuseWrite_mgmt ..
    · split
      · simp only [ite_mgmt, count_mgmt, ite_self]
      · simp only [Block.writeIn, ite_mgmt, refuseWrite_mgmt, write32_mgmt, write64_mgmt, ite_self]

end

/-! ### Reads -/

section

variable (b : Block)

theorem drain_mgmt (e n : Nat) : (b.drain e n).mgmt = b.mgmt := by
  induction n generalizing b with
  | zero => rfl
  | succ n ih =>
    unfold Block.drain
    split
    · rfl
    · exact (ih _).trans rfl

theorem drainOthers_mgmt (e : Nat) : (b.drainOthers e).mgmt = b.mgmt := fold_mgmt _ (fun _ _ => by exact (drain_mgmt _ _ _).trans rfl) _

theorem imageBytes_mgmt (o n : Nat) : (b.imageBytes o n).2.mgmt = b.mgmt := by
  unfold Block.imageBytes
  dsimp only
  split
  · rfl
  · exact drawBytes_mgmt b n

theorem snapRead_mgmt (host : Bool) (k : Nat) : (b.snapRead host k).mgmt = b.mgmt := by
  unfold Block.snapRead
  refine (setFld_mgmt ..).trans ?_
  rw [ite_mgmt, wr64_mgmt, fold_mgmt _ (fun _ _ => wrN_mgmt ..), ite_self]

/-- A read of a window of memory: free words, the image's bytes, or what the engines have stored. -/
theorem windowRead_mgmt (p q : Prop) [Decidable p] [Decidable q] (w : Word) (o n e : Nat) (f : List Byte → Word) (g : Block → Word) :
    (if p then (w, b) else if q then (f (b.imageBytes o n).1, (b.imageBytes o n).2) else (g (b.drainOthers e), b.drainOthers e)).2.mgmt =
      b.mgmt := by
  split
  · rfl
  · split
    · exact imageBytes_mgmt ..
    · exact drainOthers_mgmt ..

/-- A read by whatever initiator leaves the MI's own state as it was. -/
theorem regRead_mgmt (ini : Ini) (off : Nat) : (b.regRead ini off).2.mgmt = b.mgmt := by
  unfold Block.regRead
  split
  · rfl
  · split
    · next m _ =>
      exact windowRead_mgmt b _ _ (BitVec.ofNat 32 (leNat (mread m (off - windowBase off) 4))) (off - 0x02000000) 4 40
        (fun d => BitVec.ofNat 32 (leNat d)) (fun y => BitVec.ofNat 32 (leNat (mread y.sram (off - 0x02000000) 4)))
    · split
      · simp only [ite_mgmt, count_mgmt, ite_self]
      · split
        · rfl
        · split
          · split
            · rfl
            · rfl
          · split
            · simp only [ite_mgmt, snapRead_mgmt, wrN_mgmt, ite_self]
            · rfl

end

end Sys2Proof
end

section
/-! Management (20 R480, R482, R486, R487): the MGT commands and their answers. -/

namespace Sys2Proof

open Sys2Proof.Machine

/-! ### A command over the link and its answer -/

theorem Reports.reqCounter {b t : Block} (h : Reports b t) : t.mgmt.reqCounter = b.mgmt.reqCounter := by
  obtain ⟨o, rs, fr, al, lg, ev, ns, rfl, -⟩ := h
  rfl

theorem complete_reqCounter (b : Block) (op : Nat) (c : Cmd) (st rs : Nat) (res : List Byte) (code : Nat) :
    (b.complete op c st rs res code).mgmt.reqCounter = b.mgmt.reqCounter := (reports_complete ..).reqCounter

theorem linkUp_iff (b : Block) : b.linkUp = true ↔ ¬(b.boot.por || b.mgmt.restarting) = true := by
  simp only [Block.linkUp, Bool.and_eq_true, Bool.not_eq_true', Bool.or_eq_true, not_or, Bool.not_eq_true]

/-- The answer that the link carries to a command `c` of role `r`. -/
def answered (s : State) (r : Fin 4) (c : Cmd) (op : Nat) (x : Block) : Block := x.respond s.fuses r.val s.b.mgmt.reqCounter op c.tag.toNat

/-- What a command is checked for before its arguments (R486). -/
def mgtPre (b : Block) (c : Cmd) (role : Nat) (rom : Bool) : List (Option Refuse) :=
  [authCheck c role true, b.mgtCheck rom, envCheck c, noObject c]

section

variable {s : State} {c : Cmd} {r : Fin 4} {op role : Nat} {rom : Bool} {l : List (Option Refuse)}
  {eff : Block → Block × Nat × Nat × List Byte}

theorem mgtRun_silent (hdown : s.b.linkUp = false) : s.b.mgtRun s.fuses op c role rom l eff = s.b :=
  if_pos (not_not.1 (mt (linkUp_iff s.b).2 (by rw [hdown]; decide)))

variable (hup : s.b.linkUp = true) (hissuer : c.issuer = .mgmt r)
include hup hissuer

/-- A command of the link runs and is answered. -/
theorem mgtRun_up : s.b.mgtRun s.fuses op c role rom l eff =
    (let y := s.b.run op c (mgtPre s.b c role rom ++ l) eff
     y.respond s.fuses r.val y.mgmt.reqCounter op c.tag.toNat) := by
  rw [Block.mgtRun, if_neg ((linkUp_iff s.b).1 hup), hissuer]
  rfl

theorem mgtRun_done (hl : firstRefusal (mgtPre s.b c role rom ++ l) = none) (hkept : (eff s.b).1.mgmt.reqCounter = s.b.mgmt.reqCounter) :
    s.b.mgtRun s.fuses op c role rom l eff =
      answered s r c op ((eff s.b).1.complete op c (eff s.b).2.1 (eff s.b).2.2.1 (eff s.b).2.2.2) := by
  rw [mgtRun_up hup hissuer, run_eff _ _ _ _ _ hl]
  dsimp only
  rw [complete_reqCounter, hkept]
  rfl

theorem mgtRun_refused {q : Refuse} (hl : firstRefusal (mgtPre s.b c role rom ++ l) = some q) :
    s.b.mgtRun s.fuses op c role rom l eff = answered s r c op (s.b.complete op c q.status q.reason [] q.code) := by
  rw [mgtRun_up hup hissuer, run_refused _ _ _ _ _ q hl]
  dsimp only
  rw [complete_reqCounter]
  rfl

end

/-! ### Words and polls -/

theorem bar0Word_iff (off : Nat) : bar0Word off = true ↔ off % 4 = 0 ∧ off < 0x4000000 := by
  rw [bar0Word, Bool.and_eq_true, beq_iff_eq, decide_eq_true_eq]

theorem mgtWords_mgmt (b : Block) (off n : Nat) : (b.mgtWords off n).2.mgmt = b.mgmt := by
  induction n generalizing b off with
  | zero => rfl
  | succ n ih => exact (ih _ _).trans (regRead_mgmt b .mgmt off)

theorem authCheck_link {c : Cmd} {r : Fin 4} {role : Nat} (hissuer : c.issuer = .mgmt r) (hrole : role ≤ r.val) : authCheck c role true = none := by
  rw [authCheck, hissuer]
  exact if_neg (by rw [decide_eq_true_eq]; exact Nat.not_lt.2 hrole)

theorem firstRefusal_poll {c : Cmd} {r : Fin 4} (hissuer : c.issuer = .mgmt r) (henv : envCheck c = none) (hobj : cObj c = 0)
    (hrole : 1 ≤ r.val) : firstRefusal [authCheck c roleObserver true, envCheck c, noObject c] = none := by
  have hnone : noObject c = none := by rw [noObject, hobj]; rfl
  rw [authCheck_link (role := roleObserver) hissuer hrole, henv, hnone]
  rfl

/-- A poll whose role passes looks for what is held. -/
theorem mgtPoll_gives {s : State} {c : Cmd} {r : Fin 4} (hissuer : c.issuer = .mgmt r) (hup : s.b.linkUp = true) :
    Gives s (.mgtPoll c) (s.b.mgtPoll s.fuses r.val s.b.mgmt.reqCounter c) := by
  refine gives_of_eq rfl ((if_neg ((linkUp_iff s.b).1 hup)).trans ?_)
  rw [hissuer]

section

variable {s : State} {c : Cmd} {r : Fin 4} (hissuer : c.issuer = .mgmt r) (henv : envCheck c = none) (hobj : cObj c = 0)
include hissuer henv hobj

/-- A command of the link whose role, envelope and device state pass is refused by what comes after. -/
theorem firstRefusal_mgtPre {role : Nat} {rom : Bool} (hrole : role ≤ r.val) (hrom : s.b.romService = false ∨ rom = true)
    (l : List (Option Refuse)) : firstRefusal (mgtPre s.b c role rom ++ l) = firstRefusal l := by
  have hcheck : s.b.mgtCheck rom = none := if_neg (by rcases hrom with h | h <;> simp [h])
  exact firstRefusal_checked (authCheck_link hissuer hrole) hcheck henv hobj l

variable (hup : s.b.linkUp = true)
include hup

/-! ### HELLO and POLL (R480, R482) -/

theorem mgtHello_opens (nonce : List Byte) : Gives s (.mgtHello c nonce) (answered s r c 0x1401
    ((({ s.b with mgmt := { s.b.mgmt with nonce := some nonce, counters := [], authRun := 0 } } : Block).showMgt).complete 0x1401 c stDone 0
      (padTo 16 nonce))) := by
  have hkept : (({ s.b with mgmt := { s.b.mgmt with nonce := some nonce, counters := [], authRun := 0 } } : Block).showMgt).mgmt.reqCounter =
      s.b.mgmt.reqCounter := by
    rw [Block.showMgt, wrN_mgmt, wrN_mgmt]
  exact gives_of_eq rfl (mgtRun_done hup hissuer (firstRefusal_mgtPre hissuer henv hobj (Nat.zero_le _) (.inr rfl) []) hkept)

theorem mgtPoll_delivers (hrole : 1 ≤ r.val) {l : List Slot} {x : Slot} {cpl : Completion}
    (hheld : heldFrom true s.b.out.slots = some (l, x, cpl)) :
    Gives s (.mgtPoll c) (((s.b.onOut fun o => { o with slots := l }).sendFrame s.fuses 2 r.val s.b.mgmt.reqCounter
      (linkCpl x cpl s.b.mgmt.reqCounter)).settleAlert) := by
  refine gives_of_eq (mgtPoll_gives hissuer hup) ?_
  rw [Block.mgtPoll, firstRefusal_poll hissuer henv hobj hrole, hheld]

theorem mgtPoll_done (hrole : 1 ≤ r.val) (hheld : heldFrom true s.b.out.slots = none) (hevents : s.b.mgmt.events = []) :
    Gives s (.mgtPoll c) (answered s r c 0x1402 (s.b.complete 0x1402 c stDone)) := by
  have hsame : ({ s.b with mgmt := { s.b.mgmt with events := [] } } : Block) = s.b := by rw [← hevents]
  refine gives_of_eq (mgtPoll_gives hissuer hup) ?_
  rw [Block.mgtPoll, firstRefusal_poll hissuer henv hobj hrole, hheld, hevents]
  dsimp only [List.dropWhile]
  rw [hsame]
  rfl

omit henv hobj in
theorem mgtPoll_refused (hrole : r.val = 0) : Gives s (.mgtPoll c) (answered s r c 0x1402 (s.b.complete 0x1402 c stAuth)) := by
  have hauth : authCheck c roleObserver true = some { status := stAuth } := by
    rw [authCheck, hissuer]
    exact if_pos (by simp [hrole, roleObserver])
  refine gives_of_eq (mgtPoll_gives hissuer hup) ?_
  rw [Block.mgtPoll, hauth]
  rfl

/-! ### READ, WRITE, LOG_READ, HEALTH, UNLOCK and LINK_CONFIG (R487) -/

theorem mgtRead_reads (hrole : 1 ≤ r.val) (hrom : s.b.romService = false) (halign : u32 (cArg c) 0 % 4 = 0) (hsome : 1 ≤ u8 (cArg c) 4)
    (hten : u8 (cArg c) 4 ≤ 10) (hin : u32 (cArg c) 0 + 4 * u8 (cArg c) 4 ≤ 0x4000000) :
    Gives s (.mgtRead c) (answered s r c 0x1403 ((s.b.mgtWords (u32 (cArg c) 0) (u8 (cArg c) 4)).2.complete 0x1403 c stDone 0
      (s.b.mgtWords (u32 (cArg c) 0) (u8 (cArg c) 4)).1)) := by
  have hfirst : bar0Word (u32 (cArg c) 0) = true := (bar0Word_iff _).2 ⟨halign, by omega⟩
  have hlast : bar0Word (u32 (cArg c) 0 + 4 * (u8 (cArg c) 4 - 1)) = true := (bar0Word_iff _).2 ⟨by omega, by omega⟩
  have hargs : (!bar0Word (u32 (cArg c) 0) || u8 (cArg c) 4 == 0 || decide (10 < u8 (cArg c) 4) ||
      !bar0Word (u32 (cArg c) 0 + 4 * (u8 (cArg c) 4 - 1))) = false := by
    rw [hfirst, hlast, decide_eq_false (Nat.not_lt.2 hten), beq_false_of_ne (Nat.ne_of_gt hsome)]
    rfl
  refine gives_of_eq rfl (mgtRun_done hup hissuer ((firstRefusal_mgtPre hissuer henv hobj hrole (.inl hrom) _).trans ?_)
    (congrArg Mgmt.reqCounter (mgtWords_mgmt _ _ _)))
  rw [firstRefusal_deny, hargs]
  rfl

theorem mgtWrite_writes (hrole : 2 ≤ r.val) (hrom : s.b.romService = false) (halign : u32 (cArg c) 0 % 4 = 0) (hin : u32 (cArg c) 0 < 0x4000000) :
    Gives s (.mgtWrite c) (answered s r c 0x1404 ((s.b.regWrite .mgmt (u32 (cArg c) 0) (w32 (cArg c) 4)).complete 0x1404 c stDone)) := by
  refine gives_of_eq rfl (mgtRun_done hup hissuer ((firstRefusal_mgtPre hissuer henv hobj hrole (.inl hrom) _).trans ?_)
    (congrArg Mgmt.reqCounter (regWrite_mgmt _ _ _ _)))
  rw [firstRefusal_deny, (bar0Word_iff _).2 ⟨halign, hin⟩]
  rfl

theorem mgtWrite_refused (hrole : 2 ≤ r.val) (hrom : s.b.romService = false) (hbad : u32 (cArg c) 0 % 4 ≠ 0 ∨ 0x4000000 ≤ u32 (cArg c) 0) :
    Gives s (.mgtWrite c) (answered s r c 0x1404 (s.b.complete 0x1404 c stBadArg)) := by
  have hnot : bar0Word (u32 (cArg c) 0) = false := Bool.eq_false_iff.2 (mt (bar0Word_iff _).1 (by omega))
  refine gives_of_eq rfl (mgtRun_refused hup hissuer (q := { status := stBadArg })
    ((firstRefusal_mgtPre hissuer henv hobj hrole (.inl hrom) _).trans ?_))
  rw [firstRefusal_deny, hnot]
  rfl

theorem mgtLogRead_reads (hrole : 1 ≤ r.val) {e : LogEntry} (hentry : s.b.mgmt.entry (u32 (cArg c) 0) = some e) :
    Gives s (.mgtLogRead c) (answered s r c 0x1405 (s.b.complete 0x1405 c stDone 0 e.bytes)) := by
  refine gives_of_eq rfl ((mgtRun_done hup hissuer ((firstRefusal_mgtPre hissuer henv hobj hrole (.inr rfl) _).trans ?_) rfl).trans ?_)
  · rw [firstRefusal_deny, hentry]
    rfl
  · rw [hentry]

theorem mgtLogRead_missing (hrole : 1 ≤ r.val) (hentry : s.b.mgmt.entry (u32 (cArg c) 0) = none) :
    Gives s (.mgtLogRead c) (answered s r c 0x1405 (s.b.complete 0x1405 c stBadRef)) := by
  refine gives_of_eq rfl (mgtRun_refused hup hissuer (q := { status := stBadRef })
    ((firstRefusal_mgtPre hissuer henv hobj hrole (.inr rfl) _).trans ?_))
  rw [firstRefusal_deny, hentry]
  rfl

theorem mgtHealth_reads (hrole : 1 ≤ r.val) (hsensor : u8 (cArg c) 0 < 6) : Gives s (.mgtHealth c)
    (answered s r c 0x1406 (s.b.complete 0x1406 c stDone 0 (leBytes 4 (s.b.rdN (Reg.mgtTemp (u8 (cArg c) 0)))))) := by
  refine gives_of_eq rfl (mgtRun_done hup hissuer ((firstRefusal_mgtPre hissuer henv hobj hrole (.inr rfl) _).trans ?_) rfl)
  rw [firstRefusal_deny, decide_eq_false (Nat.not_le.2 hsensor)]
  rfl

theorem mgtHealth_missing (hrole : 1 ≤ r.val) (hsensor : 6 ≤ u8 (cArg c) 0) :
    Gives s (.mgtHealth c) (answered s r c 0x1406 (s.b.complete 0x1406 c stBadRef)) := by
  refine gives_of_eq rfl (mgtRun_refused hup hissuer (q := { status := stBadRef })
    ((firstRefusal_mgtPre hissuer henv hobj hrole (.inr rfl) _).trans ?_))
  rw [firstRefusal_deny, decide_eq_true hsensor]
  rfl

theorem mgtUnlock_unlocks (hrole : r.val = 3) (hrom : s.b.romService = false) (hblock : u8 (cArg c) 0 ≤ 0x15) : Gives s (.mgtUnlock c)
    (answered s r c 0x1407 (((s.b.wrN (0x100000 * u8 (cArg c) 0 + 0xFFFF0) 0).log 6 0x0E (leBytes 1 (u8 (cArg c) 0))).complete 0x1407 c stDone)) := by
  refine gives_of_eq rfl (mgtRun_done hup hissuer
    ((firstRefusal_mgtPre hissuer henv hobj (Nat.le_of_eq hrole.symm) (.inl hrom) _).trans ?_)
    (((reports_log ..).reqCounter).trans (congrArg Mgmt.reqCounter (wrN_mgmt ..))))
  rw [firstRefusal_deny, decide_eq_false (Nat.not_lt.2 hblock)]
  rfl

theorem mgtLinkConfig_sets (hrole : r.val = 3) (hrom : s.b.romService = false) (hrate : u8 (cArg c) 0 ≤ 4) (hlow : 1 ≤ u8 (cArg c) 1)
    (hhigh : u8 (cArg c) 1 ≤ 254) (hsmb : u8 (cArg c) 2 ≤ 0x7F) : Gives s (.mgtLinkConfig c) (answered s r c 0x1409
      (({ s.b with mgmt := { s.b.mgmt with newLink := some (u8 (cArg c) 0, u8 (cArg c) 1, u8 (cArg c) 2) } } : Block).complete 0x1409 c stDone)) := by
  refine gives_of_eq rfl (mgtRun_done hup hissuer
    ((firstRefusal_mgtPre hissuer henv hobj (Nat.le_of_eq hrole.symm) (.inl hrom) _).trans ?_) rfl)
  rw [firstRefusal_deny, decide_eq_false (Nat.not_lt.2 hrate), decide_eq_false (Nat.not_lt.2 hhigh), decide_eq_false (Nat.not_lt.2 hsmb),
    beq_false_of_ne (Nat.ne_of_gt hlow)]
  rfl

/-! ### MI_RESTART (R487) -/

section

variable (hrole : r.val = 3) (hrom : s.b.romService = false) (hslot : u8 (cArg c) 0 ≤ 1)
include hrole hrom hslot

omit hup in
theorem firstRefusal_miRestart :
    firstRefusal (mgtPre s.b c roleMaintainer false ++ [deny (decide (1 < u8 (cArg c) 0) && u8 (cArg c) 0 != 0xFF) stBadArg]) = none := by
  rw [firstRefusal_mgtPre (role := roleMaintainer) hissuer henv hobj (Nat.le_of_eq hrole.symm) (.inl hrom), firstRefusal_deny,
    decide_eq_false (Nat.not_lt.2 hslot)]
  rfl

/-- The answer to MI_RESTART, with the reason of a slot that fails its check. -/
theorem mgtMiRestart_answer :
    s.b.mgtRun s.fuses 0x1408 c roleMaintainer false [deny (decide (1 < u8 (cArg c) 0) && u8 (cArg c) 0 != 0xFF) stBadArg]
      (fun b => (b, if s.b.firmwareReason s.fuses (u8 (cArg c) 0) = 0 then stDone else stImage, s.b.firmwareReason s.fuses (u8 (cArg c) 0), [])) =
    answered s r c 0x1408 (s.b.complete 0x1408 c (if s.b.firmwareReason s.fuses (u8 (cArg c) 0) = 0 then stDone else stImage)
      (s.b.firmwareReason s.fuses (u8 (cArg c) 0))) :=
  mgtRun_done hup hissuer (firstRefusal_miRestart hissuer henv hobj hrole hrom hslot) rfl

/-- MI_RESTART names a slot; the restart begins where the slot passes its check. -/
theorem mgtMiRestart_gives : Gives s (.mgtMiRestart c) (
    let y := answered s r c 0x1408 (s.b.complete 0x1408 c (if s.b.firmwareReason s.fuses (u8 (cArg c) 0) = 0 then stDone else stImage)
      (s.b.firmwareReason s.fuses (u8 (cArg c) 0)))
    if s.b.firmwareReason s.fuses (u8 (cArg c) 0) = 0 then
      { y.miRestart (some (u8 (cArg c) 0)) with
        mgmt := { (y.miRestart (some (u8 (cArg c) 0))).mgmt with response := y.mgmt.response } }
    else y) := by
  have hother : ¬u8 (cArg c) 0 = 0xFF := by omega
  have hnone := firstRefusal_miRestart hissuer henv hobj hrole hrom hslot
  have hup' : (!s.b.boot.por && !s.b.mgmt.restarting) = true := hup
  refine gives_of_eq rfl ?_
  dsimp only
  rw [if_neg hother, mgtMiRestart_answer hissuer henv hobj hup hrole hrom hslot]
  have hgo : ((firstRefusal (mgtPre s.b c roleMaintainer false ++ [deny (decide (1 < u8 (cArg c) 0) && u8 (cArg c) 0 != 0xFF) stBadArg])).isNone &&
      s.b.firmwareReason s.fuses (u8 (cArg c) 0) == 0 && !s.b.boot.por && !s.b.mgmt.restarting) =
      (s.b.firmwareReason s.fuses (u8 (cArg c) 0) == 0) := by
    rw [hnone, Bool.and_assoc, hup', Option.isNone_none, Bool.true_and, Bool.and_true]
  exact if_congr ((Bool.eq_iff_iff.1 hgo).trans beq_iff_eq) rfl rfl

theorem mgtMiRestart_restarts (hgood : s.b.firmwareReason s.fuses (u8 (cArg c) 0) = 0) : ∃ x : Block, Gives s (.mgtMiRestart c) x ∧
    x.mgmt.restarting = true ∧ x.mgmt.nonce = none ∧ x.mgmt.counters = [] ∧ x.mgmt.miSlot = some (u8 (cArg c) 0) ∧ x.mgmt.alert = false := by
  refine ⟨_, mgtMiRestart_gives hissuer henv hobj hup hrole hrom hslot, ?_⟩
  dsimp only
  rw [if_pos hgood]
  exact ⟨rfl, rfl, rfl, rfl, rfl⟩

theorem mgtMiRestart_refused (hbad : s.b.firmwareReason s.fuses (u8 (cArg c) 0) ≠ 0) : Gives s (.mgtMiRestart c)
    (answered s r c 0x1408 (s.b.complete 0x1408 c stImage (s.b.firmwareReason s.fuses (u8 (cArg c) 0)))) := by
  refine gives_of_eq (mgtMiRestart_gives hissuer henv hobj hup hrole hrom hslot) ?_
  dsimp only
  rw [if_neg hbad, if_neg hbad]

end

end

theorem mgtPoll_silent {s : State} {c : Cmd} (hdown : s.b.linkUp = false) : Gives s (.mgtPoll c) s.b :=
  gives_of_eq rfl (if_pos (not_not.1 (mt (linkUp_iff s.b).2 (by rw [hdown]; decide))))

/-- With the MI in reset or restarting MI_RESTART begins nothing. -/
theorem mgtMiRestart_silent {s : State} {c : Cmd} (hdown : s.b.linkUp = false) : Gives s (.mgtMiRestart c) s.b := by
  have hdown' : (!s.b.boot.por && !s.b.mgmt.restarting) = false := hdown
  refine gives_of_eq rfl ?_
  dsimp only
  rw [mgtRun_silent hdown]
  exact if_neg (by rw [Bool.and_assoc, hdown', Bool.and_false]; decide)

/-- Settles O49: each command by its refusals and its effect, with the answer that the request's role and counter give. -/
theorem managementCommandsComplete : Obligations.ManagementCommandsComplete := by
  unfold Obligations.ManagementCommandsComplete
  constructor
  · intro s c r b a reply hup hissuer henv hobj
    exact ⟨mgtHello_opens hissuer henv hobj hup, fun l x cpl hrole hheld => mgtPoll_delivers hissuer henv hobj hup hrole hheld,
      mgtPoll_done hissuer henv hobj hup, mgtPoll_refused hissuer hup, mgtRead_reads hissuer henv hobj hup,
      mgtWrite_writes hissuer henv hobj hup, mgtWrite_refused hissuer henv hobj hup,
      fun hrole e hentry => mgtLogRead_reads hissuer henv hobj hup hrole hentry, mgtLogRead_missing hissuer henv hobj hup,
      mgtHealth_reads hissuer henv hobj hup, mgtHealth_missing hissuer henv hobj hup, mgtUnlock_unlocks hissuer henv hobj hup,
      mgtMiRestart_restarts hissuer henv hobj hup, mgtMiRestart_refused hissuer henv hobj hup, mgtLinkConfig_sets hissuer henv hobj hup⟩
  · intro s c hdown
    exact ⟨fun nonce => gives_of_eq rfl (mgtRun_silent hdown), mgtPoll_silent hdown, gives_of_eq rfl (mgtRun_silent hdown),
      gives_of_eq rfl (mgtRun_silent hdown), gives_of_eq rfl (mgtRun_silent hdown), gives_of_eq rfl (mgtRun_silent hdown),
      gives_of_eq rfl (mgtRun_silent hdown), mgtMiRestart_silent hdown, gives_of_eq rfl (mgtRun_silent hdown)⟩

end Sys2Proof
end

section
/-! Management (20 R478–R482, R484, R485, R488): requests over the link, their authentication, and the link in time. -/

namespace Sys2Proof

open Sys2Proof.Machine

/-! ### Frames and pieces (R478, R479) -/

section

variable {s : State}

theorem shavorRequest_up (hup : s.b.linkUp = true) (fr : List Byte) : exec (.shavorRequest fr true) s = .next (s.linkFrame fr) ∧
    Gives s (.shavorRequest fr false) (s.b.applyLink.count Reg.mgtFrameErrors) := by
  have hnot : ¬(!s.b.linkUp) = true := by rw [hup]; decide
  exact ⟨congrArg Host.Outcome.next (if_neg hnot), congrArg Host.Outcome.next (if_neg hnot)⟩

/-- The pieces of a request gathered so far become `l`. -/
def gathered (s : State) (l : List Byte) : State := { s with b := { s.b with mgmt := { s.b.mgmt with partialFrame := l } } }

theorem smbusBlockWrite_up (hup : s.b.linkUp = true) (piece : List Byte) :
    (∀ last, exec (.smbusBlockWrite last piece false) s = .next (gathered s [])) ∧
    exec (.smbusBlockWrite false piece true) s = .next (gathered s (s.b.mgmt.partialFrame ++ piece)) ∧
    exec (.smbusBlockWrite true piece true) s = .next ((gathered s []).linkFrame (s.b.mgmt.partialFrame ++ piece)) := by
  have hnot : ¬(!s.b.linkUp) = true := by rw [hup]; decide
  exact ⟨fun last => congrArg Host.Outcome.next (if_neg hnot), congrArg Host.Outcome.next (if_neg hnot),
    congrArg Host.Outcome.next (if_neg hnot)⟩

theorem link_down (hdown : s.b.linkUp = false) (fr piece : List Byte) (g l p : Bool) :
    exec (.shavorRequest fr g) s = .next s ∧ exec (.smbusBlockWrite l piece p) s = .next s := by
  have hnot : (!s.b.linkUp) = true := by rw [hdown]; rfl
  exact ⟨congrArg Host.Outcome.next (if_pos hnot), congrArg Host.Outcome.next (if_pos hnot)⟩

end

/-! ### Authentication (R480) -/

section

variable {s : State} {fr : List Byte}

/-- The command's envelope, and what follows it, in a request. -/
def frBody (fr : List Byte) : List Byte := slice fr 12 (u16 fr 4)

/-- The opcode that a request names. -/
def frOp (fr : List Byte) : Nat := u16 (frBody fr) 0

/-- The tag that a request carries. -/
def frTag (fr : List Byte) : Nat := u16 (frBody fr) 2

/-- The block with an authentic request taken: its role and counter noted, and the run of failures ended. -/
def requestTaken (b : Block) (role counter : Nat) : Block :=
  { b with mgmt := { b.mgmt with
      authRun := 0, reqRole := role, reqCounter := counter
      counters := if role = 0 then b.mgmt.counters else tput b.mgmt.counters role counter } }

variable (hsettings : s.b.mgmt.newLink = none)
include hsettings

theorem applyLink_none : s.b.applyLink = s.b := by
  rw [Block.applyLink, hsettings]

theorem linkFrame_discards (hbad : s.b.frameOk fr = false ∨ u16 fr 4 < 64) :
    s.linkFrame fr = { s with b := s.b.count Reg.mgtFrameErrors } := by
  rw [State.linkFrame]
  dsimp only
  rw [applyLink_none hsettings]
  exact if_pos (hbad.imp_left fun h => by rw [h]; rfl)

section

variable (hok : s.b.frameOk fr = true) (hlong : 64 ≤ u16 fr 4) (htype : u8 fr 3 = 1)
include hok hlong htype

/-- What becomes of a well-formed request, by the first of its checks that fails (R480, R482). -/
theorem linkFrame_request : s.linkFrame fr =
    (let role := u8 fr 6
     let counter := u32 fr 8
     let op := frOp fr
     let tag := frTag fr
     if s.b.mgmt.backoff && op != 0x1401 then { s with b := s.b.linkRefuse s.fuses role counter op tag stAuth 0x02 }
     else if !s.b.authentic s.fuses fr then { s with b := s.b.authFails s.fuses role counter op tag }
     else if 16 ≤ s.b.heldCount ∧ op ≠ 0x1402 then { s with b := s.b.linkRefuse s.fuses role counter op tag stBusy 0 }
     else if !linkArgsOk (frBody fr) then { s with b := (requestTaken s.b role counter).linkRefuse s.fuses role counter op tag stBadArg 0 }
     else State.linkRun { s with b := requestTaken s.b role counter } role counter op (frBody fr)) := by
  rw [State.linkFrame]
  dsimp only
  rw [applyLink_none hsettings, if_neg (by simp [hok, hlong]), if_neg (by simp [htype])]
  rfl

theorem linkFrame_backsOff (hbackoff : s.b.mgmt.backoff = true) (hop : frOp fr ≠ 0x1401) :
    s.linkFrame fr = { s with b := s.b.linkRefuse s.fuses (u8 fr 6) (u32 fr 8) (frOp fr) (frTag fr) stAuth 0x02 } :=
  (linkFrame_request hsettings hok hlong htype).trans (if_pos (by simp [hbackoff, hop]))

theorem linkFrame_unauthentic (hopen : s.b.mgmt.backoff = false ∨ frOp fr = 0x1401)
    (hauth : s.b.authentic s.fuses fr = false) :
    s.linkFrame fr = { s with b := s.b.authFails s.fuses (u8 fr 6) (u32 fr 8) (frOp fr) (frTag fr) } :=
  (linkFrame_request hsettings hok hlong htype).trans
    ((if_neg (by rcases hopen with h | h <;> simp [h])).trans (if_pos (by rw [hauth]; rfl)))

section

variable (hopen : s.b.mgmt.backoff = false) (hauth : s.b.authentic s.fuses fr = true)
include hopen hauth

theorem linkFrame_full (hheld : 16 ≤ s.b.heldCount) (hop : frOp fr ≠ 0x1402) :
    s.linkFrame fr = { s with b := s.b.linkRefuse s.fuses (u8 fr 6) (u32 fr 8) (frOp fr) (frTag fr) stBusy 0 } :=
  (linkFrame_request hsettings hok hlong htype).trans
    ((if_neg (by simp [hopen])).trans ((if_neg (by simp [hauth])).trans (if_pos ⟨hheld, hop⟩)))

theorem linkFrame_runs (hheld : s.b.heldCount < 16) (hargs : linkArgsOk (frBody fr) = true) :
    s.linkFrame fr = State.linkRun { s with b := requestTaken s.b (u8 fr 6) (u32 fr 8) } (u8 fr 6) (u32 fr 8) (frOp fr)
      (frBody fr) :=
  (linkFrame_request hsettings hok hlong htype).trans ((if_neg (by simp [hopen])).trans ((if_neg (by simp [hauth])).trans
    ((if_neg (fun h => absurd h.1 (Nat.not_le.2 hheld))).trans (if_neg (by simp [hargs])))))

end

end

end

/-- An authentic request of a role is one of the session, whose counter moves on. -/
theorem authentic_session {b : Block} {f : Fuses} {fr : List Byte} (hrole : u8 fr 6 ≠ 0) (hauth : b.authentic f fr = true) :
    ∃ n, b.mgmt.nonce = some n ∧ u8 fr 6 ≤ 3 ∧ tget 0 b.mgmt.counters (u8 fr 6) < u32 fr 8 := by
  unfold Block.authentic at hauth
  dsimp only at hauth
  rw [if_neg hrole] at hauth
  cases hnonce : b.mgmt.nonce with
  | none =>
    rw [hnonce] at hauth
    exact Bool.noConfusion hauth
  | some n =>
    rw [hnonce] at hauth
    simp only [Bool.and_eq_true, decide_eq_true_eq] at hauth
    obtain ⟨⟨hthree, -⟩, hcounter⟩ := hauth
    exact ⟨n, rfl, hthree, hcounter⟩

section

variable (b : Block) (f : Fuses) (role k op tag : Nat)

/-- A failed authentication noted: counted, flagged and logged. -/
def failureNoted (b : Block) (role : Nat) : Block :=
  (((({ b with mgmt := { b.mgmt with authRun := b.mgmt.authRun + 1 } } : Block).count Reg.mgtAuthFails).raise Reg.mgtFlags 0).log 6 0x08
    (leBytes 1 role))

theorem failureNoted_run : (failureNoted b role).mgmt.authRun = b.mgmt.authRun + 1 ∧ (failureNoted b role).mgmt.backoff = b.mgmt.backoff := by
  have hmgmt : ((({ b with mgmt := { b.mgmt with authRun := b.mgmt.authRun + 1 } } : Block).count Reg.mgtAuthFails).raise Reg.mgtFlags 0).mgmt =
      { b.mgmt with authRun := b.mgmt.authRun + 1 } := by
    rw [raise_mgmt, count_mgmt]
  exact ⟨(congrArg Mgmt.authRun hmgmt :), (congrArg Mgmt.backoff hmgmt :)⟩

theorem authFails_run : (b.authFails f role k op tag).mgmt.authRun = b.mgmt.authRun + 1 ∧
    (b.mgmt.authRun = 15 → (b.authFails f role k op tag).mgmt.backoff = true) ∧
    (b.mgmt.authRun ≠ 15 → (b.authFails f role k op tag).mgmt.backoff = b.mgmt.backoff) := by
  obtain ⟨hrun, hbackoff⟩ := failureNoted_run b role
  by_cases hlast : b.mgmt.authRun = 15
  · have hfails : b.authFails f role k op tag = ((({ failureNoted b role with
        mgmt := { (failureNoted b role).mgmt with backoff := true, backoffSince := (failureNoted b role).elapsed } } : Block).raise
          Reg.mgtFlags 2).linkRefuse f role k op tag stAuth 0x01) :=
      congrArg (fun y : Block => y.linkRefuse f role k op tag stAuth 0x01) (if_pos (by rw [hlast]))
    have hmgmt := raise_mgmt ({ failureNoted b role with
      mgmt := { (failureNoted b role).mgmt with backoff := true, backoffSince := (failureNoted b role).elapsed } } : Block)
      Reg.mgtFlags 2 sidDevice []
    rw [hfails]
    exact ⟨(congrArg Mgmt.authRun hmgmt).trans hrun, fun _ => congrArg Mgmt.backoff hmgmt, fun h => absurd hlast h⟩
  · have hfails : b.authFails f role k op tag = (failureNoted b role).linkRefuse f role k op tag stAuth 0x01 :=
      congrArg (fun y : Block => y.linkRefuse f role k op tag stAuth 0x01) (if_neg (by omega))
    rw [hfails]
    exact ⟨hrun, fun h => absurd h hlast, fun _ => hbackoff⟩

end

/-! ### The link in time (R478, R480, R484, R485) -/

section

variable {s : State}

theorem smbusBlockRead_reads {n : Nat} (hmore : s.b.mgmt.respRead + min n 255 < s.b.mgmt.response.length) :
    Gives s (.smbusBlockRead n) { s.b with mgmt := { s.b.mgmt with respRead := s.b.mgmt.respRead + min n 255 } } :=
  gives_of_eq rfl (if_neg (Nat.not_le.2 hmore))

theorem smbusBlockRead_ends {n : Nat} (hlast : s.b.mgmt.response.length ≤ s.b.mgmt.respRead + min n 255) :
    Gives s (.smbusBlockRead n) (({ s.b with mgmt := { s.b.mgmt with response := [], respRead := 0 } } : Block).settleAlert) :=
  gives_of_eq rfl (if_pos hlast)

theorem backoffEnd_ends (hbackoff : s.b.mgmt.backoff = true) (hover : s.b.mgmt.backoffSince + 1000000000 ≤ s.b.elapsed) :
    Gives s .backoffEnd { s.b with mgmt := { s.b.mgmt with backoff := false, authRun := 0 } } :=
  gives_of_eq rfl (if_pos (by rw [hbackoff, decide_eq_true hover]; rfl))

theorem backoffEnd_rests (hnot : s.b.mgmt.backoff = false ∨ s.b.elapsed < s.b.mgmt.backoffSince + 1000000000) :
    exec .backoffEnd s = .next s := by
  have hexec : exec .backoffEnd s = execBackoffEnd s := rfl
  rw [hexec, execBackoffEnd, nextB_eq, if_neg]
  rcases hnot with h | h
  · simp [h]
  · simp [h]

theorem por_restarting_of_up (hup : s.b.linkUp = true) : ¬(s.b.boot.por || s.b.mgmt.restarting) = true := (linkUp_iff s.b).1 hup

theorem logNvmCopy_up (hup : s.b.linkUp = true) : Gives s .logNvmCopy { s.b with mgmt := { s.b.mgmt with nvmLog := s.b.mgmt.log } } :=
  gives_of_eq rfl (if_neg (por_restarting_of_up hup))

theorem logNvmCopy_down (hdown : s.b.linkUp = false) : exec .logNvmCopy s = .next s := by
  have hexec : exec .logNvmCopy s = execLogNvmCopy s := rfl
  rw [hexec, execLogNvmCopy, nextB_eq, if_pos (not_not.1 (mt (linkUp_iff s.b).2 (by rw [hdown]; decide)))]

/-- A restart of the MI counts what was held, and leaves its log. -/
theorem miRestart_shows (b : Block) (slot : Option Nat) : (b.miRestart slot).mgmt.log = b.mgmt.log ∧
    (b.miRestart slot).rdN Reg.mgtLostCompletions = (b.rdN Reg.mgtLostCompletions + b.heldCount) % 2 ^ 32 := by
  constructor
  · simp only [Block.miRestart, setFld_mgmt, onOut_mgmt, count_mgmt]
  · calc (b.miRestart slot).rdN Reg.mgtLostCompletions
        = (b.count Reg.mgtLostCompletions b.heldCount).rdN Reg.mgtLostCompletions :=
          congrArg BitVec.toNat ((rd_setFld_ne _ 0 1 0 (by decide)).trans (rd_onOut _ _ rfl))
      _ = _ := rdN_wrN_same b _ _

theorem miRestartEnd_notes (hpor : s.b.boot.por = false) (hrestarting : s.b.mgmt.restarting = true) : Gives s .miRestartEnd
    (((({ s.b with mgmt := { s.b.mgmt with restarting := false } } : Block).log 1 0x0D).showMgt).raise Reg.mgtFlags 1) :=
  gives_of_eq rfl (if_neg (by rw [hpor, hrestarting]; decide))

end

/-! ### The mirror (R488) -/

/-- A row of registers, each written with its value. -/
def writeRow (b : Block) (reg val : Nat → Nat) (n : Nat) : Block := (List.range n).foldl (fun b i => b.wrN (reg i) (val i)) b

section

variable (b : Block) (reg val : Nat → Nat)

theorem writeRow_rd_ne (n : Nat) {off : Nat} (h : ∀ i, off ≠ reg i) : (writeRow b reg val n).rd off = b.rd off :=
  foldl_keeps (fun b : Block => b.rd off) _ (fun y i => rd_wr_ne y _ (h i)) _ b

theorem writeRow_rdN (hrow : ∀ i j, reg i = reg j → i = j) {n i : Nat} (hi : i < n) : (writeRow b reg val n).rdN (reg i) = val i % 2 ^ 32 := by
  induction n with
  | zero => exact absurd hi (Nat.not_lt_zero i)
  | succ n ih =>
    have hlast : writeRow b reg val (n + 1) = (writeRow b reg val n).wrN (reg n) (val n) := by
      rw [writeRow, List.range_succ, List.foldl_append]
      rfl
    rw [hlast]
    by_cases heq : i = n
    · rw [heq, rdN_wrN_same]
    · rw [Block.rdN, Block.wrN, rd_wr_ne _ _ (mt (hrow i n) heq)]
      exact ih (by omega)

theorem writeRow_mgmt (n : Nat) : (writeRow b reg val n).mgmt = b.mgmt := fold_mgmt _ (fun _ _ => wrN_mgmt ..) _

end

/-- The temperatures and the supplies in the mirror. -/
def mirrored (b : Block) (ts : List Int) (vs : List Nat) : Block :=
  writeRow (writeRow b Reg.mgtTemp (fun i => ofSigned 32 (ts.getD i 0)) 6) Reg.mgtSupply (fun v => vs.getD v 0) 11

theorem mirrorRefresh_gives {s : State} (ts : List Int) (vs : List Nat) (hup : s.b.linkUp = true) (hsettings : s.b.mgmt.newLink = none) :
    Gives s (.mirrorRefresh ts vs) (mirrored s.b ts vs).showMgt := by
  refine gives_of_eq rfl ((if_neg (por_restarting_of_up hup)).trans ?_)
  rw [applyLink_none hsettings]
  rfl

theorem showMgt_rdN_ne (b : Block) {off : Nat} (hstate : off ≠ Reg.mgtState) (hseq : off ≠ Reg.mgtLogSeq) : b.showMgt.rdN off = b.rdN off :=
  congrArg BitVec.toNat ((rd_wr_ne _ _ hseq).trans (rd_wr_ne _ _ hstate))

theorem showMgt_logSeq (b : Block) : b.showMgt.rdN Reg.mgtLogSeq = (b.mgmt.nextSeq - 1) % 2 ^ 32 := rdN_wrN_same _ _ _

section

variable (b : Block) (ts : List Int) (vs : List Nat)

theorem mirrored_temp {i : Nat} (hi : i < 6) : (mirrored b ts vs).showMgt.rdN (Reg.mgtTemp i) = ofSigned 32 (ts.getD i 0) % 2 ^ 32 := by
  rw [showMgt_rdN_ne _ (by simp only [Reg.mgtTemp, Reg.mgtState]; omega) (by simp only [Reg.mgtTemp, Reg.mgtLogSeq]; omega), mirrored,
    Block.rdN, writeRow_rd_ne _ _ _ _ (fun v => by simp only [Reg.mgtTemp, Reg.mgtSupply]; omega)]
  exact writeRow_rdN _ _ _ (fun j k h => by simp only [Reg.mgtTemp] at h; omega) hi

theorem mirrored_supply {v : Nat} (hv : v < 11) : (mirrored b ts vs).showMgt.rdN (Reg.mgtSupply v) = vs.getD v 0 % 2 ^ 32 := by
  rw [showMgt_rdN_ne _ (by simp only [Reg.mgtSupply, Reg.mgtState]; omega) (by simp only [Reg.mgtSupply, Reg.mgtLogSeq]; omega), mirrored]
  exact writeRow_rdN _ _ _ (fun j k h => by simp only [Reg.mgtSupply] at h; omega) hv

theorem mirrored_logSeq : (mirrored b ts vs).showMgt.rdN Reg.mgtLogSeq = (b.mgmt.nextSeq - 1) % 2 ^ 32 := by
  rw [showMgt_logSeq, mirrored, writeRow_mgmt, writeRow_mgmt]

end

/-- Settles O50: requests by the first check that they fail, the link's times each by its own event, the mirror by its rows. -/
theorem managementLinkProceeds : Obligations.ManagementLinkProceeds := by
  unfold Obligations.ManagementLinkProceeds
  refine ⟨fun s fr hup => shavorRequest_up hup fr, fun s piece hup => smbusBlockWrite_up hup piece,
    fun s fr piece g l p hdown => link_down hdown fr piece g l p, ?_, ?_, fun b f role k op tag => authFails_run b f role k op tag,
    fun s n => ⟨smbusBlockRead_reads, smbusBlockRead_ends⟩, fun s => rfl, fun s => ⟨backoffEnd_ends, backoffEnd_rests⟩,
    fun s => ⟨logNvmCopy_up, logNvmCopy_down⟩, ?_, fun s => miRestartEnd_notes, ?_⟩
  · intro s fr b f body role op hsettings
    exact ⟨linkFrame_discards hsettings, fun hok hlong htype => ⟨linkFrame_backsOff hsettings hok hlong htype,
      linkFrame_unauthentic hsettings hok hlong htype, linkFrame_full hsettings hok hlong htype, linkFrame_runs hsettings hok hlong htype⟩⟩
  · rintro b f fr role rfl hrole hauth
    exact authentic_session hrole hauth
  · intro s hup
    obtain ⟨hlog, hlost⟩ := miRestart_shows s.b s.b.mgmt.miSlot
    exact ⟨_, gives_of_eq rfl (if_neg (por_restarting_of_up hup)), rfl, rfl, rfl, rfl, rfl, hlog, hlost⟩
  · intro s ts vs hup hsettings
    exact ⟨_, mirrorRefresh_gives ts vs hup hsettings, fun i => mirrored_temp s.b ts vs, fun v => mirrored_supply s.b ts vs,
      mirrored_logSeq s.b ts vs⟩

end Sys2Proof
end

section
/-! Digital lines (17 R419, R420): their edges, and a bank whose supply is not the declared one. -/

namespace Sys2Proof

open Sys2Proof.Machine

section

variable {s : State} {n : Fin 192} {l : Bool}

theorem dioEdge_shows (hin : s.b.dioIsOut n = false) (hbank : s.b.bankBad n = false)
    (hnew : s.b.bit (Reg.dioIn (n.val / 32)) (n.val % 32) ≠ l) : Gives s (.dioEdge n l)
      (((s.b.setFld (Reg.dioIn (n.val / 32)) (n.val % 32) 1 (b2n l)).arrive (sidDio n) (BitVec.ofNat 64 (b2n l))).dioEdge n l) :=
  gives_of_eq rfl (if_neg (by rw [hin, hbank, beq_false_of_ne hnew]; decide))

theorem dioEdge_rests
    (hrest : s.b.dioIsOut n = true ∨ s.b.bankBad n = true ∨ s.b.bit (Reg.dioIn (n.val / 32)) (n.val % 32) = l) :
    exec (.dioEdge n l) s = .next s := by
  have hexec : exec (.dioEdge n l) s = execDioEdge n l s := rfl
  rw [hexec, execDioEdge, nextB_eq]
  dsimp only
  rw [if_pos]
  rcases hrest with h | h | h
  · simp [h]
  · simp [h]
  · simp [h]

/-- The level that an output line is driven to, or an input line shows. -/
def lineLevel (b : Block) (n : Nat) : Bool := if b.dioIsOut n then b.dioOut n else b.bit (Reg.dioIn (n / 32)) (n % 32)

theorem dioEdgeMergeEnd_eq {t : Nat} (hlast : (s.b.dioSt n).lastRec = some t) : exec (.dioEdgeMergeEnd n) s = .next { s with
    b := if s.b.now < t + 4000 || (s.b.dioSt n).edges == 0 then s.b
      else (s.b.dioRecord n (s.b.dioSt n).edges (lineLevel s.b n)).raise Reg.dioFlags 0 (sidDio n) } := by
  have hexec : exec (.dioEdgeMergeEnd n) s = execDioEdgeMergeEnd n s := rfl
  rw [hexec, execDioEdgeMergeEnd, nextB_eq]
  dsimp only
  rw [hlast]
  rfl

theorem dioEdgeMergeEnd_records {t : Nat} (hlast : (s.b.dioSt n).lastRec = some t) (hover : t + 4000 ≤ s.b.now)
    (hedges : (s.b.dioSt n).edges ≠ 0) : Gives s (.dioEdgeMergeEnd n)
      ((s.b.dioRecord n (s.b.dioSt n).edges (lineLevel s.b n)).raise Reg.dioFlags 0 (sidDio n)) :=
  gives_of_eq (dioEdgeMergeEnd_eq hlast) (if_neg (by rw [decide_eq_false (Nat.not_lt.2 hover), beq_false_of_ne hedges]; decide))

theorem dioEdgeMergeEnd_rests {t : Nat} (hlast : (s.b.dioSt n).lastRec = some t)
    (hrest : s.b.now < t + 4000 ∨ (s.b.dioSt n).edges = 0) : exec (.dioEdgeMergeEnd n) s = .next s := by
  rw [dioEdgeMergeEnd_eq hlast, if_pos]
  rcases hrest with h | h
  · rw [decide_eq_true h]; rfl
  · rw [h]; exact Bool.or_true _

end

/-! ### A bank whose supply differs -/

/-- What a bank with the wrong supply does before its report: it shows MISMATCH and what it senses, and its lines fall. -/
def bankFallen (b : Block) (k : Nat) : Block :=
  let b := (b.setFld (Reg.dioBankState k) 2 1 1).setFld (Reg.dioBankState k) 1 1 (1 - b.fld (Reg.dioBankState k) 0 1)
  (b.setFld (Reg.dioOut (k / 2)) (16 * (k % 2)) 16 0).setFld (Reg.dioDir (k / 2)) (16 * (k % 2)) 16 0

theorem dioBankMismatch_gives (s : State) (k : Fin 12) :
    Gives s (.dioBankMismatch k) ((bankFallen s.b k).raisePost Reg.dioFlags 1 sidDevice (leBytes 1 k)) := rfl

/-- The report changes no other register of the lines than the flags. -/
theorem rd_bankReport (b : Block) {off : Nat} (d : List Byte) (hblk : off / 0x100000 = 0x11) (hflags : off ≠ Reg.dioFlags)
    (hsets : off ≠ Reg.dioFlags + 4) : (b.raisePost Reg.dioFlags 1 sidDevice d).rd off = b.rd off :=
  ((raisePost_reports b Reg.dioFlags 1 sidDevice d).rd (by rw [isOut, hblk]; decide) (by rw [hblk]; decide)
    (fun h => by rw [h] at hblk; exact absurd hblk (by decide))).trans (rd_setFlag_ne b 1 hflags hsets)

/-- Not the lowest bit of a word, as a number and as a bit. -/
theorem testBit_one_sub_field (v : Nat) : (1 - field v 0 1).testBit 0 = !v.testBit 0 := by
  rw [field, Nat.shiftRight_zero, Nat.pow_one, Nat.testBit_zero, Nat.testBit_zero]
  rcases Nat.mod_two_eq_zero_or_one v with h | h
  · rw [h]; rfl
  · rw [h]; rfl

section

variable (b : Block) (k : Fin 12)

theorem rd_bankFallen_state : (bankFallen b k).rd (Reg.dioBankState k) =
    ((b.setFld (Reg.dioBankState k) 2 1 1).setFld (Reg.dioBankState k) 1 1 (1 - b.fld (Reg.dioBankState k) 0 1)).rd (Reg.dioBankState k) :=
  (rd_setFld_ne _ _ _ _ (by simp only [Reg.dioBankState, Reg.dioDir]; omega)).trans
    (rd_setFld_ne _ _ _ _ (by simp only [Reg.dioBankState, Reg.dioOut]; omega))

theorem bankFallen_mismatch : (bankFallen b k).bit (Reg.dioBankState k) 2 = true := by
  rw [bit_congr 2 (rd_bankFallen_state b k), bit_setFld_other _ _ _ (by decide) (by decide), bit_setFld_one _ _ _ (by decide)]
  rfl

theorem bankFallen_sensed : (bankFallen b k).bit (Reg.dioBankState k) 1 = !b.bit (Reg.dioBankState k) 0 := by
  rw [bit_congr 1 (rd_bankFallen_state b k), bit_setFld_one _ _ _ (by decide)]
  exact testBit_one_sub_field _

theorem bankFallen_out : (bankFallen b k).fld (Reg.dioOut (k.val / 2)) (16 * (k.val % 2)) 16 = 0 := by
  rw [bankFallen, fld_congr _ _ (rd_setFld_ne _ _ _ _ (by simp only [Reg.dioOut, Reg.dioDir]; omega)),
    fld_setFld_same _ _ (by omega) (by decide)]

theorem bankFallen_dir : (bankFallen b k).fld (Reg.dioDir (k.val / 2)) (16 * (k.val % 2)) 16 = 0 :=
  fld_setFld_same _ _ (by omega) (by decide)

end

/-- Settles O43: an edge shows, arrives and is recorded alone or with those it merges with, and of a fallen bank the flags alone are
touched by the report. -/
theorem digitalLinesFollowTheirEdges : Obligations.DigitalLinesFollowTheirEdges := by
  unfold Obligations.DigitalLinesFollowTheirEdges
  refine ⟨?edge, ?noEdge, ?merge, ?bank⟩
  case edge =>
    exact fun s n l hin hbank => ⟨fun hnew => dioEdge_shows hin hbank hnew, fun hsame => dioEdge_rests (.inr (.inr hsame))⟩
  case noEdge =>
    exact fun s n l h => dioEdge_rests (h.imp_right .inl)
  case merge =>
    exact fun s n t hlast => ⟨fun hover hedges => dioEdgeMergeEnd_records hlast hover hedges, fun h => dioEdgeMergeEnd_rests hlast h⟩
  case bank =>
    intro s k
    have hstate := rd_bankReport (bankFallen s.b k) (off := Reg.dioBankState k) (leBytes 1 k)
      (by simp only [Reg.dioBankState]; omega) (by simp only [Reg.dioBankState, Reg.dioFlags]; omega)
      (by simp only [Reg.dioBankState, Reg.dioFlags]; omega)
    have hout := rd_bankReport (bankFallen s.b k) (off := Reg.dioOut (k.val / 2)) (leBytes 1 k)
      (by simp only [Reg.dioOut]; omega) (by simp only [Reg.dioOut, Reg.dioFlags]; omega)
      (by simp only [Reg.dioOut, Reg.dioFlags]; omega)
    have hdir := rd_bankReport (bankFallen s.b k) (off := Reg.dioDir (k.val / 2)) (leBytes 1 k)
      (by simp only [Reg.dioDir]; omega) (by simp only [Reg.dioDir, Reg.dioFlags]; omega)
      (by simp only [Reg.dioDir, Reg.dioFlags]; omega)
    have hflag := (raisePost_reports (bankFallen s.b k) Reg.dioFlags 1 sidDevice (leBytes 1 k)).rd (off := Reg.dioFlags)
      (by decide) (by decide) (by decide)
    exact ⟨_, dioBankMismatch_gives s k, (bit_congr 2 hstate).trans (bankFallen_mismatch s.b k),
      (bit_congr 1 hstate).trans (bankFallen_sensed s.b k), (fld_congr _ _ hout).trans (bankFallen_out s.b k),
      (fld_congr _ _ hdir).trans (bankFallen_dir s.b k), (bit_congr 1 hflag).trans (bit_setFlag_same _ _ (by decide))⟩

end Sys2Proof
end

section
/-! Serial ports (17 R415–R423): the queue of requests, and a transaction from its request to the TURN after it. -/

namespace Sys2Proof

open Sys2Proof.Machine

/-! ### Commands of the buses -/

theorem firstRefusal_busPre {b : Block} {c : Cmd} (hsent : Sent b c roleOperator devLive) (l : List (Option Refuse)) :
    firstRefusal (b.busPre c ++ l) = firstRefusal l := by
  obtain ⟨hauth, hdev, henv⟩ := hsent
  rw [Block.busPre, hauth, hdev, henv]
  rfl

/-- A port's SID names it. -/
theorem port_of_obj {c : Cmd} {p : Fin 4} (hobj : cObj c = sidSer p) : isSerSid (cObj c) = true ∧ cObj c - 0x800010 = p := by
  have hp := p.isLt
  rw [hobj, isSerSid, sidSer, decide_eq_true (Nat.le_add_right _ _), decide_eq_true (Nat.add_lt_add_left hp _)]
  exact ⟨rfl, Nat.add_sub_cancel_left ..⟩

/-- What `SER.MODE` does to a port. -/
def serModeSet (on : Bool) (p : Nat) (b : Block) : Block :=
  if on then (if b.serMode p = srOff then (b.setFld (Reg.serState p) 0 2 srIdle).serNext p else b.putSer p { b.ser p with off := false })
  else if b.serMode p = srBusy then b.putSer p { b.ser p with off := true }
  else if b.serMode p = srIdle then b.serOff p else b

/-- A request of a command joins a port's queue. -/
def serJoin (b : Block) (c : Cmd) (op p : Nat) (r : SerReq) : Block :=
  ((b.putSer p { b.ser p with queue := (b.ser p).queue ++ [{ r with op := some (opOf c op) }] }).showSer p).serNext p

section

variable {s : State} {c : Cmd} {p : Fin 4} (hobj : cObj c = sidSer p) (hsent : Sent s.b c roleOperator devLive)
include hobj hsent

theorem serMode_completes {b' : Block} (heff : serModeSet ((u8 (cArg c) 0).testBit 0) p s.b = b') :
    Completes s (.serMode c) 0x1011 c b' stDone := by
  obtain ⟨hsid, hp⟩ := port_of_obj hobj
  refine completes_runDone (eff := serModeSet ((u8 (cArg c) 0).testBit 0) (cObj c - 0x800010)) rfl
    ((firstRefusal_busPre hsent _).trans ?_) (by rw [hp]; exact heff)
  rw [hsid]
  rfl

end

/-! ### Requests that join the queue (R417, R421) -/

theorem firstRefusal_after {l : List (Option Refuse)} (hl : firstRefusal l = none) (l' : List (Option Refuse)) :
    firstRefusal (l ++ l') = firstRefusal l' := by
  induction l with
  | nil => rfl
  | cons r l ih =>
    cases r with
    | none => exact ih hl
    | some x => exact absurd hl (by simp [firstRefusal])

section

variable {b : Block} {op : Nat} {c : Cmd} {l : List (Option Refuse)} {p : Nat} (r : SerReq) (hl : firstRefusal l = none)
  (hp : cObj c - 0x800010 = p)
include hl hp

theorem firstRefusal_serRequest :
    firstRefusal (l ++ [deny (b.serMode (cObj c - 0x800010) == srOff) stConflict 0x01 srOff,
      deny (decide (8 ≤ (b.ser (cObj c - 0x800010)).queue.length)) stNoSpace]) =
    if b.serMode p == srOff then some { status := stConflict, reason := 0x01, code := srOff }
    else if decide (8 ≤ (b.ser p).queue.length) then some { status := stNoSpace } else none := by
  rw [firstRefusal_after hl, firstRefusal_deny, firstRefusal_deny, hp]
  rfl

theorem serRequest_joins (hon : b.serMode p ≠ srOff) (hroom : (b.ser p).queue.length < 8) : b.serRequest op c l r = serJoin b c op p r := by
  have hfree := firstRefusal_serRequest (b := b) hl hp
  rw [if_neg (by simpa using hon), if_neg (by simpa using hroom)] at hfree
  rw [Block.serRequest]
  dsimp only
  rw [hfree, hp]
  rfl

theorem serRequest_refused {x : Refuse} (hx : (if b.serMode p == srOff then some { status := stConflict, reason := 0x01, code := srOff }
    else if decide (8 ≤ (b.ser p).queue.length) then some { status := stNoSpace } else none) = some x) :
    b.serRequest op c l r = b.complete op c x.status x.reason [] x.code := by
  rw [Block.serRequest]
  dsimp only
  rw [firstRefusal_serRequest hl hp, hx]

variable {s : State} {i : Instr} (hexec : exec i s = .next { s with b := s.b.serRequest op c l r })
include hexec

theorem serRequest_gives (hon : s.b.serMode p ≠ srOff) (hroom : (s.b.ser p).queue.length < 8) : Gives s i (serJoin s.b c op p r) :=
  gives_of_eq hexec (serRequest_joins r hl hp hon hroom)

theorem serRequest_closed (hoff : s.b.serMode p = srOff) : Completes s i op c s.b stConflict 0x01 := by
  rw [serRequest_refused r hl hp (x := { status := stConflict, reason := 0x01, code := srOff }) (by rw [hoff]; rfl)] at hexec
  exact completes_of hexec

theorem serRequest_full (hon : s.b.serMode p ≠ srOff) (hfull : 8 ≤ (s.b.ser p).queue.length) : Completes s i op c s.b stNoSpace := by
  rw [serRequest_refused r hl hp (x := { status := stNoSpace })
    (by rw [if_neg (by simpa using hon), if_pos (decide_eq_true hfull)])] at hexec
  exact completes_of hexec

end

section

variable {s : State} {c : Cmd} {p : Fin 4} (hobj : cObj c = sidSer p) (hsent : Sent s.b c roleOperator devLive)
include hobj hsent

theorem firstRefusal_serTrigger (hlow : u8 (cArg c) 0 ≤ 63) (hused : u8 (s.b.serEntry p (u8 (cArg c) 0)) 0 ≠ 0) :
    firstRefusal (s.b.busPre c ++ [deny (decide (63 < u8 (cArg c) 0)) stBadArg,
      deny (!isSerSid (cObj c) || u8 (s.b.serEntry (cObj c - 0x800010) (u8 (cArg c) 0)) 0 == 0) stBadRef]) = none := by
  obtain ⟨hsid, hp⟩ := port_of_obj hobj
  rw [firstRefusal_busPre hsent, hsid, hp, beq_false_of_ne hused, decide_eq_false (Nat.not_lt.2 hlow)]
  rfl

omit hsent in
theorem serTrigger_exec : exec (.serTrigger c) s = .next { s with
    b := s.b.serRequest 0x1012 c (s.b.busPre c ++ [deny (decide (63 < u8 (cArg c) 0)) stBadArg,
      deny (!isSerSid (cObj c) || u8 (s.b.serEntry (cObj c - 0x800010) (u8 (cArg c) 0)) 0 == 0) stBadRef])
      { entry := u8 (cArg c) 0, bytes := s.b.template p (u8 (cArg c) 0) } } := by
  obtain ⟨-, hp⟩ := port_of_obj hobj
  rw [← hp]
  rfl

theorem firstRefusal_serSend (hlow : 1 ≤ u8 (cArg c) 0) (hhigh : u8 (cArg c) 0 ≤ 40) :
    firstRefusal (s.b.busPre c ++ [deny (u8 (cArg c) 0 == 0 || decide (40 < u8 (cArg c) 0)) stBadArg,
      deny (!isSerSid (cObj c)) stBadRef]) = none := by
  obtain ⟨hsid, -⟩ := port_of_obj hobj
  rw [firstRefusal_busPre hsent, hsid, beq_false_of_ne (by omega), decide_eq_false (Nat.not_lt.2 hhigh)]
  rfl

end

/-! ### Entries that fall due (R417) -/

/-- A schedule's next time after one that has come. -/
def serLater (b : Block) (p k t : Nat) : SerSt :=
  { b.ser p with next := tput (b.ser p).next k (t + 1000 * u32 (b.serEntry p k) 12) }

section

variable {s : State} {p : Fin 4} {k t : Nat} (hnext : tget? (s.b.ser p).next k = some t)
include hnext

theorem serEntryDue_exec : exec (.serEntryDue p k) s = .next { s with
    b := if s.b.now < t || u8 (s.b.serEntry p k) 0 == 0 || !(u8 (s.b.serEntry p k) 1).testBit 3 then s.b
      else if s.b.serMode p = srOff then s.b.putSer p (serLater s.b p k t)
      else if (s.b.ser p).due.contains k then
        ((s.b.putSer p (serLater s.b p k t)).count (Reg.serSkipped p)).raise (Reg.serFlags p) 2 (sidSer p)
      else if u8 (s.b.serEntry p k) 0 = 2 then s.b.putSer p (serLater s.b p k t)
      else (s.b.putSer p { serLater s.b p k t with due := (s.b.ser p).due ++ [k] }).serNext p } := by
  have hexec : exec (.serEntryDue p k) s = execSerEntryDue p k s := rfl
  rw [hexec, execSerEntryDue, nextB_eq]
  dsimp only
  rw [hnext]
  rfl

theorem serEntryDue_early (hearly : s.b.now < t) : exec (.serEntryDue p k) s = .next s := by
  rw [serEntryDue_exec hnext, if_pos (by rw [decide_eq_true hearly]; rfl)]

variable (hpoll : u8 (s.b.serEntry p k) 0 = 1) (hauto : (u8 (s.b.serEntry p k) 1).testBit 3 = true) (hdue : t ≤ s.b.now)
  (hon : s.b.serMode p ≠ srOff)
include hpoll hauto hdue hon

theorem serEntryDue_joins (hfree : (s.b.ser p).due.contains k = false) : Gives s (.serEntryDue p k)
    ((s.b.putSer p { serLater s.b p k t with due := (s.b.ser p).due ++ [k] }).serNext p) := by
  rw [Gives, serEntryDue_exec hnext, hpoll, hauto, hfree, if_neg (by rw [decide_eq_false (Nat.not_lt.2 hdue)]; decide), if_neg hon,
    if_neg (by decide), if_neg (by decide)]

theorem serEntryDue_skips (hwaits : (s.b.ser p).due.contains k = true) : Does s (.serEntryDue p k)
    (((s.b.putSer p (serLater s.b p k t)).count (Reg.serSkipped p)).setFlag (Reg.serFlags p) 2) := by
  refine does_of (t := ((s.b.putSer p (serLater s.b p k t)).count (Reg.serSkipped p)).raise (Reg.serFlags p) 2 (sidSer p)) ?_
    (raise_reports ..)
  rw [serEntryDue_exec hnext, hpoll, hauto, hwaits, if_neg (by rw [decide_eq_false (Nat.not_lt.2 hdue)]; decide), if_neg hon, if_pos rfl]

end

/-! ### A transaction (R415, R417) -/

section

variable {s : State} {p : Fin 4} {r : SerReq} (hcur : (s.b.ser p).cur = some r)
include hcur

theorem serRequestSent_exec (hbusy : s.b.serMode p = srBusy) (hwait : (s.b.ser p).await = false) (hturn : (s.b.ser p).turnFrom = none) :
    let b := s.b.serRecord p 0 0 r.entry (s.b.ser p).attempt r.bytes
    exec (.serRequestSent p) s = .next { s with
      b := if r.entry < 64 ∧ u8 (b.serEntry p r.entry) 0 = 1 then b.putSer p { s.b.ser p with await := true, sentAt := b.now }
        else b.serEnd p false } := by
  have hexec : exec (.serRequestSent p) s = execSerRequestSent p s := rfl
  have hfree : ¬(s.b.serMode p != srBusy || (s.b.ser p).await || (s.b.ser p).turnFrom.isSome) = true := by
    rw [hbusy, hwait, hturn]
    decide
  rw [hexec, execSerRequestSent, nextB_eq]
  dsimp only
  rw [hcur]
  exact congrArg (fun b => Host.Outcome.next { s with b := b }) (if_neg hfree)

/-- A message that ends while a response is awaited is examined against the entry, recorded, and ends the transaction or fails it. -/
theorem serMessageEnd_exec {msg : List Byte} (hon : s.b.serMode p ≠ srOff) (hawait : (s.b.ser p).await = true)
    (hown : (s.b.serExamine p (s.b.serEntry p r.entry) msg false).1 ≠ 3) :
    let v := s.b.serExamine p (s.b.serEntry p r.entry) msg false
    let b := s.b.serRecord p 1 v.1 r.entry (s.b.ser p).attempt msg
    Gives s (.serMessageEnd p msg false) (if v.1 = 0 then (b.serUpdate v.2).serEnd p true else b.serFail p r.entry v.1) := by
  have hexec : exec (.serMessageEnd p msg false) s = execSerMessageEnd p msg false s := rfl
  intro v b
  have hexamine : ((s.b.ser p).await && !(s.b.bit (Reg.serCfg p) 11 && v.1 == 3)) = true := by
    rw [hawait, beq_false_of_ne hown, Bool.and_false]
    rfl
  rw [Gives, hexec, execSerMessageEnd, nextB_eq]
  dsimp only
  rw [if_neg hon, if_neg (by decide), hcur]
  exact congrArg (fun b => Host.Outcome.next { s with b := b }) (if_pos hexamine)

theorem respTimeout_exec (hawait : (s.b.ser p).await = true) : exec (.respTimeout p) s = .next { s with
    b := if s.b.now < (s.b.ser p).sentAt + 1000 * u32 (s.b.serEntry p r.entry) 20 then s.b else s.b.serFail p r.entry 1 } := by
  have hexec : exec (.respTimeout p) s = execRespTimeout p s := rfl
  rw [hexec, execRespTimeout, nextB_eq]
  dsimp only
  rw [hcur, hawait]
  simp only [Bool.not_true, Bool.false_or, decide_eq_true_eq]

end

theorem serMessageEnd_off {s : State} {p : Fin 4} {msg : List Byte} {framing : Bool} (hoff : s.b.serMode p = srOff) :
    exec (.serMessageEnd p msg framing) s = .next s := by
  have hexec : exec (.serMessageEnd p msg framing) s = execSerMessageEnd p msg framing s := rfl
  rw [hexec, execSerMessageEnd, nextB_eq]
  dsimp only
  rw [if_pos hoff]

theorem serTurnEnd_exec {s : State} {p : Fin 4} {t : Nat} (hturn : (s.b.ser p).turnFrom = some t) :
    let b := s.b.putSer p { s.b.ser p with turnFrom := none, again := false }
    exec (.serTurnEnd p) s = .next { s with
      b := if s.b.now < t + s.b.turnNs p then s.b else if (s.b.ser p).again then b else b.serNext p } := by
  have hexec : exec (.serTurnEnd p) s = execSerTurnEnd p s := rfl
  rw [hexec, execSerTurnEnd, nextB_eq]
  dsimp only
  rw [hturn]

/-- Settles O42: a port's mode, its queue of requests, and the ends of a transaction, each by the case of the port's state. -/
theorem serialPortsComplete : Obligations.SerialPortsComplete := by
  unfold Obligations.SerialPortsComplete
  refine ⟨?mode, ?request, ?due, ?sent, ?message, ?off, ?timeout, ?turn⟩
  case mode =>
    intro s c p hobj hsent
    refine ⟨fun hon hclosed => ?_, fun hon hopen => ?_, fun hoff hbusy => ?_, fun hoff hidle => ?_⟩
    · exact serMode_completes hobj hsent (by rw [serModeSet, if_pos hon, if_pos hclosed])
    · exact serMode_completes hobj hsent (by rw [serModeSet, if_pos hon, if_neg hopen])
    · exact serMode_completes hobj hsent (by rw [serModeSet, hoff, if_neg (by decide), if_pos hbusy])
    · exact serMode_completes hobj hsent (by rw [serModeSet, hoff, hidle, if_neg (by decide), if_neg (by decide), if_pos rfl])
  case request =>
    intro s c p hobj hsent i join
    have hp := (port_of_obj hobj).2
    refine ⟨fun hlow hused => ?_, fun hlow hhigh => ?_⟩
    · have hpass := firstRefusal_serTrigger hobj hsent hlow hused
      have hexec := serTrigger_exec (s := s) hobj
      exact ⟨serRequest_gives _ hpass hp hexec, serRequest_closed _ hpass hp hexec, serRequest_full _ hpass hp hexec⟩
    · have hpass := firstRefusal_serSend hobj hsent hlow hhigh
      exact ⟨serRequest_gives _ hpass hp rfl, serRequest_closed _ hpass hp rfl⟩
  case due =>
    intro s p k t x e hnext hpoll hauto y
    exact ⟨fun hdue hon hfree => serEntryDue_joins hnext hpoll hauto hdue hon hfree,
      fun hdue hon hwaits => serEntryDue_skips hnext hpoll hauto hdue hon hwaits, serEntryDue_early hnext⟩
  case sent =>
    intro s p r x hcur hbusy hwait hturn
    have hexec := serRequestSent_exec hcur hbusy hwait hturn
    exact ⟨s.b.serRecord p 0 0 r.entry (s.b.ser p).attempt r.bytes, (quiet_record ..).reports,
      fun hentry hpoll => gives_of_eq hexec (if_pos ⟨hentry, hpoll⟩), fun hnot => gives_of_eq hexec (if_neg hnot)⟩
  case message =>
    intro s p r msg x hcur hon hawait v
    refine ⟨fun hgood => ?_, fun hbad hown => ?_⟩
    · exact ⟨_, (quiet_record ..).reports, gives_of_eq (serMessageEnd_exec hcur hon hawait (by rw [hgood]; decide)) (if_pos hgood)⟩
    · exact ⟨_, (quiet_record ..).reports, gives_of_eq (serMessageEnd_exec hcur hon hawait hown) (if_neg hbad)⟩
  case off =>
    exact fun s p msg hoff => serMessageEnd_off hoff
  case timeout =>
    intro s p r x hcur hawait
    have hexec := respTimeout_exec hcur hawait
    exact ⟨fun hover => gives_of_eq hexec (if_neg (Nat.not_lt.2 hover)), fun hearly => hexec.trans (by rw [if_pos hearly])⟩
  case turn =>
    intro s p t x hturn b
    have hexec := serTurnEnd_exec hturn
    exact ⟨fun hover hnext => gives_of_eq hexec (by rw [if_neg (Nat.not_lt.2 hover), if_neg (by rw [hnext]; decide)]),
      fun hover hagain => gives_of_eq hexec (by rw [if_neg (Nat.not_lt.2 hover), if_pos hagain]),
      fun hearly => hexec.trans (by rw [if_pos hearly])⟩

end Sys2Proof
end

section
/-! CAN controllers (17 R399–R411, R421, R422): their commands, the objects' snapshots, and frames from their start to their end. -/

namespace Sys2Proof

open Sys2Proof.Machine

/-- A check that passes leaves the refusal to the others. -/
theorem firstRefusal_passed {p : Bool} (h : p = false) (st rs code : Nat) (l : List (Option Refuse)) :
    firstRefusal (deny p st rs code :: l) = firstRefusal l := by
  rw [firstRefusal_deny, h]
  rfl

theorem firstRefusal_absent (l : List (Option Refuse)) : firstRefusal (none :: l) = firstRefusal l := rfl

/-! ### The modes of a controller (R399, R401, R411) -/

/-- A controller's SID names it. -/
theorem controller_of_obj {c : Cmd} {k : Fin 8} (hobj : cObj c = sidCan k) : isCanSid (cObj c) = true ∧ cObj c - 0x800000 = k := by
  have hk := k.isLt
  rw [hobj, isCanSid, sidCan, decide_eq_true (Nat.le_add_right _ _), decide_eq_true (Nat.add_lt_add_left hk _)]
  exact ⟨rfl, Nat.add_sub_cancel_left ..⟩

/-- What `CAN.MODE` does: the mode is entered, or waits for the controller's own frame. -/
def canModeSet (a : List Byte) (k : Nat) (b : Block) : Block :=
  if (b.committed k).isSome then b.putCan k { b.can k with want := some (u8 a 0, u8 a 1, (u8 a 2).testBit 0) }
  else b.enterMode k (u8 a 0) (u8 a 1) ((u8 a 2).testBit 0)

/-- What `CAN.DETECT` does to a controller of mode `m`: the candidates are tried from the first on. -/
def canDetectStart (c : Cmd) (m k : Nat) (b : Block) : Block :=
  let a := cArg c
  let x : CanSt := { mask := u16 a 0, dwell := u8 a 2, timeoutAt := b.now + 1000000 * u32 a 4, op := some (opOf c 0x1002),
                     back := m, backSet := b.canSet k }
  ((b.putCan k x).setCan k cnDetect).tryCandidate k (((List.range 16).find? fun i => (u16 a 0).testBit i).getD 0)

section

variable {s : State} {c : Cmd} {k : Fin 8} (hobj : cObj c = sidCan k) (hsent : Sent s.b c roleOperator devLive)
include hobj hsent

section

variable (hmode : u8 (cArg c) 0 ≤ 2) (hset : u8 (cArg c) 1 ≤ 15) (hused : s.b.setUsed k (u8 (cArg c) 1) = true)
include hmode hset hused

theorem firstRefusal_canMode :
    firstRefusal (s.b.busPre c ++ [deny (decide (2 < u8 (cArg c) 0) || decide (15 < u8 (cArg c) 1)) stBadArg,
      deny (!isCanSid (cObj c)) stBadRef, deny (!s.b.setUsed (cObj c - 0x800000) (u8 (cArg c) 1)) stBadRef,
      deny (s.b.canMode (cObj c - 0x800000) == cnDetect) stConflict 0x01 (s.b.canMode (cObj c - 0x800000)),
      deny (s.b.canMode (cObj c - 0x800000) == cnBusOff && u8 (cArg c) 0 != 0) stConflict 0x02 (s.b.canMode (cObj c - 0x800000))]) =
    if s.b.canMode k == cnDetect then some { status := stConflict, reason := 0x01, code := s.b.canMode k }
    else if s.b.canMode k == cnBusOff && u8 (cArg c) 0 != 0 then some { status := stConflict, reason := 0x02, code := s.b.canMode k }
    else none := by
  obtain ⟨hsid, hk⟩ := controller_of_obj hobj
  rw [firstRefusal_busPre hsent, hsid, hk, hused, decide_eq_false (Nat.not_lt.2 hmode), decide_eq_false (Nat.not_lt.2 hset), Bool.or_self,
    Bool.not_true, firstRefusal_passed rfl, firstRefusal_passed rfl, firstRefusal_passed rfl, firstRefusal_deny, firstRefusal_deny]
  rfl

theorem canMode_done (hdetect : s.b.canMode k ≠ cnDetect) (hoff : s.b.canMode k ≠ cnBusOff ∨ u8 (cArg c) 0 = 0) :
    Completes s (.canMode c) 0x1001 c (canModeSet (cArg c) k s.b) stDone := by
  have hk := (controller_of_obj hobj).2
  have hlegal : ¬(s.b.canMode k == cnBusOff && u8 (cArg c) 0 != 0) = true := by
    rcases hoff with h | h
    · rw [beq_false_of_ne h, Bool.false_and]; decide
    · rw [h, bne_self_eq_false, Bool.and_false]; decide
  refine completes_runDone (eff := canModeSet (cArg c) (cObj c - 0x800000)) rfl
    ((firstRefusal_canMode hobj hsent hmode hset hused).trans ?_) (by rw [hk])
  rw [if_neg (by rw [beq_false_of_ne hdetect]; decide), if_neg hlegal]

theorem canMode_detecting (hdetect : s.b.canMode k = cnDetect) : Completes s (.canMode c) 0x1001 c s.b stConflict 0x01 :=
  completes_runDone_refused (r := { status := stConflict, reason := 0x01, code := s.b.canMode k }) rfl
    ((firstRefusal_canMode hobj hsent hmode hset hused).trans (if_pos (by rw [hdetect]; rfl)))

theorem canMode_busOff (hoff : s.b.canMode k = cnBusOff) (hnot : u8 (cArg c) 0 ≠ 0) :
    Completes s (.canMode c) 0x1001 c s.b stConflict 0x02 := by
  refine completes_runDone_refused (r := { status := stConflict, reason := 0x02, code := s.b.canMode k }) rfl
    ((firstRefusal_canMode hobj hsent hmode hset hused).trans ?_)
  rw [hoff, if_neg (by decide), if_pos (by rw [bne_iff_ne.2 hnot]; rfl)]

end

section

variable (hmask : u16 (cArg c) 0 ≠ 0) (hdwell : u8 (cArg c) 2 ≠ 0) (htimeout : u32 (cArg c) 4 ≠ 0) (hlong : u32 (cArg c) 4 ≤ 600000)
  (hused : ∀ i, i < 16 → (u16 (cArg c) 0).testBit i = true → s.b.setUsed k i = true)
include hmask hdwell htimeout hlong hused

theorem firstRefusal_canDetect :
    firstRefusal (s.b.busPre c ++ [deny (u16 (cArg c) 0 == 0 || u8 (cArg c) 2 == 0 || u32 (cArg c) 4 == 0 ||
        decide (600000 < u32 (cArg c) 4)) stBadArg,
      deny (!isCanSid (cObj c) || (List.range 16).any fun i => (u16 (cArg c) 0).testBit i && !s.b.setUsed (cObj c - 0x800000) i) stBadRef,
      deny (s.b.canMode (cObj c - 0x800000) == cnDetect) stConflict 0x01 (s.b.canMode (cObj c - 0x800000)),
      deny (s.b.canMode (cObj c - 0x800000) == cnActive || s.b.canMode (cObj c - 0x800000) == cnPassive) stConflict 0x04
        (s.b.canMode (cObj c - 0x800000)),
      deny (s.b.canMode (cObj c - 0x800000) == cnBusOff) stConflict 0x02 (s.b.canMode (cObj c - 0x800000))]) =
    if s.b.canMode k == cnDetect then some { status := stConflict, reason := 0x01, code := s.b.canMode k }
    else if s.b.canMode k == cnActive || s.b.canMode k == cnPassive then
      some { status := stConflict, reason := 0x04, code := s.b.canMode k }
    else if s.b.canMode k == cnBusOff then some { status := stConflict, reason := 0x02, code := s.b.canMode k } else none := by
  obtain ⟨hsid, hk⟩ := controller_of_obj hobj
  have hsets : ((List.range 16).any fun i => (u16 (cArg c) 0).testBit i && !s.b.setUsed k i) = false := by
    rw [List.any_eq_false]
    intro i hi
    cases hbit : (u16 (cArg c) 0).testBit i with
    | false => simp
    | true => simp [hused i (List.mem_range.1 hi) hbit]
  rw [firstRefusal_busPre hsent, hsid, hk, hsets, beq_false_of_ne hmask, beq_false_of_ne hdwell, beq_false_of_ne htimeout,
    decide_eq_false (Nat.not_lt.2 hlong)]
  simp only [Bool.or_self, Bool.not_true]
  rw [firstRefusal_passed rfl, firstRefusal_passed rfl, firstRefusal_deny, firstRefusal_deny, firstRefusal_deny]
  rfl

omit hobj hsent hmask hdwell htimeout hlong hused in
theorem canDetect_exec : exec (.canDetect c) s = .next { s with
    b := s.b.run 0x1002 c (s.b.busPre c ++ [deny (u16 (cArg c) 0 == 0 || u8 (cArg c) 2 == 0 || u32 (cArg c) 4 == 0 ||
        decide (600000 < u32 (cArg c) 4)) stBadArg,
      deny (!isCanSid (cObj c) || (List.range 16).any fun i => (u16 (cArg c) 0).testBit i && !s.b.setUsed (cObj c - 0x800000) i) stBadRef,
      deny (s.b.canMode (cObj c - 0x800000) == cnDetect) stConflict 0x01 (s.b.canMode (cObj c - 0x800000)),
      deny (s.b.canMode (cObj c - 0x800000) == cnActive || s.b.canMode (cObj c - 0x800000) == cnPassive) stConflict 0x04
        (s.b.canMode (cObj c - 0x800000)),
      deny (s.b.canMode (cObj c - 0x800000) == cnBusOff) stConflict 0x02 (s.b.canMode (cObj c - 0x800000))])
      fun b => (canDetectStart c (s.b.canMode (cObj c - 0x800000)) (cObj c - 0x800000) b, stQueued, 0, []) } := rfl

theorem canDetect_queued (hmode : s.b.canMode k = cnOff ∨ s.b.canMode k = cnListen) :
    Completes s (.canDetect c) 0x1002 c (canDetectStart c (s.b.canMode k) k s.b) stQueued := by
  have hk := (controller_of_obj hobj).2
  refine completes_run canDetect_exec
    ((firstRefusal_canDetect hobj hsent hmask hdwell htimeout hlong hused).trans ?_)
    (congrArg (fun k => (canDetectStart c (s.b.canMode k) k s.b, stQueued, 0, [])) hk)
  rcases hmode with h | h
  · rw [h]; rfl
  · rw [h]; rfl

theorem canDetect_normal (hmode : s.b.canMode k = cnActive ∨ s.b.canMode k = cnPassive) :
    Completes s (.canDetect c) 0x1002 c s.b stConflict 0x04 := by
  refine completes_run_refused (r := { status := stConflict, reason := 0x04, code := s.b.canMode k }) canDetect_exec
    ((firstRefusal_canDetect hobj hsent hmask hdwell htimeout hlong hused).trans ?_)
  rcases hmode with h | h
  · rw [h]; rfl
  · rw [h]; rfl

end

theorem firstRefusal_canRecover :
    firstRefusal (s.b.busPre c ++ [deny (!isCanSid (cObj c)) stBadRef,
      deny (s.b.canMode (cObj c - 0x800000) != cnBusOff) stConflict 0x05 (s.b.canMode (cObj c - 0x800000)),
      deny (!s.b.bit (Reg.canState (cObj c - 0x800000)) 8) stConflict 0x06 (s.b.canMode (cObj c - 0x800000))]) =
    if s.b.canMode k != cnBusOff then some { status := stConflict, reason := 0x05, code := s.b.canMode k }
    else if !s.b.bit (Reg.canState k) 8 then some { status := stConflict, reason := 0x06, code := s.b.canMode k } else none := by
  obtain ⟨hsid, hk⟩ := controller_of_obj hobj
  rw [firstRefusal_busPre hsent, hsid, hk, Bool.not_true, firstRefusal_passed rfl, firstRefusal_deny, firstRefusal_deny]
  rfl

theorem canRecover_done (hmode : s.b.canMode k = cnBusOff) (hhold : s.b.bit (Reg.canState k) 8 = true) :
    Completes s (.canRecover c) 0x1003 c (s.b.setFld (Reg.canState k) 3 1 1) stDone := by
  have hk := (controller_of_obj hobj).2
  refine completes_runDone (eff := fun b => b.setFld (Reg.canState (cObj c - 0x800000)) 3 1 1) rfl
    ((firstRefusal_canRecover hobj hsent).trans ?_) (by rw [hk])
  rw [hmode, hhold]
  rfl

theorem canRecover_refused (hmode : s.b.canMode k ≠ cnBusOff) : Completes s (.canRecover c) 0x1003 c s.b stConflict 0x05 :=
  completes_runDone_refused (r := { status := stConflict, reason := 0x05, code := s.b.canMode k }) rfl
    ((firstRefusal_canRecover hobj hsent).trans (if_pos (bne_iff_ne.2 hmode)))

theorem canRecover_unheld (hmode : s.b.canMode k = cnBusOff) (hhold : s.b.bit (Reg.canState k) 8 = false) :
    Completes s (.canRecover c) 0x1003 c s.b stConflict 0x06 := by
  refine completes_runDone_refused (r := { status := stConflict, reason := 0x06, code := s.b.canMode k }) rfl
    ((firstRefusal_canRecover hobj hsent).trans ?_)
  rw [hhold, hmode]
  rfl

end

/-! ### Transmit objects (R407, R408, R410) -/

/-- A transmit object's SID names it. -/
theorem txo_of_obj {c : Cmd} {i : Fin 4096} (hobj : cObj c = sidTxo i) : isTxoSid (cObj c) = true ∧ cObj c - 0x830000 = i := by
  have hi := i.isLt
  rw [hobj, isTxoSid, sidTxo, decide_eq_true (Nat.le_add_right _ _), decide_eq_true (Nat.add_lt_add_left hi _)]
  exact ⟨rfl, Nat.add_sub_cancel_left ..⟩

/-- The block after `CAN.TX` has written the data it brings. -/
def txWritten (a : List Byte) (i : Nat) (b : Block) : Block := if (u8 a 0).testBit 1 then b.txData i (u32 a 4) (slice a 8 (u16 a 2)) else b

/-- What `CAN.TX` does with its object, and how it completes. -/
def canTxDone (a : List Byte) (i : Nat) (b : Block) : Block × Nat × Nat × List Byte :=
  let b := txWritten a i b
  if (u8 a 0).testBit 0 && b.txoNoNode i then (b, stAbandoned, 0x0C, [])
  else (if (u8 a 0).testBit 0 then b.txTrigger i else b, stDone, 0, [])

section

variable {s : State} {c : Cmd} {i : Fin 4096} (hobj : cObj c = sidTxo i) (hsent : Sent s.b c roleOperator devLive)
  (hused : s.b.txoUsed i = true)
include hobj hsent hused

section

variable (hlen : u16 (cArg c) 2 ≤ 40) (hfits : u32 (cArg c) 4 + u16 (cArg c) 2 ≤ s.b.txoLen i)
include hlen hfits

theorem firstRefusal_canTx :
    firstRefusal [authCheck c roleOperator, devCheck s.b devLive,
      deny ((u8 (cArg c) 0).testBit 0 && s.b.dev == dsAwaitWorld) stConflict 0x03 s.b.dev, envCheck c,
      deny (decide (40 < u16 (cArg c) 2) || (isTxoSid (cObj c) && s.b.txoUsed (cObj c - 0x830000) &&
        decide (s.b.txoLen (cObj c - 0x830000) < u32 (cArg c) 4 + u16 (cArg c) 2))) stBadArg,
      deny (!isTxoSid (cObj c) || !s.b.txoUsed (cObj c - 0x830000)) stBadRef,
      deny ((u8 (cArg c) 0).testBit 0 && (s.b.canMode ((cObj c - 0x830000) / 512) == cnOff ||
        s.b.canMode ((cObj c - 0x830000) / 512) == cnDetect || s.b.canMode ((cObj c - 0x830000) / 512) == cnListen)) stConflict 0x07
        (s.b.canMode ((cObj c - 0x830000) / 512))] =
    if (u8 (cArg c) 0).testBit 0 && s.b.dev == dsAwaitWorld then some { status := stConflict, reason := 0x03, code := s.b.dev }
    else if (u8 (cArg c) 0).testBit 0 && (s.b.canMode (i.val / 512) == cnOff || s.b.canMode (i.val / 512) == cnDetect ||
      s.b.canMode (i.val / 512) == cnListen) then
      some { status := stConflict, reason := 0x07, code := s.b.canMode (i.val / 512) }
    else none := by
  obtain ⟨hauth, hdev, henv⟩ := hsent
  obtain ⟨hsid, hi⟩ := txo_of_obj hobj
  rw [hauth, hdev, hsid, hi, hused, decide_eq_false (Nat.not_lt.2 hlen), decide_eq_false (Nat.not_lt.2 hfits)]
  refine (firstRefusal_deny _ _ _ _ _).trans (if_congr Iff.rfl rfl ?_)
  rw [Bool.and_false, Bool.or_self, Bool.not_true, Bool.or_self, henv, firstRefusal_absent, firstRefusal_passed rfl,
    firstRefusal_passed rfl]
  exact firstRefusal_deny _ _ _ _ _

omit hobj hsent hused hlen hfits in
theorem canTx_exec : exec (.canTx c) s = .next { s with
    b := s.b.run 0x1004 c [authCheck c roleOperator, devCheck s.b devLive,
      deny ((u8 (cArg c) 0).testBit 0 && s.b.dev == dsAwaitWorld) stConflict 0x03 s.b.dev, envCheck c,
      deny (decide (40 < u16 (cArg c) 2) || (isTxoSid (cObj c) && s.b.txoUsed (cObj c - 0x830000) &&
        decide (s.b.txoLen (cObj c - 0x830000) < u32 (cArg c) 4 + u16 (cArg c) 2))) stBadArg,
      deny (!isTxoSid (cObj c) || !s.b.txoUsed (cObj c - 0x830000)) stBadRef,
      deny ((u8 (cArg c) 0).testBit 0 && (s.b.canMode ((cObj c - 0x830000) / 512) == cnOff ||
        s.b.canMode ((cObj c - 0x830000) / 512) == cnDetect || s.b.canMode ((cObj c - 0x830000) / 512) == cnListen)) stConflict 0x07
        (s.b.canMode ((cObj c - 0x830000) / 512))] (canTxDone (cArg c) (cObj c - 0x830000)) } := rfl

theorem canTx_data (hdata : (u8 (cArg c) 0).testBit 0 = false) :
    Completes s (.canTx c) 0x1004 c (txWritten (cArg c) i s.b) stDone := by
  have hi := (txo_of_obj hobj).2
  refine completes_run canTx_exec ((firstRefusal_canTx hobj hsent hused hlen hfits).trans (by rw [hdata]; rfl)) ?_
  rw [hi, canTxDone, hdata]
  rfl

section

variable (htx : (u8 (cArg c) 0).testBit 0 = true)
include htx

theorem canTx_awaitWorld (hdev : s.b.dev = dsAwaitWorld) : Completes s (.canTx c) 0x1004 c s.b stConflict 0x03 :=
  completes_run_refused (r := { status := stConflict, reason := 0x03, code := s.b.dev }) canTx_exec
    ((firstRefusal_canTx hobj hsent hused hlen hfits).trans (if_pos (by rw [htx, hdev]; rfl)))

variable (hdev : s.b.dev ≠ dsAwaitWorld)
include hdev

theorem canTx_listening (hmode : s.b.canMode (i.val / 512) = cnListen) : Completes s (.canTx c) 0x1004 c s.b stConflict 0x07 := by
  refine completes_run_refused (r := { status := stConflict, reason := 0x07, code := s.b.canMode (i.val / 512) }) canTx_exec
    ((firstRefusal_canTx hobj hsent hused hlen hfits).trans ?_)
  rw [beq_false_of_ne hdev, Bool.and_false, htx, hmode]
  rfl

variable (hmode : s.b.canMode (i.val / 512) = cnActive ∨ s.b.canMode (i.val / 512) = cnPassive ∨ s.b.canMode (i.val / 512) = cnBusOff)
include hmode

omit hobj hsent hused hlen hfits in
theorem firstRefusal_canTx_normal :
    (if (u8 (cArg c) 0).testBit 0 && s.b.dev == dsAwaitWorld then some ({ status := stConflict, reason := 0x03, code := s.b.dev } : Refuse)
    else if (u8 (cArg c) 0).testBit 0 && (s.b.canMode (i.val / 512) == cnOff || s.b.canMode (i.val / 512) == cnDetect ||
      s.b.canMode (i.val / 512) == cnListen) then
      some { status := stConflict, reason := 0x07, code := s.b.canMode (i.val / 512) }
    else none) = none := by
  rw [beq_false_of_ne hdev, htx]
  rcases hmode with h | h | h
  · rw [h]; rfl
  · rw [h]; rfl
  · rw [h]; rfl

theorem canTx_triggers (hnode : (txWritten (cArg c) i s.b).txoNoNode i = false) :
    Completes s (.canTx c) 0x1004 c ((txWritten (cArg c) i s.b).txTrigger i) stDone := by
  have hi := (txo_of_obj hobj).2
  refine completes_run canTx_exec ((firstRefusal_canTx hobj hsent hused hlen hfits).trans
    (firstRefusal_canTx_normal htx hdev hmode)) ?_
  rw [hi, canTxDone, htx, hnode]
  rfl

theorem canTx_abandoned (hnode : (txWritten (cArg c) i s.b).txoNoNode i = true) :
    Completes s (.canTx c) 0x1004 c (txWritten (cArg c) i s.b) stAbandoned 0x0C := by
  have hi := (txo_of_obj hobj).2
  refine completes_run canTx_exec ((firstRefusal_canTx hobj hsent hused hlen hfits).trans
    (firstRefusal_canTx_normal htx hdev hmode)) ?_
  rw [hi, canTxDone, htx, hnode]
  rfl

end

end

theorem canCancel_done : Completes s (.canCancel c) 0x1005 c (s.b.txCancel i) stDone := by
  obtain ⟨hsid, hi⟩ := txo_of_obj hobj
  refine completes_runDone (eff := fun b => b.txCancel (cObj c - 0x830000)) rfl ((firstRefusal_busPre hsent _).trans ?_) (by rw [hi])
  rw [hsid, hi, hused]
  rfl

end

/-! ### Snapshots and received frames (R403–R405) -/

/-- A read that reaches a receive object's snapshot consumes the object. -/
theorem canRxoSnapRead_consumes {s : State} {ini : Ini} {k : Fin 4096} {r : RegRow}
    (h : ReadReaches s.b ini (Reg.canRxoSnap k) r false) (hnarrow : r.wide = false) (hacc : r.acc = .rc) :
    Gives s (.canRxoSnapRead ini k) (s.b.snapRead (ini == .host) k) := by
  have hk := k.isLt
  have hwindow : 0x1010000 ≤ Reg.canRxoSnap k ∧ Reg.canRxoSnap k < 0x1030000 := by simp only [Reg.canRxoSnap]; omega
  have hindex : (Reg.canRxoSnap k - 0x1010000) / 32 = k := by
    rw [Reg.canRxoSnap, Nat.add_sub_cancel_left, Nat.mul_div_cancel_left _ (by decide)]
  obtain ⟨hread, hsilent⟩ := readBy_of_readReaches h
  obtain ⟨hrow, hwin, hreset, -⟩ := h
  have hexec : exec (.canRxoSnapRead ini k) s = execCanRxoSnapRead ini k s := rfl
  rw [Gives, hexec, execCanRxoSnapRead, nextB_eq, hread, Block.regRead, hsilent, hwin, hrow]
  simp only [hreset, hnarrow, hacc, if_pos hwindow, hindex, Bool.false_eq_true, if_false, if_true]

section

variable {s : State} {k : Fin 8} {f : CanFrame}

theorem canFrameReceived_listening (hmode : s.b.canMode k = cnListen ∨ s.b.canMode k = cnActive ∨ s.b.canMode k = cnPassive) :
    Gives s (.canFrameReceived k f)
      ((s.b.setCounters k (s.b.tec k) (if 128 ≤ s.b.rec' k then 127 else s.b.rec' k - 1)).receive k f) := by
  refine gives_of_eq rfl ((if_neg ?_).trans (if_pos hmode))
  rcases hmode with h | h | h
  · rw [h]; decide
  · rw [h]; decide
  · rw [h]; decide

theorem canFrameReceived_detecting (hmode : s.b.canMode k = cnDetect) : Gives s (.canFrameReceived k f) (s.b.detectFrame k f) :=
  gives_of_eq rfl (if_pos hmode)

theorem canFrameReceived_deaf (hmode : s.b.canMode k = cnOff ∨ s.b.canMode k = cnBusOff) :
    exec (.canFrameReceived k f) s = .next s := by
  have hexec : exec (.canFrameReceived k f) s = execCanFrameReceived k f s := rfl
  rw [hexec, execCanFrameReceived, nextB_eq]
  rcases hmode with h | h
  · simp only [h]; rfl
  · simp only [h]; rfl

end

/-! ### A frame of the controller's own (R407, R409, R410) -/

section

variable {s : State} {k : Fin 8} (hsends : s.b.canSends k = true) (hfree : s.b.committed k = none)
include hsends hfree

theorem startOfFrame_commits {i : Nat} (hbest : s.b.txBest k = some i) : Gives s (.startOfFrame k)
    ((s.b.putTxo i { s.b.txo i with frame := some (padTo (s.b.txoLen i) (s.b.txo i).data), cancelled := false }).setTxo i txCommitted) := by
  have hexec : exec (.startOfFrame k) s = execStartOfFrame k s := rfl
  rw [Gives, hexec, execStartOfFrame, nextB_eq]
  dsimp only
  rw [hsends, hfree, if_neg (by decide), hbest]

theorem startOfFrame_rests (hnone : s.b.txBest k = none) : exec (.startOfFrame k) s = .next s := by
  have hexec : exec (.startOfFrame k) s = execStartOfFrame k s := rfl
  rw [hexec, execStartOfFrame, nextB_eq]
  dsimp only
  rw [hsends, hfree, if_neg (by decide), hnone]

end

/-- What the sending of frames reads of a block: the data of the transmit objects and their registers. -/
def txView (b : Block) : Tab TxoSt × (Nat → Word) := (b.txos, fun off => if 0x01030000 ≤ off ∧ off < 0x01040000 then b.rd off else 0)

theorem txView_txo {b t : Block} (h : txView t = txView b) (i : Nat) : t.txo i = b.txo i :=
  congrArg (fun v : Tab TxoSt × (Nat → Word) => tget ({} : TxoSt) v.1 i) h

theorem txView_rd {b t : Block} (h : txView t = txView b) {off : Nat} (hin : 0x01030000 ≤ off ∧ off < 0x01040000) :
    t.rd off = b.rd off := by
  have hregs := congrArg (fun v => v.2 off) h
  simpa only [txView, if_pos hin] using hregs

section

variable (b : Block)

theorem txView_wr {off : Nat} (v : Word) (hout : off < 0x01030000) : txView (b.wr off v) = txView b := by
  refine Prod.ext (wr_txos b off v) (funext fun k => ?_)
  exact if_ctx_congr Iff.rfl (fun hk => rd_wr_ne b v (by omega)) fun _ => rfl

theorem txView_setFld {off : Nat} (lo n x : Nat) (hout : off < 0x01030000) : txView (b.setFld off lo n x) = txView b := txView_wr b _ hout

theorem txView_count48 {off : Nat} (n : Nat) (hout : off + 4 < 0x01030000) : txView (b.count48 off n) = txView b :=
  (txView_wr _ _ hout).trans (txView_wr b _ (by omega))

theorem txView_quiet {t : Block} (h : Quiet b t) : txView t = txView b := by
  have hrd (off : Nat) (hin : 0x01030000 ≤ off ∧ off < 0x01040000) : t.rd off = b.rd off :=
    h.rd (by have hblk : off / 0x100000 = 0x10 := by omega
             rw [isOut, hblk]; decide) (by omega)
  obtain ⟨o, rs, rfl, -, -⟩ := h
  exact Prod.ext rfl (funext fun k => if_ctx_congr Iff.rfl (hrd k) fun _ => rfl)

theorem txView_raise {off : Nat} (bit sid : Nat) (d : List Byte) (hout : off + 4 < 0x01030000) :
    txView (b.raise off bit sid d) = txView b :=
  (txView_quiet _ (raise_quiet b off bit sid d)).trans ((txView_wr _ _ hout).trans (txView_wr b _ (by omega)))

theorem quiet_busFrame (c idWord format flags obj b11 w12 : Nat) (data : List Byte) :
    Quiet b (b.busFrame c idWord format flags obj b11 w12 data) := by
  unfold Block.busFrame
  dsimp only
  split
  · exact quiet_record ..
  · exact (quiet_record ..).trans (quiet_record ..)

theorem txView_setCan (k : Fin 8) (st : Nat) : txView (b.setCan k st) = txView b := by
  have hk := k.isLt
  have hentered : txView (((b.setFld (Reg.canState k) 0 3 st).busFrame k 0 6 0 0 st
      ((b.setFld (Reg.canState k) 0 3 st).tec k + 256 * (b.setFld (Reg.canState k) 0 3 st).rec' k) [])) = txView b :=
    (txView_quiet _ (quiet_busFrame ..)).trans (txView_setFld b 0 3 st (by simp only [Reg.canState]; omega))
  unfold Block.setCan
  dsimp only
  split
  · rfl
  · split
    · exact (txView_raise _ 0 _ _ (by simp only [Reg.canFlags]; omega)).trans hentered
    · exact hentered

theorem txView_setCounters (k : Fin 8) (t r : Nat) : txView (b.setCounters k t r) = txView b := by
  have hk := k.isLt
  have hcounted : txView ((b.setFld (Reg.canState k) 16 8 (satNat 255 t)).setFld (Reg.canState k) 24 8 (satNat 255 r)) = txView b :=
    (txView_setFld _ 24 8 _ (by simp only [Reg.canState]; omega)).trans (txView_setFld b 16 8 _ (by simp only [Reg.canState]; omega))
  unfold Block.setCounters
  dsimp only
  split
  · exact (txView_setCan _ k _).trans hcounted
  · exact hcounted

end

theorem committed_within {b : Block} {k : Fin 8} {i : Nat} (h : b.committed k = some i) : i < 4096 := by
  have hk := k.isLt
  obtain ⟨o, ho, rfl⟩ := Option.map_eq_some_iff.1 h
  have hmem := List.mem_range.1 (List.mem_of_find?_eq_some ho)
  omega

/-- The object of a frame that has been sent: SENT, or PENDING again. -/
def txoEnded (b : Block) (i : Nat) : Block :=
  (((b.putTxo i { b.txo i with frame := none, cancelled := false }).setTxo i
    (if b.bit (Block.txoReg i) 15 then txPending else txSent)).setFld (Block.txoReg i) 15 1 0).setFld (Block.txoReg i) 13 1
    (b2n (b.txo i).cancelled)

/-- The object's end is counted. -/
def txoCounted (b : Block) (k i : Nat) : Block := (txoEnded b i).count (Reg.canTxoSent k (i % 512))

/-- What follows of the controller, for a frame of object `i` of the block `b0`: its counters and its record. -/
def frameReported (b0 b : Block) (k i : Nat) : Block :=
  let d := b0.txoIdDesc i
  let e := b0.fix tTxo i
  let late := (b0.txo i).cancelled
  let xl := (u8 e 0).testBit 4
  let b := (b.count48 (Reg.canTxFrames k)).blkCount 0x2A
  let b := if late then b.raise (Reg.canFlags k) 5 (sidCan k) else b
  (b.setCounters k (b.tec k - 1) (b.rec' k)).busFrame k (u32 d 4 % 2 ^ 29 + 2 ^ 29 * b2n ((u8 d 0).testBit 1) + 2 ^ 30) (txFormat e)
    (16 * b2n late) (sidTxo i) (if xl then u8 e 20 else 0) (if xl then u32 e 16 else 0) ((b0.txo i).frame.getD [])

theorem txView_frameReported (b0 b : Block) (k : Fin 8) (i : Nat) : txView (frameReported b0 b k i) = txView b := by
  have hk := k.isLt
  have hframes : txView ((b.count48 (Reg.canTxFrames k)).blkCount 0x2A) = txView b :=
    (txView_quiet _ (quiet_blkCount ..)).trans (txView_count48 b 1 (by simp only [Reg.canTxFrames]; omega))
  unfold frameReported
  extract_lets d e late xl b1 b2
  have hflagged : txView b2 = txView b := by
    simp only [b2]
    split
    · exact (txView_raise _ 5 _ _ (by simp only [Reg.canFlags]; omega)).trans hframes
    · exact hframes
  exact (txView_quiet _ (quiet_busFrame ..)).trans ((txView_setCounters _ k _ _).trans hflagged)

theorem canFrameSent_gives {s : State} {k : Fin 8} {i : Nat} (h : s.b.committed k = some i) :
    Gives s (.canFrameSent k) ((frameReported s.b (txoCounted s.b k i) k i).canIdle k) := by
  have hexec : exec (.canFrameSent k) s = execCanFrameSent k s := rfl
  rw [Gives, hexec, execCanFrameSent, nextB_eq]
  dsimp only
  rw [h]
  rfl

section

variable (b : Block) (i : Nat)

theorem rd_txoCounted (k : Nat) : (txoCounted b k i).rd (Block.txoReg i) = (txoEnded b i).rd (Block.txoReg i) :=
  rd_wr_ne _ _ (by simp only [Block.txoReg, Reg.canTxoState, Reg.canTxoSent]; omega)

theorem txoEnded_state : (txoEnded b i).txoState i = if b.bit (Block.txoReg i) 15 then txPending else txSent := by
  rw [Block.txoState, txoEnded, fld_setFld_apart _ _ _ (by decide) (by decide), fld_setFld_apart _ _ _ (by decide) (by decide)]
  exact fld_setFld_same _ _ (by decide) (by split <;> decide)

theorem txoEnded_resend : (txoEnded b i).bit (Block.txoReg i) 15 = false := by
  rw [txoEnded, bit_setFld_other _ _ _ (by decide) (by decide), bit_setFld_one _ _ _ (by decide)]
  rfl

theorem txoEnded_late : (txoEnded b i).bit (Block.txoReg i) 13 = (b.txo i).cancelled := by
  rw [txoEnded, bit_setFld_one _ _ _ (by decide)]
  cases (b.txo i).cancelled <;> rfl

theorem txoCounted_frame (k : Nat) : ((txoCounted b k i).txo i).frame = none := by
  have htxos : (txoCounted b k i).txos = tput b.txos i { b.txo i with frame := none, cancelled := false } :=
    (wr_txos _ _ _).trans ((wr_txos _ _ _).trans ((wr_txos _ _ _).trans (wr_txos _ _ _)))
  rw [Block.txo, htxos, tget, tget?_tput_same]
  rfl

theorem txoCounted_sent (k : Nat) : (txoCounted b k i).rdN (Reg.canTxoSent k (i % 512)) =
    (b.rdN (Reg.canTxoSent k (i % 512)) + 1) % 2 ^ 32 := by
  have hne : Reg.canTxoSent k (i % 512) ≠ Block.txoReg i := by simp only [Block.txoReg, Reg.canTxoState, Reg.canTxoSent]; omega
  have hbefore : (txoEnded b i).rd (Reg.canTxoSent k (i % 512)) = b.rd (Reg.canTxoSent k (i % 512)) :=
    (rd_wr_ne _ _ hne).trans ((rd_wr_ne _ _ hne).trans (rd_wr_ne _ _ hne))
  rw [txoCounted, Block.count, rdN_wrN_same, Block.rdN, hbefore]
  rfl

end

theorem canFrameSent_ends {s : State} {k : Fin 8} {i : Nat} (h : s.b.committed k = some i) : ∃ x : Block,
    Gives s (.canFrameSent k) (x.canIdle k) ∧ x.txoState i = (if s.b.bit (Block.txoReg i) 15 then txPending else txSent) ∧
    (x.txo i).frame = none ∧ x.bit (Block.txoReg i) 15 = false ∧ x.bit (Block.txoReg i) 13 = (s.b.txo i).cancelled ∧
    x.rdN (Reg.canTxoSent k (i % 512)) = (s.b.rdN (Reg.canTxoSent k (i % 512)) + 1) % 2 ^ 32 := by
  have hk := k.isLt
  have hi := committed_within h
  have hview := txView_frameReported s.b (txoCounted s.b k i) k i
  have hstate := (txView_rd hview (off := Block.txoReg i) (by simp only [Block.txoReg, Reg.canTxoState]; omega)).trans
    (rd_txoCounted s.b i k)
  have hcount := txView_rd hview (off := Reg.canTxoSent k (i % 512)) (by simp only [Reg.canTxoSent]; omega)
  exact ⟨_, canFrameSent_gives h, (fld_congr 0 3 hstate).trans (txoEnded_state s.b i),
    (congrArg TxoSt.frame (txView_txo hview i)).trans (txoCounted_frame s.b i k), (bit_congr 15 hstate).trans (txoEnded_resend s.b i),
    (bit_congr 13 hstate).trans (txoEnded_late s.b i), (congrArg BitVec.toNat hcount).trans (txoCounted_sent s.b i k)⟩

/-! ### Errors and bus-off (R411) -/

section

variable {s : State} {k : Fin 8} (arbitration : Bool) (e : Fin 6)
  (hmode : s.b.canMode k = cnListen ∨ s.b.canMode k = cnActive ∨ s.b.canMode k = cnPassive)
include hmode

/-- A controller in a mode with error counters takes an error as such. -/
theorem counts_of_mode : ¬s.b.canMode k = cnDetect ∧
    ¬(!(s.b.canMode k == cnListen || s.b.canMode k == cnActive || s.b.canMode k == cnPassive)) = true := by
  rcases hmode with h | h | h
  · rw [h]; decide
  · rw [h]; decide
  · rw [h]; decide

theorem canError_idle (hfree : s.b.committed k = none) : Gives s (.canError k arbitration e)
    ((if arbitration then s.b else s.b.busError k e.val none).canIdle k) := by
  have hexec : exec (.canError k arbitration e) s = execCanError k arbitration e s := rfl
  obtain ⟨hdetect, hlive⟩ := counts_of_mode hmode
  rw [Gives, hexec, execCanError, nextB_eq]
  dsimp only
  rw [if_neg hdetect, if_neg hlive, hfree]

theorem canError_sending {i : Nat} (hown : s.b.committed k = some i) : Gives s (.canError k arbitration e)
    ((if arbitration then s.b.txFail k i else (s.b.txFail k i).busError k e.val (some i)).canIdle k) := by
  have hexec : exec (.canError k arbitration e) s = execCanError k arbitration e s := rfl
  obtain ⟨hdetect, hlive⟩ := counts_of_mode hmode
  rw [Gives, hexec, execCanError, nextB_eq]
  dsimp only
  rw [if_neg hdetect, if_neg hlive, hown]

end

/-- A controller whose recovery has ended, before it becomes active. -/
def recovered (b : Block) (k : Nat) : Block := (b.setFld (Reg.canState k) 3 1 0).setFld (Reg.canState k) 16 16 0

theorem busOffRecoveryEnd_active {s : State} {k : Fin 8} (hmode : s.b.canMode k = cnBusOff) (hrec : s.b.bit (Reg.canState k) 3 = true) :
    ∃ x, Gives s (.busOffRecoveryEnd k) x ∧ x.canMode k = cnActive ∧ x.tec k = 0 ∧ x.rec' k = 0 := by
  have hk := k.isLt
  have hoff : (recovered s.b k).canMode k = cnBusOff := by
    rw [← hmode, Block.canMode, recovered, fld_setFld_apart _ _ _ (by decide) (by decide), fld_setFld_apart _ _ _ (by decide) (by decide)]
    rfl
  have hset : (recovered s.b k).setCan k cnActive = ((recovered s.b k).setFld (Reg.canState k) 0 3 cnActive).busFrame k 0 6 0 0 cnActive
      (((recovered s.b k).setFld (Reg.canState k) 0 3 cnActive).tec k +
        256 * ((recovered s.b k).setFld (Reg.canState k) 0 3 cnActive).rec' k) [] := by
    rw [Block.setCan, if_neg (by rw [hoff]; decide)]
    exact if_neg (by decide)
  have hrd : ((recovered s.b k).setCan k cnActive).rd (Reg.canState k) =
      ((recovered s.b k).setFld (Reg.canState k) 0 3 cnActive).rd (Reg.canState k) := by
    rw [hset]
    exact (quiet_busFrame ..).rd (by have hblk : Reg.canState k / 0x100000 = 0x10 := by simp only [Reg.canState]; omega
                                     rw [isOut, hblk]; decide) (by simp only [Reg.canState]; omega)
  refine ⟨(recovered s.b k).setCan k cnActive, gives_of_eq rfl (if_neg (by rw [hmode, hrec]; decide)), ?mode, ?tec, ?rec⟩
  case mode => exact (fld_congr 0 3 hrd).trans (fld_setFld_same _ _ (by decide) (by decide))
  case tec =>
    exact (fld_congr 16 8 hrd).trans ((fld_setFld_apart _ _ _ (by decide) (by decide)).trans
      (fld_setFld_within _ _ 0 (lo := 16) (n := 16) (i := 0) (by decide) (by decide)))
  case rec =>
    exact (fld_congr 24 8 hrd).trans ((fld_setFld_apart _ _ _ (by decide) (by decide)).trans
      (fld_setFld_within _ _ 0 (lo := 16) (n := 16) (i := 8) (by decide) (by decide)))

/-! ### Cyclic periods and rate detection (R401, R407) -/

theorem cyclicPeriod_exec {s : State} {k : Fin 8} {o : Fin 512} {t : Nat} (hdue : (s.b.txo (512 * k.val + o.val)).due = some t) :
    let i := 512 * k.val + o.val
    let b := s.b.putTxo i { s.b.txo i with due := some (t + 1000 * u32 (s.b.fix tTxo i) 8) }
    exec (.cyclicPeriod k o) s = .next { s with
      b := if s.b.now < t then s.b else if b.txoNoNode i then b else b.txTrigger i true } := by
  have hexec : exec (.cyclicPeriod k o) s = execCyclicPeriod k o s := rfl
  rw [hexec, execCyclicPeriod, nextB_eq]
  dsimp only
  rw [hdue]

section

variable {s : State} {k : Fin 8} (hmode : s.b.canMode k = cnDetect)
include hmode

theorem detectDwellEnd_next (hover : (s.b.can k).tryAt + 1000000 * (s.b.can k).dwell ≤ s.b.now) :
    Gives s (.detectDwellEnd k) (s.b.tryCandidate k (nextCandidate (s.b.can k).mask (s.b.can k).trying)) := by
  refine gives_of_eq rfl (if_neg ?_)
  rw [hmode, decide_eq_false (Nat.not_lt.2 hover)]
  decide

theorem detectTimeout_ends (hover : (s.b.can k).timeoutAt ≤ s.b.now) : Gives s (.detectTimeout k) (s.b.detectEnd k false) := by
  refine gives_of_eq rfl (if_neg ?_)
  rw [hmode, decide_eq_false (Nat.not_lt.2 hover)]
  decide

omit hmode in
theorem detectTimeout_early (hearly : s.b.now < (s.b.can k).timeoutAt) : exec (.detectTimeout k) s = .next s := by
  have hexec : exec (.detectTimeout k) s = execDetectTimeout k s := rfl
  rw [hexec, execDetectTimeout, nextB_eq]
  dsimp only
  rw [if_pos (by rw [decide_eq_true hearly, Bool.or_true])]

end

/-- Settles O41: the commands by what refuses them, the frames by the controller's mode and the object that is committed. -/
theorem busCommandsAndFramesProceed : Obligations.BusCommandsAndFramesProceed := by
  unfold Obligations.BusCommandsAndFramesProceed
  refine ⟨?mode, ?detect, ?recover, ?tx, ?snap, ?received, ?start, ?sent, ?errorIdle, ?errorSending, ?recovery, ?cyclic, ?dwell⟩
  case mode =>
    intro s c k hobj hsent a m hmode hset hused
    refine ⟨fun hdetect hoff hfree => ?_, fun hdetect hoff hown => ?_, canMode_detecting hobj hsent hmode hset hused,
      canMode_busOff hobj hsent hmode hset hused⟩
    · have hset' : canModeSet a k s.b = s.b.enterMode k (u8 a 0) (u8 a 1) ((u8 a 2).testBit 0) := if_neg (by rw [hfree]; decide)
      exact hset' ▸ canMode_done hobj hsent hmode hset hused hdetect hoff
    · have hset' : canModeSet a k s.b = s.b.putCan k { s.b.can k with want := some (u8 a 0, u8 a 1, (u8 a 2).testBit 0) } :=
        if_pos (Option.isSome_iff_ne_none.2 hown)
      exact hset' ▸ canMode_done hobj hsent hmode hset hused hdetect hoff
  case detect =>
    intro s c k hobj hsent a m x hmask hdwell htimeout hlong hused
    exact ⟨canDetect_queued hobj hsent hmask hdwell htimeout hlong hused, canDetect_normal hobj hsent hmask hdwell htimeout hlong hused⟩
  case recover =>
    exact fun s c k hobj hsent => ⟨canRecover_done hobj hsent, canRecover_refused hobj hsent, canRecover_unheld hobj hsent⟩
  case tx =>
    intro s c i hobj hsent hused a m b hlen hfits
    exact ⟨canTx_data hobj hsent hused hlen hfits,
      fun htx hdev hmode => ⟨canTx_triggers hobj hsent hused hlen hfits htx hdev hmode,
        canTx_abandoned hobj hsent hused hlen hfits htx hdev hmode⟩,
      canTx_awaitWorld hobj hsent hused hlen hfits, canTx_listening hobj hsent hused hlen hfits, canCancel_done hobj hsent hused⟩
  case snap =>
    exact fun s ini k r h hnarrow hacc => canRxoSnapRead_consumes h hnarrow hacc
  case received =>
    exact fun s k f => ⟨canFrameReceived_listening, canFrameReceived_detecting, canFrameReceived_deaf⟩
  case start =>
    exact fun s k hsends hfree => ⟨fun i hbest => startOfFrame_commits hsends hfree hbest, startOfFrame_rests hsends hfree⟩
  case sent =>
    exact fun s k i h => canFrameSent_ends h
  case errorIdle =>
    intro s k e m hmode hfree
    exact ⟨canError_idle true e hmode hfree, canError_idle false e hmode hfree⟩
  case errorSending =>
    exact fun s k e i hmode hown => ⟨canError_sending true e (.inr (.inl hmode)) hown, canError_sending false e (.inr (.inl hmode)) hown⟩
  case recovery =>
    exact fun s k hmode hrec => busOffRecoveryEnd_active hmode hrec
  case cyclic =>
    intro s k o t i hdue b
    have hexec := cyclicPeriod_exec hdue
    exact ⟨fun hover hnode => gives_of_eq hexec (by rw [if_neg (Nat.not_lt.2 hover), if_neg (by rw [hnode]; decide)]),
      fun hover hnode => gives_of_eq hexec (by rw [if_neg (Nat.not_lt.2 hover), if_pos hnode]),
      fun hearly => hexec.trans (by rw [if_pos hearly])⟩
  case dwell =>
    exact fun s k hmode => ⟨detectDwellEnd_next hmode, detectTimeout_ends hmode, detectTimeout_early⟩

end Sys2Proof
end
